-- ==== Sys2Proof/Word.lean ====
section
/-! DEFINITION. The word types of the hub and their plainest arithmetic.

The parameter space, Belouz registers and packets are words of 32 bits; queue words, record words and
latency-memory words are words of 64 bits (00_scope.md, 09_records_queues_ledger.md, 06_acquisition_and_triggers.md). -/

namespace Sys2Proof

/-- A parameter word, a Belouz register, an instruction word. -/
abbrev W32 := BitVec 32

/-- A queue word, a record word, a latency-memory word. -/
abbrev W64 := BitVec 64

/-- A byte of a frame or of a packet. -/
abbrev W8 := BitVec 8

/-- The 48-bit count of slots, and the 48-bit ledger counters (R3, R12, R300). -/
abbrev W48 := BitVec 48

/-- A slot tag or a trigger number (R13, R62). -/
abbrev W24 := BitVec 24

/-- A vector register: 32 lanes of 16 bits, lane c at bits 16c to 16c + 15 (R190). -/
abbrev Vec := BitVec 512

end Sys2Proof
end

