-- ==== Sys2Proof/Kinds.lean ====
section
/-! DEFINITION. The kinds of operand that the commands carry: what comes from outside the hub with a step.

A physical outcome (a conversion, a crossing, a measurement, a check of a memory word) is an operand of its command;
nothing here is chosen by the model. -/

namespace Sys2Proof

/-- What a SEC-DED check finds when a word is read (R151, R191). -/
inductive Ecc where
  | ok
  | corrected
  | uncorrectable
  deriving DecidableEq, Repr

/-- What the fetch of an instruction found: what its check found (R191), or a word whose opcode or fn value is not
assigned, in place of the instruction (R197). -/
inductive Fetch where
  | ok
  | corrected
  | uncorrectable
  | unassigned
  deriving DecidableEq, Repr

/-- The context that executes a Belouz instruction (07_belouz_instruction_set.md, "Cores, registers and memories").
An engine is named by its logical number: 0-15 serve G00-G15, 16 is the spare (R15, R232). -/
inductive Who where
  | bullFg
  | bullBg
  | oxSlot (e : Fin 17)
  | oxBg (e : Fin 17)
  deriving DecidableEq, Repr

/-- Where an instruction stands: its context, whether it is in the vector slot of a bundle, whether it is the last
instruction of its bundle (R200, R201), and what the fetch of its word found (R191, R197). Bull has one slot per word:
there `vec` is false and `ends` true. -/
structure Place where
  who : Who
  vec : Bool
  ends : Bool
  fetch : Fetch
  deriving DecidableEq, Repr

/-- One raw sample of a digitiser slot (R78-R80): the code of the path converted, whether the comparator showed the
HG output above 28.8 fC at the decision, whether it changed within the window, and whether the converted path was at
or above its full scale. -/
structure Raw where
  code : BitVec 12
  above : Bool
  changed : Bool
  full : Bool
  deriving DecidableEq, Repr

/-- The four samples that digitiser slot `p` (physical index 34 g + s) made in one slot (R124). -/
structure AdcIn where
  p : Fin 544
  s0 : Raw
  s1 : Raw
  s2 : Raw
  s3 : Raw
  deriving DecidableEq, Repr

/-- What comes to the hub with a slot boundary: the samples of the digitiser slots in the slot that ends (R124), and whether a copy of
instruction memory that ends there has failed its check (R265). -/
structure SlotIn where
  adc : List AdcIn
  copyBad : Bool
  deriving DecidableEq, Repr

/-- The rate at which the lane search found framing, and the lane that found it first (R428). -/
structure Found where
  rate : BitVec 2
  first : Fin 24
  deriving DecidableEq, Repr

/-- A source of command packets (R391). -/
inductive Source where
  | lane (l : Fin 24)
  | tether
  deriving DecidableEq, Repr

/-- A fault report (R465); its slot tag and TIME_NS are those of the step. -/
structure Report where
  code : W8
  unit : BitVec 16
  master : BitVec 6
  access : BitVec 3
  addr : W24
  deriving DecidableEq, Repr

/-- The reports of one CK640 cycle of a slot, in any order (R466). -/
structure CycleReports where
  cycle : Fin 16
  reports : List Report
  deriving DecidableEq, Repr

/-- An eye scan (R459): for each of the 64 phase steps, the disagreements with the data sampler at offsets 0, +5, +10 … mV and at -5, -10
… mV. -/
structure EyeScan where
  phases : List (List Nat × List Nat)
  deriving DecidableEq, Repr

/-- What a calibration procedure measured on one unit (15_calibration.md). Times are in 2^-10 ns. -/
inductive CalResult where
  /-- OFFSET (1h): path offsets in s16.4 codes, and a(p), A(p). -/
  | offset (p : Fin 544) (ofsHg ofsLg a bigA : BitVec 16) (ok : Bool)
  /-- TDC (2h): counts n_f of the 128 bins, mean time minus launch time of the reference pulses at LINEOFS 0,
  the line trim, and the verified INL and DNL. `line` is the physical line, 0 or 1. -/
  | tdc (p : Fin 544) (line : Bool) (counts : List Nat) (meanErr : Int) (trim : BitVec 6) (inl dnl : W8)
  /-- PHASE (3h): lateness at TAP 0, lateness at the TAP set, and the phase residual in 2^-14 ns. -/
  | phase (p : Fin 544) (late0 late1 : Int) (resid : Int)
  /-- INJ (4h): mean areas for the own injector and the group reference, and Q_ref in 1/256 fC. -/
  | inj (c : Fin 512) (own ref : Nat) (qref : BitVec 16)
  /-- GAIN (5h): mean peak minus pedestal, in 2^-8 counts. -/
  | gain (c : Fin 512) (peak : Nat)
  /-- RATIO (6h): areas less pedestal on HG and LG, and the verified ratio residual in 10^-5. -/
  | ratio (c : Fin 512) (hg lg : Nat) (resid : Int)
  /-- THRESH (7h): the sweeps of a channel are over; the engine holds its counts. -/
  | thresh (c : Fin 512)
  /-- TIMEOFS (8h): for each of the 64 values of DELAY, the sum over its 64 pulses of t_c at TDC_OFS 0, and of the centroid of the
  stage A pulse, both counted from the slot boundary of the pulse. -/
  | timeofs (c : Fin 512) (times centroids : List Int)
  /-- WALK (9h): for each channel measured and each of the 16 charges, the sums over 256 pulses of AMP and of the crossing time behind
  the injection instant. -/
  | walk (g : Fin 16) (chans : List (List (Nat × Int)))
  /-- LANE_RX (Ah): the eye scans at CTLE 0 to 15. -/
  | laneRx (l : Fin 24) (scans : List EyeScan)
  /-- EYE (Bh): the eye scan. -/
  | eye (l : Fin 24) (scan : EyeScan)
  deriving DecidableEq, Repr

/-- What ended a stage of a rolling round trip (R461, R462). -/
inductive RollResult where
  /-- A self phase ended: a, A, then for lines 0 and 1 the counts n_f of the 128 bins and the mean time error of the
  reference pulses, and the lateness at TAP 0 and at the TAP set, of the slot under test, and whether every limit was met. -/
  | selfPhase (a bigA : BitVec 16) (counts0 counts1 : List Nat) (mean0 mean1 late0 late1 : Int) (ok : Bool)
  /-- An orbit of a shadow phase ended: hits compared in it and the sum of their TOA differences, serving minus shadow, in 2^-10 ns;
  samples with flag code 00b compared in it and the sum of their stage A differences in counts. -/
  | shadow (hits : Nat) (toa : Int) (samples : Nat) (amp : Int)
  deriving DecidableEq, Repr

/-- One measurement of a wear metric (R492). -/
inductive WearInput where
  /-- Ring periods of oscillator i per 2^16 CK640 cycles. -/
  | dose (i : Fin 8) (periods : BitVec 24)
  /-- Current of leakage monitor j, 1 nA. -/
  | leak (j : Fin 4) (curr : BitVec 16)
  | feleak
  /-- A corrected error in a row of a memory, coded as UNIT[9:0] of kind 02h. -/
  | row (mem : BitVec 10) (row : BitVec 11)
  /-- A TDC calibration of a line: its trim, and whether its residual INL is above 1.2 ps. -/
  | tdc (p : Fin 544) (line : Bool) (trim : BitVec 6) (inlHigh : Bool)
  /-- a(p) at a rolling self phase. -/
  | dslot (p : Fin 544) (a : BitVec 16)
  /-- Eye height of a lane in mV. -/
  | eye (l : Fin 24) (height : Nat)
  /-- A corrected error in a memory of an Ox engine. -/
  | oxmem (e : Fin 17)
  deriving DecidableEq, Repr

/-- What the monitor saw in one entry (R531-R545): the input voltages of conversions A and B and the reference, in nV; how far the
differential voltage moved in the burn-out pulse, in µV; the lowest and highest excitation current from the pre-phase on, in µA;
the lowest and highest voltage of a compensation current, in mV; and the longest run of modulator cycles in which an input came
within 50 mV of a rail or the modulator was overloaded. -/
structure MonMeasure where
  vinA : Int
  vinB : Int
  vref : Int
  moved : Nat
  excLow : Nat
  excHigh : Nat
  compLow : Int
  compHigh : Int
  railRun : Nat
  deriving DecidableEq, Repr

/-- An input pin of the bias interlock: ILK0_A, ILK0_B, ILK1_A, ILK1_B as contacts 0-3, a strap, a feedback. -/
inductive IlkPin where
  | contact (i : Fin 4)
  | strap (i : Fin 6)
  | feedback (n : Fin 2)
  deriving DecidableEq, Repr

end Sys2Proof
end

