-- ==== Sys2Proof/Syntax.lean ====
section
/-! DEFINITION. The commands of the hub: one constructor per row of spec/opcode_table.json, in its order.

An event carries what the surroundings decide (Kinds.lean). A Belouz instruction carries its place and the fields
of its word that its row leaves free (07_belouz_instruction_set.md, "Encoding"). -/

namespace Sys2Proof

/-- The commands. -/
inductive Instr where
  /-- POWER_ON (R589). All supplies rise above their power-good thresholds after a hold: every field, including the retention
  domain, takes its Load value and the start steps begin. -/
  | powerOn (straps : BitVec 6)
  /-- RST_N_ASSERT (R423). RST_N has been low for 2 ms without a break, so the hub is held in reset with every non-retention
  field at its Load value. -/
  | rstNAssert
  /-- RST_N_RELEASE (R424). RST_N is released while asserted, so the reset ends and the start steps begin. -/
  | rstNRelease
  /-- RST_N_MASK (R425). RST_N has been asserted for 1 s: the reset ends, the pin is masked, MASKED is set and CAUSE becomes
  011b. -/
  | rstNMask
  /-- RST_N_REARM (R425). A masked RST_N has been high for 100 ms without a break, so the pin is re-armed and MASKED clears.
  -/
  | rstNRearm
  /-- WRESET_WRITE (R421). A write to WRESET either arms the key sequence 0000_5A5Ah then 0000_A5A5h or cancels it. -/
  | wresetWrite (v : W32)
  /-- WARM_RESET (R421). At the end of a packet that completed the WRESET key, after its reply has left, every non-retention
  field takes its Load value and the start steps run. -/
  | warmReset
  /-- S00_POWER_GOOD (R426). Start step S00 passes once every supply's power-good has held for 1 ms. -/
  | s00PowerGood (dur : Nat)
  /-- S01_CRYSTAL_CHECK (R426). Start step S01 checks XO_A, or XO_B when XO_A fails or its mark is set, over 0.5 ms and
  records the outcome. -/
  | s01CrystalCheck (okA okB : Bool) (dur : Nat)
  /-- S02_PLL_LOCK (R426). Start step S02 locks the root PLL on band A, or band B when A fails or its mark is set, and records
  the outcome. -/
  | s02PllLock (okA okB : Bool) (dur : Nat)
  /-- START_RERUN (R427). One second after S01 or S02 fails, the start runs again from S01 within the same start. -/
  | startRerun
  /-- S03_LANE_SEARCH (R428). Start step S03 ends once at least one AUTO lane has framing and every other lane has framed,
  shown LOS throughout or failed; it records the rate, the outcome and the failed lanes. -/
  | s03LaneSearch (framed failed : BitVec 24) (found : Found) (dur : Nat)
  /-- S04_GRID_PLACE (R426). Start step S04 passes once the hub has switched to the recovered clock, trained and placed its
  grid. -/
  | s04GridPlace (dur : Nat)
  /-- S05_ADDRESS (R30). Start step S05 passes at the end of the packet that writes HUB_ADDR, and VALID becomes 1. -/
  | s05Address (dur : Nat)
  /-- S06_MEMORY_TEST (R430). Start step S06 self-tests the memories and maps failing rows to spare rows; an unrepairable
  latency bank or record memory is fatal. -/
  | s06MemoryTest (rows : List (BitVec 10 × BitVec 11)) (dur : Nat)
  /-- S07_TDC_CHECK (R426). Start step S07 checks both delay lines of every TDC by code density and records the outcome. -/
  | s07TdcCheck (bad : List (Fin 544 × Bool)) (dur : Nat)
  /-- S08_DIGITISER_TEST (R426). Start step S08 self-tests every amplitude digitiser with a ramp and swaps failing digitiser
  slots to spares. -/
  | s08DigitiserTest (bad : List (Fin 544)) (dur : Nat)
  /-- S09_STRAP_CHECK (R434). Start step S09 reads SAFE_STRAP twice 1 ms apart; at its end DONE is set and JOURNAL is set when
  any step did not pass. -/
  | s09StrapCheck (read1 read2 : BitVec 6) (dur : Nat)
  /-- LANE_SEARCH_REPEAT (R26). In UNLOADED or SETUP, after 1,024 slots with no PARENT framing, the hub lifts lane fences,
  resets lane roles in force and repeats S03 and S04. -/
  | laneSearchRepeat
  /-- SLOT_BOUNDARY (R42). At each slot boundary SLOT_COUNT and POS advance, and the slot-timed actions run in the order of
  R60. -/
  | slotBoundary (x : SlotIn)
  /-- THETA_AVERAGE (R46). A 256-slot average of RTT, D and theta completes for a PARENT lane: the lane, its parent port, and how
  many echoes are in the average. -/
  | thetaAverage (l : Fin 24) (port : Fin 2) (echoes : Nat)
  /-- CRYSTAL_FAIL (R40). The crystal in use departs by more than 100 ppm or stops, so the hub switches crystal, fences the
  failed one and reports XO_SWITCH, or TIME_LOST when no crystal remains. -/
  | crystalFail
  /-- BAND_FAIL (R41). The VCO band in use loses lock or trips its amplitude detector, so the hub switches band and counts it,
  or reports BAND_LOST when the other band is fenced. -/
  | bandFail (err : W32)
  /-- BAND_SWITCH_HEALTH (R606). Twenty slots after a band switch the Rooster pushes the HKIND 03h HEALTH item into Q30. -/
  | bandSwitchHealth
  /-- HOLDOVER_ENTRY (R51). After 2 slots without framing on the port in force, the loop is frozen, HOLDOVER and TIME are set
  and the counters run on. -/
  | holdoverEntry
  /-- HOLDOVER_END (R52). After framing returns and the first 256-slot theta average is ready, the hub records HOLDDUR and
  HOLDERR, emits HEALTH, clears HOLDOVER and slews: the timing lane, and the port in force. -/
  | holdoverEnd (l : Fin 24) (port : Fin 2)
  /-- CLOCK_SOURCE_WRITE (R607). A write that changes RT_CLK.SRC to or from CRYSTAL ends holdover or clears GRID and AMBIG as
  stated. -/
  | clockSourceWrite (src : BitVec 2)
  /-- REGRID (R49). Writing 1 to RT_CLK.REGRID clears GRID and AMBIG so that the grid is placed again with a step. -/
  | regrid
  /-- FCCFG_WRITE (R65). A write to FC_LAT or UP_AGE cancels every decoded scheduled command not yet acted and counts it in
  RT_FCLATE. -/
  | fccfgWrite (v : W32)
  /-- VOTE_FIX (R68). One copy of a voted register disagrees, so the majority rewrites it, RT_VOTEFIX counts it and a
  corrected fault is reported. -/
  | voteFix (addr : W24)
  /-- VOTE_FAIL (R69). All three copies of a voted register disagree, so a fatal fault is reported and HOLD follows. -/
  | voteFail (addr : W24)
  /-- DOWNLINK_FRAME_RECEIVE (R361). A downlink frame arrives on a lane and is descrambled and decoded; its ACK, NAK, grant,
  echo, claim and packet bytes are used as the role of the lane allows. -/
  | downlinkFrameReceive (l : Fin 24) (bytes : List W8) (arrival : Nat)
  /-- FC_NOP (R55). Fast command NOP is decoded and does nothing. -/
  | fcNop (q : W48)
  /-- FC_L1A (R62). An L1A is decoded at its decode slot with its origin slot, and its trigger number is joined to it and
  passed to acquisition. -/
  | fcL1a (q : W48) (num : W24) (ok : Bool)
  /-- FC_SYNC (R58). SYNC is decoded and scheduled to act at slot o + FC_LAT. -/
  | fcSync (q : W48)
  /-- FC_ORBIT (R58). ORBIT is decoded and scheduled. -/
  | fcOrbit (q : W48)
  /-- FC_HOLD (R417). HOLD is decoded and immediately requests entry to HOLD. -/
  | fcHold (q : W48)
  /-- FC_CAL_PULSE (R58). CAL_PULSE is decoded and scheduled. -/
  | fcCalPulse (q : W48)
  /-- FC_SNAP (R58). SNAP is decoded and scheduled. -/
  | fcSnap (q : W48)
  /-- FC_COMMIT (R58). COMMIT is decoded and scheduled. -/
  | fcCommit (q : W48)
  /-- FC_TWIN_TAKE (R518). TWIN_TAKE is decoded and permits a healthy standby to take over, or is counted in TW_TAKEIGN. -/
  | fcTwinTake (q : W48)
  /-- SYNC_ACTION (R44). A SYNC acts: filter histories are cleared, indices and pointers restart, POS is set to 0, and an
  armed load of SLOT_COUNT and TIME_NS is made. -/
  | syncAction
  /-- ORBIT_CHECK (R61). An ORBIT acts: POS is forced to 0 in the setup modes, or in the running modes a mismatch is counted
  and reported. -/
  | orbitCheck
  /-- CAL_PULSE_FIRE (R84). A CAL_PULSE acts: enabled channels receive their test charge, unless one fired less than 80 slots
  before. -/
  | calPulseFire
  /-- SNAPSHOT (R441). A SNAP acts: every SN field copies its source at that boundary. -/
  | snapshot
  /-- COMMIT_APPLY (R436). A COMMIT acts: every pending shadow becomes active together at that boundary. -/
  | commitApply
  /-- COUNTER_CLEAR (R8). A write of 1 to a bit of a CNTCLR register clears the named counters at the next slot boundary. -/
  | counterClear (addr : W24) (bits : W32)
  /-- FE_SETTLED (R71). 20 µs after power-up a front end is settled, and its discriminator and counter run. -/
  | feSettled (c : Fin 512)
  /-- DISCRIMINATOR_CROSSING (R75). A rising crossing is counted in FE_DISCCNT and, with DISC_EN at 1, is passed to the
  serving TDC, which latches coarse count and fine bin. -/
  | discriminatorCrossing (c : Fin 512) (coarse : Fin 64) (fine stby : Fin 128) (charge : Int)
  /-- FALLING_CROSSING (R107). The falling crossing of a passed pulse is latched and completes the hit with its TOT. -/
  | fallingCrossing (c : Fin 512) (coarse : Fin 64) (fine stby : Fin 128)
  /-- TOT_TIMEOUT (R108). No falling crossing arrives within 31.99 ns, so TOT is FFFh and the hit completes. -/
  | totTimeout (c : Fin 512)
  /-- HIT_PRESENT (R113). At slot s + 6 the primary hits and pile-up mask of slot s are presented to the group, and the hit
  ledger counters move. -/
  | hitPresent (g : Fin 16)
  /-- TRIGGER_ACCEPT (R154). At the accept slot an L1A is accepted, given its event slot and profile, tested for hold-off and,
  when read, starts its record. -/
  | triggerAccept
  /-- RECORD_READ_START (R164). A buffered record starts to be read once its window is stored in every selected channel. -/
  | recordReadStart
  /-- LATENCY_BANK_READ (R165). A bank reads the unread word holding the oldest needed sample and places its samples or gap
  entries in the record. -/
  | latencyBankRead (g : Fin 16) (ecc : Ecc)
  /-- RECORD_PART_HANDOVER (R183). A completed part of a TRIGGER or LONG record is handed to the Mule, and for the LAST part
  triggers answered moves. -/
  | recordPartHandover
  /-- MASK_REARM (R178). Writing 1 to ACQ_MASKCTL.REARM clears STOPPED. -/
  | maskRearm
  /-- OX_OVERRUN (R251). A slot program that has not ended by cycle 12 is aborted, counted in OX_OVRCNT, and its slot falls
  back. -/
  | oxOverrun (e : Fin 17)
  /-- OX_SLOT_STOP (R257). After slot-program exceptions in 256 consecutive slots the slot context stops and the group falls
  back. -/
  | oxSlotStop (e : Fin 17)
  /-- OX_BG_RESTART (R258). At the orbit boundary after a background exception the background context restarts at bundle 001h
  and BG_HALT clears. -/
  | oxBgRestart (e : Fin 17)
  /-- SWAP_EXCHANGE (R263). A pending SWAP acts: the active and standby banks exchange, and both contexts restart from the new
  bank. -/
  | swapExchange (e : Fin 17)
  /-- HIT_BLOCK_CLOSE (R291). Once slot b + S + 6 has opened and every word of the span has been taken, the HIT BLOCK is
  closed and handed over. -/
  | hitBlockClose
  /-- MULE_ITEM_RECORD (R295). The Mule pops a complete item from an assignable queue or Q30 and makes it a record with header
  and trailer. -/
  | muleItemRecord (q : Fin 32)
  /-- MULE_HANDOVER (R284). The Mule hands a completed record whole to the compression engine, with the next sequence number,
  and RECORDS moves. -/
  | muleHandover (ecc : Ecc)
  /-- MULE_DRAIN (R298). On leaving the running modes the Mule drains for up to 64 slots, closes HIT BLOCKs, flushes and makes
  the closing LEDGER record. -/
  | muleDrain
  /-- LEDGER_BOUNDARY (R302). At a ledger boundary every counter and gauge is copied into a LEDGER record that is handed over
  first. -/
  | ledgerBoundary
  /-- COMPRESS_RECORD (R305). A record from the Mule is coded in its matching context, verified and handed on, or passed on
  unchanged. -/
  | compressRecord (upset upset2 : Option Nat)
  /-- CMP_STALL_RESUME (R313). A stalled engine gets another block and continues coding at the next code word. -/
  | cmpStallResume (upset upset2 : Option Nat)
  /-- CONTEXT_RESET (R307). Writing 1 to a bit of CMP_CTXRST marks that context for reset before its next block. -/
  | contextReset (v : W32)
  /-- HEN_SEND_RECORD (R327). The Hen takes the oldest head record once every active input holds one or its age reaches
  HORIZON, and assigns it to a lane within the balance. -/
  | henSendRecord
  /-- UPLINK_FRAME_SEND (R370). A lane sends its uplink frame of the frame period: a new DATA cell, a replayed frame, an audit
  frame, IDLE or TRAIN. -/
  | uplinkFrameSend (l : Fin 24)
  /-- DOWNLINK_FRAME_SEND (R337). Each CHILD lane sends its downlink frame with FC, ACK, NAK, grant, echo, claim and packet
  bytes. -/
  | downlinkFrameSend (l : Fin 24)
  /-- UPLINK_FRAME_RECEIVE (R372). An uplink frame arrives on a CHILD or TWIN lane and is accepted, discarded or answered with
  NAK according to its SEQ. -/
  | uplinkFrameReceive (l : Fin 24) (bytes : List W8) (arrival : Nat)
  /-- AUDIT_FRAME_RECEIVE (R345). An audit frame from a child is compared with the port's counts and resynchronises them. -/
  | auditFrameReceive (k : Fin 4) (words : List W64)
  /-- AUDNOW (R343). Writing 1 to HEN_UP.AUDNOW requests an audit frame in the next frame. -/
  | audnow
  /-- LANE_LOS (R357). A receiver input stays below 60 mV for 64 UI and LOS is reported. -/
  | laneLos (l : Fin 24)
  /-- LANE_LOS_CLEAR (R357). Input above 100 mV for 40 slots clears LOS. -/
  | laneLosClear (l : Fin 24)
  /-- LANE_LOL (R357). Clock recovery is off by more than 300 ppm or slips a bit, and LOL is reported. -/
  | laneLol (l : Fin 24)
  /-- LANE_LOL_CLEAR (R357). Lock held for 40 slots clears LOL. -/
  | laneLolClear (l : Fin 24)
  /-- LOSS_OF_ALIGNMENT (R357). Frames failing to decode over 4 consecutive slots, at least 2 of them, report loss of
  alignment. -/
  | lossOfAlignment (l : Fin 24)
  /-- ALIGNMENT_FOUND (R358). Eight consecutive frames decode at one offset, and it becomes the frame start. -/
  | alignmentFound (l : Fin 24)
  /-- TRAINING_END (R360). After 2,048 TRAIN frames a PARENT or spare lane ends training and sends data. -/
  | trainingEnd (l : Fin 24)
  /-- ACK_TIMEOUT (R375). A PARENT lane whose ACK has not advanced for 512 slots with unacknowledged frames is fenced. -/
  | ackTimeout (l : Fin 24)
  /-- LANE_FENCE (R380). At the boundary after LOS, LOL, loss of alignment, an ACK timeout or a Goose fence the lane goes idle
  and OFF, LINK is set and its records are returned or discarded. -/
  | laneFence (l : Fin 24)
  /-- LANE_ROLE_WRITE (R23). A write to LANE_ROLE is held until the end of its packet. -/
  | laneRoleWrite (l : Fin 24) (v : W32)
  /-- LANE_ROLE_APPLY (R24). After the reply has left, the packet's LANE_ROLE writes are checked as a set and applied, or
  rejected with RDISC. -/
  | laneRoleApply
  /-- PRBS_GENERATOR (R384). Setting LN_PRBS.GEN_EN on an OFF or SPARE lane replaces frames with the pattern; otherwise
  WRONG_MODE. -/
  | prbsGenerator (l : Fin 24) (v : W32)
  /-- PRBS_CHECKER (R385). Setting LN_PRBS.CHK_EN starts the checker and clears LN_BERR and LN_BITS; otherwise WRONG_MODE. -/
  | prbsChecker (l : Fin 24) (v : W32)
  /-- PRBS_LOCK (R385). 64 consecutive matching bits lock the checker, and more than 16 mismatches in 64 lose lock. -/
  | prbsLock (l : Fin 24) (bits : List Bool)
  /-- ERROR_INJECTION (R386). Writing 1 to LN_INJ.GO injects the selected bit or byte errors into the transmitted stream. -/
  | errorInjection (l : Fin 24)
  /-- PACKET_ROUTE (R31). A packet arriving on a PARENT lane of the port in force is executed, forwarded on a child port, or
  dropped as unroutable. -/
  | packetRoute (l : Fin 24) (bytes : List W8)
  /-- PACKET_ACCEPT (R394). A complete packet for execution is checked for CRC, duplicate SEQ and room, and is then NAKed,
  answered from the stored reply, or queued. -/
  | packetAccept (src : Source) (bytes : List W8)
  /-- PACKET_EXECUTE_START (R396). A queued packet starts at the first slot boundary after its arrival at which the Bull
  foreground is free, freezing its consistent view. -/
  | packetExecuteStart
  /-- PACKET_END (R193). Execution of a packet ends, the reply is built with STATUS and any tail word, stored, and handed to
  the reply unit. -/
  | packetEnd
  /-- PACKET_TIMEOUT (R397). A packet that has run CP_CFG.LIMIT slots stops at the next instruction boundary with TIMEOUT. -/
  | packetTimeout
  /-- ATOMIC_APPLY (R398). At the first slot boundary after an ATOMIC packet, its held writes are checked and applied
  together, or discarded with ADISC. -/
  | atomicApply
  /-- BG_TASK_START (R222). A queued background task starts with g1, g2 and g31 set when the foreground is idle. -/
  | bgTaskStart
  /-- BG_TASK_END (R226). A background task reaches 4400h or raises an exception, and its slot becomes DONE. -/
  | bgTaskEnd
  /-- MODE_CHANGE (R415). A requested or automatic mode change takes effect at a slot boundary after the actions of R60. -/
  | modeChange
  /-- HOLD_ENTRY (R417). At the next slot boundary after a fatal fault, interlock demand, HOLD command or MODE HOLD, the hub
  enters HOLD and records LEFT and HCAUSE. -/
  | holdEntry
  /-- HOLD_EXIT (R419). After the quiet period, with no standing cause and the recovery counter below its limit, the hub
  returns to the mode it left. -/
  | holdExit
  /-- FAULT_REPORT (R467). A detector's fault report is classified by code and handled as corrected, contained or fatal. -/
  | faultReport (r : CycleReports)
  /-- UNIT_FENCE (R473). A unit whose reaction is Fence is fenced at the next slot boundary, and its work is covered. -/
  | unitFence (u : BitVec 16)
  /-- LOCKSTEP_RECOVERY (R475). After a lockstep mismatch and self-check, a core is fenced and BC2 resumes from the last
  agreed boundary. -/
  | lockstepRecovery (badA badB : Bool)
  /-- FECLR (R477). Writing 1 to GS_CTL.FECLR clears the first-error capture. -/
  | feclr
  /-- RINGCLR (R478). Writing 1 to GS_CTL.RINGCLR clears the ring and GS_RING. -/
  | ringclr
  /-- GS_UNFENCE (R476). A write of a UNIT to GS_UNFENCE in SETUP lifts that unit's fence or retirement. -/
  | gsUnfence (u : BitVec 16)
  /-- CAL_OFFSET (R448). CAL_CMD PROC 1h starts OFFSET on the named groups, or sets REJ. -/
  | calOffset (gmask : BitVec 16) (apply : Bool)
  /-- CAL_TDC (R448). CAL_CMD PROC 2h starts the TDC procedure. -/
  | calTdc (gmask : BitVec 16) (apply : Bool)
  /-- CAL_PHASE (R448). CAL_CMD PROC 3h starts PHASE. -/
  | calPhase (gmask : BitVec 16) (apply : Bool)
  /-- CAL_INJ (R448). CAL_CMD PROC 4h starts INJ. -/
  | calInj (gmask : BitVec 16) (apply : Bool)
  /-- CAL_GAIN (R448). CAL_CMD PROC 5h starts GAIN. -/
  | calGain (gmask : BitVec 16) (apply : Bool)
  /-- CAL_RATIO (R448). CAL_CMD PROC 6h starts RATIO. -/
  | calRatio (gmask : BitVec 16) (apply : Bool)
  /-- CAL_THRESH (R454). CAL_CMD PROC 7h starts THRESH. -/
  | calThresh (gmask : BitVec 16) (apply : Bool)
  /-- CAL_TIMEOFS (R456). CAL_CMD PROC 8h starts TIMEOFS. -/
  | calTimeofs (gmask : BitVec 16) (apply : Bool)
  /-- CAL_WALK (R457). CAL_CMD PROC 9h starts WALK. -/
  | calWalk (gmask : BitVec 16) (apply : Bool)
  /-- CAL_LANE_RX (R458). CAL_CMD PROC Ah starts the CTLE search on the named lane. -/
  | calLaneRx (l : Fin 24) (apply : Bool)
  /-- CAL_EYE (R459). CAL_CMD PROC Bh runs an eye scan on the named lane. -/
  | calEye (l : Fin 24) (apply : Bool)
  /-- CAL_ALL (R448). CAL_CMD PROC Fh runs procedures 1h–9h in order. -/
  | calAll (gmask : BitVec 16) (apply : Bool)
  /-- CAL_ABORT (R452). Writing 1 to CAL_CMD.ABORT stops the running procedure without writing results. -/
  | calAbort
  /-- CAL_APPLY (R452). A procedure ends, publishes its figures and, with APPLY, writes its results at one slot boundary. -/
  | calApply (results : List CalResult)
  /-- XO_MEASURE (R446). A crystal measurement over 2^26 CK640 cycles ends, and CAL_XO.PPM is published. -/
  | xoMeasure (ppm : BitVec 16)
  /-- PATH_DELAY_MEASURE (R460). The on-die lane path delays are measured at least once per second. -/
  | pathDelayMeasure (l : Fin 24) (tx rx : BitVec 16) (deskew : W8)
  /-- ROLLING_RECAL (R461). A rolling round trip stage of a channel through a spare digitiser slot completes at its orbit
  boundary. -/
  | rollingRecal (g : Fin 16) (r : RollResult)
  /-- WEAR_EVALUATE (R492). A wear metric is evaluated, and at its threshold it sets RS_WEAR and may retire a unit. -/
  | wearEvaluate (m : WearInput)
  /-- SPARE_BRING_IN (R495). At an orbit boundary after preparation, spares take over rows, TDC lines, digitiser slots, the Ox
  engine or lanes in the order of R496. -/
  | spareBringIn (copyBad : Bool)
  /-- RS_VETO_WRITE (R490). A write to RS_VETO that clears a bit starts the replacements it held back. -/
  | rsVetoWrite (v : W32)
  /-- TWIN_DELIVERY (R507). At slot a + ALIGN each unit delivers the frames named in the DMASK of slot a and applies the unit-
  local events. -/
  | twinDelivery
  /-- TWIN_SYNC_RECEIVE (R515). A TWIN SYNC record from the partner is received and its state, claim and events noted. -/
  | twinSyncReceive (words : List W64)
  /-- PARTNER_LOST (R517). No twin frame decodes for 8 slots, or the twin lane is fenced, and a joining unit becomes
  INCOMPLETE. -/
  | partnerLost
  /-- TAKEOVER (R519). A healthy standby takes over with epoch plus 1, enters SOLO and drives its claim. -/
  | takeover
  /-- JOIN_START (R523). At an orbit boundary a unit enters JOINING and the partner starts the state copy. -/
  | joinStart
  /-- COPY_RECORD_RECEIVE (R523). A COPY record places state words in the joining unit. -/
  | copyRecordReceive (words : List W64)
  /-- STEP_BOUNDARY (R524). At STEPAT both units enter step, as STANDBY and ACTIVE. -/
  | stepBoundary
  /-- TWIN_HEALTH (R527). Every 256th orbit, or after HREQ, each unit pushes its twin health item. -/
  | twinHealth (bist scrub : W8) (drift : BitVec 18)
  /-- REJOIN (R516). Writing 1 to TW_CTL.REJOIN requests a join. -/
  | rejoin
  /-- HREQ (R527). Writing 1 to TW_CTL.HREQ requests health items at the next orbit boundary. -/
  | hreq
  /-- MONITOR_ENTRY_END (R538). An entry's conversions end, and its result, flags, band state and counters are updated in one
  cycle. -/
  | monitorEntryEnd (m : MonMeasure)
  /-- MONITOR_PASS_END (R546). A pass ends, and every PERIOD-th pass pushes a pass item. -/
  | monitorPassEnd
  /-- MONITOR_RUN (R539). A write of MON_CTL.RUN stops the monitor at once or starts a pass at entry 0. -/
  | monitorRun (run : Bool)
  /-- MONITOR_RESTART (R539). Writing 1 to MON_CTL.RESTART abandons the entry and restarts at entry 0 with results cleared. -/
  | monitorRestart
  /-- ILK_INPUT_CHANGE (R549). An interlock input pin holds a new level for 100 ticks and the interlock takes it. -/
  | ilkInputChange (pin : IlkPin) (level : Bool)
  /-- DISCREPANCY_FAULT (R554). Contacts disagree beyond T_disc, and the channel's discrepancy fault latches. -/
  | discrepancyFault (n : Fin 2)
  /-- FEEDBACK_LOCKOUT (R563). Feedback differs from its output for the feedback time, so the output locks out. -/
  | feedbackLockout (n : Fin 2)
  /-- TEST_PULSE (R565). A granted output is pulsed low for 500 µs each second and locks out when the readback fails. -/
  | testPulse (n : Fin 2) (ok : Bool)
  /-- RC_CHECK (R550). The interlock tick is measured against CK640 once per second, and an RC fault is raised outside 9–11
  µs. -/
  | rcCheck (tick : BitVec 16)
  /-- ILK_INTERNAL_FAULT (R566). A voted interlock disagreement is corrected, or a three-way one latches an internal fault. -/
  | ilkInternalFault (threeWay : Bool)
  /-- ILK_REQ_WRITE (R559). The two-word key sequence to ILK_REQ grants the named outputs when R560 holds, or is refused and
  counted. -/
  | ilkReqWrite (v : W32)
  /-- ILK_OFF (R562). Writing 1 to bit n of ILK_OFF drives output n low at the next tick and withdraws its grant. -/
  | ilkOff (v : W32)
  /-- ILK_CLR (R564). Writing 1 to bit n of ILK_CLR clears LOCKn when its output and feedback have been low long enough. -/
  | ilkClr (v : W32)
  /-- TETHER_FRAME (R576). A Tether frame ends on the rise of TETHER_SEL_N, and is accepted with its packet and reply bytes or
  rejected. -/
  | tetherFrame (edges : Nat) (words : List W32) (notReady : Bool)
  /-- TT_LEN_WRITE (R573). A write to TT_LEN takes effect at the first frame after its packet ends. -/
  | ttLenWrite (v : W32)
  /-- PORT_GO (R580). Writing 1 to Pn_CTL.GO starts a peripheral transfer, or sets GOERR while BUSY. -/
  | portGo (n : Fin 2)
  /-- PORT_ABORT (R582). Writing 1 to Pn_CTL.ABORT ends the transfer after the bit in progress. -/
  | portAbort (n : Fin 2) (rx : List Bool)
  /-- PORT_TRANSFER_END (R580). A peripheral transfer has shifted its bits, so BUSY clears and DONE is set. -/
  | portTransferEnd (n : Fin 2) (rx : List Bool)
  /-- PORT_RDY_TIMEOUT (R581). Pn_RDY stays low longer than TMO, and the transfer ends with TIMEOUT. -/
  | portRdyTimeout (n : Fin 2) (rx : List Bool)
  /-- GPIO_SET (R584). Writing 1 to a bit of GPIO_SET sets that bit of GPIO_OUT. -/
  | gpioSet (v : W32)
  /-- GPIO_CLR (R584). Writing 1 to a bit of GPIO_CLR clears that bit of GPIO_OUT. -/
  | gpioClr (v : W32)
  /-- TAP_RESET (R595). TRST_N low or power-on resets the TAP to IDCODE. -/
  | tapReset
  /-- EXTEST (R596). EXTEST drives and captures the balls while the hub is held in reset. -/
  | extest (balls shifted : BitVec 136)
  /-- IDCODE (R595). IDCODE selects the 32-bit IDCODE register. -/
  | idcode
  /-- SAMPLE_PRELOAD (R595). SAMPLE/PRELOAD captures the balls without taking them. -/
  | samplePreload (balls shifted : BitVec 136)
  /-- CLAMP (R596). CLAMP holds the outputs from the boundary register and selects BYPASS. -/
  | clamp
  /-- HIGHZ (R596). HIGHZ sets every output to high impedance except the interlock outputs. -/
  | highz
  /-- EXTEST_PULSE (R596). EXTEST_PULSE runs the IEEE 1149.6 pulse test of the lanes. -/
  | extestPulse (balls shifted : BitVec 136)
  /-- EXTEST_TRAIN (R596). EXTEST_TRAIN runs the IEEE 1149.6 pulse-train test of the lanes. -/
  | extestTrain (balls shifted : BitVec 136)
  /-- BYPASS (R595). BYPASS selects the one-bit bypass. -/
  | bypass
  /-- REGISTER_WRITE (R10). A write to a register without a row of its own acts under its access code and the SETUP-only and
  shadow rules. -/
  | registerWrite (addr : W24) (v : W32)
  /-- NOP (R199). Does nothing. -/
  | nop (p : Place)
  /-- ADD (R199). g[rd] gets g[rs1] + g[rs2] modulo 2^32. -/
  | add (p : Place) (rd rs1 rs2 : BitVec 5)
  /-- SUB (R199). g[rd] gets g[rs1] − g[rs2] modulo 2^32. -/
  | sub (p : Place) (rd rs1 rs2 : BitVec 5)
  /-- AND (R199). g[rd] gets the bitwise AND. -/
  | and (p : Place) (rd rs1 rs2 : BitVec 5)
  /-- OR (R199). g[rd] gets the bitwise OR. -/
  | or (p : Place) (rd rs1 rs2 : BitVec 5)
  /-- XOR (R199). g[rd] gets the bitwise XOR. -/
  | xor (p : Place) (rd rs1 rs2 : BitVec 5)
  /-- ANDN (R199). g[rd] gets g[rs1] AND NOT g[rs2]. -/
  | andn (p : Place) (rd rs1 rs2 : BitVec 5)
  /-- SLL (R199). g[rd] gets g[rs1] shifted left. -/
  | sll (p : Place) (rd rs1 rs2 : BitVec 5)
  /-- SRL (R199). g[rd] gets g[rs1] shifted right, zero-filled. -/
  | srl (p : Place) (rd rs1 rs2 : BitVec 5)
  /-- SRA (R199). g[rd] gets g[rs1] shifted right, sign-filled. -/
  | sra (p : Place) (rd rs1 rs2 : BitVec 5)
  /-- ROR (R199). g[rd] gets g[rs1] rotated right. -/
  | ror (p : Place) (rd rs1 rs2 : BitVec 5)
  /-- SLT (R199). g[rd] gets 1 when g[rs1] is less than g[rs2], signed. -/
  | slt (p : Place) (rd rs1 rs2 : BitVec 5)
  /-- SLTU (R199). g[rd] gets 1 when g[rs1] is less than g[rs2], unsigned. -/
  | sltu (p : Place) (rd rs1 rs2 : BitVec 5)
  /-- MIN (R199). g[rd] gets the signed minimum. -/
  | min (p : Place) (rd rs1 rs2 : BitVec 5)
  /-- MAX (R199). g[rd] gets the signed maximum. -/
  | max (p : Place) (rd rs1 rs2 : BitVec 5)
  /-- MINU (R199). g[rd] gets the unsigned minimum. -/
  | minu (p : Place) (rd rs1 rs2 : BitVec 5)
  /-- MAXU (R199). g[rd] gets the unsigned maximum. -/
  | maxu (p : Place) (rd rs1 rs2 : BitVec 5)
  /-- MUL (R199). g[rd] gets the low 32 bits of the product. -/
  | mul (p : Place) (rd rs1 rs2 : BitVec 5)
  /-- MULH (R199). g[rd] gets the high 32 bits of the signed product. -/
  | mulh (p : Place) (rd rs1 rs2 : BitVec 5)
  /-- MULHU (R199). g[rd] gets the high 32 bits of the unsigned product. -/
  | mulhu (p : Place) (rd rs1 rs2 : BitVec 5)
  /-- ADDS (R199). g[rd] gets the saturated signed sum, and ASAT is set on saturation. -/
  | adds (p : Place) (rd rs1 rs2 : BitVec 5)
  /-- SUBS (R199). g[rd] gets the saturated signed difference, and ASAT is set on saturation. -/
  | subs (p : Place) (rd rs1 rs2 : BitVec 5)
  /-- CLZ (R199). g[rd] gets the count of leading zeros. -/
  | clz (p : Place) (rd rs1 rs2 : BitVec 5)
  /-- POPC (R199). g[rd] gets the count of set bits. -/
  | popc (p : Place) (rd rs1 rs2 : BitVec 5)
  /-- ADDI (R198). g[rd] gets g[rs1] + sext(imm10). -/
  | addi (p : Place) (rd rs1 rs2 : BitVec 5) (imm : BitVec 10)
  /-- ANDI (R198). g[rd] gets g[rs1] AND zext(imm10). -/
  | andi (p : Place) (rd rs1 rs2 : BitVec 5) (imm : BitVec 10)
  /-- ORI (R198). g[rd] gets g[rs1] OR zext(imm10). -/
  | ori (p : Place) (rd rs1 rs2 : BitVec 5) (imm : BitVec 10)
  /-- XORI (R198). g[rd] gets g[rs1] XOR zext(imm10). -/
  | xori (p : Place) (rd rs1 rs2 : BitVec 5) (imm : BitVec 10)
  /-- SLLI (R198). g[rd] gets g[rs1] shifted left by the immediate. -/
  | slli (p : Place) (rd rs1 rs2 : BitVec 5) (imm : BitVec 10)
  /-- SRLI (R198). g[rd] gets g[rs1] shifted right by the immediate, zero-filled. -/
  | srli (p : Place) (rd rs1 rs2 : BitVec 5) (imm : BitVec 10)
  /-- SRAI (R198). g[rd] gets g[rs1] shifted right by the immediate, sign-filled. -/
  | srai (p : Place) (rd rs1 rs2 : BitVec 5) (imm : BitVec 10)
  /-- SLTI (R198). g[rd] gets 1 when g[rs1] is less than the immediate, signed. -/
  | slti (p : Place) (rd rs1 rs2 : BitVec 5) (imm : BitVec 10)
  /-- SLTIU (R198). g[rd] gets 1 when g[rs1] is less than the immediate, unsigned. -/
  | sltiu (p : Place) (rd rs1 rs2 : BitVec 5) (imm : BitVec 10)
  /-- MOVL (R198). g[rd] gets zext(imm16). -/
  | movl (p : Place) (rd : BitVec 5) (hi : BitVec 4) (imm : BitVec 16)
  /-- MOVH (R198). Bits [31:16] of g[rd] get imm16. -/
  | movh (p : Place) (rd : BitVec 5) (hi : BitVec 4) (imm : BitVec 16)
  /-- EXTU (R198). g[rd] gets a zero-extended bit field of g[rs1]. -/
  | extu (p : Place) (rd rs1 rs2 : BitVec 5) (imm : BitVec 10)
  /-- EXTS (R198). g[rd] gets a sign-extended bit field of g[rs1]. -/
  | exts (p : Place) (rd rs1 rs2 : BitVec 5) (imm : BitVec 10)
  /-- INS (R198). A field of g[rd] gets the low bits of g[rs1]. -/
  | ins (p : Place) (rd rs1 rs2 : BitVec 5) (imm : BitVec 10)
  /-- LD (R195). Loads a word from data memory. -/
  | ld (p : Place) (rd rs1 rs2 : BitVec 5) (imm : BitVec 10) (ecc : Ecc)
  /-- LDH (R195). Loads a halfword, sign-extended. -/
  | ldh (p : Place) (rd rs1 rs2 : BitVec 5) (imm : BitVec 10) (ecc : Ecc)
  /-- LDHU (R195). Loads a halfword, zero-extended. -/
  | ldhu (p : Place) (rd rs1 rs2 : BitVec 5) (imm : BitVec 10) (ecc : Ecc)
  /-- LDB (R195). Loads a byte, sign-extended. -/
  | ldb (p : Place) (rd rs1 rs2 : BitVec 5) (imm : BitVec 10) (ecc : Ecc)
  /-- LDBU (R195). Loads a byte, zero-extended. -/
  | ldbu (p : Place) (rd rs1 rs2 : BitVec 5) (imm : BitVec 10) (ecc : Ecc)
  /-- ST (R195). Stores a word to data memory. -/
  | st (p : Place) (rd rs1 rs2 : BitVec 5) (imm : BitVec 10)
  /-- STH (R191). Stores a halfword, raising UNCORR on an uncorrectable word. -/
  | sth (p : Place) (rd rs1 rs2 : BitVec 5) (imm : BitVec 10) (ecc : Ecc)
  /-- STB (R191). Stores a byte, raising UNCORR on an uncorrectable word. -/
  | stb (p : Place) (rd rs1 rs2 : BitVec 5) (imm : BitVec 10) (ecc : Ecc)
  /-- BEQ (R198). Branches when the registers are equal. -/
  | beq (p : Place) (rd rs1 rs2 : BitVec 5) (imm : BitVec 10)
  /-- BNE (R198). Branches when the registers differ. -/
  | bne (p : Place) (rd rs1 rs2 : BitVec 5) (imm : BitVec 10)
  /-- BLT (R198). Branches when less, signed. -/
  | blt (p : Place) (rd rs1 rs2 : BitVec 5) (imm : BitVec 10)
  /-- BGE (R198). Branches when greater or equal, signed. -/
  | bge (p : Place) (rd rs1 rs2 : BitVec 5) (imm : BitVec 10)
  /-- BLTU (R198). Branches when less, unsigned. -/
  | bltu (p : Place) (rd rs1 rs2 : BitVec 5) (imm : BitVec 10)
  /-- BGEU (R198). Branches when greater or equal, unsigned. -/
  | bgeu (p : Place) (rd rs1 rs2 : BitVec 5) (imm : BitVec 10)
  /-- J (R198). Jumps by sext(off20). -/
  | j (p : Place) (rd : BitVec 5) (off : BitVec 20)
  /-- JAL (R198). Jumps and links. -/
  | jal (p : Place) (rd : BitVec 5) (off : BitVec 20)
  /-- JALR (R198). Jumps to a register plus offset and links. -/
  | jalr (p : Place) (rd rs1 rs2 : BitVec 5) (imm : BitVec 10)
  /-- QPUSH (R271). Pushes a word of an open item, accepted or dropped under the queue rules. -/
  | qpush (p : Place) (rd rs1 rs2 : BitVec 5) (imm : BitVec 10)
  /-- QPUSHL (R272). Pushes the word that closes an item. -/
  | qpushl (p : Place) (rd rs1 rs2 : BitVec 5) (imm : BitVec 10)
  /-- QPOP (R270). Pops the head word into a register pair, setting QL or QE. -/
  | qpop (p : Place) (rd rs1 rs2 : BitVec 5) (imm : BitVec 10)
  /-- QFLUSH (R278). Flushes whole items from a queue, counting each. -/
  | qflush (p : Place) (rd rs1 rs2 : BitVec 5) (imm : BitVec 10)
  /-- QSTAT (R269). Returns the depth and status of a queue. -/
  | qstat (p : Place) (rd rs1 rs2 : BitVec 5) (imm : BitVec 10)
  /-- HDR (R286). Builds a record header in a register pair. -/
  | hdr (p : Place) (rd rs1 rs2 : BitVec 5) (imm : BitVec 10)
  /-- GAPW (R168). Builds a gap entry in a register pair. -/
  | gapw (p : Place) (rd rs1 rs2 : BitVec 5) (imm : BitVec 10)
  /-- STAG (R212). Reads a slot tag, POS or TIME_NS as it stands. -/
  | stag (p : Place) (rd rs1 rs2 : BitVec 5) (imm : BitVec 10)
  /-- WSLOT (R213). Waits imm10 + 1 slot boundaries, or ends the Ox slot program. -/
  | wslot (p : Place) (rd rs1 rs2 : BitVec 5) (imm : BitVec 10)
  /-- WTRIG (R214). Waits for the oldest trigger notice, or times out. -/
  | wtrig (p : Place) (rd rs1 rs2 : BitVec 5) (imm : BitVec 10)
  /-- PLD (R443). Loads a parameter word from the consistent view. -/
  | pld (p : Place) (rd rs1 rs2 : BitVec 5) (imm : BitVec 10)
  /-- PST (R8). Stores a parameter word under its access code. -/
  | pst (p : Place) (rd rs1 rs2 : BitVec 5) (imm : BitVec 10)
  /-- PBRD (R216). Reads a block of parameter words into the reply. -/
  | pbrd (p : Place) (rd rs1 rs2 : BitVec 5) (imm : BitVec 10)
  /-- PBWR (R217). Writes a block of parameter words from data memory. -/
  | pbwr (p : Place) (rd rs1 rs2 : BitVec 5) (imm : BitVec 10) (ecc : Ecc)
  /-- CALL (R227). Calls a stored procedure in the foreground. -/
  | call (p : Place) (rd rs1 rs2 : BitVec 5) (proc : W8) (hi : Bool)
  /-- CALL_BACKGROUND (R222). Queues a procedure as a background task, sets its result slot BUSY with a new tag and returns
  the tag. -/
  | callBackground (p : Place) (rd rs1 rs2 : BitVec 5) (proc : W8) (hi : Bool)
  /-- RSLT_READ (R225). Appends a result slot's descriptor and words to the reply, setting STALE when it is not DONE. -/
  | rsltRead (p : Place) (rd rs1 rs2 : BitVec 5) (imm : W8) (ecc : Ecc)
  /-- RSLT_POST (R227). Posts words from data memory to a result slot and makes it DONE. -/
  | rsltPost (p : Place) (rd rs1 rs2 : BitVec 5) (imm : W8) (ecc : Ecc)
  /-- RFREE (R227). Empties a result slot. -/
  | rfree (p : Place) (rd rs1 rs2 : BitVec 5) (imm : BitVec 10)
  /-- RPUT (R404). Appends a register to the reply. -/
  | rput (p : Place) (rd rs1 rs2 : BitVec 5) (imm : BitVec 10)
  /-- MODE (R229). Requests a mode and waits until the mode is in force. -/
  | mode (p : Place) (rd rs1 rs2 : BitVec 5) (imm : BitVec 10)
  /-- SNAP (R230). Schedules a snapshot. -/
  | snap (p : Place) (rd rs1 rs2 : BitVec 5) (imm : BitVec 10)
  /-- COMMIT (R230). Schedules a commit. -/
  | commit (p : Place) (rd rs1 rs2 : BitVec 5) (imm : BitVec 10)
  /-- ACK (R407). Clears the named sticky STATUS bits. -/
  | ack (p : Place) (rd rs1 rs2 : BitVec 5) (imm : BitVec 10)
  /-- SEAL (R233). Seals the selected bank of the named engines. -/
  | seal (p : Place) (rd rs1 rs2 : BitVec 5) (standby : Bool) (hi : BitVec 8)
  /-- UNSEAL (R233). Unseals the selected bank of the named engines, restricted outside SETUP. -/
  | unseal (p : Place) (rd rs1 rs2 : BitVec 5) (standby : Bool) (hi : BitVec 8)
  /-- SWAP (R234). Schedules the exchange of banks of the named engines. -/
  | swap (p : Place) (rd rs1 rs2 : BitVec 5) (imm : BitVec 10)
  /-- JLOG (R435). Clears the start journal steps and lane list. -/
  | jlog (p : Place) (rd rs1 rs2 : BitVec 5) (imm : BitVec 10)
  /-- MFCS (R204). Reads CS. -/
  | mfcs (p : Place) (rd rs1 rs2 : BitVec 5) (imm : BitVec 10)
  /-- MTCS (R204). Clears the named CS bits. -/
  | mtcs (p : Place) (rd rs1 rs2 : BitVec 5) (imm : BitVec 10)
  /-- VADD (R236). Lane-wise add modulo 2^16. -/
  | vadd (p : Place) (rd rs1 rs2 : BitVec 5) (pr : BitVec 3)
  /-- VADDS (R237). Lane-wise signed saturating add. -/
  | vadds (p : Place) (rd rs1 rs2 : BitVec 5) (pr : BitVec 3)
  /-- VADDU (R237). Lane-wise unsigned saturating add. -/
  | vaddu (p : Place) (rd rs1 rs2 : BitVec 5) (pr : BitVec 3)
  /-- VSUB (R236). Lane-wise subtract modulo 2^16. -/
  | vsub (p : Place) (rd rs1 rs2 : BitVec 5) (pr : BitVec 3)
  /-- VSUBS (R237). Lane-wise signed saturating subtract. -/
  | vsubs (p : Place) (rd rs1 rs2 : BitVec 5) (pr : BitVec 3)
  /-- VSUBU (R237). Lane-wise unsigned saturating subtract. -/
  | vsubu (p : Place) (rd rs1 rs2 : BitVec 5) (pr : BitVec 3)
  /-- VMUL (R236). Lane-wise low 16 bits of the product. -/
  | vmul (p : Place) (rd rs1 rs2 : BitVec 5) (pr : BitVec 3)
  /-- VMULR (R237). Lane-wise rounded and saturated fractional product. -/
  | vmulr (p : Place) (rd rs1 rs2 : BitVec 5) (pr : BitVec 3)
  /-- VMIN (R236). Lane-wise signed minimum. -/
  | vmin (p : Place) (rd rs1 rs2 : BitVec 5) (pr : BitVec 3)
  /-- VMAX (R236). Lane-wise signed maximum. -/
  | vmax (p : Place) (rd rs1 rs2 : BitVec 5) (pr : BitVec 3)
  /-- VMINU (R236). Lane-wise unsigned minimum. -/
  | vminu (p : Place) (rd rs1 rs2 : BitVec 5) (pr : BitVec 3)
  /-- VMAXU (R236). Lane-wise unsigned maximum. -/
  | vmaxu (p : Place) (rd rs1 rs2 : BitVec 5) (pr : BitVec 3)
  /-- VAND (R236). Lane-wise AND. -/
  | vand (p : Place) (rd rs1 rs2 : BitVec 5) (pr : BitVec 3)
  /-- VOR (R236). Lane-wise OR. -/
  | vor (p : Place) (rd rs1 rs2 : BitVec 5) (pr : BitVec 3)
  /-- VXOR (R236). Lane-wise XOR. -/
  | vxor (p : Place) (rd rs1 rs2 : BitVec 5) (pr : BitVec 3)
  /-- VABSD (R236). Lane-wise unsigned absolute difference. -/
  | vabsd (p : Place) (rd rs1 rs2 : BitVec 5) (pr : BitVec 3)
  /-- VSLL (R236). Lane-wise left shift. -/
  | vsll (p : Place) (rd rs1 rs2 : BitVec 5) (pr : BitVec 3)
  /-- VSRL (R236). Lane-wise logical right shift. -/
  | vsrl (p : Place) (rd rs1 rs2 : BitVec 5) (pr : BitVec 3)
  /-- VSRA (R236). Lane-wise arithmetic right shift. -/
  | vsra (p : Place) (rd rs1 rs2 : BitVec 5) (pr : BitVec 3)
  /-- VSRAR (R236). Lane-wise rounded arithmetic right shift. -/
  | vsrar (p : Place) (rd rs1 rs2 : BitVec 5) (pr : BitVec 3)
  /-- VAVG (R236). Lane-wise rounded unsigned average. -/
  | vavg (p : Place) (rd rs1 rs2 : BitVec 5) (pr : BitVec 3)
  /-- VCMP (R236). Sets a mask from a lane-wise comparison. -/
  | vcmp (p : Place) (rd rs1 rs2 : BitVec 5) (imm : BitVec 10)
  /-- MAND (R236). Mask AND. -/
  | mand (p : Place) (rd rs1 rs2 : BitVec 5) (pr : BitVec 3)
  /-- MOR (R236). Mask OR. -/
  | mor (p : Place) (rd rs1 rs2 : BitVec 5) (pr : BitVec 3)
  /-- MXOR (R236). Mask XOR. -/
  | mxor (p : Place) (rd rs1 rs2 : BitVec 5) (pr : BitVec 3)
  /-- MANDN (R236). Mask AND NOT. -/
  | mandn (p : Place) (rd rs1 rs2 : BitVec 5) (pr : BitVec 3)
  /-- MNOT (R236). Mask NOT. -/
  | mnot (p : Place) (rd rs1 rs2 : BitVec 5) (pr : BitVec 3)
  /-- MTM (R190). Moves a register to a mask. -/
  | mtm (p : Place) (rd rs1 rs2 : BitVec 5) (pr : BitVec 3)
  /-- MFM (R190). Moves a mask to a register. -/
  | mfm (p : Place) (rd rs1 rs2 : BitVec 5) (pr : BitVec 3)
  /-- MCNT (R190). Counts the set bits of a mask. -/
  | mcnt (p : Place) (rd rs1 rs2 : BitVec 5) (pr : BitVec 3)
  /-- MFIRST (R190). Gives the lowest set bit of a mask, or 32. -/
  | mfirst (p : Place) (rd rs1 rs2 : BitVec 5) (pr : BitVec 3)
  /-- VSPLAT (R190). Copies a register into every lane. -/
  | vsplat (p : Place) (rd rs1 rs2 : BitVec 5) (imm : BitVec 10)
  /-- VEXT (R190). Extracts one lane to a register. -/
  | vext (p : Place) (rd rs1 rs2 : BitVec 5) (imm : BitVec 10)
  /-- VINS (R190). Inserts a register into one lane. -/
  | vins (p : Place) (rd rs1 rs2 : BitVec 5) (imm : BitVec 10)
  /-- VLD (R195). Loads 64 bytes into a vector. -/
  | vld (p : Place) (rd rs1 rs2 : BitVec 5) (imm : BitVec 10) (ecc : Ecc)
  /-- VST (R195). Stores a vector as 64 bytes. -/
  | vst (p : Place) (rd rs1 rs2 : BitVec 5) (imm : BitVec 10)
  /-- VRED_SUM (R236). Sum of signed lanes. -/
  | vredSum (p : Place) (rd rs1 rs2 : BitVec 5) (pr : BitVec 3)
  /-- VRED_SUMU (R236). Sum of unsigned lanes. -/
  | vredSumu (p : Place) (rd rs1 rs2 : BitVec 5) (pr : BitVec 3)
  /-- VRED_MAXU (R236). Largest unsigned lane. -/
  | vredMaxu (p : Place) (rd rs1 rs2 : BitVec 5) (pr : BitVec 3)
  /-- VRED_MAXIDX (R236). Lowest lane holding the unsigned maximum, or 32. -/
  | vredMaxidx (p : Place) (rd rs1 rs2 : BitVec 5) (pr : BitVec 3)
  /-- HITS (R238). Loads a field of the presented hits into a vector and mask, fetching secondaries when asked. -/
  | hits (p : Place) (rd rs1 rs2 : BitVec 5) (imm : BitVec 10)
  /-- WIN (R239). Reads capture-window samples or flags at an offset. -/
  | win (p : Place) (rd rs1 rs2 : BitVec 5) (imm : BitVec 10)
  /-- VTHR (R236). Sets a mask where the sample above pedestal exceeds a threshold. -/
  | vthr (p : Place) (rd rs1 rs2 : BitVec 5) (imm : BitVec 10)
  /-- VPEAK (R239). Finds the peak and its position over a span of the window. -/
  | vpeak (p : Place) (rd rs1 rs2 : BitVec 5) (imm : BitVec 10)
  /-- TWALK (R240). Subtracts a table-interpolated walk from each TOA, clamping and setting VSAT. -/
  | twalk (p : Place) (rd rs1 rs2 : BitVec 5) (imm : BitVec 10) (ecc : Ecc)
  /-- HEMIT (R241). Pushes the hit words of the masked lanes as one-word items, once each per slot. -/
  | hemit (p : Place) (rd rs1 rs2 : BitVec 5) (imm : BitVec 10)
  /-- SUPPLY_BELOW_FALLING_THRESHOLD (R589). A supply lies below its falling power-good threshold for 200 ns, so the hub is
  held in power-on and BIAS0_EN, BIAS1_EN and ILK_OK are driven low. -/
  | supplyBelowFallingThreshold
  /-- VCO_BAND_LOCKS_AGAIN (R481). A VCO band regains lock after BAND_LOST, which ends that standing cause so the hub may
  leave HOLD. -/
  | vcoBandLocksAgain (band : Bool)
  /-- FE_LEAK_CHANGE (R73). A front end's leakage current passes a limit of R73, or returns within it, and FE_STAT.LEAK
  changes. -/
  | feLeakChange (c : Fin 512) (leak : Bool)
  deriving DecidableEq, Repr

end Sys2Proof
end

