-- ==== Sys2Proof/Config.lean ====
section
/-! DEFINITION. What the spec leaves open and an implementation fixes.

`Config.free` is a constant without a body: nothing can be proved of its values, so a claim that holds in the model
holds whatever the hardware puts there. A step that needs an open value applies it to the counter `free` of the state
and advances that counter (notes/assumptions/2.md). -/

namespace Sys2Proof

/-- The stream of open values: the n-th open value that a run asks for. -/
opaque Config.free : Nat → BitVec 64

/-- The nominal delay of the centroid of the 8 ns shaper, in 2^-10 ns, which TIMEOFS takes off (R456); the spec gives no number
(notes/assumptions/86.md). -/
opaque Config.shaperCentroid : Int

end Sys2Proof
end

