-- ==== Sys2Proof/Machine/Fields.lean ====
section
/-! DEFINITION. The fields of the register tables by name, and the addresses of the registers.

One constant per field of every register table of the spec: `F.<REGISTER>_<FIELD>` gives its address, the distance
between instances and its bits. `A.<REGISTER>` is the address of instance 0. The table with access codes and Load
values is Machine/RegTable.lean. -/

namespace Sys2Proof.Machine

/-- Where a field lies: address of instance 0, distance of instances, top and bottom bit (R1). -/
structure Fld where
  base : Nat
  stride : Nat
  hi : Nat
  lo : Nat
  deriving DecidableEq, Repr

/-- Width of a field. -/
def Fld.width (f : Fld) : Nat := f.hi + 1 - f.lo

/-- Address of the word that holds instance `i` of a field. -/
def Fld.addr (f : Fld) (i : Nat) : Nat := f.base + f.stride * i


/-! ### 01_hub_in_the_tree.md -/

/-- LANE_ROLE (R20-R27). -/
abbrev A.LANE_ROLE : Nat := 0x2000
abbrev F.LANE_ROLE_ROLE : Fld := ⟨0x2000, 0x100, 2, 0⟩
abbrev F.LANE_ROLE_PORT : Fld := ⟨0x2000, 0x100, 5, 4⟩
abbrev F.LANE_ROLE_RATE : Fld := ⟨0x2000, 0x100, 9, 8⟩
abbrev F.LANE_ROLE_ACT_ROLE : Fld := ⟨0x2000, 0x100, 12, 10⟩
abbrev F.LANE_ROLE_ACT_PORT : Fld := ⟨0x2000, 0x100, 14, 13⟩
/-- HUB_ADDR (R28-R30). -/
abbrev A.HUB_ADDR : Nat := 0x10
abbrev F.HUB_ADDR_ADDR : Fld := ⟨0x10, 0x0, 15, 0⟩
abbrev F.HUB_ADDR_VALID : Fld := ⟨0x10, 0x0, 16, 16⟩
/-- ROUTE (R31). -/
abbrev A.ROUTE : Nat := 0x5e00
abbrev F.ROUTE_LO : Fld := ⟨0x5e00, 0x1, 15, 0⟩
abbrev F.ROUTE_HI : Fld := ⟨0x5e00, 0x1, 31, 16⟩

/-! ### 02_time_and_the_rooster.md -/

/-- RT_CLK (R39-R53). -/
abbrev A.RT_CLK : Nat := 0x1000
abbrev F.RT_CLK_SRC : Fld := ⟨0x1000, 0x0, 1, 0⟩
abbrev F.RT_CLK_XO_SEL : Fld := ⟨0x1000, 0x0, 2, 2⟩
abbrev F.RT_CLK_BAND : Fld := ⟨0x1000, 0x0, 3, 3⟩
abbrev F.RT_CLK_LOCK : Fld := ⟨0x1000, 0x0, 4, 4⟩
abbrev F.RT_CLK_HOLDOVER : Fld := ⟨0x1000, 0x0, 5, 5⟩
abbrev F.RT_CLK_GRID : Fld := ⟨0x1000, 0x0, 6, 6⟩
abbrev F.RT_CLK_EPOCH : Fld := ⟨0x1000, 0x0, 7, 7⟩
abbrev F.RT_CLK_AMBIG : Fld := ⟨0x1000, 0x0, 8, 8⟩
abbrev F.RT_CLK_REGRID : Fld := ⟨0x1000, 0x0, 9, 9⟩
/-- RT_BCFREQ (R38). -/
abbrev A.RT_BCFREQ : Nat := 0x1001
abbrev F.RT_BCFREQ_FREQ : Fld := ⟨0x1001, 0x0, 25, 0⟩
/-- RT_TNSINC (R43). -/
abbrev A.RT_TNSINC : Nat := 0x1002
abbrev F.RT_TNSINC_INC : Fld := ⟨0x1002, 0x0, 31, 0⟩
/-- RT_ORBIT (R42). -/
abbrev A.RT_ORBIT : Nat := 0x1003
abbrev F.RT_ORBIT_LEN : Fld := ⟨0x1003, 0x0, 15, 0⟩
abbrev F.RT_ORBIT_POS : Fld := ⟨0x1003, 0x0, 31, 16⟩
/-- RT_FCCFG (R56-R65). -/
abbrev A.RT_FCCFG : Nat := 0x1004
abbrev F.RT_FCCFG_FC_LAT : Fld := ⟨0x1004, 0x0, 9, 0⟩
abbrev F.RT_FCCFG_UP_AGE : Fld := ⟨0x1004, 0x0, 25, 16⟩
/-- RT_AGE (R57). -/
abbrev A.RT_AGE : Nat := 0x1005
abbrev F.RT_AGE_DEC_SLOTS : Fld := ⟨0x1005, 0x0, 9, 0⟩
abbrev F.RT_AGE_FC_AGE : Fld := ⟨0x1005, 0x0, 19, 10⟩
abbrev F.RT_AGE_FWD_AGE : Fld := ⟨0x1005, 0x0, 29, 20⟩
/-- RT_SLOT_LO (R12). -/
abbrev A.RT_SLOT_LO : Nat := 0x1008
abbrev F.RT_SLOT_LO_COUNT : Fld := ⟨0x1008, 0x0, 31, 0⟩
/-- RT_SLOT_HI (R12). -/
abbrev A.RT_SLOT_HI : Nat := 0x1009
abbrev F.RT_SLOT_HI_COUNT : Fld := ⟨0x1009, 0x0, 15, 0⟩
/-- RT_TIME_NS (R43). -/
abbrev A.RT_TIME_NS : Nat := 0x100a
abbrev F.RT_TIME_NS_NS : Fld := ⟨0x100a, 0x0, 31, 0⟩
/-- RT_SLOTSET_LO (R44). -/
abbrev A.RT_SLOTSET_LO : Nat := 0x100c
abbrev F.RT_SLOTSET_LO_V : Fld := ⟨0x100c, 0x0, 31, 0⟩
/-- RT_SLOTSET_HI (R44). -/
abbrev A.RT_SLOTSET_HI : Nat := 0x100d
abbrev F.RT_SLOTSET_HI_V : Fld := ⟨0x100d, 0x0, 15, 0⟩
/-- RT_TNSSET (R44). -/
abbrev A.RT_TNSSET : Nat := 0x100e
abbrev F.RT_TNSSET_V : Fld := ⟨0x100e, 0x0, 31, 0⟩
/-- RT_TSARM (R44). -/
abbrev A.RT_TSARM : Nat := 0x100f
abbrev F.RT_TSARM_ARM : Fld := ⟨0x100f, 0x0, 0, 0⟩
/-- RT_TX_ASYM (R46). -/
abbrev A.RT_TX_ASYM : Nat := 0x1010
abbrev F.RT_TX_ASYM_V : Fld := ⟨0x1010, 0x2, 23, 0⟩
/-- RT_RX_ASYM (R46). -/
abbrev A.RT_RX_ASYM : Nat := 0x1011
abbrev F.RT_RX_ASYM_V : Fld := ⟨0x1011, 0x2, 23, 0⟩
/-- RT_OFFSET (R49). -/
abbrev A.RT_OFFSET : Nat := 0x1020
abbrev F.RT_OFFSET_THETA : Fld := ⟨0x1020, 0x0, 23, 0⟩
/-- RT_HOLDERR (R52). -/
abbrev A.RT_HOLDERR : Nat := 0x1021
abbrev F.RT_HOLDERR_V : Fld := ⟨0x1021, 0x0, 31, 0⟩
/-- RT_HOLDDUR (R52). -/
abbrev A.RT_HOLDDUR : Nat := 0x1022
abbrev F.RT_HOLDDUR_V : Fld := ⟨0x1022, 0x0, 31, 0⟩
/-- RT_FCBAD (R55). -/
abbrev A.RT_FCBAD : Nat := 0x1030
abbrev F.RT_FCBAD_COUNT : Fld := ⟨0x1030, 0x0, 15, 0⟩
abbrev F.RT_FCBAD_SAT : Fld := ⟨0x1030, 0x0, 31, 31⟩
/-- RT_FCLATE (R59). -/
abbrev A.RT_FCLATE : Nat := 0x1031
abbrev F.RT_FCLATE_COUNT : Fld := ⟨0x1031, 0x0, 15, 0⟩
abbrev F.RT_FCLATE_SAT : Fld := ⟨0x1031, 0x0, 31, 31⟩
/-- RT_TRIGSKIP (R64). -/
abbrev A.RT_TRIGSKIP : Nat := 0x1032
abbrev F.RT_TRIGSKIP_COUNT : Fld := ⟨0x1032, 0x0, 15, 0⟩
abbrev F.RT_TRIGSKIP_SAT : Fld := ⟨0x1032, 0x0, 31, 31⟩
/-- RT_ORBSLIP (R61). -/
abbrev A.RT_ORBSLIP : Nat := 0x1033
abbrev F.RT_ORBSLIP_COUNT : Fld := ⟨0x1033, 0x0, 15, 0⟩
abbrev F.RT_ORBSLIP_SAT : Fld := ⟨0x1033, 0x0, 31, 31⟩
/-- RT_VOTEFIX (R68). -/
abbrev A.RT_VOTEFIX : Nat := 0x1034
abbrev F.RT_VOTEFIX_COUNT : Fld := ⟨0x1034, 0x0, 15, 0⟩
abbrev F.RT_VOTEFIX_SAT : Fld := ⟨0x1034, 0x0, 31, 31⟩
/-- RT_BANDSW (R41). -/
abbrev A.RT_BANDSW : Nat := 0x1035
abbrev F.RT_BANDSW_COUNT : Fld := ⟨0x1035, 0x0, 15, 0⟩
abbrev F.RT_BANDSW_SAT : Fld := ⟨0x1035, 0x0, 31, 31⟩
/-- RT_CNTCLR (R8). -/
abbrev A.RT_CNTCLR : Nat := 0x1037
abbrev F.RT_CNTCLR_CLR : Fld := ⟨0x1037, 0x0, 5, 0⟩
/-- RT_LANE (R46-R48). -/
abbrev A.RT_LANE : Nat := 0x1040
abbrev F.RT_LANE_D : Fld := ⟨0x1040, 0x1, 23, 0⟩
abbrev F.RT_LANE_VALID : Fld := ⟨0x1040, 0x1, 24, 24⟩
abbrev F.RT_LANE_TIMING : Fld := ⟨0x1040, 0x1, 25, 25⟩
/-- RT_RTT (R46). -/
abbrev A.RT_RTT : Nat := 0x1060
abbrev F.RT_RTT_RTT : Fld := ⟨0x1060, 0x1, 23, 0⟩

/-! ### 14_modes_start_and_consistency.md -/

/-- IDENT (R414). -/
abbrev A.IDENT : Nat := 0x0
abbrev F.IDENT_DEVICE : Fld := ⟨0x0, 0x0, 15, 0⟩
abbrev F.IDENT_VERSION : Fld := ⟨0x0, 0x0, 23, 16⟩
abbrev F.IDENT_FAMILY : Fld := ⟨0x0, 0x0, 31, 24⟩
/-- MODE_STAT (R414-R419). -/
abbrev A.MODE_STAT : Nat := 0x20
abbrev F.MODE_STAT_MODE : Fld := ⟨0x20, 0x0, 2, 0⟩
abbrev F.MODE_STAT_LEFT : Fld := ⟨0x20, 0x0, 5, 3⟩
abbrev F.MODE_STAT_HCAUSE : Fld := ⟨0x20, 0x0, 8, 6⟩
abbrev F.MODE_STAT_DEGR : Fld := ⟨0x20, 0x0, 9, 9⟩
/-- WRESET (R421). -/
abbrev A.WRESET : Nat := 0x21
abbrev F.WRESET_KEY : Fld := ⟨0x21, 0x0, 31, 0⟩
/-- RSTPIN (R423-R425). -/
abbrev A.RSTPIN : Nat := 0x22
abbrev F.RSTPIN_LEVEL : Fld := ⟨0x22, 0x0, 0, 0⟩
abbrev F.RSTPIN_MASKED : Fld := ⟨0x22, 0x0, 1, 1⟩
/-- COMMIT_STAT (R436-R440). -/
abbrev A.COMMIT_STAT : Nat := 0x30
abbrev F.COMMIT_STAT_PENDING : Fld := ⟨0x30, 0x0, 0, 0⟩
abbrev F.COMMIT_STAT_SCHED : Fld := ⟨0x30, 0x0, 1, 1⟩
abbrev F.COMMIT_STAT_DISC : Fld := ⟨0x30, 0x0, 2, 2⟩
abbrev F.COMMIT_STAT_LAST : Fld := ⟨0x30, 0x0, 31, 8⟩
/-- SNAP_STAT (R441). -/
abbrev A.SNAP_STAT : Nat := 0x31
abbrev F.SNAP_STAT_SCHED : Fld := ⟨0x31, 0x0, 0, 0⟩
abbrev F.SNAP_STAT_LAST : Fld := ⟨0x31, 0x0, 31, 8⟩
/-- JNL_STEP (R426-R435). -/
abbrev A.JNL_STEP : Nat := 0x500
abbrev F.JNL_STEP_OUTCOME : Fld := ⟨0x500, 0x1, 1, 0⟩
abbrev F.JNL_STEP_RUN : Fld := ⟨0x500, 0x1, 2, 2⟩
abbrev F.JNL_STEP_MARK : Fld := ⟨0x500, 0x1, 3, 3⟩
abbrev F.JNL_STEP_DETAIL : Fld := ⟨0x500, 0x1, 15, 8⟩
abbrev F.JNL_STEP_DUR : Fld := ⟨0x500, 0x1, 31, 16⟩
/-- JNL_LANES (R429). -/
abbrev A.JNL_LANES : Nat := 0x50a
abbrev F.JNL_LANES_SKIP : Fld := ⟨0x50a, 0x0, 23, 0⟩
/-- JNL_CTL (R431). -/
abbrev A.JNL_CTL : Nat := 0x510
abbrev F.JNL_CTL_QUICK : Fld := ⟨0x510, 0x0, 0, 0⟩
/-- JNL_STAT (R418). -/
abbrev A.JNL_STAT : Nat := 0x511
abbrev F.JNL_STAT_CAUSE : Fld := ⟨0x511, 0x0, 2, 0⟩
abbrev F.JNL_STAT_STEP : Fld := ⟨0x511, 0x0, 7, 4⟩
abbrev F.JNL_STAT_DONE : Fld := ⟨0x511, 0x0, 8, 8⟩
abbrev F.JNL_STAT_FATAL : Fld := ⟨0x511, 0x0, 9, 9⟩
abbrev F.JNL_STAT_STARTS : Fld := ⟨0x511, 0x0, 31, 16⟩

/-! ### 03_sensor_channel_front_end.md -/

/-- FE_CFG (R70). -/
abbrev A.FE_CFG : Nat := 0x8000
abbrev F.FE_CFG_EN : Fld := ⟨0x8000, 0x40, 0, 0⟩
abbrev F.FE_CFG_POL : Fld := ⟨0x8000, 0x40, 1, 1⟩
abbrev F.FE_CFG_RANGE : Fld := ⟨0x8000, 0x40, 3, 2⟩
abbrev F.FE_CFG_CIN : Fld := ⟨0x8000, 0x40, 5, 4⟩
/-- FE_THR (R74). -/
abbrev A.FE_THR : Nat := 0x8001
abbrev F.FE_THR_TRIM : Fld := ⟨0x8001, 0x40, 5, 0⟩
abbrev F.FE_THR_DISC_EN : Fld := ⟨0x8001, 0x40, 8, 8⟩
/-- FE_INJ (R84). -/
abbrev A.FE_INJ : Nat := 0x8002
abbrev F.FE_INJ_CODE : Fld := ⟨0x8002, 0x40, 9, 0⟩
abbrev F.FE_INJ_INJ_EN : Fld := ⟨0x8002, 0x40, 12, 12⟩
/-- FE_DISCCNT (R77). -/
abbrev A.FE_DISCCNT : Nat := 0x8003
abbrev F.FE_DISCCNT_COUNT : Fld := ⟨0x8003, 0x40, 15, 0⟩
abbrev F.FE_DISCCNT_SAT : Fld := ⟨0x8003, 0x40, 31, 31⟩
/-- FE_STAT (R70-R73). -/
abbrev A.FE_STAT : Nat := 0x8004
abbrev F.FE_STAT_PWR : Fld := ⟨0x8004, 0x40, 0, 0⟩
abbrev F.FE_STAT_SETTLING : Fld := ⟨0x8004, 0x40, 1, 1⟩
abbrev F.FE_STAT_LEAK : Fld := ⟨0x8004, 0x40, 2, 2⟩
abbrev F.FE_STAT_PARKED : Fld := ⟨0x8004, 0x40, 3, 3⟩
/-- FE_GTHR (R74). -/
abbrev A.FE_GTHR : Nat := 0x60f00
abbrev F.FE_GTHR_GTHR : Fld := ⟨0x60f00, 0x0, 9, 0⟩
/-- FE_INJCFG (R84). -/
abbrev A.FE_INJCFG : Nat := 0x60f01
abbrev F.FE_INJCFG_DELAY : Fld := ⟨0x60f01, 0x0, 7, 0⟩
/-- FE_INJSKIP (R87). -/
abbrev A.FE_INJSKIP : Nat := 0x60f02
abbrev F.FE_INJSKIP_COUNT : Fld := ⟨0x60f02, 0x0, 15, 0⟩
abbrev F.FE_INJSKIP_SAT : Fld := ⟨0x60f02, 0x0, 31, 31⟩
/-- FE_CNTCLR (R8). -/
abbrev A.FE_CNTCLR : Nat := 0x60f03
abbrev F.FE_CNTCLR_DISC : Fld := ⟨0x60f03, 0x0, 0, 0⟩
abbrev F.FE_CNTCLR_INJSKIP : Fld := ⟨0x60f03, 0x0, 1, 1⟩

/-! ### 04_time_digitisers.md -/

/-- TDC_CFG (R107-R109). -/
abbrev A.TDC_CFG : Nat := 0x8010
abbrev F.TDC_CFG_EN : Fld := ⟨0x8010, 0x40, 0, 0⟩
abbrev F.TDC_CFG_TOT_EN : Fld := ⟨0x8010, 0x40, 1, 1⟩
/-- TDC_OFS (R103). -/
abbrev A.TDC_OFS : Nat := 0x8011
abbrev F.TDC_OFS_OFS : Fld := ⟨0x8011, 0x40, 15, 0⟩
/-- TDC_STAT (R120). -/
abbrev A.TDC_STAT : Nat := 0x8012
abbrev F.TDC_STAT_ACTIVE : Fld := ⟨0x8012, 0x40, 0, 0⟩
abbrev F.TDC_STAT_STBY_AVAIL : Fld := ⟨0x8012, 0x40, 1, 1⟩
/-- TDC_PILECNT (R111). -/
abbrev A.TDC_PILECNT : Nat := 0x8013
abbrev F.TDC_PILECNT_COUNT : Fld := ⟨0x8013, 0x40, 15, 0⟩
abbrev F.TDC_PILECNT_SAT : Fld := ⟨0x8013, 0x40, 31, 31⟩
/-- TDC_DEADCNT (R110). -/
abbrev A.TDC_DEADCNT : Nat := 0x8014
abbrev F.TDC_DEADCNT_COUNT : Fld := ⟨0x8014, 0x40, 15, 0⟩
abbrev F.TDC_DEADCNT_SAT : Fld := ⟨0x8014, 0x40, 31, 31⟩
/-- TDC_AMPWIN (R112). -/
abbrev A.TDC_AMPWIN : Nat := 0x60e00
abbrev F.TDC_AMPWIN_START : Fld := ⟨0x60e00, 0x0, 2, 0⟩
abbrev F.TDC_AMPWIN_LEN : Fld := ⟨0x60e00, 0x0, 7, 4⟩
/-- TDC_CNTCLR (R8). -/
abbrev A.TDC_CNTCLR : Nat := 0x60e01
abbrev F.TDC_CNTCLR_PILE : Fld := ⟨0x60e01, 0x0, 0, 0⟩
abbrev F.TDC_CNTCLR_DEAD : Fld := ⟨0x60e01, 0x0, 1, 1⟩
/-- TDC_LUTSEL (R121). -/
abbrev A.TDC_LUTSEL : Nat := 0x60e02
abbrev F.TDC_LUTSEL_CH : Fld := ⟨0x60e02, 0x0, 8, 0⟩
abbrev F.TDC_LUTSEL_LINE : Fld := ⟨0x60e02, 0x0, 9, 9⟩
/-- TDC_LINEOFS (R102). -/
abbrev A.TDC_LINEOFS : Nat := 0x60e03
abbrev F.TDC_LINEOFS_OFS : Fld := ⟨0x60e03, 0x0, 9, 0⟩
/-- TDC_LUT (R102). -/
abbrev A.TDC_LUT : Nat := 0x60e80
abbrev F.TDC_LUT_T : Fld := ⟨0x60e80, 0x1, 8, 0⟩

/-! ### 05_amplitude_chain.md -/

/-- CH_CHAIN (R128-R135). -/
abbrev A.CH_CHAIN : Nat := 0x8020
abbrev F.CH_CHAIN_B_MODE : Fld := ⟨0x8020, 0x40, 1, 0⟩
abbrev F.CH_CHAIN_B_LEN : Fld := ⟨0x8020, 0x40, 3, 2⟩
abbrev F.CH_CHAIN_SHIFT_A : Fld := ⟨0x8020, 0x40, 6, 4⟩
abbrev F.CH_CHAIN_SHIFT_B : Fld := ⟨0x8020, 0x40, 10, 8⟩
abbrev F.CH_CHAIN_SHIFT_C : Fld := ⟨0x8020, 0x40, 13, 12⟩
abbrev F.CH_CHAIN_SHIFT_D : Fld := ⟨0x8020, 0x40, 18, 16⟩
/-- CH_PED (R127). -/
abbrev A.CH_PED : Nat := 0x8021
abbrev F.CH_PED_PED : Fld := ⟨0x8021, 0x40, 15, 0⟩
/-- CH_PHOFS (R135). -/
abbrev A.CH_PHOFS : Nat := 0x8022
abbrev F.CH_PHOFS_PHOFS : Fld := ⟨0x8022, 0x40, 15, 0⟩
/-- CH_FIR (R130). -/
abbrev A.CH_FIR : Nat := 0x8024
abbrev F.CH_FIR_H_LO : Fld := ⟨0x8024, 0x40, 15, 0⟩
abbrev F.CH_FIR_H_HI : Fld := ⟨0x8024, 0x40, 31, 16⟩
/-- CH_GDB (R131). -/
abbrev A.CH_GDB : Nat := 0x802c
abbrev F.CH_GDB_D_B : Fld := ⟨0x802c, 0x40, 19, 0⟩
abbrev F.CH_GDB_GD_VALID : Fld := ⟨0x802c, 0x40, 31, 31⟩
/-- CH_DTOT (R139). -/
abbrev A.CH_DTOT : Nat := 0x802d
abbrev F.CH_DTOT_D_TOTAL : Fld := ⟨0x802d, 0x40, 19, 0⟩
/-- CH_DSAMP (R140). -/
abbrev A.CH_DSAMP : Nat := 0x802e
abbrev F.CH_DSAMP_D_SAMP : Fld := ⟨0x802e, 0x40, 23, 0⟩
/-- CH_SETTLE (R144). -/
abbrev A.CH_SETTLE : Nat := 0x802f
abbrev F.CH_SETTLE_K : Fld := ⟨0x802f, 0x40, 7, 0⟩
/-- CH_SATCNT (R141). -/
abbrev A.CH_SATCNT : Nat := 0x8030
abbrev F.CH_SATCNT_COUNT : Fld := ⟨0x8030, 0x40, 15, 0⟩
abbrev F.CH_SATCNT_SAT : Fld := ⟨0x8030, 0x40, 31, 31⟩
/-- CH_EDGECNT (R141). -/
abbrev A.CH_EDGECNT : Nat := 0x8031
abbrev F.CH_EDGECNT_COUNT : Fld := ⟨0x8031, 0x40, 15, 0⟩
abbrev F.CH_EDGECNT_SAT : Fld := ⟨0x8031, 0x40, 31, 31⟩
/-- ADC_OFS (R126). -/
abbrev A.ADC_OFS : Nat := 0x60000
abbrev F.ADC_OFS_OFS_HG : Fld := ⟨0x60000, 0x4, 15, 0⟩
abbrev F.ADC_OFS_OFS_LG : Fld := ⟨0x60000, 0x4, 31, 16⟩
/-- ADC_GHG (R126). -/
abbrev A.ADC_GHG : Nat := 0x60001
abbrev F.ADC_GHG_GAIN : Fld := ⟨0x60001, 0x4, 23, 0⟩
/-- ADC_GLG (R126). -/
abbrev A.ADC_GLG : Nat := 0x60002
abbrev F.ADC_GLG_GAIN : Fld := ⟨0x60002, 0x4, 23, 0⟩
/-- ADC_PHASE (R124). -/
abbrev A.ADC_PHASE : Nat := 0x60003
abbrev F.ADC_PHASE_TAP : Fld := ⟨0x60003, 0x4, 5, 0⟩
abbrev F.ADC_PHASE_FINE : Fld := ⟨0x60003, 0x4, 15, 8⟩
/-- RS_COEF (R135). -/
abbrev A.RS_COEF : Nat := 0x60c00
abbrev F.RS_COEF_C_LO : Fld := ⟨0x60c00, 0x1, 15, 0⟩
abbrev F.RS_COEF_C_HI : Fld := ⟨0x60c00, 0x1, 31, 16⟩
/-- CHN_RATE (R133). -/
abbrev A.CHN_RATE : Nat := 0x60d00
abbrev F.CHN_RATE_INC : Fld := ⟨0x60d00, 0x0, 23, 0⟩
abbrev F.CHN_RATE_C_EN : Fld := ⟨0x60d00, 0x0, 24, 24⟩
/-- CHN_CNTCLR (R8). -/
abbrev A.CHN_CNTCLR : Nat := 0x60d01
abbrev F.CHN_CNTCLR_SAT : Fld := ⟨0x60d01, 0x0, 0, 0⟩
abbrev F.CHN_CNTCLR_EDGE : Fld := ⟨0x60d01, 0x0, 1, 1⟩
/-- CHN_STAT (R145). -/
abbrev A.CHN_STAT : Nat := 0x60d02
abbrev F.CHN_STAT_RUNNING : Fld := ⟨0x60d02, 0x0, 0, 0⟩
abbrev F.CHN_STAT_ANCHORED : Fld := ⟨0x60d02, 0x0, 1, 1⟩

/-! ### 06_acquisition_and_triggers.md -/

/-- ACQ_CFG (R160). -/
abbrev A.ACQ_CFG : Nat := 0x10000
abbrev F.ACQ_CFG_S_SEL : Fld := ⟨0x10000, 0x0, 1, 0⟩
abbrev F.ACQ_CFG_L_SEL : Fld := ⟨0x10000, 0x0, 3, 2⟩
abbrev F.ACQ_CFG_SEED_LO : Fld := ⟨0x10000, 0x0, 7, 4⟩
abbrev F.ACQ_CFG_SEED_HI : Fld := ⟨0x10000, 0x0, 11, 8⟩
abbrev F.ACQ_CFG_NB : Fld := ⟨0x10000, 0x0, 14, 12⟩
/-- ACQ_LAT (R154). -/
abbrev A.ACQ_LAT : Nat := 0x10001
abbrev F.ACQ_LAT_LAT : Fld := ⟨0x10001, 0x0, 13, 0⟩
abbrev F.ACQ_LAT_TOFS : Fld := ⟨0x10001, 0x0, 30, 16⟩
/-- ACQ_SWIN (R162). -/
abbrev A.ACQ_SWIN : Nat := 0x10002
abbrev F.ACQ_SWIN_PRE : Fld := ⟨0x10002, 0x0, 6, 0⟩
abbrev F.ACQ_SWIN_POST : Fld := ⟨0x10002, 0x0, 15, 8⟩
/-- ACQ_LWIN (R162). -/
abbrev A.ACQ_LWIN : Nat := 0x10003
abbrev F.ACQ_LWIN_PRE : Fld := ⟨0x10003, 0x0, 11, 0⟩
abbrev F.ACQ_LWIN_POST : Fld := ⟨0x10003, 0x0, 31, 16⟩
/-- ACQ_LSEL (R159). -/
abbrev A.ACQ_LSEL : Nat := 0x10004
abbrev F.ACQ_LSEL_LPRESC : Fld := ⟨0x10004, 0x0, 15, 0⟩
abbrev F.ACQ_LSEL_LPHASE : Fld := ⟨0x10004, 0x0, 31, 16⟩
/-- ACQ_HOLDOFF (R171). -/
abbrev A.ACQ_HOLDOFF : Nat := 0x10005
abbrev F.ACQ_HOLDOFF_T : Fld := ⟨0x10005, 0x0, 11, 0⟩
abbrev F.ACQ_HOLDOFF_N : Fld := ⟨0x10005, 0x0, 15, 12⟩
abbrev F.ACQ_HOLDOFF_W : Fld := ⟨0x10005, 0x0, 27, 16⟩
/-- ACQ_MASKCTL (R176). -/
abbrev A.ACQ_MASKCTL : Nat := 0x10006
abbrev F.ACQ_MASKCTL_EN : Fld := ⟨0x10006, 0x0, 0, 0⟩
abbrev F.ACQ_MASKCTL_REL : Fld := ⟨0x10006, 0x0, 1, 1⟩
abbrev F.ACQ_MASKCTL_STOP : Fld := ⟨0x10006, 0x0, 2, 2⟩
abbrev F.ACQ_MASKCTL_STOPPED : Fld := ⟨0x10006, 0x0, 3, 3⟩
abbrev F.ACQ_MASKCTL_REARM : Fld := ⟨0x10006, 0x0, 4, 4⟩
/-- ACQ_AGE (R157). -/
abbrev A.ACQ_AGE : Nat := 0x10008
abbrev F.ACQ_AGE_AGE_SLOT : Fld := ⟨0x10008, 0x0, 14, 0⟩
abbrev F.ACQ_AGE_AGE_SAMP : Fld := ⟨0x10008, 0x0, 31, 16⟩
/-- ACQ_STAT (R154). -/
abbrev A.ACQ_STAT : Nat := 0x10009
abbrev F.ACQ_STAT_RUNNING : Fld := ⟨0x10009, 0x0, 0, 0⟩
abbrev F.ACQ_STAT_L_BUF : Fld := ⟨0x10009, 0x0, 1, 1⟩
abbrev F.ACQ_STAT_S_LATOK : Fld := ⟨0x10009, 0x0, 2, 2⟩
abbrev F.ACQ_STAT_L_LATOK : Fld := ⟨0x10009, 0x0, 3, 3⟩
abbrev F.ACQ_STAT_SEED_OK : Fld := ⟨0x10009, 0x0, 4, 4⟩
abbrev F.ACQ_STAT_PENDING : Fld := ⟨0x10009, 0x0, 14, 8⟩
/-- ACQ_TRIGIGN (R154). -/
abbrev A.ACQ_TRIGIGN : Nat := 0x10010
abbrev F.ACQ_TRIGIGN_COUNT : Fld := ⟨0x10010, 0x0, 15, 0⟩
abbrev F.ACQ_TRIGIGN_SAT : Fld := ⟨0x10010, 0x0, 31, 31⟩
/-- ACQ_HOFFTIME (R171). -/
abbrev A.ACQ_HOFFTIME : Nat := 0x10011
abbrev F.ACQ_HOFFTIME_COUNT : Fld := ⟨0x10011, 0x0, 15, 0⟩
abbrev F.ACQ_HOFFTIME_SAT : Fld := ⟨0x10011, 0x0, 31, 31⟩
/-- ACQ_HOFFCNT (R172). -/
abbrev A.ACQ_HOFFCNT : Nat := 0x10012
abbrev F.ACQ_HOFFCNT_COUNT : Fld := ⟨0x10012, 0x0, 15, 0⟩
abbrev F.ACQ_HOFFCNT_SAT : Fld := ⟨0x10012, 0x0, 31, 31⟩
/-- ACQ_HOFFFULL (R173). -/
abbrev A.ACQ_HOFFFULL : Nat := 0x10013
abbrev F.ACQ_HOFFFULL_COUNT : Fld := ⟨0x10013, 0x0, 15, 0⟩
abbrev F.ACQ_HOFFFULL_SAT : Fld := ⟨0x10013, 0x0, 31, 31⟩
/-- ACQ_HOFFSTOP (R178). -/
abbrev A.ACQ_HOFFSTOP : Nat := 0x10014
abbrev F.ACQ_HOFFSTOP_COUNT : Fld := ⟨0x10014, 0x0, 15, 0⟩
abbrev F.ACQ_HOFFSTOP_SAT : Fld := ⟨0x10014, 0x0, 31, 31⟩
/-- ACQ_STREAMED (R163). -/
abbrev A.ACQ_STREAMED : Nat := 0x10015
abbrev F.ACQ_STREAMED_COUNT : Fld := ⟨0x10015, 0x0, 15, 0⟩
abbrev F.ACQ_STREAMED_SAT : Fld := ⟨0x10015, 0x0, 31, 31⟩
/-- ACQ_MEMCOR (R151). -/
abbrev A.ACQ_MEMCOR : Nat := 0x10016
abbrev F.ACQ_MEMCOR_COUNT : Fld := ⟨0x10016, 0x0, 15, 0⟩
abbrev F.ACQ_MEMCOR_SAT : Fld := ⟨0x10016, 0x0, 31, 31⟩
/-- ACQ_MEMERR (R151). -/
abbrev A.ACQ_MEMERR : Nat := 0x10017
abbrev F.ACQ_MEMERR_COUNT : Fld := ⟨0x10017, 0x0, 15, 0⟩
abbrev F.ACQ_MEMERR_SAT : Fld := ⟨0x10017, 0x0, 31, 31⟩
/-- ACQ_MASKVIOL (R177). -/
abbrev A.ACQ_MASKVIOL : Nat := 0x10018
abbrev F.ACQ_MASKVIOL_COUNT : Fld := ⟨0x10018, 0x0, 15, 0⟩
abbrev F.ACQ_MASKVIOL_SAT : Fld := ⟨0x10018, 0x0, 31, 31⟩
/-- ACQ_CNTCLR (R8). -/
abbrev A.ACQ_CNTCLR : Nat := 0x1001f
abbrev F.ACQ_CNTCLR_CLR : Fld := ⟨0x1001f, 0x0, 8, 0⟩
/-- ACQ_CHMASK (R160). -/
abbrev A.ACQ_CHMASK : Nat := 0x10100
abbrev F.ACQ_CHMASK_MASK : Fld := ⟨0x10100, 0x1, 31, 0⟩
/-- ACQ_MASKSEL (R176). -/
abbrev A.ACQ_MASKSEL : Nat := 0x10200
abbrev F.ACQ_MASKSEL_SEL : Fld := ⟨0x10200, 0x1, 31, 0⟩
/-- MASK (R176). -/
abbrev A.MASK : Nat := 0x14000
abbrev F.MASK_LOWER : Fld := ⟨0x14000, 0x1, 15, 0⟩
abbrev F.MASK_UPPER : Fld := ⟨0x14000, 0x1, 31, 16⟩

/-! ### 08_ox_engine_programming.md -/

/-- OX_CFG (R254). -/
abbrev A.OX_CFG : Nat := 0x21800
abbrev F.OX_CFG_EN : Fld := ⟨0x21800, 0x2000, 0, 0⟩
abbrev F.OX_CFG_TRIGN : Fld := ⟨0x21800, 0x2000, 1, 1⟩
abbrev F.OX_CFG_OVR_REP : Fld := ⟨0x21800, 0x2000, 2, 2⟩
/-- OX_STAT (R244). -/
abbrev A.OX_STAT : Nat := 0x21801
abbrev F.OX_STAT_RUNNING : Fld := ⟨0x21801, 0x2000, 0, 0⟩
abbrev F.OX_STAT_FALLBACK : Fld := ⟨0x21801, 0x2000, 1, 1⟩
abbrev F.OX_STAT_BG_HALT : Fld := ⟨0x21801, 0x2000, 2, 2⟩
abbrev F.OX_STAT_SWAP_PEND : Fld := ⟨0x21801, 0x2000, 3, 3⟩
abbrev F.OX_STAT_ACT_SEALED : Fld := ⟨0x21801, 0x2000, 4, 4⟩
abbrev F.OX_STAT_STBY_SEALED : Fld := ⟨0x21801, 0x2000, 5, 5⟩
abbrev F.OX_STAT_NOTICES : Fld := ⟨0x21801, 0x2000, 11, 8⟩
abbrev F.OX_STAT_PHYS : Fld := ⟨0x21801, 0x2000, 20, 16⟩
/-- OX_PC (R245). -/
abbrev A.OX_PC : Nat := 0x21802
abbrev F.OX_PC_SPC : Fld := ⟨0x21802, 0x2000, 9, 0⟩
abbrev F.OX_PC_BPC : Fld := ⟨0x21802, 0x2000, 25, 16⟩
/-- OX_CS_S (R251). -/
abbrev A.OX_CS_S : Nat := 0x21803
abbrev F.OX_CS_S_VSAT : Fld := ⟨0x21803, 0x2000, 0, 0⟩
abbrev F.OX_CS_S_ASAT : Fld := ⟨0x21803, 0x2000, 1, 1⟩
abbrev F.OX_CS_S_QE : Fld := ⟨0x21803, 0x2000, 2, 2⟩
abbrev F.OX_CS_S_QL : Fld := ⟨0x21803, 0x2000, 3, 3⟩
abbrev F.OX_CS_S_QD : Fld := ⟨0x21803, 0x2000, 4, 4⟩
abbrev F.OX_CS_S_CTX : Fld := ⟨0x21803, 0x2000, 8, 8⟩
abbrev F.OX_CS_S_ID : Fld := ⟨0x21803, 0x2000, 23, 16⟩
abbrev F.OX_CS_S_EXC : Fld := ⟨0x21803, 0x2000, 31, 24⟩
/-- OX_CS_B (R251). -/
abbrev A.OX_CS_B : Nat := 0x21804
abbrev F.OX_CS_B_VSAT : Fld := ⟨0x21804, 0x2000, 0, 0⟩
abbrev F.OX_CS_B_ASAT : Fld := ⟨0x21804, 0x2000, 1, 1⟩
abbrev F.OX_CS_B_QE : Fld := ⟨0x21804, 0x2000, 2, 2⟩
abbrev F.OX_CS_B_QL : Fld := ⟨0x21804, 0x2000, 3, 3⟩
abbrev F.OX_CS_B_QD : Fld := ⟨0x21804, 0x2000, 4, 4⟩
abbrev F.OX_CS_B_CTX : Fld := ⟨0x21804, 0x2000, 8, 8⟩
abbrev F.OX_CS_B_ID : Fld := ⟨0x21804, 0x2000, 23, 16⟩
abbrev F.OX_CS_B_EXC : Fld := ⟨0x21804, 0x2000, 31, 24⟩
/-- OX_CYC (R249). -/
abbrev A.OX_CYC : Nat := 0x21805
abbrev F.OX_CYC_LAST : Fld := ⟨0x21805, 0x2000, 4, 0⟩
abbrev F.OX_CYC_MAX : Fld := ⟨0x21805, 0x2000, 12, 8⟩
/-- OX_OVRCNT (R251). -/
abbrev A.OX_OVRCNT : Nat := 0x21808
abbrev F.OX_OVRCNT_COUNT : Fld := ⟨0x21808, 0x2000, 15, 0⟩
abbrev F.OX_OVRCNT_SAT : Fld := ⟨0x21808, 0x2000, 31, 31⟩
/-- OX_EXCCNT (R256). -/
abbrev A.OX_EXCCNT : Nat := 0x21809
abbrev F.OX_EXCCNT_COUNT : Fld := ⟨0x21809, 0x2000, 15, 0⟩
abbrev F.OX_EXCCNT_SAT : Fld := ⟨0x21809, 0x2000, 31, 31⟩
/-- OX_NOTELOST (R259). -/
abbrev A.OX_NOTELOST : Nat := 0x2180a
abbrev F.OX_NOTELOST_COUNT : Fld := ⟨0x2180a, 0x2000, 15, 0⟩
abbrev F.OX_NOTELOST_SAT : Fld := ⟨0x2180a, 0x2000, 31, 31⟩
/-- OX_FBDROP (R253). -/
abbrev A.OX_FBDROP : Nat := 0x2180b
abbrev F.OX_FBDROP_COUNT : Fld := ⟨0x2180b, 0x2000, 15, 0⟩
abbrev F.OX_FBDROP_SAT : Fld := ⟨0x2180b, 0x2000, 31, 31⟩
/-- OX_CNTCLR (R8). -/
abbrev A.OX_CNTCLR : Nat := 0x2180f
abbrev F.OX_CNTCLR_CLR : Fld := ⟨0x2180f, 0x2000, 3, 0⟩
abbrev F.OX_CNTCLR_MAX : Fld := ⟨0x2180f, 0x2000, 4, 4⟩

/-! ### 09_records_queues_ledger.md -/

/-- Q_CFG (R267). -/
abbrev A.Q_CFG : Nat := 0x6000
abbrev F.Q_CFG_PROD : Fld := ⟨0x6000, 0x40, 5, 0⟩
abbrev F.Q_CFG_CONS : Fld := ⟨0x6000, 0x40, 13, 8⟩
abbrev F.Q_CFG_THR : Fld := ⟨0x6000, 0x40, 20, 16⟩
abbrev F.Q_CFG_LVL_EN : Fld := ⟨0x6000, 0x40, 24, 24⟩
/-- Q_STAT (R269-R280). -/
abbrev A.Q_STAT : Nat := 0x6001
abbrev F.Q_STAT_DEPTH : Fld := ⟨0x6001, 0x40, 4, 0⟩
abbrev F.Q_STAT_FULL : Fld := ⟨0x6001, 0x40, 5, 5⟩
abbrev F.Q_STAT_ABOVE : Fld := ⟨0x6001, 0x40, 6, 6⟩
abbrev F.Q_STAT_DISCARD : Fld := ⟨0x6001, 0x40, 7, 7⟩
abbrev F.Q_STAT_OVF : Fld := ⟨0x6001, 0x40, 15, 15⟩
abbrev F.Q_STAT_PEND : Fld := ⟨0x6001, 0x40, 31, 16⟩
/-- Q_DROPCNT (R274). -/
abbrev A.Q_DROPCNT : Nat := 0x6002
abbrev F.Q_DROPCNT_COUNT : Fld := ⟨0x6002, 0x40, 15, 0⟩
abbrev F.Q_DROPCNT_SAT : Fld := ⟨0x6002, 0x40, 31, 31⟩
/-- Q_FLUSHCNT (R278). -/
abbrev A.Q_FLUSHCNT : Nat := 0x6003
abbrev F.Q_FLUSHCNT_COUNT : Fld := ⟨0x6003, 0x40, 15, 0⟩
abbrev F.Q_FLUSHCNT_SAT : Fld := ⟨0x6003, 0x40, 31, 31⟩
/-- Q_LEVELCNT (R280). -/
abbrev A.Q_LEVELCNT : Nat := 0x6004
abbrev F.Q_LEVELCNT_COUNT : Fld := ⟨0x6004, 0x40, 15, 0⟩
abbrev F.Q_LEVELCNT_SAT : Fld := ⟨0x6004, 0x40, 31, 31⟩
/-- Q_HWM (R280). -/
abbrev A.Q_HWM : Nat := 0x6005
abbrev F.Q_HWM_HWM : Fld := ⟨0x6005, 0x40, 4, 0⟩
/-- Q_CNTCLR (R8). -/
abbrev A.Q_CNTCLR : Nat := 0x6007
abbrev F.Q_CNTCLR_CLR : Fld := ⟨0x6007, 0x40, 2, 0⟩
abbrev F.Q_CNTCLR_HWM : Fld := ⟨0x6007, 0x40, 3, 3⟩
/-- MULE_HBCFG (R289). -/
abbrev A.MULE_HBCFG : Nat := 0x7000
abbrev F.MULE_HBCFG_SPAN : Fld := ⟨0x7000, 0x0, 6, 0⟩
/-- MULE_LEDCFG (R301). -/
abbrev A.MULE_LEDCFG : Nat := 0x7001
abbrev F.MULE_LEDCFG_PERIOD : Fld := ⟨0x7001, 0x0, 4, 0⟩
/-- MULE_POOL (R282). -/
abbrev A.MULE_POOL : Nat := 0x7002
abbrev F.MULE_POOL_ACQ_MAX : Fld := ⟨0x7002, 0x0, 10, 0⟩
/-- MULE_STAT (R283). -/
abbrev A.MULE_STAT : Nat := 0x7003
abbrev F.MULE_STAT_FREE : Fld := ⟨0x7003, 0x0, 11, 0⟩
abbrev F.MULE_STAT_HB_OPEN : Fld := ⟨0x7003, 0x0, 13, 12⟩
abbrev F.MULE_STAT_HIT_STALL : Fld := ⟨0x7003, 0x0, 14, 14⟩
abbrev F.MULE_STAT_ACQ_STALL : Fld := ⟨0x7003, 0x0, 15, 15⟩
abbrev F.MULE_STAT_HAND_STALL : Fld := ⟨0x7003, 0x0, 16, 16⟩
abbrev F.MULE_STAT_DRAIN : Fld := ⟨0x7003, 0x0, 17, 17⟩
/-- MULE_SEQ (R285). -/
abbrev A.MULE_SEQ : Nat := 0x7004
abbrev F.MULE_SEQ_SEQ : Fld := ⟨0x7004, 0x0, 31, 0⟩
/-- MULE_BADITEM (R296). -/
abbrev A.MULE_BADITEM : Nat := 0x7008
abbrev F.MULE_BADITEM_COUNT : Fld := ⟨0x7008, 0x0, 15, 0⟩
abbrev F.MULE_BADITEM_SAT : Fld := ⟨0x7008, 0x0, 31, 31⟩
/-- MULE_LEDSKIP (R303). -/
abbrev A.MULE_LEDSKIP : Nat := 0x7009
abbrev F.MULE_LEDSKIP_COUNT : Fld := ⟨0x7009, 0x0, 15, 0⟩
abbrev F.MULE_LEDSKIP_SAT : Fld := ⟨0x7009, 0x0, 31, 31⟩
/-- MULE_HITSTALL (R283). -/
abbrev A.MULE_HITSTALL : Nat := 0x700a
abbrev F.MULE_HITSTALL_COUNT : Fld := ⟨0x700a, 0x0, 15, 0⟩
abbrev F.MULE_HITSTALL_SAT : Fld := ⟨0x700a, 0x0, 31, 31⟩
/-- MULE_ACQSTALL (R283). -/
abbrev A.MULE_ACQSTALL : Nat := 0x700b
abbrev F.MULE_ACQSTALL_COUNT : Fld := ⟨0x700b, 0x0, 15, 0⟩
abbrev F.MULE_ACQSTALL_SAT : Fld := ⟨0x700b, 0x0, 31, 31⟩
/-- MULE_CNTCLR (R8). -/
abbrev A.MULE_CNTCLR : Nat := 0x700f
abbrev F.MULE_CNTCLR_CLR : Fld := ⟨0x700f, 0x0, 3, 0⟩
/-- LED_LO (R300). -/
abbrev A.LED_LO : Nat := 0x7100
abbrev F.LED_LO_V : Fld := ⟨0x7100, 0x2, 31, 0⟩
/-- LED_HI (R300). -/
abbrev A.LED_HI : Nat := 0x7101
abbrev F.LED_HI_V : Fld := ⟨0x7101, 0x2, 15, 0⟩

/-! ### 10_compression.md -/

/-- CMP_CFG (R305). -/
abbrev A.CMP_CFG : Nat := 0x7400
abbrev F.CMP_CFG_EN : Fld := ⟨0x7400, 0x0, 0, 0⟩
/-- CMP_STAT (R313). -/
abbrev A.CMP_STAT : Nat := 0x7401
abbrev F.CMP_STAT_BUSY : Fld := ⟨0x7401, 0x0, 0, 0⟩
abbrev F.CMP_STAT_STALL : Fld := ⟨0x7401, 0x0, 1, 1⟩
abbrev F.CMP_STAT_FENCED : Fld := ⟨0x7401, 0x0, 2, 2⟩
abbrev F.CMP_STAT_CTX : Fld := ⟨0x7401, 0x0, 7, 3⟩
abbrev F.CMP_STAT_HELD : Fld := ⟨0x7401, 0x0, 13, 8⟩
/-- CMP_CTXRST (R307). -/
abbrev A.CMP_CTXRST : Nat := 0x7402
abbrev F.CMP_CTXRST_RST : Fld := ⟨0x7402, 0x0, 31, 0⟩
/-- CMP_BLOCKS (R308). -/
abbrev A.CMP_BLOCKS : Nat := 0x7408
abbrev F.CMP_BLOCKS_COUNT : Fld := ⟨0x7408, 0x0, 15, 0⟩
abbrev F.CMP_BLOCKS_SAT : Fld := ⟨0x7408, 0x0, 31, 31⟩
/-- CMP_PASSED (R312). -/
abbrev A.CMP_PASSED : Nat := 0x7409
abbrev F.CMP_PASSED_COUNT : Fld := ⟨0x7409, 0x0, 15, 0⟩
abbrev F.CMP_PASSED_SAT : Fld := ⟨0x7409, 0x0, 31, 31⟩
/-- CMP_VFAIL (R317). -/
abbrev A.CMP_VFAIL : Nat := 0x740a
abbrev F.CMP_VFAIL_COUNT : Fld := ⟨0x740a, 0x0, 15, 0⟩
abbrev F.CMP_VFAIL_SAT : Fld := ⟨0x740a, 0x0, 31, 31⟩
/-- CMP_STALL (R313). -/
abbrev A.CMP_STALL : Nat := 0x740b
abbrev F.CMP_STALL_COUNT : Fld := ⟨0x740b, 0x0, 15, 0⟩
abbrev F.CMP_STALL_SAT : Fld := ⟨0x740b, 0x0, 31, 31⟩
/-- CMP_WIN (R603). -/
abbrev A.CMP_WIN : Nat := 0x740c
abbrev F.CMP_WIN_COUNT : Fld := ⟨0x740c, 0x0, 30, 0⟩
abbrev F.CMP_WIN_SAT : Fld := ⟨0x740c, 0x0, 31, 31⟩
/-- CMP_WOUT (R603). -/
abbrev A.CMP_WOUT : Nat := 0x740d
abbrev F.CMP_WOUT_COUNT : Fld := ⟨0x740d, 0x0, 30, 0⟩
abbrev F.CMP_WOUT_SAT : Fld := ⟨0x740d, 0x0, 31, 31⟩
/-- CMP_CNTCLR (R8). -/
abbrev A.CMP_CNTCLR : Nat := 0x740f
abbrev F.CMP_CNTCLR_CLR : Fld := ⟨0x740f, 0x0, 5, 0⟩
/-- CMP_CTXCFG (R305). -/
abbrev A.CMP_CTXCFG : Nat := 0x7410
abbrev F.CMP_CTXCFG_TYPE : Fld := ⟨0x7410, 0x1, 5, 0⟩
abbrev F.CMP_CTXCFG_SOURCE : Fld := ⟨0x7410, 0x1, 11, 6⟩
abbrev F.CMP_CTXCFG_ANYSRC : Fld := ⟨0x7410, 0x1, 12, 12⟩
abbrev F.CMP_CTXCFG_EN : Fld := ⟨0x7410, 0x1, 13, 13⟩
abbrev F.CMP_CTXCFG_FMT : Fld := ⟨0x7410, 0x1, 14, 14⟩
abbrev F.CMP_CTXCFG_ORBRST : Fld := ⟨0x7410, 0x1, 15, 15⟩
/-- CMP_CTXST (R306). -/
abbrev A.CMP_CTXST : Nat := 0x7430
abbrev F.CMP_CTXST_P : Fld := ⟨0x7430, 0x1, 15, 0⟩
abbrev F.CMP_CTXST_BSEQ : Fld := ⟨0x7430, 0x1, 20, 16⟩
abbrev F.CMP_CTXST_RSTPEND : Fld := ⟨0x7430, 0x1, 21, 21⟩

/-! ### 11_hen_merge_and_credits.md -/

/-- HEN_CFG (R327). -/
abbrev A.HEN_CFG : Nat := 0x4000
abbrev F.HEN_CFG_HORIZON : Fld := ⟨0x4000, 0x0, 9, 0⟩
/-- HEN_UP (R335). -/
abbrev A.HEN_UP : Nat := 0x4001
abbrev F.HEN_UP_KEEP : Fld := ⟨0x4001, 0x0, 15, 0⟩
abbrev F.HEN_UP_AUDNOW : Fld := ⟨0x4001, 0x0, 16, 16⟩
/-- HEN_UPSTAT (R334). -/
abbrev A.HEN_UPSTAT : Nat := 0x4002
abbrev F.HEN_UPSTAT_BAL : Fld := ⟨0x4002, 0x0, 15, 0⟩
abbrev F.HEN_UPSTAT_PORT : Fld := ⟨0x4002, 0x0, 16, 16⟩
abbrev F.HEN_UPSTAT_LOSTDL : Fld := ⟨0x4002, 0x0, 31, 17⟩
/-- HEN_CLAIM (R348). -/
abbrev A.HEN_CLAIM : Nat := 0x4003
abbrev F.HEN_CLAIM_CLAIM0 : Fld := ⟨0x4003, 0x0, 15, 0⟩
abbrev F.HEN_CLAIM_CLAIM1 : Fld := ⟨0x4003, 0x0, 31, 16⟩
/-- HEN_STAT (R327). -/
abbrev A.HEN_STAT : Nat := 0x4004
abbrev F.HEN_STAT_ACTIVE : Fld := ⟨0x4004, 0x0, 3, 0⟩
abbrev F.HEN_STAT_WAIT : Fld := ⟨0x4004, 0x0, 4, 4⟩
abbrev F.HEN_STAT_NOCRED : Fld := ⟨0x4004, 0x0, 5, 5⟩
/-- HEN_LATE (R328). -/
abbrev A.HEN_LATE : Nat := 0x4008
abbrev F.HEN_LATE_COUNT : Fld := ⟨0x4008, 0x0, 15, 0⟩
abbrev F.HEN_LATE_SAT : Fld := ⟨0x4008, 0x0, 31, 31⟩
/-- HEN_AUDCNT (R345). -/
abbrev A.HEN_AUDCNT : Nat := 0x4009
abbrev F.HEN_AUDCNT_COUNT : Fld := ⟨0x4009, 0x0, 15, 0⟩
abbrev F.HEN_AUDCNT_SAT : Fld := ⟨0x4009, 0x0, 31, 31⟩
/-- HEN_PCFG (R336). -/
abbrev A.HEN_PCFG : Nat := 0x4010
abbrev F.HEN_PCFG_CAPL : Fld := ⟨0x4010, 0x10, 9, 0⟩
/-- HEN_PSTAT (R337). -/
abbrev A.HEN_PSTAT : Nat := 0x4011
abbrev F.HEN_PSTAT_OUTST : Fld := ⟨0x4011, 0x10, 15, 0⟩
abbrev F.HEN_PSTAT_HELD : Fld := ⟨0x4011, 0x10, 28, 16⟩
/-- HEN_PGRANT (R337). -/
abbrev A.HEN_PGRANT : Nat := 0x4012
abbrev F.HEN_PGRANT_GRANTED : Fld := ⟨0x4012, 0x10, 31, 0⟩
/-- HEN_PRECV (R338). -/
abbrev A.HEN_PRECV : Nat := 0x4013
abbrev F.HEN_PRECV_RECEIVED : Fld := ⟨0x4013, 0x10, 31, 0⟩
/-- HEN_PRET (R345). -/
abbrev A.HEN_PRET : Nat := 0x4014
abbrev F.HEN_PRET_RETURNED : Fld := ⟨0x4014, 0x10, 31, 0⟩
/-- HEN_PAUD (R345). -/
abbrev A.HEN_PAUD : Nat := 0x4015
abbrev F.HEN_PAUD_DG : Fld := ⟨0x4015, 0x10, 15, 0⟩
abbrev F.HEN_PAUD_DU : Fld := ⟨0x4015, 0x10, 31, 16⟩
/-- HEN_PVIOL (R338). -/
abbrev A.HEN_PVIOL : Nat := 0x4018
abbrev F.HEN_PVIOL_COUNT : Fld := ⟨0x4018, 0x10, 15, 0⟩
abbrev F.HEN_PVIOL_SAT : Fld := ⟨0x4018, 0x10, 31, 31⟩
/-- HEN_CDROP (R339). -/
abbrev A.HEN_CDROP : Nat := 0x4019
abbrev F.HEN_CDROP_COUNT : Fld := ⟨0x4019, 0x10, 15, 0⟩
abbrev F.HEN_CDROP_SAT : Fld := ⟨0x4019, 0x10, 31, 31⟩
/-- HEN_MALF (R340). -/
abbrev A.HEN_MALF : Nat := 0x401a
abbrev F.HEN_MALF_COUNT : Fld := ⟨0x401a, 0x10, 15, 0⟩
abbrev F.HEN_MALF_SAT : Fld := ⟨0x401a, 0x10, 31, 31⟩
/-- HEN_AUDERR (R346). -/
abbrev A.HEN_AUDERR : Nat := 0x401b
abbrev F.HEN_AUDERR_COUNT : Fld := ⟨0x401b, 0x10, 15, 0⟩
abbrev F.HEN_AUDERR_SAT : Fld := ⟨0x401b, 0x10, 31, 31⟩
/-- HEN_CNTCLR (R8). -/
abbrev A.HEN_CNTCLR : Nat := 0x400f
abbrev F.HEN_CNTCLR_HUB : Fld := ⟨0x400f, 0x0, 1, 0⟩
abbrev F.HEN_CNTCLR_PORT : Fld := ⟨0x400f, 0x0, 17, 2⟩

/-! ### 12_serial_lanes.md -/

/-- LN_TX (R356). -/
abbrev A.LN_TX : Nat := 0x2001
abbrev F.LN_TX_PRE : Fld := ⟨0x2001, 0x100, 5, 0⟩
abbrev F.LN_TX_MAIN : Fld := ⟨0x2001, 0x100, 13, 8⟩
abbrev F.LN_TX_POST : Fld := ⟨0x2001, 0x100, 21, 16⟩
/-- LN_RX (R356). -/
abbrev A.LN_RX : Nat := 0x2002
abbrev F.LN_RX_CTLE : Fld := ⟨0x2002, 0x100, 3, 0⟩
/-- LN_STAT (R357-R380). -/
abbrev A.LN_STAT : Nat := 0x2003
abbrev F.LN_STAT_SIG : Fld := ⟨0x2003, 0x100, 0, 0⟩
abbrev F.LN_STAT_LOCK : Fld := ⟨0x2003, 0x100, 1, 1⟩
abbrev F.LN_STAT_ALIGNED : Fld := ⟨0x2003, 0x100, 2, 2⟩
abbrev F.LN_STAT_TRAINED : Fld := ⟨0x2003, 0x100, 3, 3⟩
abbrev F.LN_STAT_FENCED : Fld := ⟨0x2003, 0x100, 4, 4⟩
abbrev F.LN_STAT_WINFULL : Fld := ⟨0x2003, 0x100, 5, 5⟩
abbrev F.LN_STAT_REPLAYING : Fld := ⟨0x2003, 0x100, 6, 6⟩
abbrev F.LN_STAT_INJ_BUSY : Fld := ⟨0x2003, 0x100, 7, 7⟩
abbrev F.LN_STAT_TXSEQ : Fld := ⟨0x2003, 0x100, 15, 8⟩
abbrev F.LN_STAT_ACKSEQ : Fld := ⟨0x2003, 0x100, 23, 16⟩
abbrev F.LN_STAT_UNACK : Fld := ⟨0x2003, 0x100, 31, 24⟩
/-- LN_CAUSE (R380). -/
abbrev A.LN_CAUSE : Nat := 0x2004
abbrev F.LN_CAUSE_CAUSE : Fld := ⟨0x2004, 0x100, 2, 0⟩
/-- LN_FECCOR (R369). -/
abbrev A.LN_FECCOR : Nat := 0x2008
abbrev F.LN_FECCOR_COUNT : Fld := ⟨0x2008, 0x100, 15, 0⟩
abbrev F.LN_FECCOR_SAT : Fld := ⟨0x2008, 0x100, 31, 31⟩
/-- LN_FECUNC (R369). -/
abbrev A.LN_FECUNC : Nat := 0x2009
abbrev F.LN_FECUNC_COUNT : Fld := ⟨0x2009, 0x100, 15, 0⟩
abbrev F.LN_FECUNC_SAT : Fld := ⟨0x2009, 0x100, 31, 31⟩
/-- LN_REPLAY (R374). -/
abbrev A.LN_REPLAY : Nat := 0x200a
abbrev F.LN_REPLAY_COUNT : Fld := ⟨0x200a, 0x100, 15, 0⟩
abbrev F.LN_REPLAY_SAT : Fld := ⟨0x200a, 0x100, 31, 31⟩
/-- LN_NAKTX (R372). -/
abbrev A.LN_NAKTX : Nat := 0x200b
abbrev F.LN_NAKTX_COUNT : Fld := ⟨0x200b, 0x100, 15, 0⟩
abbrev F.LN_NAKTX_SAT : Fld := ⟨0x200b, 0x100, 31, 31⟩
/-- LN_DUPDROP (R382). -/
abbrev A.LN_DUPDROP : Nat := 0x200c
abbrev F.LN_DUPDROP_COUNT : Fld := ⟨0x200c, 0x100, 15, 0⟩
abbrev F.LN_DUPDROP_SAT : Fld := ⟨0x200c, 0x100, 31, 31⟩
/-- LN_BADKIND (R361). -/
abbrev A.LN_BADKIND : Nat := 0x200d
abbrev F.LN_BADKIND_COUNT : Fld := ⟨0x200d, 0x100, 15, 0⟩
abbrev F.LN_BADKIND_SAT : Fld := ⟨0x200d, 0x100, 31, 31⟩
/-- LN_FCDROP (R354). -/
abbrev A.LN_FCDROP : Nat := 0x200e
abbrev F.LN_FCDROP_COUNT : Fld := ⟨0x200e, 0x100, 15, 0⟩
abbrev F.LN_FCDROP_SAT : Fld := ⟨0x200e, 0x100, 31, 31⟩
/-- LN_CNTCLR (R8). -/
abbrev A.LN_CNTCLR : Nat := 0x200f
abbrev F.LN_CNTCLR_CLR : Fld := ⟨0x200f, 0x100, 6, 0⟩
/-- LN_PRBS (R384). -/
abbrev A.LN_PRBS : Nat := 0x2010
abbrev F.LN_PRBS_PAT : Fld := ⟨0x2010, 0x100, 1, 0⟩
abbrev F.LN_PRBS_INV : Fld := ⟨0x2010, 0x100, 2, 2⟩
abbrev F.LN_PRBS_GEN_EN : Fld := ⟨0x2010, 0x100, 4, 4⟩
abbrev F.LN_PRBS_CHK_EN : Fld := ⟨0x2010, 0x100, 5, 5⟩
abbrev F.LN_PRBS_CHK_LOCK : Fld := ⟨0x2010, 0x100, 8, 8⟩
/-- LN_BERR (R385). -/
abbrev A.LN_BERR : Nat := 0x2011
abbrev F.LN_BERR_ERRORS : Fld := ⟨0x2011, 0x100, 31, 0⟩
/-- LN_BITS_LO (R385). -/
abbrev A.LN_BITS_LO : Nat := 0x2012
abbrev F.LN_BITS_LO_V : Fld := ⟨0x2012, 0x100, 31, 0⟩
/-- LN_BITS_HI (R385). -/
abbrev A.LN_BITS_HI : Nat := 0x2013
abbrev F.LN_BITS_HI_V : Fld := ⟨0x2013, 0x100, 15, 0⟩
/-- LN_INJ (R386). -/
abbrev A.LN_INJ : Nat := 0x2014
abbrev F.LN_INJ_MODE : Fld := ⟨0x2014, 0x100, 1, 0⟩
abbrev F.LN_INJ_LEN : Fld := ⟨0x2014, 0x100, 14, 8⟩
abbrev F.LN_INJ_COUNT : Fld := ⟨0x2014, 0x100, 27, 16⟩
abbrev F.LN_INJ_GO : Fld := ⟨0x2014, 0x100, 31, 31⟩
/-- LN_INJPOS (R386). -/
abbrev A.LN_INJPOS : Nat := 0x2015
abbrev F.LN_INJPOS_POS : Fld := ⟨0x2015, 0x100, 8, 0⟩
abbrev F.LN_INJPOS_BYTE : Fld := ⟨0x2015, 0x100, 21, 16⟩
abbrev F.LN_INJPOS_NBYTE : Fld := ⟨0x2015, 0x100, 27, 24⟩

/-! ### 13_command_packets_and_replies.md -/

/-- ATTN_STAT (R407-R410). -/
abbrev A.ATTN_STAT : Nat := 0x400
abbrev F.ATTN_STAT_STICKY : Fld := ⟨0x400, 0x0, 14, 2⟩
abbrev F.ATTN_STAT_ATTN : Fld := ⟨0x400, 0x0, 15, 15⟩
/-- ATTN_EN (R410). -/
abbrev A.ATTN_EN : Nat := 0x401
abbrev F.ATTN_EN_EN : Fld := ⟨0x401, 0x0, 14, 2⟩
/-- CP_CFG (R397). -/
abbrev A.CP_CFG : Nat := 0x402
abbrev F.CP_CFG_LIMIT : Fld := ⟨0x402, 0x0, 23, 0⟩
/-- CP_STAT (R394-R396). -/
abbrev A.CP_STAT : Nat := 0x403
abbrev F.CP_STAT_WAITING : Fld := ⟨0x403, 0x0, 2, 0⟩
abbrev F.CP_STAT_EXEC : Fld := ⟨0x403, 0x0, 3, 3⟩
abbrev F.CP_STAT_LANE_VALID : Fld := ⟨0x403, 0x0, 4, 4⟩
abbrev F.CP_STAT_TETH_VALID : Fld := ⟨0x403, 0x0, 5, 5⟩
abbrev F.CP_STAT_LANE_SEQ : Fld := ⟨0x403, 0x0, 19, 8⟩
abbrev F.CP_STAT_TETH_SEQ : Fld := ⟨0x403, 0x0, 31, 20⟩
/-- CP_EXEC (R396). -/
abbrev A.CP_EXEC : Nat := 0x408
abbrev F.CP_EXEC_COUNT : Fld := ⟨0x408, 0x0, 15, 0⟩
abbrev F.CP_EXEC_SAT : Fld := ⟨0x408, 0x0, 31, 31⟩
/-- CP_FWD (R393). -/
abbrev A.CP_FWD : Nat := 0x409
abbrev F.CP_FWD_COUNT : Fld := ⟨0x409, 0x0, 15, 0⟩
abbrev F.CP_FWD_SAT : Fld := ⟨0x409, 0x0, 31, 31⟩
/-- CP_TIMEOUT (R397). -/
abbrev A.CP_TIMEOUT : Nat := 0x40a
abbrev F.CP_TIMEOUT_COUNT : Fld := ⟨0x40a, 0x0, 15, 0⟩
abbrev F.CP_TIMEOUT_SAT : Fld := ⟨0x40a, 0x0, 31, 31⟩
/-- CP_ADISC (R400). -/
abbrev A.CP_ADISC : Nat := 0x40b
abbrev F.CP_ADISC_COUNT : Fld := ⟨0x40b, 0x0, 15, 0⟩
abbrev F.CP_ADISC_SAT : Fld := ⟨0x40b, 0x0, 31, 31⟩
/-- PV_CNT (R412). -/
abbrev A.PV_CNT : Nat := 0x410
abbrev F.PV_CNT_COUNT : Fld := ⟨0x410, 0x1, 15, 0⟩
abbrev F.PV_CNT_SAT : Fld := ⟨0x410, 0x1, 31, 31⟩
/-- CP_CNTCLR (R8). -/
abbrev A.CP_CNTCLR : Nat := 0x41f
abbrev F.CP_CNTCLR_CP : Fld := ⟨0x41f, 0x0, 3, 0⟩
abbrev F.CP_CNTCLR_PV : Fld := ⟨0x41f, 0x0, 14, 4⟩
abbrev F.CP_CNTCLR_LOG : Fld := ⟨0x41f, 0x0, 15, 15⟩
/-- RSLOT_DESC (R222-R227). -/
abbrev A.RSLOT_DESC : Nat := 0x420
abbrev F.RSLOT_DESC_TAG : Fld := ⟨0x420, 0x1, 11, 0⟩
abbrev F.RSLOT_DESC_STATE : Fld := ⟨0x420, 0x1, 13, 12⟩
abbrev F.RSLOT_DESC_WCOUNT : Fld := ⟨0x420, 0x1, 21, 16⟩
abbrev F.RSLOT_DESC_EXC : Fld := ⟨0x420, 0x1, 31, 24⟩
/-- PV_LOG (R413). -/
abbrev A.PV_LOG : Nat := 0x440
abbrev F.PV_LOG_ENTRY : Fld := ⟨0x440, 0x1, 31, 0⟩
/-- PV_HEAD (R413). -/
abbrev A.PV_HEAD : Nat := 0x460
abbrev F.PV_HEAD_NEXT : Fld := ⟨0x460, 0x0, 3, 0⟩
abbrev F.PV_HEAD_WRAPPED : Fld := ⟨0x460, 0x0, 4, 4⟩
/-- RSLOT_VAL (R224). -/
abbrev A.RSLOT_VAL : Nat := 0x600
abbrev F.RSLOT_VAL_VALUE : Fld := ⟨0x600, 0x1, 31, 0⟩

/-! ### 15_calibration.md -/

/-- CAL_CMD (R448). -/
abbrev A.CAL_CMD : Nat := 0x60880
abbrev F.CAL_CMD_PROC : Fld := ⟨0x60880, 0x0, 3, 0⟩
abbrev F.CAL_CMD_APPLY : Fld := ⟨0x60880, 0x0, 4, 4⟩
abbrev F.CAL_CMD_ABORT : Fld := ⟨0x60880, 0x0, 5, 5⟩
abbrev F.CAL_CMD_LANE : Fld := ⟨0x60880, 0x0, 12, 8⟩
abbrev F.CAL_CMD_GMASK : Fld := ⟨0x60880, 0x0, 31, 16⟩
/-- CAL_STAT (R448). -/
abbrev A.CAL_STAT : Nat := 0x60881
abbrev F.CAL_STAT_BUSY : Fld := ⟨0x60881, 0x0, 0, 0⟩
abbrev F.CAL_STAT_DONE : Fld := ⟨0x60881, 0x0, 1, 1⟩
abbrev F.CAL_STAT_FAIL : Fld := ⟨0x60881, 0x0, 2, 2⟩
abbrev F.CAL_STAT_ABORTED : Fld := ⟨0x60881, 0x0, 3, 3⟩
abbrev F.CAL_STAT_REJ : Fld := ⟨0x60881, 0x0, 4, 4⟩
abbrev F.CAL_STAT_PROC : Fld := ⟨0x60881, 0x0, 11, 8⟩
abbrev F.CAL_STAT_NFAIL : Fld := ⟨0x60881, 0x0, 31, 16⟩
/-- CAL_REF (R456). -/
abbrev A.CAL_REF : Nat := 0x60882
abbrev F.CAL_REF_TREF : Fld := ⟨0x60882, 0x0, 15, 0⟩
abbrev F.CAL_REF_PREF : Fld := ⟨0x60882, 0x0, 31, 16⟩
/-- CAL_ROLL (R461). -/
abbrev A.CAL_ROLL : Nat := 0x60883
abbrev F.CAL_ROLL_GMASK : Fld := ⟨0x60883, 0x0, 15, 0⟩
abbrev F.CAL_ROLL_SELFORB : Fld := ⟨0x60883, 0x0, 19, 16⟩
/-- CAL_QSEL (R453). -/
abbrev A.CAL_QSEL : Nat := 0x60884
abbrev F.CAL_QSEL_KIND : Fld := ⟨0x60884, 0x0, 1, 0⟩
abbrev F.CAL_QSEL_INDEX : Fld := ⟨0x60884, 0x0, 25, 16⟩
/-- CAL_XO (R446). -/
abbrev A.CAL_XO : Nat := 0x60885
abbrev F.CAL_XO_PPM : Fld := ⟨0x60885, 0x0, 15, 0⟩
abbrev F.CAL_XO_VALID : Fld := ⟨0x60885, 0x0, 16, 16⟩
/-- CAL_APOFS (R448). -/
abbrev A.CAL_APOFS : Nat := 0x60886
abbrev F.CAL_APOFS_APOFS : Fld := ⟨0x60886, 0x0, 15, 0⟩
/-- CAL_QTDC (R453). -/
abbrev A.CAL_QTDC : Nat := 0x60888
abbrev F.CAL_QTDC_INLMAX : Fld := ⟨0x60888, 0x0, 7, 0⟩
abbrev F.CAL_QTDC_DNLMAX : Fld := ⟨0x60888, 0x0, 15, 8⟩
/-- CAL_QTHR (R455). -/
abbrev A.CAL_QTHR : Nat := 0x60889
abbrev F.CAL_QTHR_RMS : Fld := ⟨0x60889, 0x0, 15, 0⟩
abbrev F.CAL_QTHR_MAXABS : Fld := ⟨0x60889, 0x0, 31, 16⟩
/-- CAL_QPH (R453). -/
abbrev A.CAL_QPH : Nat := 0x6088a
abbrev F.CAL_QPH_RMS : Fld := ⟨0x6088a, 0x0, 7, 0⟩
/-- CAL_QGAIN (R453). -/
abbrev A.CAL_QGAIN : Nat := 0x6088b
abbrev F.CAL_QGAIN_MAX : Fld := ⟨0x6088b, 0x0, 15, 0⟩
/-- CAL_QLANE (R459). -/
abbrev A.CAL_QLANE : Nat := 0x6088c
abbrev F.CAL_QLANE_EYEW : Fld := ⟨0x6088c, 0x0, 7, 0⟩
abbrev F.CAL_QLANE_EYEH : Fld := ⟨0x6088c, 0x0, 17, 8⟩
/-- CAL_FCSKIP (R450). -/
abbrev A.CAL_FCSKIP : Nat := 0x60890
abbrev F.CAL_FCSKIP_COUNT : Fld := ⟨0x60890, 0x0, 15, 0⟩
abbrev F.CAL_FCSKIP_SAT : Fld := ⟨0x60890, 0x0, 31, 31⟩
/-- CAL_ROLLDONE (R461). -/
abbrev A.CAL_ROLLDONE : Nat := 0x60891
abbrev F.CAL_ROLLDONE_COUNT : Fld := ⟨0x60891, 0x0, 15, 0⟩
abbrev F.CAL_ROLLDONE_SAT : Fld := ⟨0x60891, 0x0, 31, 31⟩
/-- CAL_ROLLFAIL (R462). -/
abbrev A.CAL_ROLLFAIL : Nat := 0x60892
abbrev F.CAL_ROLLFAIL_COUNT : Fld := ⟨0x60892, 0x0, 15, 0⟩
abbrev F.CAL_ROLLFAIL_SAT : Fld := ⟨0x60892, 0x0, 31, 31⟩
/-- CAL_CNTCLR (R8). -/
abbrev A.CAL_CNTCLR : Nat := 0x60897
abbrev F.CAL_CNTCLR_CLR : Fld := ⟨0x60897, 0x0, 2, 0⟩
/-- CAL_QWIN (R453). -/
abbrev A.CAL_QWIN : Nat := 0x608c0
abbrev F.CAL_QWIN_W : Fld := ⟨0x608c0, 0x1, 31, 0⟩

/-! ### 16_fault_collection.md -/

/-- GS_CFG (R469). -/
abbrev A.GS_CFG : Nat := 0x800
abbrev F.GS_CFG_LOGCOR : Fld := ⟨0x800, 0x0, 0, 0⟩
abbrev F.GS_CFG_RLIMIT : Fld := ⟨0x800, 0x0, 15, 8⟩
/-- GS_QUIET (R480). -/
abbrev A.GS_QUIET : Nat := 0x801
abbrev F.GS_QUIET_MS : Fld := ⟨0x801, 0x0, 15, 0⟩
/-- GS_STAT (R480-R483). -/
abbrev A.GS_STAT : Nat := 0x802
abbrev F.GS_STAT_RECOV : Fld := ⟨0x802, 0x0, 7, 0⟩
abbrev F.GS_STAT_STUCK : Fld := ⟨0x802, 0x0, 8, 8⟩
abbrev F.GS_STAT_STANDING : Fld := ⟨0x802, 0x0, 9, 9⟩
abbrev F.GS_STAT_QUIET : Fld := ⟨0x802, 0x0, 10, 10⟩
abbrev F.GS_STAT_FENCED : Fld := ⟨0x802, 0x0, 23, 16⟩
/-- GS_CTL (R477). -/
abbrev A.GS_CTL : Nat := 0x803
abbrev F.GS_CTL_FECLR : Fld := ⟨0x803, 0x0, 0, 0⟩
abbrev F.GS_CTL_RINGCLR : Fld := ⟨0x803, 0x0, 1, 1⟩
/-- GS_UNFENCE (R476). -/
abbrev A.GS_UNFENCE : Nat := 0x804
abbrev F.GS_UNFENCE_UNIT : Fld := ⟨0x804, 0x0, 15, 0⟩
/-- FE_W (R477). -/
abbrev A.FE_W : Nat := 0x808
abbrev F.FE_W_W : Fld := ⟨0x808, 0x1, 31, 0⟩
/-- GS_RING (R478). -/
abbrev A.GS_RING : Nat := 0x810
abbrev F.GS_RING_NEXT : Fld := ⟨0x810, 0x0, 4, 0⟩
abbrev F.GS_RING_WRAPPED : Fld := ⟨0x810, 0x0, 5, 5⟩
/-- GS_CORCNT (R469). -/
abbrev A.GS_CORCNT : Nat := 0x814
abbrev F.GS_CORCNT_COUNT : Fld := ⟨0x814, 0x0, 15, 0⟩
abbrev F.GS_CORCNT_SAT : Fld := ⟨0x814, 0x0, 31, 31⟩
/-- GS_CONTCNT (R470). -/
abbrev A.GS_CONTCNT : Nat := 0x815
abbrev F.GS_CONTCNT_COUNT : Fld := ⟨0x815, 0x0, 15, 0⟩
abbrev F.GS_CONTCNT_SAT : Fld := ⟨0x815, 0x0, 31, 31⟩
/-- GS_FATCNT (R471). -/
abbrev A.GS_FATCNT : Nat := 0x816
abbrev F.GS_FATCNT_COUNT : Fld := ⟨0x816, 0x0, 15, 0⟩
abbrev F.GS_FATCNT_SAT : Fld := ⟨0x816, 0x0, 31, 31⟩
/-- GS_NOTSKIP (R479). -/
abbrev A.GS_NOTSKIP : Nat := 0x817
abbrev F.GS_NOTSKIP_COUNT : Fld := ⟨0x817, 0x0, 15, 0⟩
abbrev F.GS_NOTSKIP_SAT : Fld := ⟨0x817, 0x0, 31, 31⟩
/-- GS_CODECNT (R469-R472). -/
abbrev A.GS_CODECNT : Nat := 0x900
abbrev F.GS_CODECNT_COUNT : Fld := ⟨0x900, 0x1, 15, 0⟩
abbrev F.GS_CODECNT_SAT : Fld := ⟨0x900, 0x1, 31, 31⟩
/-- GS_CNTCLR (R8). -/
abbrev A.GS_CNTCLR : Nat := 0x81f
abbrev F.GS_CNTCLR_CLR : Fld := ⟨0x81f, 0x0, 3, 0⟩
abbrev F.GS_CNTCLR_CODE : Fld := ⟨0x81f, 0x0, 4, 4⟩
/-- GS_RENT (R478). -/
abbrev A.GS_RENT : Nat := 0x840
abbrev F.GS_RENT_W : Fld := ⟨0x840, 0x1, 31, 0⟩

/-! ### 17_reserve_and_wear.md -/

/-- RS_VETO (R485-R490). -/
abbrev A.RS_VETO : Nat := 0x63000
abbrev F.RS_VETO_DSLOT : Fld := ⟨0x63000, 0x0, 0, 0⟩
abbrev F.RS_VETO_TDC : Fld := ⟨0x63000, 0x0, 1, 1⟩
abbrev F.RS_VETO_OX : Fld := ⟨0x63000, 0x0, 2, 2⟩
abbrev F.RS_VETO_ROW : Fld := ⟨0x63000, 0x0, 3, 3⟩
abbrev F.RS_VETO_LANE : Fld := ⟨0x63000, 0x0, 4, 4⟩
abbrev F.RS_VETO_PREV : Fld := ⟨0x63000, 0x0, 8, 8⟩
/-- RS_POLICY (R487). -/
abbrev A.RS_POLICY : Nat := 0x63001
abbrev F.RS_POLICY_KEEPD : Fld := ⟨0x63001, 0x0, 1, 0⟩
abbrev F.RS_POLICY_ROWCOR : Fld := ⟨0x63001, 0x0, 7, 4⟩
abbrev F.RS_POLICY_EYEMIN : Fld := ⟨0x63001, 0x0, 15, 8⟩
abbrev F.RS_POLICY_ADRIFT : Fld := ⟨0x63001, 0x0, 23, 16⟩
/-- RS_THR (R492). -/
abbrev A.RS_THR : Nat := 0x63002
abbrev F.RS_THR_DOSE : Fld := ⟨0x63002, 0x0, 11, 0⟩
abbrev F.RS_THR_LEAK : Fld := ⟨0x63002, 0x0, 21, 12⟩
abbrev F.RS_THR_FELEAK : Fld := ⟨0x63002, 0x0, 31, 22⟩
/-- RS_STAT (R485-R498). -/
abbrev A.RS_STAT : Nat := 0x63003
abbrev F.RS_STAT_PREP : Fld := ⟨0x63003, 0x0, 0, 0⟩
abbrev F.RS_STAT_HOLDWAIT : Fld := ⟨0x63003, 0x0, 1, 1⟩
abbrev F.RS_STAT_OXG : Fld := ⟨0x63003, 0x0, 12, 8⟩
abbrev F.RS_STAT_LOADWAIT : Fld := ⟨0x63003, 0x0, 13, 13⟩
abbrev F.RS_STAT_BCFREE : Fld := ⟨0x63003, 0x0, 16, 16⟩
/-- RS_WEAR (R493). -/
abbrev A.RS_WEAR : Nat := 0x63004
abbrev F.RS_WEAR_WEAR : Fld := ⟨0x63004, 0x0, 7, 0⟩
/-- RS_BRINGIN (R485). -/
abbrev A.RS_BRINGIN : Nat := 0x63008
abbrev F.RS_BRINGIN_COUNT : Fld := ⟨0x63008, 0x0, 15, 0⟩
abbrev F.RS_BRINGIN_SAT : Fld := ⟨0x63008, 0x0, 31, 31⟩
/-- RS_RETIRE (R488). -/
abbrev A.RS_RETIRE : Nat := 0x63009
abbrev F.RS_RETIRE_COUNT : Fld := ⟨0x63009, 0x0, 15, 0⟩
abbrev F.RS_RETIRE_SAT : Fld := ⟨0x63009, 0x0, 31, 31⟩
/-- RS_VETOED (R485). -/
abbrev A.RS_VETOED : Nat := 0x6300a
abbrev F.RS_VETOED_COUNT : Fld := ⟨0x6300a, 0x0, 15, 0⟩
abbrev F.RS_VETOED_SAT : Fld := ⟨0x6300a, 0x0, 31, 31⟩
/-- RS_NOSPARE (R485). -/
abbrev A.RS_NOSPARE : Nat := 0x6300b
abbrev F.RS_NOSPARE_COUNT : Fld := ⟨0x6300b, 0x0, 15, 0⟩
abbrev F.RS_NOSPARE_SAT : Fld := ⟨0x6300b, 0x0, 31, 31⟩
/-- RS_CNTCLR (R8). -/
abbrev A.RS_CNTCLR : Nat := 0x6300f
abbrev F.RS_CNTCLR_CLR : Fld := ⟨0x6300f, 0x0, 3, 0⟩
/-- RS_DOSE (R492). -/
abbrev A.RS_DOSE : Nat := 0x63010
abbrev F.RS_DOSE_SHIFT : Fld := ⟨0x63010, 0x1, 15, 0⟩
/-- RS_DOSEREF (R492). -/
abbrev A.RS_DOSEREF : Nat := 0x63018
abbrev F.RS_DOSEREF_REF : Fld := ⟨0x63018, 0x1, 23, 0⟩
/-- RS_LEAK (R492). -/
abbrev A.RS_LEAK : Nat := 0x63020
abbrev F.RS_LEAK_CURR : Fld := ⟨0x63020, 0x1, 15, 0⟩
/-- RS_ROWSEL (R491). -/
abbrev A.RS_ROWSEL : Nat := 0x63028
abbrev F.RS_ROWSEL_MEM : Fld := ⟨0x63028, 0x0, 9, 0⟩
/-- RS_LANE (R383). -/
abbrev A.RS_LANE : Nat := 0x63030
abbrev F.RS_LANE_LANE : Fld := ⟨0x63030, 0x1, 4, 0⟩
abbrev F.RS_LANE_ROLE : Fld := ⟨0x63030, 0x1, 6, 5⟩
abbrev F.RS_LANE_PORT : Fld := ⟨0x63030, 0x1, 9, 8⟩
abbrev F.RS_LANE_VALID : Fld := ⟨0x63030, 0x1, 15, 15⟩
abbrev F.RS_LANE_SERVES : Fld := ⟨0x63030, 0x1, 20, 16⟩
/-- RS_CHMAP (R91-R95). -/
abbrev A.RS_CHMAP : Nat := 0x63100
abbrev F.RS_CHMAP_SERVE : Fld := ⟨0x63100, 0x1, 5, 0⟩
abbrev F.RS_CHMAP_SHADOW : Fld := ⟨0x63100, 0x1, 13, 8⟩
abbrev F.RS_CHMAP_SPARE : Fld := ⟨0x63100, 0x1, 16, 16⟩
/-- RS_DSLOT (R485-R491). -/
abbrev A.RS_DSLOT : Nat := 0x63400
abbrev F.RS_DSLOT_STATE : Fld := ⟨0x63400, 0x1, 1, 0⟩
abbrev F.RS_DSLOT_FENCED : Fld := ⟨0x63400, 0x1, 2, 2⟩
abbrev F.RS_DSLOT_RETIRED : Fld := ⟨0x63400, 0x1, 3, 3⟩
abbrev F.RS_DSLOT_LINE : Fld := ⟨0x63400, 0x1, 4, 4⟩
abbrev F.RS_DSLOT_L0F : Fld := ⟨0x63400, 0x1, 5, 5⟩
abbrev F.RS_DSLOT_L1F : Fld := ⟨0x63400, 0x1, 6, 6⟩
abbrev F.RS_DSLOT_DREP : Fld := ⟨0x63400, 0x1, 8, 8⟩
abbrev F.RS_DSLOT_TREP : Fld := ⟨0x63400, 0x1, 9, 9⟩
/-- RS_ROWMAP (R491). -/
abbrev A.RS_ROWMAP : Nat := 0x63800
abbrev F.RS_ROWMAP_ROW : Fld := ⟨0x63800, 0x1, 10, 0⟩
abbrev F.RS_ROWMAP_STATE : Fld := ⟨0x63800, 0x1, 13, 12⟩
abbrev F.RS_ROWMAP_REP : Fld := ⟨0x63800, 0x1, 14, 14⟩

/-! ### 18_twin_operation.md -/

/-- TW_CFG (R504-R518). -/
abbrev A.TW_CFG : Nat := 0x62200
abbrev F.TW_CFG_EN : Fld := ⟨0x62200, 0x0, 0, 0⟩
abbrev F.TW_CFG_UNIT : Fld := ⟨0x62200, 0x0, 1, 1⟩
abbrev F.TW_CFG_LEAD : Fld := ⟨0x62200, 0x0, 2, 2⟩
abbrev F.TW_CFG_AUTO : Fld := ⟨0x62200, 0x0, 3, 3⟩
abbrev F.TW_CFG_AUTOJOIN : Fld := ⟨0x62200, 0x0, 4, 4⟩
abbrev F.TW_CFG_ALIGN : Fld := ⟨0x62200, 0x0, 13, 8⟩
abbrev F.TW_CFG_COPYMAX : Fld := ⟨0x62200, 0x0, 23, 16⟩
/-- TW_CLAIM (R519). -/
abbrev A.TW_CLAIM : Nat := 0x62201
abbrev F.TW_CLAIM_EPOCH : Fld := ⟨0x62201, 0x0, 11, 0⟩
abbrev F.TW_CLAIM_RANK : Fld := ⟨0x62201, 0x0, 15, 12⟩
abbrev F.TW_CLAIM_CUR : Fld := ⟨0x62201, 0x0, 31, 16⟩
/-- TW_CTL (R516). -/
abbrev A.TW_CTL : Nat := 0x62202
abbrev F.TW_CTL_REJOIN : Fld := ⟨0x62202, 0x0, 0, 0⟩
abbrev F.TW_CTL_HREQ : Fld := ⟨0x62202, 0x0, 1, 1⟩
/-- TW_STAT (R516-R519). -/
abbrev A.TW_STAT : Nat := 0x62203
abbrev F.TW_STAT_STATE : Fld := ⟨0x62203, 0x0, 2, 0⟩
abbrev F.TW_STAT_PEER : Fld := ⟨0x62203, 0x0, 3, 3⟩
abbrev F.TW_STAT_HEALTHY : Fld := ⟨0x62203, 0x0, 4, 4⟩
abbrev F.TW_STAT_PCLAIM : Fld := ⟨0x62203, 0x0, 31, 16⟩
/-- TW_USTAT (R508). -/
abbrev A.TW_USTAT : Nat := 0x62204
abbrev F.TW_USTAT_STATE : Fld := ⟨0x62204, 0x1, 2, 0⟩
abbrev F.TW_USTAT_CLAIM : Fld := ⟨0x62204, 0x1, 31, 16⟩
/-- TW_COPY (R524). -/
abbrev A.TW_COPY : Nat := 0x62206
abbrev F.TW_COPY_WORDS : Fld := ⟨0x62206, 0x0, 19, 0⟩
abbrev F.TW_COPY_ORBITS : Fld := ⟨0x62206, 0x0, 27, 20⟩
/-- TW_TAKES (R519). -/
abbrev A.TW_TAKES : Nat := 0x62208
abbrev F.TW_TAKES_COUNT : Fld := ⟨0x62208, 0x0, 15, 0⟩
abbrev F.TW_TAKES_SAT : Fld := ⟨0x62208, 0x0, 31, 31⟩
/-- TW_HASHERR (R514). -/
abbrev A.TW_HASHERR : Nat := 0x62209
abbrev F.TW_HASHERR_COUNT : Fld := ⟨0x62209, 0x0, 15, 0⟩
abbrev F.TW_HASHERR_SAT : Fld := ⟨0x62209, 0x0, 31, 31⟩
/-- TW_MISSED (R514). -/
abbrev A.TW_MISSED : Nat := 0x6220a
abbrev F.TW_MISSED_COUNT : Fld := ⟨0x6220a, 0x0, 15, 0⟩
abbrev F.TW_MISSED_SAT : Fld := ⟨0x6220a, 0x0, 31, 31⟩
/-- TW_TAKEIGN (R518). -/
abbrev A.TW_TAKEIGN : Nat := 0x6220b
abbrev F.TW_TAKEIGN_COUNT : Fld := ⟨0x6220b, 0x0, 15, 0⟩
abbrev F.TW_TAKEIGN_SAT : Fld := ⟨0x6220b, 0x0, 31, 31⟩
/-- TW_COPYFAIL (R516). -/
abbrev A.TW_COPYFAIL : Nat := 0x6220c
abbrev F.TW_COPYFAIL_COUNT : Fld := ⟨0x6220c, 0x0, 15, 0⟩
abbrev F.TW_COPYFAIL_SAT : Fld := ⟨0x6220c, 0x0, 31, 31⟩
/-- TW_CNTCLR (R8). -/
abbrev A.TW_CNTCLR : Nat := 0x6220f
abbrev F.TW_CNTCLR_CLR : Fld := ⟨0x6220f, 0x0, 4, 0⟩

/-! ### 19_environmental_monitor.md -/

/-- MON_CTL (R528). -/
abbrev A.MON_CTL : Nat := 0x61000
abbrev F.MON_CTL_RUN : Fld := ⟨0x61000, 0x0, 0, 0⟩
abbrev F.MON_CTL_LEN : Fld := ⟨0x61000, 0x0, 13, 8⟩
abbrev F.MON_CTL_RESTART : Fld := ⟨0x61000, 0x0, 16, 16⟩
/-- MON_STAT (R528). -/
abbrev A.MON_STAT : Nat := 0x61001
abbrev F.MON_STAT_ENTRY : Fld := ⟨0x61001, 0x0, 4, 0⟩
abbrev F.MON_STAT_PHASE : Fld := ⟨0x61001, 0x0, 7, 5⟩
abbrev F.MON_STAT_PASSES : Fld := ⟨0x61001, 0x0, 31, 16⟩
/-- MON_WIN (R541). -/
abbrev A.MON_WIN : Nat := 0x61002
abbrev F.MON_WIN_LEFT : Fld := ⟨0x61002, 0x0, 31, 0⟩
/-- MON_BRK (R545). -/
abbrev A.MON_BRK : Nat := 0x61003
abbrev F.MON_BRK_BRK : Fld := ⟨0x61003, 0x0, 31, 0⟩
/-- MON_EXC (R533). -/
abbrev A.MON_EXC : Nat := 0x61004
abbrev F.MON_EXC_EN : Fld := ⟨0x61004, 0x0, 0, 0⟩
abbrev F.MON_EXC_CURR : Fld := ⟨0x61004, 0x0, 31, 16⟩
/-- MON_REC (R546). -/
abbrev A.MON_REC : Nat := 0x61005
abbrev F.MON_REC_PER_EN : Fld := ⟨0x61005, 0x0, 0, 0⟩
abbrev F.MON_REC_ON_WIN : Fld := ⟨0x61005, 0x0, 1, 1⟩
abbrev F.MON_REC_ON_BRK : Fld := ⟨0x61005, 0x0, 2, 2⟩
abbrev F.MON_REC_PERIOD : Fld := ⟨0x61005, 0x0, 15, 8⟩
/-- MON_BRKCNT (R545). -/
abbrev A.MON_BRKCNT : Nat := 0x61008
abbrev F.MON_BRKCNT_COUNT : Fld := ⟨0x61008, 0x0, 15, 0⟩
abbrev F.MON_BRKCNT_SAT : Fld := ⟨0x61008, 0x0, 31, 31⟩
/-- MON_WINCNT (R541). -/
abbrev A.MON_WINCNT : Nat := 0x61009
abbrev F.MON_WINCNT_COUNT : Fld := ⟨0x61009, 0x0, 15, 0⟩
abbrev F.MON_WINCNT_SAT : Fld := ⟨0x61009, 0x0, 31, 31⟩
/-- MON_OVRCNT (R531). -/
abbrev A.MON_OVRCNT : Nat := 0x6100a
abbrev F.MON_OVRCNT_COUNT : Fld := ⟨0x6100a, 0x0, 15, 0⟩
abbrev F.MON_OVRCNT_SAT : Fld := ⟨0x6100a, 0x0, 31, 31⟩
/-- MON_RECSKIP (R546). -/
abbrev A.MON_RECSKIP : Nat := 0x6100b
abbrev F.MON_RECSKIP_COUNT : Fld := ⟨0x6100b, 0x0, 15, 0⟩
abbrev F.MON_RECSKIP_SAT : Fld := ⟨0x6100b, 0x0, 31, 31⟩
/-- MON_CNTCLR (R8). -/
abbrev A.MON_CNTCLR : Nat := 0x6100f
abbrev F.MON_CNTCLR_CLR : Fld := ⟨0x6100f, 0x0, 3, 0⟩
/-- MON_SEQ (R528-R530). -/
abbrev A.MON_SEQ : Nat := 0x61100
abbrev F.MON_SEQ_CHAN : Fld := ⟨0x61100, 0x4, 5, 0⟩
abbrev F.MON_SEQ_MODE : Fld := ⟨0x61100, 0x4, 8, 6⟩
abbrev F.MON_SEQ_REF : Fld := ⟨0x61100, 0x4, 9, 9⟩
abbrev F.MON_SEQ_GAIN : Fld := ⟨0x61100, 0x4, 12, 10⟩
abbrev F.MON_SEQ_RATE : Fld := ⟨0x61100, 0x4, 15, 13⟩
abbrev F.MON_SEQ_DIS : Fld := ⟨0x61100, 0x4, 21, 16⟩
abbrev F.MON_SEQ_BRKCHK : Fld := ⟨0x61100, 0x4, 22, 22⟩
abbrev F.MON_SEQ_WEN : Fld := ⟨0x61100, 0x4, 23, 23⟩
abbrev F.MON_SEQ_EN : Fld := ⟨0x61100, 0x4, 24, 24⟩
/-- MON_WLO (R540). -/
abbrev A.MON_WLO : Nat := 0x61101
abbrev F.MON_WLO_V : Fld := ⟨0x61101, 0x4, 23, 0⟩
/-- MON_WHI (R540). -/
abbrev A.MON_WHI : Nat := 0x61102
abbrev F.MON_WHI_V : Fld := ⟨0x61102, 0x4, 23, 0⟩
/-- MON_RES (R531). -/
abbrev A.MON_RES : Nat := 0x61200
abbrev F.MON_RES_VALUE : Fld := ⟨0x61200, 0x1, 23, 0⟩
abbrev F.MON_RES_BREAK : Fld := ⟨0x61200, 0x1, 24, 24⟩
abbrev F.MON_RES_OVR : Fld := ⟨0x61200, 0x1, 25, 25⟩
abbrev F.MON_RES_OUT : Fld := ⟨0x61200, 0x1, 26, 26⟩
abbrev F.MON_RES_VALID : Fld := ⟨0x61200, 0x1, 27, 27⟩
abbrev F.MON_RES_SEQ : Fld := ⟨0x61200, 0x1, 31, 28⟩
/-- MON_ESTAT (R530). -/
abbrev A.MON_ESTAT : Nat := 0x61220
abbrev F.MON_ESTAT_BRK : Fld := ⟨0x61220, 0x1, 0, 0⟩
abbrev F.MON_ESTAT_INBAND : Fld := ⟨0x61220, 0x1, 1, 1⟩
abbrev F.MON_ESTAT_CFGERR : Fld := ⟨0x61220, 0x1, 2, 2⟩
abbrev F.MON_ESTAT_CAUSE : Fld := ⟨0x61220, 0x1, 9, 8⟩

/-! ### 20_bias_interlock.md -/

/-- ILK_STRAP (R551). -/
abbrev A.ILK_STRAP : Nat := 0x62000
abbrev F.ILK_STRAP_LATCHED : Fld := ⟨0x62000, 0x0, 5, 0⟩
abbrev F.ILK_STRAP_NOW : Fld := ⟨0x62000, 0x0, 13, 8⟩
abbrev F.ILK_STRAP_STRAPF : Fld := ⟨0x62000, 0x0, 16, 16⟩
/-- ILK_STAT (R549-R566). -/
abbrev A.ILK_STAT : Nat := 0x62001
abbrev F.ILK_STAT_CONTACTS : Fld := ⟨0x62001, 0x0, 3, 0⟩
abbrev F.ILK_STAT_OK : Fld := ⟨0x62001, 0x0, 5, 4⟩
abbrev F.ILK_STAT_SUT : Fld := ⟨0x62001, 0x0, 7, 6⟩
abbrev F.ILK_STAT_DISC : Fld := ⟨0x62001, 0x0, 9, 8⟩
abbrev F.ILK_STAT_LOCK : Fld := ⟨0x62001, 0x0, 11, 10⟩
abbrev F.ILK_STAT_EN : Fld := ⟨0x62001, 0x0, 13, 12⟩
abbrev F.ILK_STAT_FB : Fld := ⟨0x62001, 0x0, 15, 14⟩
abbrev F.ILK_STAT_CHAIN : Fld := ⟨0x62001, 0x0, 16, 16⟩
abbrev F.ILK_STAT_ILKOK : Fld := ⟨0x62001, 0x0, 17, 17⟩
abbrev F.ILK_STAT_S09OK : Fld := ⟨0x62001, 0x0, 18, 18⟩
abbrev F.ILK_STAT_INTF : Fld := ⟨0x62001, 0x0, 19, 19⟩
/-- ILK_REQ (R559). -/
abbrev A.ILK_REQ : Nat := 0x62002
abbrev F.ILK_REQ_MASK : Fld := ⟨0x62002, 0x0, 1, 0⟩
abbrev F.ILK_REQ_KEY : Fld := ⟨0x62002, 0x0, 31, 16⟩
/-- ILK_OFF (R562). -/
abbrev A.ILK_OFF : Nat := 0x62003
abbrev F.ILK_OFF_MASK : Fld := ⟨0x62003, 0x0, 1, 0⟩
/-- ILK_CLR (R564). -/
abbrev A.ILK_CLR : Nat := 0x62004
abbrev F.ILK_CLR_MASK : Fld := ⟨0x62004, 0x0, 1, 0⟩
/-- ILK_RC (R550). -/
abbrev A.ILK_RC : Nat := 0x62005
abbrev F.ILK_RC_TICK : Fld := ⟨0x62005, 0x0, 15, 0⟩
/-- ILK_CAUSE (R567). -/
abbrev A.ILK_CAUSE : Nat := 0x62006
abbrev F.ILK_CAUSE_CAUSE : Fld := ⟨0x62006, 0x0, 3, 0⟩
/-- ILK_DEMCNT (R558). -/
abbrev A.ILK_DEMCNT : Nat := 0x62008
abbrev F.ILK_DEMCNT_COUNT : Fld := ⟨0x62008, 0x0, 15, 0⟩
abbrev F.ILK_DEMCNT_SAT : Fld := ⟨0x62008, 0x0, 31, 31⟩
/-- ILK_REFCNT (R560). -/
abbrev A.ILK_REFCNT : Nat := 0x62009
abbrev F.ILK_REFCNT_COUNT : Fld := ⟨0x62009, 0x0, 15, 0⟩
abbrev F.ILK_REFCNT_SAT : Fld := ⟨0x62009, 0x0, 31, 31⟩
/-- ILK_FLTCNT (R567). -/
abbrev A.ILK_FLTCNT : Nat := 0x6200a
abbrev F.ILK_FLTCNT_COUNT : Fld := ⟨0x6200a, 0x0, 15, 0⟩
abbrev F.ILK_FLTCNT_SAT : Fld := ⟨0x6200a, 0x0, 31, 31⟩
/-- ILK_VOTEFIX (R566). -/
abbrev A.ILK_VOTEFIX : Nat := 0x6200b
abbrev F.ILK_VOTEFIX_COUNT : Fld := ⟨0x6200b, 0x0, 15, 0⟩
abbrev F.ILK_VOTEFIX_SAT : Fld := ⟨0x6200b, 0x0, 31, 31⟩
/-- ILK_CNTCLR (R8). -/
abbrev A.ILK_CNTCLR : Nat := 0x6200f
abbrev F.ILK_CNTCLR_CLR : Fld := ⟨0x6200f, 0x0, 3, 0⟩

/-! ### 21_tether_and_peripheral_ports.md -/

/-- TT_LEN (R573). -/
abbrev A.TT_LEN : Nat := 0x62100
abbrev F.TT_LEN_LEN : Fld := ⟨0x62100, 0x0, 12, 0⟩
/-- TT_STAT (R575). -/
abbrev A.TT_STAT : Nat := 0x62101
abbrev F.TT_STAT_REJCNT : Fld := ⟨0x62101, 0x0, 3, 0⟩
abbrev F.TT_STAT_LASTREJ : Fld := ⟨0x62101, 0x0, 11, 4⟩
abbrev F.TT_STAT_PKT : Fld := ⟨0x62101, 0x0, 12, 12⟩
abbrev F.TT_STAT_REPLIES : Fld := ⟨0x62101, 0x0, 15, 13⟩
/-- TT_FRAMES (R576). -/
abbrev A.TT_FRAMES : Nat := 0x62104
abbrev F.TT_FRAMES_COUNT : Fld := ⟨0x62104, 0x0, 15, 0⟩
abbrev F.TT_FRAMES_SAT : Fld := ⟨0x62104, 0x0, 31, 31⟩
/-- TT_REJCNT (R578). -/
abbrev A.TT_REJCNT : Nat := 0x62105
abbrev F.TT_REJCNT_COUNT : Fld := ⟨0x62105, 0x0, 15, 0⟩
abbrev F.TT_REJCNT_SAT : Fld := ⟨0x62105, 0x0, 31, 31⟩
/-- TT_CNTCLR (R8). -/
abbrev A.TT_CNTCLR : Nat := 0x62107
abbrev F.TT_CNTCLR_CLR : Fld := ⟨0x62107, 0x0, 1, 0⟩
/-- GPIO_DIR (R584). -/
abbrev A.GPIO_DIR : Nat := 0x62110
abbrev F.GPIO_DIR_DIR : Fld := ⟨0x62110, 0x0, 7, 0⟩
/-- GPIO_OUT (R584). -/
abbrev A.GPIO_OUT : Nat := 0x62111
abbrev F.GPIO_OUT_OUT : Fld := ⟨0x62111, 0x0, 7, 0⟩
/-- GPIO_SET (R584). -/
abbrev A.GPIO_SET : Nat := 0x62112
abbrev F.GPIO_SET_SET : Fld := ⟨0x62112, 0x0, 7, 0⟩
/-- GPIO_CLR (R584). -/
abbrev A.GPIO_CLR : Nat := 0x62113
abbrev F.GPIO_CLR_CLR : Fld := ⟨0x62113, 0x0, 7, 0⟩
/-- GPIO_IN (R584). -/
abbrev A.GPIO_IN : Nat := 0x62114
abbrev F.GPIO_IN_IN : Fld := ⟨0x62114, 0x0, 7, 0⟩
/-- PN_CFG (R579). -/
abbrev A.PN_CFG : Nat := 0x62120
abbrev F.PN_CFG_DIV : Fld := ⟨0x62120, 0x10, 7, 0⟩
abbrev F.PN_CFG_CPOL : Fld := ⟨0x62120, 0x10, 8, 8⟩
abbrev F.PN_CFG_CPHA : Fld := ⟨0x62120, 0x10, 9, 9⟩
abbrev F.PN_CFG_RDY_EN : Fld := ⟨0x62120, 0x10, 10, 10⟩
abbrev F.PN_CFG_PAGE : Fld := ⟨0x62120, 0x10, 11, 11⟩
abbrev F.PN_CFG_LEAD : Fld := ⟨0x62120, 0x10, 15, 12⟩
abbrev F.PN_CFG_TMO : Fld := ⟨0x62120, 0x10, 23, 16⟩
/-- PN_LEN (R580). -/
abbrev A.PN_LEN : Nat := 0x62121
abbrev F.PN_LEN_BITS : Fld := ⟨0x62121, 0x10, 12, 0⟩
/-- PN_CTL (R580). -/
abbrev A.PN_CTL : Nat := 0x62122
abbrev F.PN_CTL_GO : Fld := ⟨0x62122, 0x10, 0, 0⟩
abbrev F.PN_CTL_ABORT : Fld := ⟨0x62122, 0x10, 1, 1⟩
/-- PN_STAT (R580-R583). -/
abbrev A.PN_STAT : Nat := 0x62123
abbrev F.PN_STAT_BUSY : Fld := ⟨0x62123, 0x10, 0, 0⟩
abbrev F.PN_STAT_DONE : Fld := ⟨0x62123, 0x10, 1, 1⟩
abbrev F.PN_STAT_ABORTED : Fld := ⟨0x62123, 0x10, 2, 2⟩
abbrev F.PN_STAT_TIMEOUT : Fld := ⟨0x62123, 0x10, 3, 3⟩
abbrev F.PN_STAT_GOERR : Fld := ⟨0x62123, 0x10, 4, 4⟩
abbrev F.PN_STAT_WERR : Fld := ⟨0x62123, 0x10, 5, 5⟩
abbrev F.PN_STAT_BITS : Fld := ⟨0x62123, 0x10, 28, 16⟩
/-- PN_BUF (R583). -/
abbrev A.PN_BUF : Nat := 0x62180
abbrev F.PN_BUF_DATA : Fld := ⟨0x62180, 0x1, 31, 0⟩

end Sys2Proof.Machine
end

