-- ==== Sys2Proof/Machine/Store.lean ====
section
/-! DEFINITION. Sparse stores: how every table of like things is held in the state.

A store is a list of key and value pairs in one canonical form: keys strictly rising, and no entry equal to what an
unlisted key reads as. What an unlisted key reads as is the `d` of each operation. Equal contents are equal data. -/

namespace Sys2Proof.Machine

/-- A sparse table keyed by numbers. -/
abbrev Store (α : Type) := List (Nat × α)

/-- The value at key `k`; `d k` when the key is not listed. -/
def Store.get {α : Type} (d : Nat → α) (st : Store α) (k : Nat) : α :=
  match st with
  | [] => d k
  | (j, v) :: rest => if j = k then v else Store.get d rest k

/-- Adds an entry that is not listed yet, at its place. -/
def Store.ins {α : Type} (st : Store α) (k : Nat) (v : α) : Store α :=
  match st with
  | [] => [(k, v)]
  | (j, w) :: rest => if k < j then (k, v) :: (j, w) :: rest else (j, w) :: Store.ins rest k v

/-- Removes what is listed at key `k`. -/
def Store.del {α : Type} (st : Store α) (k : Nat) : Store α :=
  match st with
  | [] => []
  | (j, w) :: rest => if j = k then Store.del rest k else (j, w) :: Store.del rest k

/-- Writes `v` at key `k`; writing what an unlisted key reads as removes the entry. -/
def Store.set {α : Type} [DecidableEq α] (d : Nat → α) (st : Store α) (k : Nat) (v : α) : Store α :=
  if v = d k then Store.del st k else Store.ins (Store.del st k) k v

/-- Every key of the store is above `k`. -/
def Store.above {α : Type} (k : Nat) (st : Store α) : Bool :=
  st.all fun e => k < e.1

/-- The canonical form: keys strictly rising, no entry equal to what an unlisted key reads as. -/
def Store.wf {α : Type} [DecidableEq α] (d : Nat → α) (st : Store α) : Bool :=
  match st with
  | [] => true
  | (k, v) :: rest => decide (v ≠ d k) && Store.above k rest && Store.wf d rest

end Sys2Proof.Machine
end

