-- ==== Sys2Proof/Machine/RegTable.lean ====
section
/-! DEFINITION. The register tables of the spec (R6-R9): for every register its place, whether it is SETUP-only, and for
every field its access code and Load value. Machine/Ops.lean reads and writes registers from these rows alone.

The rows stand in the order of the chapters. Registers that a window shows (TDC_LINEOFS, TDC_LUT, CAL_QWIN, RS_ROWMAP,
PN_BUF) have rows for their place and access; what they show is held per unit (notes/assumptions/3.md). -/

namespace Sys2Proof.Machine

/-- The access codes of R8. -/
inductive Acc where
  | rw
  | ro
  | wo
  | w1c
  | sh
  | sn
  deriving DecidableEq, Repr

/-- The Load column. Most entries are a number; some depend on the instance; `keep` is "ret", cleared by power-on only. -/
inductive Load where
  | lit (v : Nat)
  | keep
  | index
  /-- Q_CFG.PROD (R268). -/
  | prod
  /-- CMP_CTXCFG.TYPE: 02h for k = 0, 03h for k = 1. -/
  | ctxType
  | firstTwo
  /-- RS_CHMAP.SERVE: c mod 32. -/
  | mod32
  /-- RS_DSLOT.STATE: serving for digitiser slots 0-31 of a group. -/
  | home
  | monChan
  | firstEight
  /-- CH_FIR.H_LO: 4000h in word 0. -/
  | fir
  /-- RS_COEF: the kernel of R602, lower or upper coefficient. -/
  | coef (upper : Bool)
  deriving DecidableEq, Repr

/-- One field of a register table. -/
structure FieldRow where
  hi : Nat
  lo : Nat
  acc : Acc
  load : Load
  deriving DecidableEq, Repr

/-- One register table: `count` instances, `stride` apart, of `width` words each. -/
structure Row where
  base : Nat
  count : Nat
  stride : Nat
  width : Nat
  setupOnly : Bool
  fields : List FieldRow
  deriving DecidableEq, Repr


/-- The Load kernel of R602, words 0 to 31 of RS_COEF. -/
def kernel0 : List Nat := [
  0x0, 0x40000000, 0x0, 0x0, 0x45ffed, 0x3ffbff26, 0xffb800e3, 0xfffe0014,
  0x88ffdb, 0x3fe7fe56, 0xff6e01ce, 0xfffb0029, 0xc9ffc9, 0x3fc6fd8e, 0xff2102c2, 0xfff8003f,
  0x106ffb9, 0x3f95fcd0, 0xfed203bf, 0xfff50056, 0x140ffaa, 0x3f58fc1b, 0xfe8204c3, 0xfff1006d,
  0x178ff9b, 0x3f0bfb70, 0xfe2f05d0, 0xffed0086, 0x1adff8e, 0x3eb0face, 0xfddb06e4, 0xffe9009f]

/-- The Load kernel of R602, words 32 to 63 of RS_COEF. -/
def kernel1 : List Nat := [
  0x1deff82, 0x3e49fa36, 0xfd8507ff, 0xffe500b8, 0x20dff76, 0x3dd2f9a7, 0xfd2e0922, 0xffe100d3,
  0x238ff6c, 0x3d50f922, 0xfcd60a4b, 0xffdc00ed, 0x261ff63, 0x3cbef8a6, 0xfc7d0b7b, 0xffd70109,
  0x286ff5a, 0x3c21f834, 0xfc240cb1, 0xffd20124, 0x2a8ff53, 0x3b77f7cb, 0xfbca0ded, 0xffcc0140,
  0x2c7ff4c, 0x3ac0f76b, 0xfb700f2e, 0xffc7015d, 0x2e3ff47, 0x39fdf715, 0xfb161074, 0xffc10179]

/-- The Load kernel of R602, words 64 to 95 of RS_COEF. -/
def kernel2 : List Nat := [
  0x2fcff42, 0x392ff6c7, 0xfabc11bf, 0xffbb0196, 0x312ff3e, 0x3855f683, 0xfa63130e, 0xffb501b2,
  0x324ff3b, 0x3771f647, 0xfa0b1460, 0xffaf01cf, 0x334ff39, 0x3682f614, 0xf9b415b6, 0xffa801eb,
  0x342ff38, 0x3587f5ea, 0xf95e170e, 0xffa20207, 0x34cff37, 0x3485f5c7, 0xf90a1869, 0xff9b0223,
  0x353ff37, 0x3379f5ad, 0xf8b819c5, 0xff95023e, 0x358ff38, 0x3263f59b, 0xf8681b23, 0xff8e0259]

/-- The Load kernel of R602, words 96 to 127 of RS_COEF. -/
def kernel3 : List Nat := [
  0x35bff39, 0x3147f590, 0xf81a1c82, 0xff870272, 0x35bff3b, 0x301ff58d, 0xf7d01de1, 0xff81028c,
  0x358ff3e, 0x2ef4f590, 0xf7881f40, 0xff7a02a4, 0x353ff41, 0x2dc0f59b, 0xf744209e, 0xff7402bb,
  0x34cff44, 0x2c86f5ac, 0xf70421fb, 0xff6e02d1, 0x343ff48, 0x2b45f5c4, 0xf6c82356, 0xff6802e6,
  0x338ff4d, 0x29fef5e2, 0xf69024af, 0xff6202fa, 0x32bff51, 0x28b5f605, 0xf65d2605, 0xff5c030c]

/-- The Load kernel of R602, words 128 to 159 of RS_COEF. -/
def kernel4 : List Nat := [
  0x31cff57, 0x2767f62e, 0xf62e2757, 0xff57031c, 0x30cff5c, 0x2605f65d, 0xf60528b5, 0xff51032b,
  0x2faff62, 0x24aff690, 0xf5e229fe, 0xff4d0338, 0x2e6ff68, 0x2356f6c8, 0xf5c42b45, 0xff480343,
  0x2d1ff6e, 0x21fbf704, 0xf5ac2c86, 0xff44034c, 0x2bbff74, 0x209ef744, 0xf59b2dc0, 0xff410353,
  0x2a4ff7a, 0x1f40f788, 0xf5902ef4, 0xff3e0358, 0x28cff81, 0x1de1f7d0, 0xf58d301f, 0xff3b035b]

/-- The Load kernel of R602, words 160 to 191 of RS_COEF. -/
def kernel5 : List Nat := [
  0x272ff87, 0x1c82f81a, 0xf5903147, 0xff39035b, 0x259ff8e, 0x1b23f868, 0xf59b3263, 0xff380358,
  0x23eff95, 0x19c5f8b8, 0xf5ad3379, 0xff370353, 0x223ff9b, 0x1869f90a, 0xf5c73485, 0xff37034c,
  0x207ffa2, 0x170ef95e, 0xf5ea3587, 0xff380342, 0x1ebffa8, 0x15b6f9b4, 0xf6143682, 0xff390334,
  0x1cfffaf, 0x1460fa0b, 0xf6473771, 0xff3b0324, 0x1b2ffb5, 0x130efa63, 0xf6833855, 0xff3e0312]

/-- The Load kernel of R602, words 192 to 223 of RS_COEF. -/
def kernel6 : List Nat := [
  0x196ffbb, 0x11bffabc, 0xf6c7392f, 0xff4202fc, 0x179ffc1, 0x1074fb16, 0xf71539fd, 0xff4702e3,
  0x15dffc7, 0xf2efb70, 0xf76b3ac0, 0xff4c02c7, 0x140ffcc, 0xdedfbca, 0xf7cb3b77, 0xff5302a8,
  0x124ffd2, 0xcb1fc24, 0xf8343c21, 0xff5a0286, 0x109ffd7, 0xb7bfc7d, 0xf8a63cbe, 0xff630261,
  0xedffdc, 0xa4bfcd6, 0xf9223d50, 0xff6c0238, 0xd3ffe1, 0x922fd2e, 0xf9a73dd2, 0xff76020d]

/-- The Load kernel of R602, words 224 to 255 of RS_COEF. -/
def kernel7 : List Nat := [
  0xb8ffe5, 0x7fffd85, 0xfa363e49, 0xff8201de, 0x9fffe9, 0x6e4fddb, 0xface3eb0, 0xff8e01ad,
  0x86ffed, 0x5d0fe2f, 0xfb703f0b, 0xff9b0178, 0x6dfff1, 0x4c3fe82, 0xfc1b3f58, 0xffaa0140,
  0x56fff5, 0x3bffed2, 0xfcd03f95, 0xffb90106, 0x3ffff8, 0x2c2ff21, 0xfd8e3fc6, 0xffc900c9,
  0x29fffb, 0x1ceff6e, 0xfe563fe7, 0xffdb0088, 0x14fffe, 0xe3ffb8, 0xff263ffb, 0xffed0045]

/-- Word `w` of the Load kernel of R602. Evaluated outside Lean from the formula of R602; row 0 is 0, 0, 0, 4000h,
0, 0, 0, 0 and every row sums to 4000h (Tests/Slice0.lean). -/
def kernelWord (w : Nat) : Nat :=
  ((kernel0 ++ kernel1 ++ kernel2 ++ kernel3 ++ kernel4 ++ kernel5 ++ kernel6 ++ kernel7)[w]?).getD 0

/-- Load value of a field in instance `i`, word `w` of the register (0 for a field in the retention domain: the
value power-on gives it). -/
def Load.val (l : Load) (i w : Nat) : Nat :=
  match l with
  | .lit v => v
  | .keep => 0
  | .index => i
  | .prod => if i < 16 then 0x10 + i else if i < 28 then 0 else if i = 28 then 0x38 else if i = 29 then 0x3A
      else if i = 30 then 0x39 else 0x31
  | .ctxType => if i = 0 then 2 else if i = 1 then 3 else 0
  | .firstTwo => if i < 2 then 1 else 0
  | .mod32 => i % 32
  | .home => if i % 34 < 32 then 1 else 0
  | .monChan => if i < 4 then 0x28 + i else if i < 8 then 0x21 + (i - 4) else 0
  | .firstEight => if i < 8 then 1 else 0
  | .fir => if w = 0 then 0x4000 else 0
  | .coef upper => if upper then kernelWord i / 65536 else kernelWord i % 65536

/-- Registers of 01_hub_in_the_tree.md. -/
def rows01 : List Row := [
  -- LANE_ROLE
  ⟨0x2000, 24, 256, 1, true, [⟨2, 0, .rw, .lit 7⟩, ⟨5, 4, .rw, .lit 0⟩, ⟨9, 8, .rw, .lit 0⟩, ⟨12, 10, .ro, .lit 0⟩, ⟨14, 13, .ro, .lit 0⟩]⟩,
  -- HUB_ADDR
  ⟨0x10, 1, 1, 1, false, [⟨15, 0, .rw, .lit 0⟩, ⟨16, 16, .ro, .lit 0⟩]⟩,
  -- ROUTE
  ⟨0x5e00, 4, 1, 1, true, [⟨15, 0, .rw, .lit 0xffff⟩, ⟨31, 16, .rw, .lit 0⟩]⟩]

/-- Registers of 02_time_and_the_rooster.md. -/
def rows02a : List Row := [
  -- RT_CLK
  ⟨0x1000, 1, 1, 1, true, [⟨1, 0, .rw, .lit 0⟩, ⟨2, 2, .ro, .lit 0⟩, ⟨3, 3, .ro, .lit 0⟩, ⟨4, 4, .ro, .lit 0⟩, ⟨5, 5, .ro, .lit 0⟩, ⟨6, 6, .ro, .lit 0⟩, ⟨7, 7, .ro, .lit 0⟩, ⟨8, 8, .ro, .lit 0⟩, ⟨9, 9, .wo, .lit 0⟩]⟩,
  -- RT_BCFREQ
  ⟨0x1001, 1, 1, 1, true, [⟨25, 0, .rw, .lit 0x2625a00⟩]⟩,
  -- RT_TNSINC
  ⟨0x1002, 1, 1, 1, false, [⟨31, 0, .ro, .lit 0x1900000⟩]⟩,
  -- RT_ORBIT
  ⟨0x1003, 1, 1, 1, true, [⟨15, 0, .rw, .lit 0x400⟩, ⟨31, 16, .ro, .lit 0⟩]⟩,
  -- RT_FCCFG
  ⟨0x1004, 1, 1, 1, true, [⟨9, 0, .rw, .lit 0x40⟩, ⟨25, 16, .rw, .lit 0⟩]⟩,
  -- RT_AGE
  ⟨0x1005, 1, 1, 1, false, [⟨9, 0, .ro, .lit 0⟩, ⟨19, 10, .ro, .lit 0⟩, ⟨29, 20, .ro, .lit 0⟩]⟩,
  -- RT_SLOT_LO
  ⟨0x1008, 1, 1, 1, false, [⟨31, 0, .sn, .lit 0⟩]⟩,
  -- RT_SLOT_HI
  ⟨0x1009, 1, 1, 1, false, [⟨15, 0, .sn, .lit 0⟩]⟩,
  -- RT_TIME_NS
  ⟨0x100a, 1, 1, 1, false, [⟨31, 0, .sn, .lit 0⟩]⟩,
  -- RT_SLOTSET_LO
  ⟨0x100c, 1, 1, 1, true, [⟨31, 0, .rw, .lit 0⟩]⟩,
  -- RT_SLOTSET_HI
  ⟨0x100d, 1, 1, 1, true, [⟨15, 0, .rw, .lit 0⟩]⟩,
  -- RT_TNSSET
  ⟨0x100e, 1, 1, 1, true, [⟨31, 0, .rw, .lit 0⟩]⟩,
  -- RT_TSARM
  ⟨0x100f, 1, 1, 1, true, [⟨0, 0, .rw, .lit 0⟩]⟩,
  -- RT_TX_ASYM
  ⟨0x1010, 2, 2, 1, false, [⟨23, 0, .sh, .lit 0⟩]⟩,
  -- RT_RX_ASYM
  ⟨0x1011, 2, 2, 1, false, [⟨23, 0, .sh, .lit 0⟩]⟩,
  -- RT_OFFSET
  ⟨0x1020, 1, 1, 1, false, [⟨23, 0, .ro, .lit 0⟩]⟩,
  -- RT_HOLDERR
  ⟨0x1021, 1, 1, 1, false, [⟨31, 0, .ro, .lit 0⟩]⟩,
  -- RT_HOLDDUR
  ⟨0x1022, 1, 1, 1, false, [⟨31, 0, .ro, .lit 0⟩]⟩,
  -- RT_FCBAD
  ⟨0x1030, 1, 1, 1, false, [⟨15, 0, .sn, .lit 0⟩, ⟨31, 31, .sn, .lit 0⟩]⟩,
  -- RT_FCLATE
  ⟨0x1031, 1, 1, 1, false, [⟨15, 0, .sn, .lit 0⟩, ⟨31, 31, .sn, .lit 0⟩]⟩]

/-- Registers of 02_time_and_the_rooster.md. -/
def rows02b : List Row := [
  -- RT_TRIGSKIP
  ⟨0x1032, 1, 1, 1, false, [⟨15, 0, .sn, .lit 0⟩, ⟨31, 31, .sn, .lit 0⟩]⟩,
  -- RT_ORBSLIP
  ⟨0x1033, 1, 1, 1, false, [⟨15, 0, .sn, .lit 0⟩, ⟨31, 31, .sn, .lit 0⟩]⟩,
  -- RT_VOTEFIX
  ⟨0x1034, 1, 1, 1, false, [⟨15, 0, .sn, .lit 0⟩, ⟨31, 31, .sn, .lit 0⟩]⟩,
  -- RT_BANDSW
  ⟨0x1035, 1, 1, 1, false, [⟨15, 0, .sn, .lit 0⟩, ⟨31, 31, .sn, .lit 0⟩]⟩,
  -- RT_CNTCLR
  ⟨0x1037, 1, 1, 1, false, [⟨5, 0, .wo, .lit 0⟩]⟩,
  -- RT_LANE
  ⟨0x1040, 24, 1, 1, false, [⟨23, 0, .ro, .lit 0⟩, ⟨24, 24, .ro, .lit 0⟩, ⟨25, 25, .ro, .lit 0⟩]⟩,
  -- RT_RTT
  ⟨0x1060, 24, 1, 1, false, [⟨23, 0, .ro, .lit 0⟩]⟩]

/-- Registers of 14_modes_start_and_consistency.md. -/
def rows14 : List Row := [
  -- IDENT
  ⟨0x0, 1, 1, 1, false, [⟨15, 0, .ro, .lit 0x5124⟩, ⟨23, 16, .ro, .lit 1⟩, ⟨31, 24, .ro, .lit 0x4b⟩]⟩,
  -- MODE_STAT
  ⟨0x20, 1, 1, 1, false, [⟨2, 0, .ro, .lit 0⟩, ⟨5, 3, .ro, .lit 0⟩, ⟨8, 6, .ro, .lit 0⟩, ⟨9, 9, .ro, .lit 0⟩]⟩,
  -- WRESET
  ⟨0x21, 1, 1, 1, false, [⟨31, 0, .wo, .lit 0⟩]⟩,
  -- RSTPIN
  ⟨0x22, 1, 1, 1, false, [⟨0, 0, .ro, .lit 0⟩, ⟨1, 1, .ro, .lit 0⟩]⟩,
  -- COMMIT_STAT
  ⟨0x30, 1, 1, 1, false, [⟨0, 0, .ro, .lit 0⟩, ⟨1, 1, .ro, .lit 0⟩, ⟨2, 2, .w1c, .lit 0⟩, ⟨31, 8, .ro, .lit 0⟩]⟩,
  -- SNAP_STAT
  ⟨0x31, 1, 1, 1, false, [⟨0, 0, .ro, .lit 0⟩, ⟨31, 8, .ro, .lit 0⟩]⟩,
  -- JNL_STEP
  ⟨0x500, 10, 1, 1, false, [⟨1, 0, .ro, .keep⟩, ⟨2, 2, .ro, .lit 0⟩, ⟨3, 3, .ro, .keep⟩, ⟨15, 8, .ro, .keep⟩, ⟨31, 16, .ro, .keep⟩]⟩,
  -- JNL_LANES
  ⟨0x50a, 1, 1, 1, false, [⟨23, 0, .ro, .keep⟩]⟩,
  -- JNL_CTL
  ⟨0x510, 1, 1, 1, false, [⟨0, 0, .rw, .keep⟩]⟩,
  -- JNL_STAT
  ⟨0x511, 1, 1, 1, false, [⟨2, 0, .ro, .keep⟩, ⟨7, 4, .ro, .lit 0⟩, ⟨8, 8, .ro, .lit 0⟩, ⟨9, 9, .ro, .lit 0⟩, ⟨31, 16, .ro, .keep⟩]⟩]

/-- Registers of 03_sensor_channel_front_end.md. -/
def rows03 : List Row := [
  -- FE_CFG
  ⟨0x8000, 512, 64, 1, true, [⟨0, 0, .rw, .lit 0⟩, ⟨1, 1, .rw, .lit 0⟩, ⟨3, 2, .rw, .lit 0⟩, ⟨5, 4, .rw, .lit 1⟩]⟩,
  -- FE_THR
  ⟨0x8001, 512, 64, 1, false, [⟨5, 0, .sh, .lit 0⟩, ⟨8, 8, .sh, .lit 0⟩]⟩,
  -- FE_INJ
  ⟨0x8002, 512, 64, 1, false, [⟨9, 0, .sh, .lit 0⟩, ⟨12, 12, .sh, .lit 0⟩]⟩,
  -- FE_DISCCNT
  ⟨0x8003, 512, 64, 1, false, [⟨15, 0, .sn, .lit 0⟩, ⟨31, 31, .sn, .lit 0⟩]⟩,
  -- FE_STAT
  ⟨0x8004, 512, 64, 1, false, [⟨0, 0, .ro, .lit 0⟩, ⟨1, 1, .ro, .lit 0⟩, ⟨2, 2, .ro, .lit 0⟩, ⟨3, 3, .ro, .lit 0⟩]⟩,
  -- FE_GTHR
  ⟨0x60f00, 1, 1, 1, false, [⟨9, 0, .sh, .lit 0x40⟩]⟩,
  -- FE_INJCFG
  ⟨0x60f01, 1, 1, 1, false, [⟨7, 0, .sh, .lit 0⟩]⟩,
  -- FE_INJSKIP
  ⟨0x60f02, 1, 1, 1, false, [⟨15, 0, .sn, .lit 0⟩, ⟨31, 31, .sn, .lit 0⟩]⟩,
  -- FE_CNTCLR
  ⟨0x60f03, 1, 1, 1, false, [⟨0, 0, .wo, .lit 0⟩, ⟨1, 1, .wo, .lit 0⟩]⟩]

/-- Registers of 04_time_digitisers.md. -/
def rows04 : List Row := [
  -- TDC_CFG
  ⟨0x8010, 512, 64, 1, true, [⟨0, 0, .rw, .lit 1⟩, ⟨1, 1, .rw, .lit 1⟩]⟩,
  -- TDC_OFS
  ⟨0x8011, 512, 64, 1, false, [⟨15, 0, .sh, .lit 0⟩]⟩,
  -- TDC_STAT
  ⟨0x8012, 512, 64, 1, false, [⟨0, 0, .ro, .lit 0⟩, ⟨1, 1, .ro, .lit 0⟩]⟩,
  -- TDC_PILECNT
  ⟨0x8013, 512, 64, 1, false, [⟨15, 0, .sn, .lit 0⟩, ⟨31, 31, .sn, .lit 0⟩]⟩,
  -- TDC_DEADCNT
  ⟨0x8014, 512, 64, 1, false, [⟨15, 0, .sn, .lit 0⟩, ⟨31, 31, .sn, .lit 0⟩]⟩,
  -- TDC_AMPWIN
  ⟨0x60e00, 1, 1, 1, false, [⟨2, 0, .sh, .lit 0⟩, ⟨7, 4, .sh, .lit 4⟩]⟩,
  -- TDC_CNTCLR
  ⟨0x60e01, 1, 1, 1, false, [⟨0, 0, .wo, .lit 0⟩, ⟨1, 1, .wo, .lit 0⟩]⟩,
  -- TDC_LUTSEL
  ⟨0x60e02, 1, 1, 1, false, [⟨8, 0, .rw, .lit 0⟩, ⟨9, 9, .rw, .lit 0⟩]⟩,
  -- TDC_LINEOFS
  ⟨0x60e03, 1, 1, 1, false, [⟨9, 0, .rw, .lit 0⟩]⟩,
  -- TDC_LUT
  ⟨0x60e80, 128, 1, 1, false, [⟨8, 0, .rw, .lit 0⟩]⟩]

/-- Registers of 05_amplitude_chain.md. -/
def rows05 : List Row := [
  -- CH_CHAIN
  ⟨0x8020, 512, 64, 1, true, [⟨1, 0, .rw, .lit 0⟩, ⟨3, 2, .rw, .lit 0⟩, ⟨6, 4, .rw, .lit 0⟩, ⟨10, 8, .rw, .lit 0⟩, ⟨13, 12, .rw, .lit 0⟩, ⟨18, 16, .rw, .lit 0⟩]⟩,
  -- CH_PED
  ⟨0x8021, 512, 64, 1, true, [⟨15, 0, .rw, .lit 0⟩]⟩,
  -- CH_PHOFS
  ⟨0x8022, 512, 64, 1, false, [⟨15, 0, .sh, .lit 0⟩]⟩,
  -- CH_FIR
  ⟨0x8024, 512, 64, 8, true, [⟨15, 0, .rw, .fir⟩, ⟨31, 16, .rw, .lit 0⟩]⟩,
  -- CH_GDB
  ⟨0x802c, 512, 64, 1, false, [⟨19, 0, .ro, .lit 0⟩, ⟨31, 31, .ro, .lit 1⟩]⟩,
  -- CH_DTOT
  ⟨0x802d, 512, 64, 1, false, [⟨19, 0, .ro, .lit 0x21980⟩]⟩,
  -- CH_DSAMP
  ⟨0x802e, 512, 64, 1, false, [⟨23, 0, .ro, .lit 0xac0⟩]⟩,
  -- CH_SETTLE
  ⟨0x802f, 512, 64, 1, false, [⟨7, 0, .ro, .lit 0xc⟩]⟩,
  -- CH_SATCNT
  ⟨0x8030, 512, 64, 1, false, [⟨15, 0, .sn, .lit 0⟩, ⟨31, 31, .sn, .lit 0⟩]⟩,
  -- CH_EDGECNT
  ⟨0x8031, 512, 64, 1, false, [⟨15, 0, .sn, .lit 0⟩, ⟨31, 31, .sn, .lit 0⟩]⟩,
  -- ADC_OFS
  ⟨0x60000, 544, 4, 1, false, [⟨15, 0, .rw, .lit 0x400⟩, ⟨31, 16, .rw, .lit 0x400⟩]⟩,
  -- ADC_GHG
  ⟨0x60001, 544, 4, 1, false, [⟨23, 0, .rw, .lit 0x10000⟩]⟩,
  -- ADC_GLG
  ⟨0x60002, 544, 4, 1, false, [⟨23, 0, .rw, .lit 0x100000⟩]⟩,
  -- ADC_PHASE
  ⟨0x60003, 544, 4, 1, false, [⟨5, 0, .rw, .lit 0⟩, ⟨15, 8, .rw, .lit 0⟩]⟩,
  -- RS_COEF
  ⟨0x60c00, 256, 1, 1, true, [⟨15, 0, .rw, .coef false⟩, ⟨31, 16, .rw, .coef true⟩]⟩,
  -- CHN_RATE
  ⟨0x60d00, 1, 1, 1, true, [⟨23, 0, .rw, .lit 0x80000⟩, ⟨24, 24, .rw, .lit 1⟩]⟩,
  -- CHN_CNTCLR
  ⟨0x60d01, 1, 1, 1, false, [⟨0, 0, .wo, .lit 0⟩, ⟨1, 1, .wo, .lit 0⟩]⟩,
  -- CHN_STAT
  ⟨0x60d02, 1, 1, 1, false, [⟨0, 0, .ro, .lit 0⟩, ⟨1, 1, .ro, .lit 0⟩]⟩]

/-- Registers of 06_acquisition_and_triggers.md. -/
def rows06a : List Row := [
  -- ACQ_CFG
  ⟨0x10000, 1, 1, 1, true, [⟨1, 0, .rw, .lit 0⟩, ⟨3, 2, .rw, .lit 0⟩, ⟨7, 4, .rw, .lit 0⟩, ⟨11, 8, .rw, .lit 0⟩, ⟨14, 12, .rw, .lit 0⟩]⟩,
  -- ACQ_LAT
  ⟨0x10001, 1, 1, 1, false, [⟨13, 0, .sh, .lit 0x100⟩, ⟨30, 16, .sh, .lit 0⟩]⟩,
  -- ACQ_SWIN
  ⟨0x10002, 1, 1, 1, false, [⟨6, 0, .sh, .lit 4⟩, ⟨15, 8, .sh, .lit 0xc⟩]⟩,
  -- ACQ_LWIN
  ⟨0x10003, 1, 1, 1, false, [⟨11, 0, .sh, .lit 0⟩, ⟨31, 16, .sh, .lit 0x100⟩]⟩,
  -- ACQ_LSEL
  ⟨0x10004, 1, 1, 1, false, [⟨15, 0, .sh, .lit 0⟩, ⟨31, 16, .sh, .lit 0⟩]⟩,
  -- ACQ_HOLDOFF
  ⟨0x10005, 1, 1, 1, false, [⟨11, 0, .sh, .lit 0⟩, ⟨15, 12, .sh, .lit 0⟩, ⟨27, 16, .sh, .lit 0⟩]⟩,
  -- ACQ_MASKCTL
  ⟨0x10006, 1, 1, 1, false, [⟨0, 0, .sh, .lit 0⟩, ⟨1, 1, .sh, .lit 0⟩, ⟨2, 2, .sh, .lit 0⟩, ⟨3, 3, .ro, .lit 0⟩, ⟨4, 4, .wo, .lit 0⟩]⟩,
  -- ACQ_AGE
  ⟨0x10008, 1, 1, 1, false, [⟨14, 0, .ro, .lit 0x102⟩, ⟨31, 16, .ro, .lit 0x1f9⟩]⟩,
  -- ACQ_STAT
  ⟨0x10009, 1, 1, 1, false, [⟨0, 0, .ro, .lit 0⟩, ⟨1, 1, .ro, .lit 1⟩, ⟨2, 2, .ro, .lit 1⟩, ⟨3, 3, .ro, .lit 1⟩, ⟨4, 4, .ro, .lit 1⟩, ⟨14, 8, .ro, .lit 0⟩]⟩,
  -- ACQ_TRIGIGN
  ⟨0x10010, 1, 1, 1, false, [⟨15, 0, .sn, .lit 0⟩, ⟨31, 31, .sn, .lit 0⟩]⟩,
  -- ACQ_HOFFTIME
  ⟨0x10011, 1, 1, 1, false, [⟨15, 0, .sn, .lit 0⟩, ⟨31, 31, .sn, .lit 0⟩]⟩,
  -- ACQ_HOFFCNT
  ⟨0x10012, 1, 1, 1, false, [⟨15, 0, .sn, .lit 0⟩, ⟨31, 31, .sn, .lit 0⟩]⟩,
  -- ACQ_HOFFFULL
  ⟨0x10013, 1, 1, 1, false, [⟨15, 0, .sn, .lit 0⟩, ⟨31, 31, .sn, .lit 0⟩]⟩,
  -- ACQ_HOFFSTOP
  ⟨0x10014, 1, 1, 1, false, [⟨15, 0, .sn, .lit 0⟩, ⟨31, 31, .sn, .lit 0⟩]⟩,
  -- ACQ_STREAMED
  ⟨0x10015, 1, 1, 1, false, [⟨15, 0, .sn, .lit 0⟩, ⟨31, 31, .sn, .lit 0⟩]⟩,
  -- ACQ_MEMCOR
  ⟨0x10016, 1, 1, 1, false, [⟨15, 0, .sn, .lit 0⟩, ⟨31, 31, .sn, .lit 0⟩]⟩,
  -- ACQ_MEMERR
  ⟨0x10017, 1, 1, 1, false, [⟨15, 0, .sn, .lit 0⟩, ⟨31, 31, .sn, .lit 0⟩]⟩,
  -- ACQ_MASKVIOL
  ⟨0x10018, 1, 1, 1, false, [⟨15, 0, .sn, .lit 0⟩, ⟨31, 31, .sn, .lit 0⟩]⟩,
  -- ACQ_CNTCLR
  ⟨0x1001f, 1, 1, 1, false, [⟨8, 0, .wo, .lit 0⟩]⟩,
  -- ACQ_CHMASK
  ⟨0x10100, 32, 1, 1, false, [⟨31, 0, .sh, .lit 0xffffffff⟩]⟩]

/-- Registers of 06_acquisition_and_triggers.md. -/
def rows06b : List Row := [
  -- ACQ_MASKSEL
  ⟨0x10200, 32, 1, 1, false, [⟨31, 0, .sh, .lit 0⟩]⟩,
  -- MASK
  ⟨0x14000, 16384, 1, 1, true, [⟨15, 0, .rw, .lit 0⟩, ⟨31, 16, .rw, .lit 0xffff⟩]⟩]

/-- Registers of 08_ox_engine_programming.md. -/
def rows08 : List Row := [
  -- OX_CFG
  ⟨0x21800, 17, 8192, 1, true, [⟨0, 0, .rw, .lit 0⟩, ⟨1, 1, .rw, .lit 0⟩, ⟨2, 2, .rw, .lit 1⟩]⟩,
  -- OX_STAT
  ⟨0x21801, 17, 8192, 1, false, [⟨0, 0, .ro, .lit 0⟩, ⟨1, 1, .ro, .lit 0⟩, ⟨2, 2, .ro, .lit 0⟩, ⟨3, 3, .ro, .lit 0⟩, ⟨4, 4, .ro, .lit 0⟩, ⟨5, 5, .ro, .lit 0⟩, ⟨11, 8, .ro, .lit 0⟩, ⟨20, 16, .ro, .index⟩]⟩,
  -- OX_PC
  ⟨0x21802, 17, 8192, 1, false, [⟨9, 0, .ro, .lit 0⟩, ⟨25, 16, .ro, .lit 1⟩]⟩,
  -- OX_CS_S
  ⟨0x21803, 17, 8192, 1, false, [⟨0, 0, .ro, .lit 0⟩, ⟨1, 1, .ro, .lit 0⟩, ⟨2, 2, .ro, .lit 0⟩, ⟨3, 3, .ro, .lit 0⟩, ⟨4, 4, .ro, .lit 0⟩, ⟨8, 8, .ro, .lit 0⟩, ⟨23, 16, .ro, .lit 0⟩, ⟨31, 24, .ro, .lit 0⟩]⟩,
  -- OX_CS_B
  ⟨0x21804, 17, 8192, 1, false, [⟨0, 0, .ro, .lit 0⟩, ⟨1, 1, .ro, .lit 0⟩, ⟨2, 2, .ro, .lit 0⟩, ⟨3, 3, .ro, .lit 0⟩, ⟨4, 4, .ro, .lit 0⟩, ⟨8, 8, .ro, .lit 0⟩, ⟨23, 16, .ro, .lit 0⟩, ⟨31, 24, .ro, .lit 0⟩]⟩,
  -- OX_CYC
  ⟨0x21805, 17, 8192, 1, false, [⟨4, 0, .ro, .lit 0⟩, ⟨12, 8, .ro, .lit 0⟩]⟩,
  -- OX_OVRCNT
  ⟨0x21808, 17, 8192, 1, false, [⟨15, 0, .sn, .lit 0⟩, ⟨31, 31, .sn, .lit 0⟩]⟩,
  -- OX_EXCCNT
  ⟨0x21809, 17, 8192, 1, false, [⟨15, 0, .sn, .lit 0⟩, ⟨31, 31, .sn, .lit 0⟩]⟩,
  -- OX_NOTELOST
  ⟨0x2180a, 17, 8192, 1, false, [⟨15, 0, .sn, .lit 0⟩, ⟨31, 31, .sn, .lit 0⟩]⟩,
  -- OX_FBDROP
  ⟨0x2180b, 17, 8192, 1, false, [⟨15, 0, .sn, .lit 0⟩, ⟨31, 31, .sn, .lit 0⟩]⟩,
  -- OX_CNTCLR
  ⟨0x2180f, 17, 8192, 1, false, [⟨3, 0, .wo, .lit 0⟩, ⟨4, 4, .wo, .lit 0⟩]⟩]

/-- Registers of 09_records_queues_ledger.md. -/
def rows09 : List Row := [
  -- Q_CFG
  ⟨0x6000, 32, 64, 1, true, [⟨5, 0, .rw, .prod⟩, ⟨13, 8, .rw, .lit 0⟩, ⟨20, 16, .rw, .lit 0xc⟩, ⟨24, 24, .rw, .lit 0⟩]⟩,
  -- Q_STAT
  ⟨0x6001, 32, 64, 1, false, [⟨4, 0, .ro, .lit 0⟩, ⟨5, 5, .ro, .lit 0⟩, ⟨6, 6, .ro, .lit 0⟩, ⟨7, 7, .ro, .lit 0⟩, ⟨15, 15, .ro, .lit 0⟩, ⟨31, 16, .ro, .lit 0⟩]⟩,
  -- Q_DROPCNT
  ⟨0x6002, 32, 64, 1, false, [⟨15, 0, .sn, .lit 0⟩, ⟨31, 31, .sn, .lit 0⟩]⟩,
  -- Q_FLUSHCNT
  ⟨0x6003, 32, 64, 1, false, [⟨15, 0, .sn, .lit 0⟩, ⟨31, 31, .sn, .lit 0⟩]⟩,
  -- Q_LEVELCNT
  ⟨0x6004, 32, 64, 1, false, [⟨15, 0, .sn, .lit 0⟩, ⟨31, 31, .sn, .lit 0⟩]⟩,
  -- Q_HWM
  ⟨0x6005, 32, 64, 1, false, [⟨4, 0, .ro, .lit 0⟩]⟩,
  -- Q_CNTCLR
  ⟨0x6007, 32, 64, 1, false, [⟨2, 0, .wo, .lit 0⟩, ⟨3, 3, .wo, .lit 0⟩]⟩,
  -- MULE_HBCFG
  ⟨0x7000, 1, 1, 1, true, [⟨6, 0, .rw, .lit 8⟩]⟩,
  -- MULE_LEDCFG
  ⟨0x7001, 1, 1, 1, true, [⟨4, 0, .rw, .lit 0⟩]⟩,
  -- MULE_POOL
  ⟨0x7002, 1, 1, 1, true, [⟨10, 0, .rw, .lit 0x600⟩]⟩,
  -- MULE_STAT
  ⟨0x7003, 1, 1, 1, false, [⟨11, 0, .ro, .lit 0x800⟩, ⟨13, 12, .ro, .lit 0⟩, ⟨14, 14, .ro, .lit 0⟩, ⟨15, 15, .ro, .lit 0⟩, ⟨16, 16, .ro, .lit 0⟩, ⟨17, 17, .ro, .lit 0⟩]⟩,
  -- MULE_SEQ
  ⟨0x7004, 1, 1, 1, false, [⟨31, 0, .ro, .lit 0⟩]⟩,
  -- MULE_BADITEM
  ⟨0x7008, 1, 1, 1, false, [⟨15, 0, .sn, .lit 0⟩, ⟨31, 31, .sn, .lit 0⟩]⟩,
  -- MULE_LEDSKIP
  ⟨0x7009, 1, 1, 1, false, [⟨15, 0, .sn, .lit 0⟩, ⟨31, 31, .sn, .lit 0⟩]⟩,
  -- MULE_HITSTALL
  ⟨0x700a, 1, 1, 1, false, [⟨15, 0, .sn, .lit 0⟩, ⟨31, 31, .sn, .lit 0⟩]⟩,
  -- MULE_ACQSTALL
  ⟨0x700b, 1, 1, 1, false, [⟨15, 0, .sn, .lit 0⟩, ⟨31, 31, .sn, .lit 0⟩]⟩,
  -- MULE_CNTCLR
  ⟨0x700f, 1, 1, 1, false, [⟨3, 0, .wo, .lit 0⟩]⟩,
  -- LED_LO
  ⟨0x7100, 18, 2, 1, false, [⟨31, 0, .sn, .lit 0⟩]⟩,
  -- LED_HI
  ⟨0x7101, 18, 2, 1, false, [⟨15, 0, .sn, .lit 0⟩]⟩]

/-- Registers of 10_compression.md. -/
def rows10 : List Row := [
  -- CMP_CFG
  ⟨0x7400, 1, 1, 1, true, [⟨0, 0, .rw, .lit 1⟩]⟩,
  -- CMP_STAT
  ⟨0x7401, 1, 1, 1, false, [⟨0, 0, .ro, .lit 0⟩, ⟨1, 1, .ro, .lit 0⟩, ⟨2, 2, .ro, .lit 0⟩, ⟨7, 3, .ro, .lit 0⟩, ⟨13, 8, .ro, .lit 0⟩]⟩,
  -- CMP_CTXRST
  ⟨0x7402, 1, 1, 1, false, [⟨31, 0, .wo, .lit 0⟩]⟩,
  -- CMP_BLOCKS
  ⟨0x7408, 1, 1, 1, false, [⟨15, 0, .sn, .lit 0⟩, ⟨31, 31, .sn, .lit 0⟩]⟩,
  -- CMP_PASSED
  ⟨0x7409, 1, 1, 1, false, [⟨15, 0, .sn, .lit 0⟩, ⟨31, 31, .sn, .lit 0⟩]⟩,
  -- CMP_VFAIL
  ⟨0x740a, 1, 1, 1, false, [⟨15, 0, .sn, .lit 0⟩, ⟨31, 31, .sn, .lit 0⟩]⟩,
  -- CMP_STALL
  ⟨0x740b, 1, 1, 1, false, [⟨15, 0, .sn, .lit 0⟩, ⟨31, 31, .sn, .lit 0⟩]⟩,
  -- CMP_WIN
  ⟨0x740c, 1, 1, 1, false, [⟨30, 0, .sn, .lit 0⟩, ⟨31, 31, .sn, .lit 0⟩]⟩,
  -- CMP_WOUT
  ⟨0x740d, 1, 1, 1, false, [⟨30, 0, .sn, .lit 0⟩, ⟨31, 31, .sn, .lit 0⟩]⟩,
  -- CMP_CNTCLR
  ⟨0x740f, 1, 1, 1, false, [⟨5, 0, .wo, .lit 0⟩]⟩,
  -- CMP_CTXCFG
  ⟨0x7410, 32, 1, 1, true, [⟨5, 0, .rw, .ctxType⟩, ⟨11, 6, .rw, .lit 0⟩, ⟨12, 12, .rw, .firstTwo⟩, ⟨13, 13, .rw, .firstTwo⟩, ⟨14, 14, .rw, .lit 0⟩, ⟨15, 15, .rw, .lit 1⟩]⟩,
  -- CMP_CTXST
  ⟨0x7430, 32, 1, 1, false, [⟨15, 0, .ro, .lit 0⟩, ⟨20, 16, .ro, .lit 0⟩, ⟨21, 21, .ro, .lit 1⟩]⟩]

/-- Registers of 11_hen_merge_and_credits.md. -/
def rows11 : List Row := [
  -- HEN_CFG
  ⟨0x4000, 1, 1, 1, true, [⟨9, 0, .rw, .lit 0x40⟩]⟩,
  -- HEN_UP
  ⟨0x4001, 1, 1, 1, false, [⟨15, 0, .rw, .lit 0xffff⟩, ⟨16, 16, .wo, .lit 0⟩]⟩,
  -- HEN_UPSTAT
  ⟨0x4002, 1, 1, 1, false, [⟨15, 0, .ro, .lit 0⟩, ⟨16, 16, .ro, .lit 0⟩, ⟨31, 17, .ro, .lit 0⟩]⟩,
  -- HEN_CLAIM
  ⟨0x4003, 1, 1, 1, false, [⟨15, 0, .ro, .lit 0⟩, ⟨31, 16, .ro, .lit 0⟩]⟩,
  -- HEN_STAT
  ⟨0x4004, 1, 1, 1, false, [⟨3, 0, .ro, .lit 0⟩, ⟨4, 4, .ro, .lit 0⟩, ⟨5, 5, .ro, .lit 0⟩]⟩,
  -- HEN_LATE
  ⟨0x4008, 1, 1, 1, false, [⟨15, 0, .sn, .lit 0⟩, ⟨31, 31, .sn, .lit 0⟩]⟩,
  -- HEN_AUDCNT
  ⟨0x4009, 1, 1, 1, false, [⟨15, 0, .sn, .lit 0⟩, ⟨31, 31, .sn, .lit 0⟩]⟩,
  -- HEN_PCFG
  ⟨0x4010, 4, 16, 1, false, [⟨9, 0, .sh, .lit 0x100⟩]⟩,
  -- HEN_PSTAT
  ⟨0x4011, 4, 16, 1, false, [⟨15, 0, .ro, .lit 0⟩, ⟨28, 16, .ro, .lit 0⟩]⟩,
  -- HEN_PGRANT
  ⟨0x4012, 4, 16, 1, false, [⟨31, 0, .ro, .lit 0⟩]⟩,
  -- HEN_PRECV
  ⟨0x4013, 4, 16, 1, false, [⟨31, 0, .ro, .lit 0⟩]⟩,
  -- HEN_PRET
  ⟨0x4014, 4, 16, 1, false, [⟨31, 0, .ro, .lit 0⟩]⟩,
  -- HEN_PAUD
  ⟨0x4015, 4, 16, 1, false, [⟨15, 0, .ro, .lit 0⟩, ⟨31, 16, .ro, .lit 0⟩]⟩,
  -- HEN_PVIOL
  ⟨0x4018, 4, 16, 1, false, [⟨15, 0, .sn, .lit 0⟩, ⟨31, 31, .sn, .lit 0⟩]⟩,
  -- HEN_CDROP
  ⟨0x4019, 4, 16, 1, false, [⟨15, 0, .sn, .lit 0⟩, ⟨31, 31, .sn, .lit 0⟩]⟩,
  -- HEN_MALF
  ⟨0x401a, 4, 16, 1, false, [⟨15, 0, .sn, .lit 0⟩, ⟨31, 31, .sn, .lit 0⟩]⟩,
  -- HEN_AUDERR
  ⟨0x401b, 4, 16, 1, false, [⟨15, 0, .sn, .lit 0⟩, ⟨31, 31, .sn, .lit 0⟩]⟩,
  -- HEN_CNTCLR
  ⟨0x400f, 1, 1, 1, false, [⟨1, 0, .wo, .lit 0⟩, ⟨17, 2, .wo, .lit 0⟩]⟩]

/-- Registers of 12_serial_lanes.md. -/
def rows12 : List Row := [
  -- LN_TX
  ⟨0x2001, 24, 256, 1, false, [⟨5, 0, .rw, .lit 0⟩, ⟨13, 8, .rw, .lit 0x34⟩, ⟨21, 16, .rw, .lit 0xb⟩]⟩,
  -- LN_RX
  ⟨0x2002, 24, 256, 1, false, [⟨3, 0, .rw, .lit 6⟩]⟩,
  -- LN_STAT
  ⟨0x2003, 24, 256, 1, false, [⟨0, 0, .ro, .lit 0⟩, ⟨1, 1, .ro, .lit 0⟩, ⟨2, 2, .ro, .lit 0⟩, ⟨3, 3, .ro, .lit 0⟩, ⟨4, 4, .ro, .lit 0⟩, ⟨5, 5, .ro, .lit 0⟩, ⟨6, 6, .ro, .lit 0⟩, ⟨7, 7, .ro, .lit 0⟩, ⟨15, 8, .ro, .lit 0⟩, ⟨23, 16, .ro, .lit 0⟩, ⟨31, 24, .ro, .lit 0⟩]⟩,
  -- LN_CAUSE
  ⟨0x2004, 24, 256, 1, false, [⟨2, 0, .ro, .lit 0⟩]⟩,
  -- LN_FECCOR
  ⟨0x2008, 24, 256, 1, false, [⟨15, 0, .sn, .lit 0⟩, ⟨31, 31, .sn, .lit 0⟩]⟩,
  -- LN_FECUNC
  ⟨0x2009, 24, 256, 1, false, [⟨15, 0, .sn, .lit 0⟩, ⟨31, 31, .sn, .lit 0⟩]⟩,
  -- LN_REPLAY
  ⟨0x200a, 24, 256, 1, false, [⟨15, 0, .sn, .lit 0⟩, ⟨31, 31, .sn, .lit 0⟩]⟩,
  -- LN_NAKTX
  ⟨0x200b, 24, 256, 1, false, [⟨15, 0, .sn, .lit 0⟩, ⟨31, 31, .sn, .lit 0⟩]⟩,
  -- LN_DUPDROP
  ⟨0x200c, 24, 256, 1, false, [⟨15, 0, .sn, .lit 0⟩, ⟨31, 31, .sn, .lit 0⟩]⟩,
  -- LN_BADKIND
  ⟨0x200d, 24, 256, 1, false, [⟨15, 0, .sn, .lit 0⟩, ⟨31, 31, .sn, .lit 0⟩]⟩,
  -- LN_FCDROP
  ⟨0x200e, 24, 256, 1, false, [⟨15, 0, .sn, .lit 0⟩, ⟨31, 31, .sn, .lit 0⟩]⟩,
  -- LN_CNTCLR
  ⟨0x200f, 24, 256, 1, false, [⟨6, 0, .wo, .lit 0⟩]⟩,
  -- LN_PRBS
  ⟨0x2010, 24, 256, 1, false, [⟨1, 0, .rw, .lit 0⟩, ⟨2, 2, .rw, .lit 0⟩, ⟨4, 4, .rw, .lit 0⟩, ⟨5, 5, .rw, .lit 0⟩, ⟨8, 8, .ro, .lit 0⟩]⟩,
  -- LN_BERR
  ⟨0x2011, 24, 256, 1, false, [⟨31, 0, .ro, .lit 0⟩]⟩,
  -- LN_BITS_LO
  ⟨0x2012, 24, 256, 1, false, [⟨31, 0, .ro, .lit 0⟩]⟩,
  -- LN_BITS_HI
  ⟨0x2013, 24, 256, 1, false, [⟨15, 0, .ro, .lit 0⟩]⟩,
  -- LN_INJ
  ⟨0x2014, 24, 256, 1, false, [⟨1, 0, .rw, .lit 0⟩, ⟨14, 8, .rw, .lit 1⟩, ⟨27, 16, .rw, .lit 1⟩, ⟨31, 31, .wo, .lit 0⟩]⟩,
  -- LN_INJPOS
  ⟨0x2015, 24, 256, 1, false, [⟨8, 0, .rw, .lit 0⟩, ⟨21, 16, .rw, .lit 3⟩, ⟨27, 24, .rw, .lit 1⟩]⟩]

/-- Registers of 13_command_packets_and_replies.md. -/
def rows13 : List Row := [
  -- ATTN_STAT
  ⟨0x400, 1, 1, 1, false, [⟨14, 2, .w1c, .lit 0⟩, ⟨15, 15, .ro, .lit 0⟩]⟩,
  -- ATTN_EN
  ⟨0x401, 1, 1, 1, false, [⟨14, 2, .rw, .lit 0x1fff⟩]⟩,
  -- CP_CFG
  ⟨0x402, 1, 1, 1, false, [⟨23, 0, .rw, .lit 0x9c40⟩]⟩,
  -- CP_STAT
  ⟨0x403, 1, 1, 1, false, [⟨2, 0, .ro, .lit 0⟩, ⟨3, 3, .ro, .lit 0⟩, ⟨4, 4, .ro, .lit 0⟩, ⟨5, 5, .ro, .lit 0⟩, ⟨19, 8, .ro, .lit 0⟩, ⟨31, 20, .ro, .lit 0⟩]⟩,
  -- CP_EXEC
  ⟨0x408, 1, 1, 1, false, [⟨15, 0, .sn, .lit 0⟩, ⟨31, 31, .sn, .lit 0⟩]⟩,
  -- CP_FWD
  ⟨0x409, 1, 1, 1, false, [⟨15, 0, .sn, .lit 0⟩, ⟨31, 31, .sn, .lit 0⟩]⟩,
  -- CP_TIMEOUT
  ⟨0x40a, 1, 1, 1, false, [⟨15, 0, .sn, .lit 0⟩, ⟨31, 31, .sn, .lit 0⟩]⟩,
  -- CP_ADISC
  ⟨0x40b, 1, 1, 1, false, [⟨15, 0, .sn, .lit 0⟩, ⟨31, 31, .sn, .lit 0⟩]⟩,
  -- PV_CNT
  ⟨0x410, 11, 1, 1, false, [⟨15, 0, .sn, .lit 0⟩, ⟨31, 31, .sn, .lit 0⟩]⟩,
  -- CP_CNTCLR
  ⟨0x41f, 1, 1, 1, false, [⟨3, 0, .wo, .lit 0⟩, ⟨14, 4, .wo, .lit 0⟩, ⟨15, 15, .wo, .lit 0⟩]⟩,
  -- RSLOT_DESC
  ⟨0x420, 16, 1, 1, false, [⟨11, 0, .ro, .lit 0⟩, ⟨13, 12, .ro, .lit 0⟩, ⟨21, 16, .ro, .lit 0⟩, ⟨31, 24, .ro, .lit 0⟩]⟩,
  -- PV_LOG
  ⟨0x440, 32, 1, 1, false, [⟨31, 0, .sn, .lit 0⟩]⟩,
  -- PV_HEAD
  ⟨0x460, 1, 1, 1, false, [⟨3, 0, .sn, .lit 0⟩, ⟨4, 4, .sn, .lit 0⟩]⟩,
  -- RSLOT_VAL
  ⟨0x600, 512, 1, 1, false, [⟨31, 0, .ro, .lit 0⟩]⟩]

/-- Registers of 15_calibration.md. -/
def rows15 : List Row := [
  -- CAL_CMD
  ⟨0x60880, 1, 1, 1, false, [⟨3, 0, .wo, .lit 0⟩, ⟨4, 4, .wo, .lit 0⟩, ⟨5, 5, .wo, .lit 0⟩, ⟨12, 8, .wo, .lit 0⟩, ⟨31, 16, .wo, .lit 0⟩]⟩,
  -- CAL_STAT
  ⟨0x60881, 1, 1, 1, false, [⟨0, 0, .ro, .lit 0⟩, ⟨1, 1, .ro, .lit 0⟩, ⟨2, 2, .ro, .lit 0⟩, ⟨3, 3, .ro, .lit 0⟩, ⟨4, 4, .w1c, .lit 0⟩, ⟨11, 8, .ro, .lit 0⟩, ⟨31, 16, .ro, .lit 0⟩]⟩,
  -- CAL_REF
  ⟨0x60882, 1, 1, 1, false, [⟨15, 0, .rw, .lit 0⟩, ⟨31, 16, .rw, .lit 0⟩]⟩,
  -- CAL_ROLL
  ⟨0x60883, 1, 1, 1, false, [⟨15, 0, .rw, .lit 0⟩, ⟨19, 16, .rw, .lit 4⟩]⟩,
  -- CAL_QSEL
  ⟨0x60884, 1, 1, 1, false, [⟨1, 0, .rw, .lit 0⟩, ⟨25, 16, .rw, .lit 0⟩]⟩,
  -- CAL_XO
  ⟨0x60885, 1, 1, 1, false, [⟨15, 0, .ro, .lit 0⟩, ⟨16, 16, .ro, .lit 0⟩]⟩,
  -- CAL_APOFS
  ⟨0x60886, 1, 1, 1, false, [⟨15, 0, .rw, .lit 0xc8⟩]⟩,
  -- CAL_QTDC
  ⟨0x60888, 1, 1, 1, false, [⟨7, 0, .ro, .lit 0⟩, ⟨15, 8, .ro, .lit 0⟩]⟩,
  -- CAL_QTHR
  ⟨0x60889, 1, 1, 1, false, [⟨15, 0, .ro, .lit 0⟩, ⟨31, 16, .ro, .lit 0⟩]⟩,
  -- CAL_QPH
  ⟨0x6088a, 1, 1, 1, false, [⟨7, 0, .ro, .lit 0⟩]⟩,
  -- CAL_QGAIN
  ⟨0x6088b, 1, 1, 1, false, [⟨15, 0, .ro, .lit 0⟩]⟩,
  -- CAL_QLANE
  ⟨0x6088c, 1, 1, 1, false, [⟨7, 0, .ro, .lit 0⟩, ⟨17, 8, .ro, .lit 0⟩]⟩,
  -- CAL_FCSKIP
  ⟨0x60890, 1, 1, 1, false, [⟨15, 0, .sn, .lit 0⟩, ⟨31, 31, .sn, .lit 0⟩]⟩,
  -- CAL_ROLLDONE
  ⟨0x60891, 1, 1, 1, false, [⟨15, 0, .sn, .lit 0⟩, ⟨31, 31, .sn, .lit 0⟩]⟩,
  -- CAL_ROLLFAIL
  ⟨0x60892, 1, 1, 1, false, [⟨15, 0, .sn, .lit 0⟩, ⟨31, 31, .sn, .lit 0⟩]⟩,
  -- CAL_CNTCLR
  ⟨0x60897, 1, 1, 1, false, [⟨2, 0, .wo, .lit 0⟩]⟩,
  -- CAL_QWIN
  ⟨0x608c0, 40, 1, 1, false, [⟨31, 0, .ro, .lit 0⟩]⟩]

/-- Registers of 16_fault_collection.md. -/
def rows16 : List Row := [
  -- GS_CFG
  ⟨0x800, 1, 1, 1, false, [⟨0, 0, .rw, .lit 0⟩, ⟨15, 8, .rw, .lit 8⟩]⟩,
  -- GS_QUIET
  ⟨0x801, 1, 1, 1, false, [⟨15, 0, .rw, .lit 0x64⟩]⟩,
  -- GS_STAT
  ⟨0x802, 1, 1, 1, false, [⟨7, 0, .ro, .lit 0⟩, ⟨8, 8, .ro, .lit 0⟩, ⟨9, 9, .ro, .lit 0⟩, ⟨10, 10, .ro, .lit 0⟩, ⟨23, 16, .ro, .lit 0⟩]⟩,
  -- GS_CTL
  ⟨0x803, 1, 1, 1, false, [⟨0, 0, .wo, .lit 0⟩, ⟨1, 1, .wo, .lit 0⟩]⟩,
  -- GS_UNFENCE
  ⟨0x804, 1, 1, 1, true, [⟨15, 0, .wo, .lit 0⟩]⟩,
  -- FE_W
  ⟨0x808, 4, 1, 1, false, [⟨31, 0, .ro, .lit 0⟩]⟩,
  -- GS_RING
  ⟨0x810, 1, 1, 1, false, [⟨4, 0, .ro, .lit 0⟩, ⟨5, 5, .ro, .lit 0⟩]⟩,
  -- GS_CORCNT
  ⟨0x814, 1, 1, 1, false, [⟨15, 0, .sn, .lit 0⟩, ⟨31, 31, .sn, .lit 0⟩]⟩,
  -- GS_CONTCNT
  ⟨0x815, 1, 1, 1, false, [⟨15, 0, .sn, .lit 0⟩, ⟨31, 31, .sn, .lit 0⟩]⟩,
  -- GS_FATCNT
  ⟨0x816, 1, 1, 1, false, [⟨15, 0, .sn, .lit 0⟩, ⟨31, 31, .sn, .lit 0⟩]⟩,
  -- GS_NOTSKIP
  ⟨0x817, 1, 1, 1, false, [⟨15, 0, .sn, .lit 0⟩, ⟨31, 31, .sn, .lit 0⟩]⟩,
  -- GS_CODECNT
  ⟨0x900, 256, 1, 1, false, [⟨15, 0, .sn, .lit 0⟩, ⟨31, 31, .sn, .lit 0⟩]⟩,
  -- GS_CNTCLR
  ⟨0x81f, 1, 1, 1, false, [⟨3, 0, .wo, .lit 0⟩, ⟨4, 4, .wo, .lit 0⟩]⟩,
  -- GS_RENT
  ⟨0x840, 128, 1, 1, false, [⟨31, 0, .ro, .lit 0⟩]⟩]

/-- Registers of 17_reserve_and_wear.md. -/
def rows17 : List Row := [
  -- RS_VETO
  ⟨0x63000, 1, 1, 1, false, [⟨0, 0, .rw, .lit 0⟩, ⟨1, 1, .rw, .lit 0⟩, ⟨2, 2, .rw, .lit 0⟩, ⟨3, 3, .rw, .lit 0⟩, ⟨4, 4, .rw, .lit 0⟩, ⟨8, 8, .rw, .lit 0⟩]⟩,
  -- RS_POLICY
  ⟨0x63001, 1, 1, 1, false, [⟨1, 0, .rw, .lit 1⟩, ⟨7, 4, .rw, .lit 4⟩, ⟨15, 8, .rw, .lit 0x19⟩, ⟨23, 16, .rw, .lit 0x20⟩]⟩,
  -- RS_THR
  ⟨0x63002, 1, 1, 1, false, [⟨11, 0, .rw, .lit 0x258⟩, ⟨21, 12, .rw, .lit 0x64⟩, ⟨31, 22, .rw, .lit 0x10⟩]⟩,
  -- RS_STAT
  ⟨0x63003, 1, 1, 1, false, [⟨0, 0, .ro, .lit 0⟩, ⟨1, 1, .ro, .lit 0⟩, ⟨12, 8, .ro, .lit 0x1f⟩, ⟨13, 13, .ro, .lit 0⟩, ⟨16, 16, .ro, .lit 1⟩]⟩,
  -- RS_WEAR
  ⟨0x63004, 1, 1, 1, false, [⟨7, 0, .w1c, .lit 0⟩]⟩,
  -- RS_BRINGIN
  ⟨0x63008, 1, 1, 1, false, [⟨15, 0, .sn, .lit 0⟩, ⟨31, 31, .sn, .lit 0⟩]⟩,
  -- RS_RETIRE
  ⟨0x63009, 1, 1, 1, false, [⟨15, 0, .sn, .lit 0⟩, ⟨31, 31, .sn, .lit 0⟩]⟩,
  -- RS_VETOED
  ⟨0x6300a, 1, 1, 1, false, [⟨15, 0, .sn, .lit 0⟩, ⟨31, 31, .sn, .lit 0⟩]⟩,
  -- RS_NOSPARE
  ⟨0x6300b, 1, 1, 1, false, [⟨15, 0, .sn, .lit 0⟩, ⟨31, 31, .sn, .lit 0⟩]⟩,
  -- RS_CNTCLR
  ⟨0x6300f, 1, 1, 1, false, [⟨3, 0, .wo, .lit 0⟩]⟩,
  -- RS_DOSE
  ⟨0x63010, 8, 1, 1, false, [⟨15, 0, .ro, .lit 0⟩]⟩,
  -- RS_DOSEREF
  ⟨0x63018, 8, 1, 1, false, [⟨23, 0, .rw, .lit 0⟩]⟩,
  -- RS_LEAK
  ⟨0x63020, 4, 1, 1, false, [⟨15, 0, .ro, .lit 0⟩]⟩,
  -- RS_ROWSEL
  ⟨0x63028, 1, 1, 1, false, [⟨9, 0, .rw, .lit 0⟩]⟩,
  -- RS_LANE
  ⟨0x63030, 8, 1, 1, true, [⟨4, 0, .rw, .lit 0⟩, ⟨6, 5, .rw, .lit 0⟩, ⟨9, 8, .rw, .lit 0⟩, ⟨15, 15, .rw, .lit 0⟩, ⟨20, 16, .ro, .lit 0x1f⟩]⟩,
  -- RS_CHMAP
  ⟨0x63100, 512, 1, 1, false, [⟨5, 0, .ro, .mod32⟩, ⟨13, 8, .ro, .lit 0x3f⟩, ⟨16, 16, .ro, .lit 0⟩]⟩,
  -- RS_DSLOT
  ⟨0x63400, 544, 1, 1, false, [⟨1, 0, .ro, .home⟩, ⟨2, 2, .ro, .lit 0⟩, ⟨3, 3, .ro, .lit 0⟩, ⟨4, 4, .ro, .lit 0⟩, ⟨5, 5, .ro, .lit 0⟩, ⟨6, 6, .ro, .lit 0⟩, ⟨8, 8, .ro, .keep⟩, ⟨9, 9, .ro, .keep⟩]⟩,
  -- RS_ROWMAP
  ⟨0x63800, 128, 1, 1, false, [⟨10, 0, .ro, .keep⟩, ⟨13, 12, .ro, .lit 0⟩, ⟨14, 14, .ro, .keep⟩]⟩]

/-- Registers of 18_twin_operation.md. -/
def rows18 : List Row := [
  -- TW_CFG
  ⟨0x62200, 1, 1, 1, true, [⟨0, 0, .rw, .lit 0⟩, ⟨1, 1, .rw, .lit 0⟩, ⟨2, 2, .rw, .lit 0⟩, ⟨3, 3, .rw, .lit 1⟩, ⟨4, 4, .rw, .lit 1⟩, ⟨13, 8, .rw, .lit 8⟩, ⟨23, 16, .rw, .lit 8⟩]⟩,
  -- TW_CLAIM
  ⟨0x62201, 1, 1, 1, true, [⟨11, 0, .rw, .lit 0⟩, ⟨15, 12, .rw, .lit 1⟩, ⟨31, 16, .ro, .lit 0⟩]⟩,
  -- TW_CTL
  ⟨0x62202, 1, 1, 1, false, [⟨0, 0, .wo, .lit 0⟩, ⟨1, 1, .wo, .lit 0⟩]⟩,
  -- TW_STAT
  ⟨0x62203, 1, 1, 1, false, [⟨2, 0, .ro, .lit 0⟩, ⟨3, 3, .ro, .lit 0⟩, ⟨4, 4, .ro, .lit 0⟩, ⟨31, 16, .ro, .lit 0⟩]⟩,
  -- TW_USTAT
  ⟨0x62204, 2, 1, 1, false, [⟨2, 0, .ro, .lit 0⟩, ⟨31, 16, .ro, .lit 0⟩]⟩,
  -- TW_COPY
  ⟨0x62206, 1, 1, 1, false, [⟨19, 0, .ro, .lit 0⟩, ⟨27, 20, .ro, .lit 0⟩]⟩,
  -- TW_TAKES
  ⟨0x62208, 1, 1, 1, false, [⟨15, 0, .sn, .lit 0⟩, ⟨31, 31, .sn, .lit 0⟩]⟩,
  -- TW_HASHERR
  ⟨0x62209, 1, 1, 1, false, [⟨15, 0, .sn, .lit 0⟩, ⟨31, 31, .sn, .lit 0⟩]⟩,
  -- TW_MISSED
  ⟨0x6220a, 1, 1, 1, false, [⟨15, 0, .sn, .lit 0⟩, ⟨31, 31, .sn, .lit 0⟩]⟩,
  -- TW_TAKEIGN
  ⟨0x6220b, 1, 1, 1, false, [⟨15, 0, .sn, .lit 0⟩, ⟨31, 31, .sn, .lit 0⟩]⟩,
  -- TW_COPYFAIL
  ⟨0x6220c, 1, 1, 1, false, [⟨15, 0, .sn, .lit 0⟩, ⟨31, 31, .sn, .lit 0⟩]⟩,
  -- TW_CNTCLR
  ⟨0x6220f, 1, 1, 1, false, [⟨4, 0, .wo, .lit 0⟩]⟩]

/-- Registers of 19_environmental_monitor.md. -/
def rows19 : List Row := [
  -- MON_CTL
  ⟨0x61000, 1, 1, 1, false, [⟨0, 0, .rw, .lit 1⟩, ⟨13, 8, .rw, .lit 8⟩, ⟨16, 16, .wo, .lit 0⟩]⟩,
  -- MON_STAT
  ⟨0x61001, 1, 1, 1, false, [⟨4, 0, .ro, .lit 0⟩, ⟨7, 5, .ro, .lit 0⟩, ⟨31, 16, .ro, .lit 0⟩]⟩,
  -- MON_WIN
  ⟨0x61002, 1, 1, 1, false, [⟨31, 0, .w1c, .lit 0⟩]⟩,
  -- MON_BRK
  ⟨0x61003, 1, 1, 1, false, [⟨31, 0, .w1c, .lit 0⟩]⟩,
  -- MON_EXC
  ⟨0x61004, 1, 1, 1, false, [⟨0, 0, .rw, .lit 0⟩, ⟨31, 16, .ro, .lit 0⟩]⟩,
  -- MON_REC
  ⟨0x61005, 1, 1, 1, false, [⟨0, 0, .rw, .lit 0⟩, ⟨1, 1, .rw, .lit 1⟩, ⟨2, 2, .rw, .lit 1⟩, ⟨15, 8, .rw, .lit 1⟩]⟩,
  -- MON_BRKCNT
  ⟨0x61008, 1, 1, 1, false, [⟨15, 0, .sn, .lit 0⟩, ⟨31, 31, .sn, .lit 0⟩]⟩,
  -- MON_WINCNT
  ⟨0x61009, 1, 1, 1, false, [⟨15, 0, .sn, .lit 0⟩, ⟨31, 31, .sn, .lit 0⟩]⟩,
  -- MON_OVRCNT
  ⟨0x6100a, 1, 1, 1, false, [⟨15, 0, .sn, .lit 0⟩, ⟨31, 31, .sn, .lit 0⟩]⟩,
  -- MON_RECSKIP
  ⟨0x6100b, 1, 1, 1, false, [⟨15, 0, .sn, .lit 0⟩, ⟨31, 31, .sn, .lit 0⟩]⟩,
  -- MON_CNTCLR
  ⟨0x6100f, 1, 1, 1, false, [⟨3, 0, .wo, .lit 0⟩]⟩,
  -- MON_SEQ
  ⟨0x61100, 32, 4, 1, false, [⟨5, 0, .rw, .monChan⟩, ⟨8, 6, .rw, .lit 0⟩, ⟨9, 9, .rw, .lit 1⟩, ⟨12, 10, .rw, .lit 0⟩, ⟨15, 13, .rw, .lit 3⟩, ⟨21, 16, .rw, .lit 7⟩, ⟨22, 22, .rw, .lit 0⟩, ⟨23, 23, .rw, .lit 0⟩, ⟨24, 24, .rw, .firstEight⟩]⟩,
  -- MON_WLO
  ⟨0x61101, 32, 4, 1, false, [⟨23, 0, .rw, .lit 0x800001⟩]⟩,
  -- MON_WHI
  ⟨0x61102, 32, 4, 1, false, [⟨23, 0, .rw, .lit 0x7ffffe⟩]⟩,
  -- MON_RES
  ⟨0x61200, 32, 1, 1, false, [⟨23, 0, .ro, .lit 0x800000⟩, ⟨24, 24, .ro, .lit 0⟩, ⟨25, 25, .ro, .lit 0⟩, ⟨26, 26, .ro, .lit 0⟩, ⟨27, 27, .ro, .lit 0⟩, ⟨31, 28, .ro, .lit 0⟩]⟩,
  -- MON_ESTAT
  ⟨0x61220, 32, 1, 1, false, [⟨0, 0, .w1c, .lit 0⟩, ⟨1, 1, .ro, .lit 1⟩, ⟨2, 2, .ro, .lit 0⟩, ⟨9, 8, .ro, .lit 0⟩]⟩]

/-- Registers of 20_bias_interlock.md. -/
def rows20 : List Row := [
  -- ILK_STRAP
  ⟨0x62000, 1, 1, 1, false, [⟨5, 0, .ro, .keep⟩, ⟨13, 8, .ro, .lit 0⟩, ⟨16, 16, .ro, .keep⟩]⟩,
  -- ILK_STAT
  ⟨0x62001, 1, 1, 1, false, [⟨3, 0, .ro, .lit 0⟩, ⟨5, 4, .ro, .lit 0⟩, ⟨7, 6, .ro, .keep⟩, ⟨9, 8, .ro, .keep⟩, ⟨11, 10, .ro, .keep⟩, ⟨13, 12, .ro, .lit 0⟩, ⟨15, 14, .ro, .lit 0⟩, ⟨16, 16, .ro, .lit 0⟩, ⟨17, 17, .ro, .lit 0⟩, ⟨18, 18, .ro, .lit 0⟩, ⟨19, 19, .ro, .keep⟩]⟩,
  -- ILK_REQ
  ⟨0x62002, 1, 1, 1, false, [⟨1, 0, .wo, .lit 0⟩, ⟨31, 16, .wo, .lit 0⟩]⟩,
  -- ILK_OFF
  ⟨0x62003, 1, 1, 1, false, [⟨1, 0, .wo, .lit 0⟩]⟩,
  -- ILK_CLR
  ⟨0x62004, 1, 1, 1, false, [⟨1, 0, .wo, .lit 0⟩]⟩,
  -- ILK_RC
  ⟨0x62005, 1, 1, 1, false, [⟨15, 0, .ro, .lit 0⟩]⟩,
  -- ILK_CAUSE
  ⟨0x62006, 1, 1, 1, false, [⟨3, 0, .ro, .keep⟩]⟩,
  -- ILK_DEMCNT
  ⟨0x62008, 1, 1, 1, false, [⟨15, 0, .sn, .lit 0⟩, ⟨31, 31, .sn, .lit 0⟩]⟩,
  -- ILK_REFCNT
  ⟨0x62009, 1, 1, 1, false, [⟨15, 0, .sn, .lit 0⟩, ⟨31, 31, .sn, .lit 0⟩]⟩,
  -- ILK_FLTCNT
  ⟨0x6200a, 1, 1, 1, false, [⟨15, 0, .sn, .lit 0⟩, ⟨31, 31, .sn, .lit 0⟩]⟩,
  -- ILK_VOTEFIX
  ⟨0x6200b, 1, 1, 1, false, [⟨15, 0, .sn, .lit 0⟩, ⟨31, 31, .sn, .lit 0⟩]⟩,
  -- ILK_CNTCLR
  ⟨0x6200f, 1, 1, 1, false, [⟨3, 0, .wo, .lit 0⟩]⟩]

/-- Registers of 21_tether_and_peripheral_ports.md. -/
def rows21 : List Row := [
  -- TT_LEN
  ⟨0x62100, 1, 1, 1, false, [⟨12, 0, .rw, .lit 0x100⟩]⟩,
  -- TT_STAT
  ⟨0x62101, 1, 1, 1, false, [⟨3, 0, .ro, .lit 0⟩, ⟨11, 4, .ro, .lit 0⟩, ⟨12, 12, .ro, .lit 0⟩, ⟨15, 13, .ro, .lit 0⟩]⟩,
  -- TT_FRAMES
  ⟨0x62104, 1, 1, 1, false, [⟨15, 0, .sn, .lit 0⟩, ⟨31, 31, .sn, .lit 0⟩]⟩,
  -- TT_REJCNT
  ⟨0x62105, 1, 1, 1, false, [⟨15, 0, .sn, .lit 0⟩, ⟨31, 31, .sn, .lit 0⟩]⟩,
  -- TT_CNTCLR
  ⟨0x62107, 1, 1, 1, false, [⟨1, 0, .wo, .lit 0⟩]⟩,
  -- GPIO_DIR
  ⟨0x62110, 1, 1, 1, false, [⟨7, 0, .rw, .lit 0⟩]⟩,
  -- GPIO_OUT
  ⟨0x62111, 1, 1, 1, false, [⟨7, 0, .rw, .lit 0xff⟩]⟩,
  -- GPIO_SET
  ⟨0x62112, 1, 1, 1, false, [⟨7, 0, .wo, .lit 0⟩]⟩,
  -- GPIO_CLR
  ⟨0x62113, 1, 1, 1, false, [⟨7, 0, .wo, .lit 0⟩]⟩,
  -- GPIO_IN
  ⟨0x62114, 1, 1, 1, false, [⟨7, 0, .ro, .lit 0⟩]⟩,
  -- PN_CFG
  ⟨0x62120, 2, 16, 1, false, [⟨7, 0, .rw, .lit 3⟩, ⟨8, 8, .rw, .lit 0⟩, ⟨9, 9, .rw, .lit 0⟩, ⟨10, 10, .rw, .lit 0⟩, ⟨11, 11, .rw, .lit 0⟩, ⟨15, 12, .rw, .lit 2⟩, ⟨23, 16, .rw, .lit 0x64⟩]⟩,
  -- PN_LEN
  ⟨0x62121, 2, 16, 1, false, [⟨12, 0, .rw, .lit 0x20⟩]⟩,
  -- PN_CTL
  ⟨0x62122, 2, 16, 1, false, [⟨0, 0, .wo, .lit 0⟩, ⟨1, 1, .wo, .lit 0⟩]⟩,
  -- PN_STAT
  ⟨0x62123, 2, 16, 1, false, [⟨0, 0, .ro, .lit 0⟩, ⟨1, 1, .ro, .lit 0⟩, ⟨2, 2, .ro, .lit 0⟩, ⟨3, 3, .ro, .lit 0⟩, ⟨4, 4, .w1c, .lit 0⟩, ⟨5, 5, .w1c, .lit 0⟩, ⟨28, 16, .ro, .lit 0⟩]⟩,
  -- PN_BUF
  ⟨0x62180, 128, 1, 1, false, [⟨31, 0, .rw, .lit 0⟩]⟩]

/-- Every register of the parameter space. -/
def regRows : List Row :=
  rows01 ++ rows02a ++ rows02b ++ rows14 ++ rows03 ++ rows04 ++ rows05 ++ rows06a ++ rows06b ++ rows08 ++ rows09 ++ rows10 ++ rows11 ++ rows12 ++ rows13 ++ rows15 ++ rows16 ++ rows17 ++ rows18 ++ rows19 ++ rows20 ++ rows21

/-- Whether a row holds an address, and as which instance and word. -/
def Row.place (r : Row) (a : Nat) : Option (Nat × Nat) :=
  if a < r.base then none
  else
    let d := a - r.base
    let i := d / r.stride
    let w := d % r.stride
    if i < r.count && w < r.width then some (i, w) else none

/-- The register that holds an address: its row, instance and word. None: the address is reserved or in a memory. -/
def findRow (rows : List Row) (a : Nat) : Option (Row × Nat × Nat) :=
  match rows with
  | [] => none
  | r :: rest =>
    match r.place a with
    | some (i, w) => some (r, i, w)
    | none => findRow rest a

/-- Bits lo to hi as a mask. -/
def maskBits (hi lo : Nat) : Nat := (2 ^ (hi + 1 - lo) - 1) * 2 ^ lo

/-- Load word of a register. -/
def Row.loadWord (r : Row) (i w : Nat) : Nat :=
  r.fields.foldl (fun acc f => acc + f.load.val i w % 2 ^ (f.hi + 1 - f.lo) * 2 ^ f.lo) 0

/-- The bits of a register whose access code satisfies `p`. -/
def Row.bits (r : Row) (p : FieldRow → Bool) : Nat :=
  r.fields.foldl (fun acc f => if p f then acc + maskBits f.hi f.lo else acc) 0

/-- What a word of the parameter space holds when nothing has been written to it (R7). -/
def loadWord (a : Nat) : W32 :=
  match findRow regRows a with
  | none => 0
  | some (r, i, w) => BitVec.ofNat 32 (r.loadWord i w)

/-- The bits of a word that satisfy `p` (none for an address without a register). -/
def bitsOf (a : Nat) (p : FieldRow → Bool) : W32 :=
  match findRow regRows a with
  | none => 0
  | some (r, _, _) => BitVec.ofNat 32 (r.bits p)

/-- The bits of a word that a reset keeps: those in the retention domain (R7). -/
def keepMask (a : Nat) : W32 := bitsOf a fun f => decide (f.load = .keep)

end Sys2Proof.Machine
end

