-- ==== Sys2Proof/Machine/State.lean ====
section
/-! DEFINITION. The state of the hub, as plain data.

Every register of the parameter space has one home: the store `regs`, keyed by its 24-bit parameter address, which
reads as the Load value of the register tables where nothing is listed (Machine/RegTable.lean). What the SN fields
show is in `snap`, pending shadows are in `shadow`, and windowed words are in `bank`. Everything else the spec gives
the hub and does not put into the parameter space is in the structures below, one per subsystem. INVENTORY.md lists
every piece with its rule and its reset value. -/

namespace Sys2Proof.Machine

/-- Reasons for a fault: the spec gives every command an effect, so no meaning raises one. -/
inductive Fault where
  deriving DecidableEq, Repr

/-- Reasons for a refusal. -/
inductive Refusal where
  /-- Raised by the dispatcher for a command without a meaning in this model, by its mnemonic. Safe. -/
  | notModelled (mnemonic : String)
  deriving DecidableEq, Repr

/-! ### Belouz contexts (07_belouz_instruction_set.md) -/

/-- What a context waits for: nothing, slot boundaries (R213), a mode request (R229), a trigger notice (R214). -/
inductive Wait where
  | run
  | slots (n : Nat)
  | mode (rd : Nat)
  | trig (rd : Nat) (left : Option Nat)
  deriving DecidableEq, Repr

/-- A word that an instruction pushes: queue, data, whether it closes its item, and for HEMIT the hit it carries
as (channel, secondary) (R271, R241). -/
structure Push where
  q : Nat
  data : W64
  last : Bool
  hit : Option (Nat × Bool)
  deriving DecidableEq, Repr

/-- What an instruction does to its context, its engine's data memory and the queues, all at once when it (or its
bundle, R201) ends. Registers are numbered g 0-31, v 0-7, m 0-3. -/
structure Act where
  g : List (Nat × W32) := []
  v : List (Nat × Vec) := []
  m : List (Nat × W32) := []
  /-- Whole words of data memory written: word index, value. -/
  mem : List (Nat × W32) := []
  /-- Bits of CS set, and bits of CS cleared before them. -/
  csSet : W32 := 0
  csClr : W32 := 0
  target : Option Nat := none
  pushes : List Push := []
  pop : Option Nat := none
  flush : Option Nat := none
  wait : Wait := .run
  /-- The slot program ends (R213). -/
  ends : Bool := false
  /-- The secondary hits of the slot are fetched (R238). -/
  fetch : Bool := false
  /-- A trigger notice is taken (R214). -/
  notice : Bool := false
  /-- Code of the exception that it raises; 0 when none. -/
  exc : Nat := 0
  /-- The exception comes in the last cycle of a memory access (R611). -/
  late : Bool := false
  /-- Its cycles (R199, R201), and whether it accesses data memory. -/
  cyc : Nat := 1
  uses : Bool := false
  /-- The words of data memory that it reads: the first, and how many. -/
  reads : Nat × Nat := (0, 0)
  deriving DecidableEq, Repr

/-- The first instruction of a bundle, read but not yet in effect. -/
structure Half where
  vec : Bool
  act : Act
  deriving DecidableEq, Repr

/-- One context of a core (R189): its registers, its status word and where it stands. -/
structure Ctx where
  g : Store W32 := []
  v : Store Vec := []
  m : Store W32 := []
  cs : W32 := 0
  pc : Nat := 0
  wait : Wait := .run
  half : Option Half := none
  deriving DecidableEq, Repr

/-! ### Hits (04_time_digitisers.md) -/

/-- A measured hit: its slot (SLOT_COUNT), TOA and TOT; where its amplitude window starts, as a number of 160 MS/s samples
from the boundary of slot `base` (R112); its amplitude and flags once they have been read; and whether it has been pushed
or counted already (`gone`). -/
structure Hit where
  ch : Nat
  slot : W48
  toa : Nat
  tot : Nat
  base : W48
  k0 : Int
  amp : BitVec 16 := 0
  edge : Bool := false
  sat : Bool := false
  spare : Bool := false
  gone : Bool := false
  deriving DecidableEq, Repr

/-- A discriminator pulse that a TDC measures: the slot its coarse count counts from, its raw rising time in 2^-18 ns from
that boundary, its corrected time in 2^-10 ns (R103), the digitiser slot and line that measure it, TOT_EN at the rising
crossing, and whether its hit is complete already (R109). -/
structure Pulse where
  slot : W48
  rise : Int
  tc : Int
  p : Nat
  line : Bool
  tot : Bool
  done : Bool
  deriving DecidableEq, Repr

/-- Time digitiser of one channel: the pulse in progress, and the falling crossing of the pulse measured last as (slot,
time in 2^-18 ns), for the dead time of R110. -/
structure Tdc where
  pulse : Option Pulse := none
  lastFall : Option (W48 × Int) := none
  /-- The falling crossing of a pulse that timed out is still to come (R108, R110), and the digitiser slot and line that measure it
  (R119). -/
  overLong : Bool := false
  longP : Nat := 0
  longLine : Bool := false
  /-- Fine bins that the standby line latched at the last rising and falling crossing (R117). -/
  stbyRise : BitVec 7 := 0
  stbyFall : BitVec 7 := 0
  deriving DecidableEq, Repr

/-! ### The sampling chain and the latency memory (05_amplitude_chain.md, 06_acquisition_and_triggers.md) -/

/-- The chain of one channel. Lists of samples with flag codes are newest first. -/
structure Chain where
  /-- Stage A outputs, for AMP, with the flag codes of R79 and R80 that stage A's own limit has not touched. -/
  hist : List (BitVec 16 × BitVec 2) := []
  /-- Stage A outputs since the last start: the history of stage B. -/
  fir : List (BitVec 16 × BitVec 2) := []
  /-- Stage B outputs since the last start, and how many there have been. -/
  bs : List (BitVec 16 × BitVec 2) := []
  nb : Nat := 0
  /-- Stage D inputs since the last start, and how many there have been. -/
  xs : List (BitVec 16 × BitVec 2) := []
  nx : Nat := 0
  /-- Outputs whose instant has come: index and position in 2^-19 input samples, oldest first (R138). -/
  due : List (Nat × Int) := []
  /-- Index of the next output to be fixed. -/
  next : Nat := 0
  /-- Outputs of the word that is not complete, oldest first; number of outputs stored (R150). -/
  part : List (BitVec 18) := []
  stored : Nat := 0
  /-- Ranges of outputs, first and last, of times without a serving slot (R96) and with a spare serving (R182). -/
  holes : List (Nat × Nat) := []
  spares : List (Nat × Nat) := []
  deriving DecidableEq, Repr

/-- One window position of a section: a sample with its flag code and whether a spare served it, or a gap type. -/
inductive Pos where
  | sample (v : BitVec 16) (flag : BitVec 2) (spare : Bool)
  | gap (t : W8)
  deriving DecidableEq, Repr

/-- One selected channel of a pending record: the positions read so far, in order. -/
structure Sect where
  ch : Nat
  got : List Pos := []
  /-- Positions covered at accept, which no access has read (R166). -/
  early : Nat := 0
  deriving DecidableEq, Repr

/-- An L1A on its way to its accept slot (R154). -/
structure L1a where
  num : W24
  inferred : Bool
  origin : W48
  accept : W48
  deriving DecidableEq, Repr

/-- A pending trigger (R167): its record as far as it has been read. `sel` holds the acquisition registers of its
origin slot (R155); `nt` is n_T and `dtFirst` DT_FIRST. -/
structure Trig where
  num : W24
  inferred : Bool
  origin : W48
  event : W48
  /-- Profile L. -/
  long : Bool
  /-- PRE, POST and ANCHOR of the profile; n_T and DT_FIRST (R155). -/
  pre : Nat
  post : Nat
  anchor : Bool
  nt : Int
  dtFirst : Int
  /-- Reading has started (R164). -/
  started : Bool
  /-- Acquisition registers of the origin slot (R155), and the sections of the record (R167). -/
  sel : Store W32
  sects : List Sect
  /-- Parts handed over, and how many sections of the record are in them. -/
  part : Nat := 0
  doneSec : Nat := 0
  /-- Blocks of record memory that the part in assembly has taken (R281). -/
  blocks : Nat := 0
  deriving DecidableEq, Repr

/-! ### Ox engines (08_ox_engine_programming.md) -/

/-- An engine and the group it serves. -/
structure Ox where
  act : Store W32 := []
  stby : Store W32 := []
  dmem : Store W32 := []
  /-- Words with an uncorrectable error: word index in the block of the engine (R191). -/
  bad : List Nat := []
  slot : Ctx := {}
  bg : Ctx := {}
  notices : List (W24 × W24) := []
  /-- Consecutive slots with a slot-context exception (R257), and whether this slot raised one. -/
  excRun : Nat := 0
  excNow : Bool := false
  stopped : Bool := false
  /-- The slot program of this slot has ended or fallen back. -/
  done : Bool := true
  /-- Cycles of the slot that the slot program has used (R249), and that the background has used after it (R248). -/
  cyc : Nat := 0
  bgCyc : Nat := 0
  /-- Slot in which the background context halted (R258), and slot in which the pending SWAP was made (R235). -/
  haltAt : W48 := 0
  swapFrom : W48 := 0
  /-- The hits presented in this slot: primaries and secondaries. -/
  prim : List Hit := []
  sec : List Hit := []
  pile : W32 := 0
  fetched : Bool := false
  /-- The fallback buffer: hit word and slot of push (R253). -/
  fb : List (W64 × W48) := []
  /-- An overrun has been reported in this orbit (R254). -/
  reported : Bool := false
  /-- Bank seals after a bring-in that waits for its program (R498). -/
  loadWait : Bool := false
  deriving DecidableEq, Repr

/-! ### Queues, Mule, compression (09_records_queues_ledger.md, 10_compression.md) -/

/-- A queue word with its marks (R266). -/
structure QWord where
  data : W64
  last : Bool
  gap : Bool
  hit : Bool
  slot : W48
  /-- Cycle of that slot in which it was pushed (R269, R270). -/
  cyc : Nat := 0
  deriving DecidableEq, Repr

/-- A queue (R269-R280): its words, oldest first, whether its producer has an item open, and whether its consumer
has taken words of an item that is not complete. P, OVF, DISCARD and ABOVE are in Q_STAT. -/
structure Queue where
  ws : List QWord := []
  openItem : Bool := false
  taken : Bool := false
  deriving DecidableEq, Repr

/-- A word of an open HIT BLOCK: group, kind of its run (0 slot program, 1 fallback, 2 GAP marker), the word. -/
structure HbWord where
  g : Nat
  kind : Nat
  w : W64
  /-- Slot of push. -/
  slot : W48
  /-- It is a hit, which counts as delivered when the block holds it (R294). -/
  hit : Bool
  /-- It closes its item (R276). -/
  last : Bool := true
  deriving DecidableEq, Repr

/-- An open HIT BLOCK (R289-R293): the start of its span, the words of the record in progress in the order taken, and the
number of records of the span that are complete already (R293). -/
structure HitBlock where
  b : W48
  ws : List HbWord := []
  part : Nat := 0
  deriving DecidableEq, Repr

/-- Classes of record memory (R282). -/
inductive Cls where
  | hit
  | acq
  | ctrl
  | ledger
  deriving DecidableEq, Repr

/-- A record without its trailer: header and body. `ann` is the queue, Q28 or Q29, whose announcement stands for it. -/
structure Rec where
  ws : List W64
  cls : Cls
  ann : Option Nat := none
  /-- Present samples of an acquisition record, in flight until it is handed over (R300, R304). -/
  samples : Nat := 0
  deriving DecidableEq, Repr

/-- A record in the compression engine or in the Hen: header to trailer. -/
structure Whole where
  ws : List W64
  cls : Cls
  /-- Slot in which it entered its Hen input (R329). -/
  enter : W48 := 0
  /-- It is sent again after a lane fence: REPLAY set, its words paid already (R380). -/
  again : Bool := false
  /-- The child port that it came from, and the cells of that port's buffer that it holds (R376). -/
  port : Option Nat := none
  cells : Nat := 0
  deriving DecidableEq, Repr

/-- A record being coded: its context; whether the block is reset, is coded in the forerunner format, is RAW, or replaces a
block that failed its check; the working P; the words still to come (of the body, or of a forerunner code area), the pending
zero run and literals; the code words written, newest first, as width and value, and their bits; the blocks taken. -/
structure Job where
  src : Whole
  ctx : Nat
  fmt : Bool
  reset : Bool
  raw : Bool := false
  vfail : Bool := false
  p : BitVec 16
  /-- P at the start of the code area, which the check decodes from (R316). -/
  p0 : BitVec 16 := 0
  /-- Words still to come, the zero run and the literals in progress, the code words newest first as width and value, their
  bits, blocks of output taken; no code word follows (R308-R313). -/
  rest : List W64
  zrun : Nat := 0
  lit : List W64 := []
  code : List (Nat × Nat) := []
  nbits : Nat := 0
  blocks : Nat := 0
  ended : Bool := false
  deriving DecidableEq, Repr

structure Mule where
  /-- Completed records that wait for hand-over, in order (R284). -/
  recs : List Rec := []
  /-- HIT BLOCKs in progress (R289). -/
  blocks : List HitBlock := []
  /-- Words taken of an item not yet complete, per queue, and whether it is discarded to its end. -/
  items : Store (List QWord) := []
  /-- Slots left of the drain of R298, and the slot that the boundary of its beginning opened. -/
  drain : Option Nat := none
  stop : W48 := 0
  /-- A LEDGER record that waits to be handed over. -/
  ledger : Option (List W64) := none
  /-- No LEDGER record has been made since the restart; counters that have wrapped; slot of the last record. -/
  firstLedger : Bool := true
  wraps : BitVec 18 := 0
  lastLedger : Option W48 := none
  /-- Start of the oldest span whose HIT BLOCK has not been closed (R615). -/
  span : Option W48 := none
  /-- The group whose turn it is (R290). -/
  turn : Nat := 0
  /-- Cycles of the slot that the Mule has spent at the hit queues and fallback buffers (R290). -/
  cyc : Nat := 0
  /-- A closing LEDGER record that waits for the acquisition records closed before it (R186, R298), and how many of the records that
  wait to be announced and of the triggers are still before it. -/
  closing : Option (List W64) := none
  beforeA : Nat := 0
  beforeT : Nat := 0
  deriving DecidableEq, Repr

structure Cmp where
  waiting : List Whole := []
  job : Option Job := none
  deriving DecidableEq, Repr

/-! ### Hen and lanes (11_hen_merge_and_credits.md, 12_serial_lanes.md) -/

/-- An uplink frame kept for replay: SEQ, KIND, NEW, REPLAY, cell, and the records that it carries words of (R370). -/
structure Kept where
  seq : W8
  kind : Nat
  new : Bool
  again : Bool
  cell : List W64
  recs : List Whole
  deriving DecidableEq, Repr

/-- A record assigned to a lane: the record and how many of its words have been sent (R378). -/
structure Assigned where
  r : Whole
  sent : Nat
  reserved : Nat
  deriving DecidableEq, Repr

/-- A frame that waits for twin delivery (R507): its slot; whether a CHILD lane received it, and the port of that lane then; Q of the
frame; its bytes as delivered after correction; and whether the unit names it as accepted, and does not wait for the partner to. An entry
without bytes stands for a frame that failed to decode (R363), or in a CHILD lane for the end of what the lane had received. -/
structure Held where
  slot : W48
  up : Bool
  port : Nat
  q : W48 := 0
  bytes : List W8
  named : Bool
  deriving DecidableEq, Repr

/-- One lane beside its registers. -/
structure Lane where
  /-- Lowest cause that waits for the next boundary (R380); 0 when none. -/
  cause : Nat := 0
  /-- The last frame received decoded (R359); consecutive frames that failed (R357). -/
  lastOk : Bool := false
  fails : Nat := 0
  /-- TRAIN frames still to send (R360); launch of the last mark; its echo has come. -/
  train : Nat := 0
  mark : Option W48 := none
  echoed : Bool := false
  /-- Records assigned to the lane; frames kept for replay, oldest first; frames still to be repeated in the replay in
  progress (R370, R374, R378). -/
  tx : List Assigned := []
  kept : List Kept := []
  again : List Kept := []
  /-- Frames of the lane of the other parent port that this one repeats, still to be sent and numbered (R22, R370). -/
  copies : List Kept := []
  /-- Slot in which the last replay started (R374). -/
  lastReplay : Option W48 := none
  /-- Slot in which the acknowledgement last advanced, or the first frame was kept (R380). -/
  ackSlot : W48 := 0
  /-- Launch slots of the frames sent, by SEQ (R366). -/
  launches : List (W8 × W48) := []
  /-- Cells acknowledged (PARENT) or received (CHILD) since the lane came into service, and the count at each of the
  last 256 frame sequences received, newest first (R344). -/
  cells : W32 := 0
  cellHist : List (W8 × W32) := []
  /-- The next SEQ expected, and whether a NAK is to be sent (R372). -/
  exp : Option W8 := none
  nak : Bool := false
  /-- The last frame sent, as it leaves the transmitter, and its slot. -/
  out : List W8 := []
  sentAt : Option W48 := none
  /-- Uplink record in progress: words so far, REPLAY of the frame of its header, words still discarded. -/
  rx : List W64 := []
  rxAgain : Bool := false
  rxSkip : Nat := 0
  /-- Reason with which the record in progress has been dropped (R342); 0 when it has not. -/
  rxDrop : Nat := 0
  /-- Cells that the record in progress holds (R337). -/
  rxCells : Nat := 0
  /-- Packet bytes in progress, and whether packet bytes are ignored (R362-R364). -/
  pkt : Option (List W8) := none
  ignore : Bool := false
  /-- Child ports whose forward buffer the packet in progress found full (R393). -/
  pktSkip : List Nat := []
  /-- SEQ of the last frame received by a CHILD lane, and when it came; the round trip measured last (R366). -/
  upSeq : W8 := 0
  upTime : Option (W48 × Nat) := none
  prevRtt : Nat := 0
  /-- Test patterns (R384, R385): the last bits of the generator and of the checker, newest lowest; the length of the newest run
  of received bits that follows the pattern, while unlocked; the last 64 comparisons while locked. -/
  genReg : BitVec 31 := BitVec.allOnes 31
  chkReg : BitVec 31 := 0
  prbsRun : Nat := 0
  prbsWin : List Bool := []
  /-- Injection in progress: its mode, frames or bits still to alter, position, bytes a frame (R386). -/
  injMode : Nat := 0
  injLeft : Nat := 0
  injPos : Nat := 0
  injLen : Nat := 0
  /-- A replay whose ACK has not advanced (1), or has (2), since it started; 0 when none is to be reported. -/
  rep : Nat := 0
  /-- Frames that wait for twin delivery, oldest first (R507). -/
  hold : List Held := []
  /-- A retirement waits until nothing is unacknowledged (R501). -/
  retiring : Bool := false
  /-- Slot since which it has been trained and has kept framing (R383). -/
  trainedAt : W48 := 0
  /-- The average in progress (R46): echoes taken, the sums of their round trips and grid errors. -/
  avgN : Nat := 0
  avgRtt : Int := 0
  avgTheta : Int := 0
  /-- The round trip of its last average in 2^-10 ns, which RT_RTT shows in 24 bits (R46, R47). -/
  rtt : Int := 0
  /-- The averaged grid error of the lane beside the moves of the grid at that time, as `Rooster.theta` counts (R50); an average
  has been made, and one has been made since framing returned in holdover (R52). -/
  theta : Int := 0
  averaged : Bool := false
  fresh : Bool := false
  /-- A frame other than TRAIN has arrived on a spare that comes in as a CHILD lane (R383). -/
  upSeen : Bool := false
  /-- Role and port in force before the fence (R485). -/
  lostRole : Nat := 0
  lostPort : Nat := 0
  /-- What is on the lane was assigned while its port was not the port in force (R350). -/
  led : Bool := false
  deriving DecidableEq, Repr

/-- One child port beside its registers. -/
structure Child where
  /-- Records of the port that wait for the Hen, oldest first (R326). -/
  recs : List Whole := []
  /-- G_p through past launch slots, newest first (R344). -/
  gHist : List (W48 × W32) := []
  /-- Frames counted under R340 since the last audit. -/
  malf : Nat := 0
  /-- The next audit is taken as the new start, without a comparison (R346). -/
  resync : Bool := true
  /-- Packets that wait to be forwarded: bytes left, and whether the first byte is still to go (R393). -/
  fwd : List (List W8 × Bool) := []
  /-- The lane that carries a packet of which a part has gone (R362). -/
  fwdLane : Option Nat := none
  /-- Records completed in the last 1,024 slots: HUB, sequence number, slot (R382). -/
  recent : List (BitVec 16 × W32 × W48) := []
  deriving DecidableEq, Repr

structure Hen where
  /-- Own records that wait for assignment; the child ports (R325, R326). -/
  pool : List Whole := []
  child : Store Child := []
  /-- Records returned to the head of assignment (R380). -/
  front : List Whole := []
  /-- SLOT tag of the record assigned last (R328); cells set aside for records assigned. -/
  lastTag : Option W24 := none
  reserved : Nat := 0
  /-- Slot of the last frame with a claim, per parent port (R348). -/
  claimAt0 : Option W48 := none
  claimAt1 : Option W48 := none
  /-- An audit frame is due. -/
  audit : Bool := false
  /-- Downlink frames lost since the last audit, as the audit frame states them (R344). -/
  lostDl : BitVec 16 := 0
  /-- Cumulative figures of the own pool (R344). -/
  granted : W32 := 0
  returned : W32 := 0
  /-- Launch slot of the last frame that granted (R344). -/
  grantSlot : W48 := 0
  /-- Fast commands to forward: code, trigger number, first slot (R34, R354). -/
  fc : List (W8 × W24 × W48) := []
  deriving DecidableEq, Repr

/-! ### Packets (13_command_packets_and_replies.md) -/

/-- A complete packet that waits for execution (R394). -/
structure Pkt where
  src : Source
  dest : BitVec 16
  seq : BitVec 12
  broadcast : Bool
  noReply : Bool
  forward : Bool
  atomic : Bool
  code : List W32
  arrived : W48
  /-- It arrived after S05 had passed and before the start had ended (R433). -/
  late : Bool := false
  /-- Address of the reply (R28). -/
  hub : BitVec 16
  deriving DecidableEq, Repr

/-- A packet that executes, or an ATOMIC packet that waits for its apply boundary. -/
structure Exec where
  /-- The packet; the slot in which its execution started, the mode at that time, and what the parameter space held then
  (R443). -/
  pkt : Pkt
  start : W48
  mode : Nat
  view : Store W32
  viewBank : Store W32
  /-- Result words so far; STALE has been seen; RANGE has been set (R403, R407). -/
  reply : List W32 := []
  stale : Bool := false
  range : Bool := false
  /-- Writes held by ATOMIC: address, value, index of the instruction (R398). -/
  held : List (Nat × W32 × Nat) := []
  /-- LANE_ROLE writes: lane, value; index of the last (R24). -/
  roles : List (Nat × W32) := []
  roleAt : Nat := 0
  /-- A write of the packet has changed HUB_ADDR. -/
  addrSet : Bool := false
  /-- Index of the packet instruction that executes, or of the CALL that led to the one that does (R205). -/
  ix : Nat := 0
  /-- Words of the WRESET key seen, 0-2 (R421); the MASK of a first ILK_REQ word (R559). -/
  wkey : Nat := 0
  ilkKey : Option (BitVec 2) := none
  /-- Value of TT_LEN that its end puts in force (R573). -/
  ttLen : Option Nat := none
  /-- Its writes to CNTCLR registers that act at the next boundary (R8, R443). -/
  clears : List (Nat × W32) := []
  /-- Tail code and index when execution stopped. -/
  stop : Option (Nat × Nat) := none
  /-- Slot boundaries passed since it started (R397). -/
  slots : Nat := 0
  deriving DecidableEq, Repr

/-- A reply: SEQ, slot of R406, header and result words and CRC as words of 32 bits. -/
structure Reply where
  seq : BitVec 12
  slot : W48
  ws : List W32
  deriving DecidableEq, Repr

structure Packets where
  /-- Packets that wait; the one in execution; the ATOMIC one that waits for its apply boundary (R394-R398). -/
  waiting : List Pkt := []
  cur : Option Exec := none
  apply : Option Exec := none
  /-- The last reply by source (R406). -/
  laneReply : Option Reply := none
  tetherReply : Option Reply := none
  /-- Replies that wait for the reply unit to announce them on Q29. -/
  out : List Reply := []
  /-- LANE_ROLE writes of the packet that ended, checked and passed, and a warm reset that its reply precedes. -/
  roles : List (Nat × W32) := []
  reset : Bool := false
  /-- What shows that the packet's own reply is still to leave: the replies that go out as REPLY records, and the Tether replies up to
  it (R23, R421). -/
  awaitLane : List Reply := []
  awaitTether : Nat := 0
  /-- Slot in which the foreground last became free. -/
  freed : Option W48 := none
  deriving DecidableEq, Repr

/-- A background task (R221): entry, argument, result slot. -/
structure Task where
  entry : Nat
  arg : W32
  slot : Nat
  deriving DecidableEq, Repr

structure Bull where
  fg : Ctx := {}
  bg : Ctx := {}
  imem : Store W32 := []
  dmem : Store W32 := []
  badI : List Nat := []
  badD : List Nat := []
  tasks : List Task := []
  task : Option Task := none
  /-- Last tag given to each result slot (R223). -/
  tags : Store (BitVec 12) := []
  /-- The physical cores that form the pair (R475). -/
  pairA : Fin 3 := 0
  pairB : Fin 3 := 1
  /-- A LOCKSTEP report has stopped the pair for its self-check (R475). -/
  stopped : Bool := false
  deriving DecidableEq, Repr

/-! ### Timing, start, faults -/

/-- The fast commands (R55). -/
inductive Fc where
  | nop
  | l1a
  | sync
  | orbit
  | hold
  | calPulse
  | snap
  | commit
  | twinTake
  deriving DecidableEq, Repr

/-- A charge step of an injector (R84). -/
structure Inject where
  ch : Nat
  /-- Charge in 0.5 fC. -/
  charge : Nat
  /-- Polarity, as FE_CFG.POL selects it. -/
  pol : Bool
  /-- Arrival after the slot boundary, in 1/6,400 of a slot (R11): 4.000 ns are 1,024 of them, and DELAY counts 25. -/
  arrives : Nat
  /-- The group reference injects, not the channel's own injector (R447). -/
  ref : Bool := false
  deriving DecidableEq, Repr

structure Rooster where
  /-- Fraction of the TIME_NS accumulator, 2^-24 ns (R43). -/
  frac : BitVec 24 := 0
  /-- Trigger number of the last L1A (R62). -/
  prevTrig : Option W24 := none
  /-- Fast commands of decoded frames that wait for their decode slot (R57): command, launch slot q, decode slot, trigger
  number, whether the codeword was correct. -/
  held : List (Fc × W48 × W48 × W24 × Bool) := []
  /-- Scheduled fast commands: command, action slot (R58). -/
  sched : List (Fc × W48) := []
  /-- Action slots of SNAP and COMMIT instructions (R230). -/
  snapAt : Option W48 := none
  commitAt : Option W48 := none
  /-- Writes to CNTCLR registers that act at the next boundary: address, bits written as 1. -/
  clears : List (Nat × W32) := []
  /-- Boundaries left until the HEALTH item of a band switch, and its phase error (R606). -/
  band : Option (Nat × W32) := none
  /-- First slot of the present loss of framing on the port in force, slots of it so far, and first slot in which framing
  had come back during a holdover (R51, R52). -/
  lossAt : W48 := 0
  noFrame : Nat := 0
  backAt : Option W48 := none
  /-- Consecutive slots without framing on any PARENT lane (R26). -/
  noParent : Nat := 0
  /-- Slot at whose boundary the last SYNC acted (R145). -/
  syncedAt : Option W48 := none
  /-- Slot of the last CAL_PULSE that fired (R87). -/
  lastCal : Option W48 := none
  /-- The charge steps that it gave, in rising order of channel (R84-R86). -/
  injected : List Inject := []
  /-- The grid error still to be slewed out, in 2^-10 ns / 125: 1 ps is 128 of these (R49). -/
  theta : Int := 0
  /-- How far the grid has been moved since the start, in the same unit (R49, R50). -/
  moved : Int := 0
  /-- SRC has left CRYSTAL, and no timing lane has existed since: the crystal is still the reference (R607). -/
  leaving : Bool := false
  /-- Claim of the port in force at the last boundary; the master has changed and its first average is awaited (R54). -/
  claim : BitVec 16 := 0
  newMaster : Bool := false
  /-- Slot from which the data path has run (R114). -/
  runFrom : Option W48 := none
  /-- The slot that the boundary opened at which the hub left the running modes, while they are left. -/
  runTo : Option W48 := none
  /-- The root PLL has locked, and the counters run (R605). -/
  counting : Bool := false
  deriving DecidableEq, Repr

structure Start where
  /-- The hub is held in reset: without power, by the pin, or by the test port. -/
  held : Bool := false
  /-- A supply is below its falling threshold; RST_N is asserted. -/
  off : Bool := false
  pin : Bool := false
  /-- The step that R26 repeats beside the start, S03 or S04; 0 when none. -/
  again : Nat := 0
  /-- S01 or S02 has failed, and the start waits for its rerun (R427). -/
  failed : Bool := false
  /-- Lanes on which S03 has found framing and which became PARENT lanes: AUTO is PARENT for these (LANE_ROLE). -/
  found : List Nat := []
  /-- The rate that S03 found, and the lanes that run at it whatever their RATE reads (R428). -/
  foundRate : BitVec 2 := 0
  atRate : List Nat := []
  /-- Steps, of S06 to S08, to whose repair list the reserve manager has added since they last ran (R491); kept as the lists are. -/
  added : List Nat := []
  deriving DecidableEq, Repr

structure Goose where
  /-- Reports of the CK640 cycle in progress, in the order found, each with whether its unit was fenced already (R466, R472). -/
  found : List (Report × Bool) := []
  /-- Units fenced. -/
  fenced : List (BitVec 16) := []
  /-- Units that held no job when they were fenced (R604), and the channel that a fenced digitiser slot served. -/
  idle : List (BitVec 16) := []
  jobs : List (Nat × Nat) := []
  /-- Units retired by a preventive exchange. -/
  retired : List (BitVec 16) := []
  /-- Fences that take effect at the next boundary (R473), and memory words handed to the reserve manager: memory
  as UNIT[9:0], word (R473). -/
  due : List (BitVec 16) := []
  repairs : List (Nat × Nat) := []
  /-- Codes logged, and codes with a notice, in this orbit (R469, R479). -/
  logged : List Nat := []
  noticed : List Nat := []
  /-- Notices skipped since the last one was made (R479). -/
  skipped : Nat := 0
  /-- Requests that wait for the next boundary (R417). -/
  fatal : Bool := false
  demand : Bool := false
  holdFc : Bool := false
  modeReq : Option Nat := none
  /-- Slot from which the quiet period counts. -/
  quietFrom : W48 := 0
  /-- Codes of the fatal faults whose causes stand (R481). -/
  standing : List Nat := []
  deriving DecidableEq, Repr

/-! ### Calibration, reserve, twin, monitor, interlock, ports, test port -/

/-- What a shadow phase has compared: hits, the sum of their TOA differences, samples with flag code 00b, and the sum of their stage A
differences (R461, R462). -/
structure Compared where
  orbits : Nat := 0
  hits : Nat := 0
  toa : Int := 0
  samples : Nat := 0
  amp : Int := 0
  deriving DecidableEq, Repr

/-- A rolling round trip of a group (R461): channel, home and spare digitiser slots, stage 1-5, orbits in the stage. -/
structure Roll where
  ch : Nat
  home : Nat
  spare : Nat
  stage : Nat
  orbits : Nat := 0
  /-- The self phase missed a limit (R462). -/
  bad : Bool := false
  /-- What the shadow phase has compared (R461, R464). -/
  seen : Compared := {}
  deriving DecidableEq, Repr

structure Cal where
  /-- PROC, APPLY, GMASK and LANE of the start (R446). -/
  proc : Nat := 0
  apply : Bool := false
  gmask : BitVec 16 := 0
  lane : Nat := 0
  /-- The procedure in progress: within PROC Fh, the one of 1h-9h that runs. -/
  part : Nat := 0
  /-- Slots since it began (PROC 1h-3h of Fh, and Ah). -/
  ticks : Nat := 0
  /-- Pulses that the engine has fired in it (R450). -/
  fired : Nat := 0
  /-- Crossings of a channel in a step of THRESH: 256 × channel + step (R454, R455). -/
  counts : Store Nat := []
  /-- The rolling round trip of each group, and the channel that comes next (R461). -/
  roll : Store (Option Roll) := []
  rollNext : Store Nat := []
  /-- Digitiser slots that PROC 1h-3h has lost to a bring-in since it began (R97). -/
  lost : List Nat := []
  /-- INJG that the INJ of PROC Fh has found, by channel: it is published only when PROC Fh ends (R452, R454). -/
  injg : Store Nat := []
  deriving DecidableEq, Repr

/-- A preparation of the reserve manager: kind (0 row, 1 line, 2 digitiser slot, 3 engine, 4 lane); what is replaced
(memory × 65536 + row; slot × 2 + line; channel; group; lane); the spare (entry of the row map; line; slot of the group;
16; entry of RS_LANE); orbit boundaries still to come; the slot in which the last of them counted; whether it is
reactive. -/
structure Prep where
  kind : Nat
  unit : Nat
  spare : Nat
  left : Nat
  since : W48
  reactive : Bool
  /-- A lane has run LANE_RX (R459); a preventive bring-in of a digitiser slot has passed its comparison (R497). -/
  passed : Bool := false
  /-- The self phase of a digitiser slot has ended, and the shadow phase runs (R497). -/
  selfDone : Bool := false
  /-- What it has compared (R497). -/
  seen : Compared := {}
  deriving DecidableEq, Repr

structure Reserve where
  /-- Preparations in progress (R486). -/
  preps : List Prep := []
  /-- Replacements held back by a veto (R490): kind as in `Prep`, unit. -/
  heldBack : List (Nat × Nat) := []
  /-- Row tracking: memory, row, corrected errors, last error (R492). -/
  rows : List (Nat × Nat × Nat × W48) := []
  /-- Exceptions of engines: group, slot. -/
  oxErrs : List (Nat × W48) := []
  /-- Lines whose last calibration met the condition of metric 4: digitiser slot, line. -/
  tdcNear : List (Nat × Bool) := []
  /-- a(p) of the first OFFSET or self phase. -/
  firstA : Store (Option (BitVec 16)) := []
  /-- What stood at its threshold at the last evaluation: metric bit, unit (R493). -/
  reached : List (Nat × Nat) := []
  /-- Digitiser slots whose fence or retirement has been lifted and that serve their channel again from the next boundary: slot,
  channel (R93). -/
  returns : List (Nat × Nat) := []
  /-- The blocks of the record-memory rows to be mapped hold no record at this orbit boundary (R500). -/
  rowFree : Bool := false
  /-- Groups of which a channel has changed its serving slot at the last boundary (R496). -/
  moved : List Nat := []
  deriving DecidableEq, Repr

structure Twin where
  /-- Slot since which the state of the unit has stood (R516). -/
  since : W48 := 0
  /-- Delayed unit-local events: slot, unit, STATUS bits, item words. -/
  events : List (W48 × Bool × BitVec 13 × List W64) := []
  /-- Unit-local STATUS bits shown ALIGN slots later, and items that wait to be sent (R508). -/
  local_ : BitVec 13 := 0
  items : List (List W64) := []
  /-- Partner's DMASK and ICRC by slot, own OHASH by slot, and partner's OHASH. -/
  masks : List (W48 × BitVec 24 × W32) := []
  hashes : List (W48 × W32) := []
  /-- What the output hash of the slot covers so far, by place: 0 records, 1 + lane grants, 25 + port packet bytes (R512). -/
  hashBytes : List (Nat × List W8) := []
  /-- Slot of the last TWIN SYNC received (R517). -/
  lastSeen : Option W48 := none
  /-- The partner as its last TWIN SYNC showed it: state, claim driven, item words so far. -/
  peerState : Nat := 0
  peerClaim : BitVec 16 := 0
  peerItem : List W64 := []
  /-- Words of the own item in progress that have left. -/
  ownItem : List W64 := []
  /-- Changes that TW_USTAT shows ALIGN slots later: slot, unit, state, claim. -/
  ustat : List (W48 × Bool × Nat × BitVec 16) := []
  /-- The unit leaves step at the next boundary (R514); a JOIN has been sent; health items are due (R527). -/
  diverge : Bool := false
  joinSent : Bool := false
  healthDue : Bool := false
  /-- The partner has reported a fatal fault (R517); it has asked to join; this unit has been asked to join. -/
  peerFatal : Bool := false
  peerJoin : Bool := false
  wantJoin : Bool := false
  /-- Slot in which joining began, and slot tag at which step begins (R523). -/
  joinAt : Option W48 := none
  stepAt : Option W24 := none
  /-- Words of the state block still to be sent, how many have been, and the block as far as it has been looked at (R523). -/
  copyWords : List W64 := []
  copyAddr : Nat := 0
  copied : Store W32 := []
  /-- A takeover is asked for (R516); a health report is asked for; orbit boundaries in this state (R527). -/
  take : Bool := false
  hreq : Bool := false
  orbits : Nat := 0
  /-- Reports since the last health item. -/
  cor : Nat := 0
  cont : Nat := 0
  errs : Nat := 0
  /-- The state block received so far (R523). -/
  image : Store W32 := []
  deriving DecidableEq, Repr

structure Monitor where
  /-- Settings of the entry in progress, word 0 (R539). -/
  entry : W32 := 0
  /-- Entries of the pass in progress (R539). -/
  len : Nat := 8
  /-- The last entry of the pass has ended, and its end is to come. -/
  due : Bool := false
  /-- Passes since the last pass item was due (R546). -/
  since : Nat := 0
  /-- Slot tag at which the result of an entry was made. -/
  tags : Store W24 := []
  /-- Slot in which the entry in progress started (R536). -/
  start : W48 := 0
  /-- The excitation current has been out of its limits since the pre-phase of the entry began (R543, R544). -/
  excBad : Bool := false
  deriving DecidableEq, Repr

structure Ilk where
  /-- Start-up test and fault clearing: both contacts of channel n have been seen open. -/
  sutOpen : BitVec 2 := 0
  discOpen : BitVec 2 := 0
  /-- Grants of R559. -/
  grant : BitVec 2 := 0
  /-- Slots for which feedback 0 and 1 have been low (R564). -/
  fbLow0 : Nat := 0
  fbLow1 : Nat := 0
  /-- Slots for which the contacts of a channel have disagreed (R554), for which a feedback has differed from its output outside the
  pause after a test pulse (R563), and left of that pause. -/
  apart0 : Nat := 0
  apart1 : Nat := 0
  off0 : Nat := 0
  off1 : Nat := 0
  pause0 : Nat := 0
  pause1 : Nat := 0
  /-- A demand stands (R558). -/
  demand : Bool := false
  /-- Input pins whose level has been taken since the last reset: contacts in bits 3-0, straps in bits 9-4 (R549). -/
  known : BitVec 10 := 0
  /-- What may have lasted through a time that no slots measured: disagreements in bits 1-0, feedbacks that differ in bits 3-2 (R569). -/
  gap : BitVec 4 := 0
  /-- Faults found while the hub was held in reset, by unit, which are counted and reported as its start begins (R567). -/
  owed : List Nat := []
  deriving DecidableEq, Repr

structure Tether where
  /-- Frame length in force (R573). -/
  len : Nat := 256
  /-- Frame length from the next frame on. -/
  lenNext : Option Nat := none
  /-- A frame that began before that length was to take effect has ended since. -/
  lenLate : Bool := false
  /-- Packet bytes in progress. -/
  pkt : Option (List W8) := none
  /-- Replies not fully sent: bytes left, and whether the first byte is still to go (R575). -/
  out : List (List W8 × Bool) := []
  /-- How many of them were held when the last frame ended. -/
  ready : Nat := 0
  /-- The words that the hub shifted out in the last frame (R571, R573). -/
  resp : List W32 := []
  /-- The TREJ code to be stated (R405). -/
  trej : W8 := 0
  deriving DecidableEq, Repr

/-- The test port (R595, R596): the instruction in force, the boundary register as last loaded, and what its cells captured
last. -/
structure Tap where
  ir : W8 := 1
  cells : BitVec 136 := 0
  captured : BitVec 136 := 0
  /-- The other data register in the scan path: the identification code, or the bypass bit. -/
  dr : W32 := 0x1512455F
  deriving DecidableEq, Repr

/-! ### The whole -/

/-- The hub: everything but the queue of waiting commands. -/
structure Hub where
  regs : Store W32 := []
  snap : Store W32 := []
  shadow : Store W32 := []
  bank : Store W32 := []
  rooster : Rooster := {}
  start : Start := {}
  goose : Goose := {}
  bull : Bull := {}
  pk : Packets := {}
  ox : Store Ox := []
  tdc : Store Tdc := []
  /-- Measured hits not yet presented, and dead-time crossings as (channel, slot). -/
  hits : List Hit := []
  /-- Hits of the slot in progress that are assigned to the next slot, which has not begun (R104, R114). -/
  early : List Hit := []
  dead : List (Nat × W48) := []
  chain : Store Chain := []
  /-- Slot of the last chain start, and its boundary (R143). -/
  chainAt : W48 := 0
  chainSlots : Nat := 0
  /-- RT_OFFSET.THETA as the slot in progress opened (R138). -/
  chainTheta : Int := 0
  lmem : Store W64 := []
  l1as : List L1a := []
  trigs : List Trig := []
  /-- HELD-OFF and MASK VIOLATION records that wait for the Mule: the record, and whether it answers a trigger. -/
  answers : List (List W64 × Bool) := []
  /-- Primaries presented: slot of the hits, group, channels (R160). -/
  seeds : List (W48 × Nat × W32) := []
  /-- Acquisition settings in force from each slot, newest first (R155). -/
  settings : List (W48 × Store W32) := []
  /-- Origin slots of the triggers that were not held off, newest first (R171, R172). -/
  reads : List W48 := []
  /-- A violation asks for STOPPED at the next boundary (R178). -/
  maskStop : Bool := false
  queues : Store Queue := []
  mule : Mule := {}
  cmp : Cmp := {}
  hen : Hen := {}
  lanes : Store Lane := []
  cal : Cal := {}
  rsv : Reserve := {}
  twin : Twin := {}
  mon : Monitor := {}
  ilk : Ilk := {}
  tether : Tether := {}
  tap : Tap := {}
  /-- Open values taken so far (Config.free). -/
  free : Nat := 0
  deriving DecidableEq, Repr

/-- The state: the hub and the commands that wait, first in, first out. -/
structure State where
  hub : Hub
  pending : List Instr
  deriving DecidableEq, Repr

/-- The hub right after power-on: every field of the parameter space at its Load value, the first start counted
(JNL_STAT.STARTS 1), the strap pins, which are board wiring, latched as 001b for both channels, nothing in any store
(notes/assumptions/6.md). -/
def Hub.reset : Hub := { regs := [(0x511, 0x10000), (0x62000, 9)] }

/-- The machine right after power-on, with no command waiting. -/
def State.reset : State := { hub := Hub.reset, pending := [] }

end Sys2Proof.Machine
end

