-- ==== Sys2Proof/Machine/Ops.lean ====
section
/-! DEFINITION. The named operations that every subsystem uses: numbers and their rounding, fields of the parameter
space, counters, the slot counters, the ledger, the sticky STATUS bits, and open values. -/

namespace Sys2Proof.Machine

/-! ### Numbers -/

/-- Bits hi to lo of a number (R1). -/
def bits (v hi lo : Nat) : Nat := v / 2 ^ lo % 2 ^ (hi + 1 - lo)

/-- A bit of a number. -/
def bit (v k : Nat) : Bool := v / 2 ^ k % 2 == 1

/-- 1 for true. -/
def b2n (b : Bool) : Nat := if b then 1 else 0

/-- The value of a two's complement field of `w` bits (R4). -/
def signed (w v : Nat) : Int :=
  if v % 2 ^ w < 2 ^ (w - 1) then (v % 2 ^ w : Nat) else ((v % 2 ^ w : Nat) : Int) - (2 ^ w : Nat)

/-- The field of `w` bits that holds a value modulo 2^w. -/
def field (w : Nat) (x : Int) : Nat := (x % ((2 ^ w : Nat) : Int)).toNat

/-- Saturation to a range. -/
def clamp (lo hi x : Int) : Int := if x < lo then lo else if hi < x then hi else x

/-- Saturation of a value to an unsigned field. -/
def satU (w : Nat) (x : Int) : Nat := (clamp 0 ((2 ^ w : Nat) - 1 : Int) x).toNat

/-- Saturation of a value to a signed field. -/
def satS (w : Nat) (x : Int) : Int := clamp (-((2 ^ (w - 1) : Nat) : Int)) ((2 ^ (w - 1) : Nat) - 1 : Int) x

/-- `a / b` rounded half away from zero (R5). -/
def roundDiv (a : Int) (b : Nat) : Int :=
  let q : Int := ((2 * a.natAbs + b) / (2 * b) : Nat)
  if a < 0 then -q else q

/-- Ceiling division. -/
def ceilDiv (a b : Nat) : Nat := (a + b - 1) / b

/-- Whole square root, rounded down, by fuel. -/
def sqrtAux (fuel lo hi n : Nat) : Nat :=
  match fuel with
  | 0 => lo
  | k + 1 =>
    if hi ≤ lo + 1 then lo
    else
      let m := (lo + hi) / 2
      if m * m ≤ n then sqrtAux k m hi n else sqrtAux k lo m n

/-- The largest whole number whose square is at most `n`. -/
def isqrt (n : Nat) : Nat := sqrtAux (n.log2 + 2) 0 (n + 1) n

/-- Distance from `b` to `a` around a circle of 2^w, as a signed number. -/
def circ (w : Nat) (a b : Nat) : Int := signed w (field w ((a : Int) - (b : Int)))

/-- Numbers 0 to n - 1. -/
def upto (n : Nat) : List Nat := List.range n

/-- The bits of a mask that are set, lowest first. -/
def setBitsOf (n mask : Nat) : List Nat := (upto n).filter fun k => bit mask k

/-- Applies `f` for 0 to n - 1 in turn. -/
def forN {α : Type} (n : Nat) (x : α) (f : Nat → α → α) : α := (upto n).foldl (fun a k => f k a) x

/-- Applies `f` for each element in turn. -/
def each {α β : Type} (l : List β) (x : α) (f : β → α → α) : α := l.foldl (fun a k => f k a) x

/-- The mask of a list of bit numbers. -/
def maskOf (l : List Nat) : Nat := l.foldl (fun a k => if bit a k then a else a + 2 ^ k) 0

/-! ### Fields of the parameter space -/

/-- The word at a parameter address, as it stands. -/
def Hub.word (h : Hub) (a : Nat) : W32 := Store.get loadWord h.regs a

/-- Puts a word at a parameter address. -/
def Hub.setWord (h : Hub) (a : Nat) (w : W32) : Hub := { h with regs := Store.set loadWord h.regs a w }

/-- The value of a field of a word. -/
def Fld.get (f : Fld) (w : W32) : Nat := bits w.toNat f.hi f.lo

/-- A word with one field replaced; the value is taken modulo the width of the field. -/
def Fld.put (f : Fld) (w : W32) (v : Nat) : W32 :=
  BitVec.ofNat 32 (w.toNat % 2 ^ f.lo + v % 2 ^ f.width * 2 ^ f.lo + w.toNat / 2 ^ (f.hi + 1) * 2 ^ (f.hi + 1))

/-- The value of a field in instance `i`. -/
def Hub.fld (h : Hub) (f : Fld) (i : Nat) : Nat := f.get (h.word (f.addr i))

/-- Whether a one-bit field is 1. -/
def Hub.flag (h : Hub) (f : Fld) (i : Nat) : Bool := h.fld f i != 0

/-- The value of a signed field. -/
def Hub.sfld (h : Hub) (f : Fld) (i : Nat) : Int := signed f.width (h.fld f i)

/-- Sets a field in instance `i`. -/
def Hub.setFld (h : Hub) (f : Fld) (i v : Nat) : Hub := h.setWord (f.addr i) (f.put (h.word (f.addr i)) v)

/-- Sets a one-bit field. -/
def Hub.setFlag (h : Hub) (f : Fld) (i : Nat) (b : Bool) : Hub := h.setFld f i (b2n b)

/-- Sets a signed field. -/
def Hub.setS (h : Hub) (f : Fld) (i : Nat) (x : Int) : Hub := h.setFld f i (field f.width x)

/-- One event on a counter made of a COUNT field and a SAT bit 31 (R603). -/
def Hub.bump (h : Hub) (f : Fld) (i : Nat) : Hub :=
  if h.fld f i = 2 ^ f.width - 1 then h.setWord (f.addr i) (h.word (f.addr i) ||| 0x80000000#32)
  else h.setFld f i (h.fld f i + 1)

/-- `n` events on a counter. -/
def Hub.bumpN (h : Hub) (f : Fld) (i n : Nat) : Hub :=
  if h.fld f i + n ≤ 2 ^ f.width - 1 then h.setFld f i (h.fld f i + n)
  else if n = 0 then h
  else (h.setFld f i (2 ^ f.width - 1)).setWord (f.addr i)
    ((h.setFld f i (2 ^ f.width - 1)).word (f.addr i) ||| 0x80000000#32)

/-! ### Words that a window shows, held per unit -/

/-- Place of a TDC_LUT word: digitiser slot, line, bin (R121). -/
def lutKey (p : Nat) (line : Bool) (bin : Nat) : Nat := 0x1000000 + (p * 2 + b2n line) * 256 + bin

/-- Place of TDC_LINEOFS of a line (R121). -/
def lineOfsKey (p : Nat) (line : Bool) : Nat := 0x1000000 + (p * 2 + b2n line) * 256 + 128

/-- Place of a port buffer word (R583). -/
def portKey (n w : Nat) : Nat := 0x2000000 + n * 128 + w

/-- Place of an RS_ROWMAP word (R491). -/
def rowKey (mem r : Nat) : Nat := 0x3000000 + mem * 128 + r

/-- Place of a CAL_QWIN word (R453). -/
def qualKey (kind index w : Nat) : Nat := 0x4000000 + (kind * 1024 + index) * 64 + w

/-- Load value of a word held per unit: the lookup table of a line holds round(3.125 f + 1.5625), everything else 0. -/
def bankLoad (k : Nat) : W32 :=
  if 0x1000000 ≤ k && k < 0x2000000 then
    let f := (k - 0x1000000) % 256
    if f < 128 then BitVec.ofNat 32 (roundDiv (50 * f + 25 : Nat) 16).toNat else 0
  else 0

/-- A word held per unit. -/
def Hub.bankWord (h : Hub) (k : Nat) : W32 := Store.get bankLoad h.bank k

/-- Puts a word held per unit. -/
def Hub.setBank (h : Hub) (k : Nat) (w : W32) : Hub := { h with bank := Store.set bankLoad h.bank k w }

/-- Puts `x` ahead of the first of a list whose key is not below its own. -/
def insertBy {α : Type} (key : α → Nat) (x : α) : List α → List α
  | [] => [x]
  | y :: l => if key x ≤ key y then x :: y :: l else y :: insertBy key x l

/-- A list by rising key; elements of one key stay in their order. -/
def sortBy {α : Type} (key : α → Nat) (l : List α) : List α := l.foldr (insertBy key) []

/-! ### Time, mode, ledger, STATUS, open values -/

/-- SLOT_COUNT (R12). -/
def Hub.slot (h : Hub) : W48 := BitVec.ofNat 48 (h.fld F.RT_SLOT_LO_COUNT 0 + h.fld F.RT_SLOT_HI_COUNT 0 * 2 ^ 32)

/-- Sets SLOT_COUNT. -/
def Hub.setSlot (h : Hub) (s : W48) : Hub :=
  (h.setFld F.RT_SLOT_LO_COUNT 0 (s.toNat % 2 ^ 32)).setFld F.RT_SLOT_HI_COUNT 0 (s.toNat / 2 ^ 32)

/-- The slot tag (R13). -/
def Hub.tag (h : Hub) : W24 := BitVec.ofNat 24 h.slot.toNat

/-- Slots from `a` to `b`, modulo 2^48. -/
def slotsFrom (a b : W48) : Nat := (b - a).toNat

/-- Whether slot `b` has come at slot `now`: `b` lies at most half the circle back (R12). -/
def reached (now b : W48) : Bool := (now - b).toNat < 2 ^ 47

/-- The mode in force, coded as in R414. -/
def Hub.mode (h : Hub) : Nat := h.fld F.MODE_STAT_MODE 0

abbrev mUnloaded : Nat := 0
abbrev mSetup : Nat := 1
abbrev mCalibrate : Nat := 2
abbrev mRun : Nat := 3
abbrev mDegraded : Nat := 4
abbrev mHold : Nat := 5

/-- The data path runs (R414). -/
def Hub.running (h : Hub) : Bool := h.mode == mCalibrate || h.mode == mRun || h.mode == mDegraded

/-- The hub is parked as a twin aggregator (R504). -/
def Hub.parked (h : Hub) : Bool := h.flag F.TW_CFG_EN 0

/-- The data path runs: in a running mode, unless the hub is parked, when it is powered down (R504). -/
def Hub.live (h : Hub) : Bool := h.running && !h.parked

/-- Slot length in 2^-10 ns at the programmed bunch clock (R38): 10^9 / FREQ ns. -/
def Hub.slotLen (h : Hub) : Nat :=
  let f := h.fld F.RT_BCFREQ_FREQ 0
  if f = 0 then 25600 else (roundDiv (10 ^ 9 * 1024 : Nat) f).toNat

/-- The value of ledger counter or gauge `i` (R300). -/
def Hub.led (h : Hub) (i : Nat) : Nat := h.fld F.LED_LO_V i + h.fld F.LED_HI_V i * 2 ^ 32

/-- Sets a ledger word. -/
def Hub.setLed (h : Hub) (i v : Nat) : Hub :=
  (h.setFld F.LED_LO_V i (v % 2 ^ 32)).setFld F.LED_HI_V i (v / 2 ^ 32)

/-- Adds to a ledger counter, noting the wrap of its 48 bits for the epoch bits of the LEDGER record. -/
def Hub.ledAdd (h : Hub) (i n : Nat) : Hub :=
  let v := h.led i + n
  let h' := h.setLed i (v % 2 ^ 48)
  if v < 2 ^ 48 then h'
  else { h' with mule := { h'.mule with wraps := h'.mule.wraps ||| BitVec.ofNat 18 (2 ^ i) } }

/-- Takes from a ledger gauge. -/
def Hub.ledSub (h : Hub) (i n : Nat) : Hub := h.setLed i (h.led i - n)

/-- ATTN follows the enabled sticky bits (R407, R410). -/
def Hub.refreshAttn (h : Hub) : Hub :=
  h.setFlag F.ATTN_STAT_ATTN 0
    (h.fld F.ATTN_STAT_STICKY 0 &&& h.fld F.ATTN_EN_EN 0 != 0)

/-- Sets sticky STATUS bit `b`, 2 to 14, at once (R407). -/
def Hub.attnNow (h : Hub) (b : Nat) : Hub :=
  (h.setFld F.ATTN_STAT_STICKY 0 (h.fld F.ATTN_STAT_STICKY 0 ||| 2 ^ (b - 2))).refreshAttn

/-- A twin unit that announces its unit-local events: ACTIVE, STANDBY or SOLO (R508). -/
def Hub.twinLocal (h : Hub) : Bool :=
  let s := h.fld F.TW_STAT_STATE 0
  s == 1 || s == 2 || s == 4

/-- A twin unit that drives its claim: SOLO or ACTIVE (R516). -/
def Hub.twinDrives (h : Hub) : Bool :=
  let s := h.fld F.TW_STAT_STATE 0
  s == 1 || s == 2

/-- Sets sticky STATUS bit `b`, 2 to 14 (R407). In a twin unit a bit that its own Goose, Rooster, lanes, monitor, interlock or
reserve manager sets is a unit-local event, which acts ALIGN slots later (R508). -/
def Hub.attn (h : Hub) (b : Nat) : Hub :=
  if h.twinLocal && b ∈ [14, 13, 12, 11, 10, 8, 7, 2] then
    { h with twin := { h.twin with local_ := h.twin.local_ ||| BitVec.ofNat 13 (2 ^ (b - 2)) } }
  else h.attnNow b

/-- Clears the sticky STATUS bits of a mask over bits 14-2; RESET_STUCK stays while the pin is masked (R409). -/
def Hub.clearAttn (h : Hub) (mask : Nat) : Hub :=
  let m := bits mask 14 2
  let m := if h.flag F.RSTPIN_MASKED 0 then m &&& (0x1FFF - 2) else m
  (h.setFld F.ATTN_STAT_STICKY 0 (h.fld F.ATTN_STAT_STICKY 0 &&& (0x1FFF - m))).refreshAttn

abbrev aFatal : Nat := 14
abbrev aContained : Nat := 13
abbrev aCorrected : Nat := 12
abbrev aInterlock : Nat := 11
abbrev aWindow : Nat := 10
abbrev aLevel : Nat := 9
abbrev aLink : Nat := 8
abbrev aReserve : Nat := 7
abbrev aJournal : Nat := 6
abbrev aTwin : Nat := 5
abbrev aAudit : Nat := 4
abbrev aResetStuck : Nat := 3
abbrev aTime : Nat := 2

/-! ### Lanes and their roles (12_serial_lanes.md) -/

/-- A lane beside its registers. -/
def Hub.lane (h : Hub) (l : Nat) : Lane := Store.get (fun _ => {}) h.lanes l

/-- Puts the state of a lane. -/
def Hub.setLane (h : Hub) (l : Nat) (x : Lane) : Hub :=
  { h with lanes := Store.set (fun _ => ({} : Lane)) h.lanes l x }

/-- ACT_ROLE values (R20). -/
abbrev roleOff : Nat := 0
abbrev roleParent : Nat := 1
abbrev roleChild : Nat := 2
abbrev roleTwin : Nat := 3
abbrev roleSpare : Nat := 4
abbrev roleAuto : Nat := 7

/-- The role in force of a lane. -/
def Hub.role (h : Hub) (l : Nat) : Nat := h.fld F.LANE_ROLE_ACT_ROLE l

/-- A lane in service: PARENT, CHILD or TWIN. -/
def Hub.laneServes (h : Hub) (l : Nat) : Bool := h.role l == roleParent || h.role l == roleChild || h.role l == roleTwin

/-- A cause to fence a lane at the next boundary (R380): the lowest that waits counts. -/
def Hub.laneCause (h : Hub) (l c : Nat) : Hub :=
  let x := h.lane l
  if h.laneServes l && (x.cause = 0 || c < x.cause) then h.setLane l { x with cause := c } else h

/-- The port in force of a lane. A parent port is 0 or 1. -/
def Hub.lanePort (h : Hub) (l : Nat) : Nat :=
  if h.role l = roleParent then h.fld F.LANE_ROLE_ACT_PORT l % 2 else h.fld F.LANE_ROLE_ACT_PORT l

/-- A lane has downlink framing while it is aligned and its last frame decoded (R359). -/
def Hub.framed (h : Hub) (l : Nat) : Bool := h.flag F.LN_STAT_ALIGNED l && (h.lane l).lastOk

/-- PARENT lanes in force, and those of one port. -/
def Hub.parents (h : Hub) : List Nat := (upto 24).filter fun l => h.role l == roleParent
def Hub.parentsOf (h : Hub) (p : Nat) : List Nat := h.parents.filter fun l => h.lanePort l == p

/-- The parent port in force (R348). -/
def Hub.portInForce (h : Hub) : Nat := h.fld F.HEN_UPSTAT_PORT 0

/-- A RATE of 11b is treated as 00b. -/
def rateOf (v : Nat) : Nat := if v = 3 then 0 else v

/-- The rate in force of a lane: the rate that S03 found, or LANE_ROLE.RATE (R428). -/
def Hub.laneRate (h : Hub) (l : Nat) : Nat :=
  if l ∈ h.start.atRate then rateOf h.start.foundRate.toNat else rateOf (h.fld F.LANE_ROLE_RATE l)

/-- Slots per frame F of a lane (R352). -/
def Hub.framePeriod (h : Hub) (l : Nat) : Nat :=
  let r := h.laneRate l
  if r = 1 then 2 else if r = 2 then 4 else 1

/-- The PARENT lanes of a port that are in use: as many as the port with fewer lanes has, lowest-numbered first (R22). -/
def Hub.bundle (h : Hub) (p : Nat) : List Nat :=
  let a := h.parentsOf p
  let b := h.parentsOf (1 - p)
  if b.isEmpty then a else a.take (min a.length b.length)

/-- A PARENT lane that R22 keeps in standby. -/
def Hub.standby (h : Hub) (l : Nat) : Bool := h.role l == roleParent && !(h.bundle (h.lanePort l)).contains l

/-- The parent port on whose lanes records go (R350): the port in force, but while that has lost framing the other port, when it
has a lane with framing. -/
def Hub.sendPort (h : Hub) : Nat :=
  let p := h.portInForce
  if 2 ≤ h.rooster.noFrame && (h.parentsOf (1 - p)).any (fun l => h.framed l) then 1 - p else p

/-- The preparation by which a SPARE lane is being brought in (R383). -/
def Hub.spareEntry (h : Hub) (l : Nat) : Option Prep :=
  if h.role l = roleSpare then h.rsv.preps.find? fun p => p.kind == 4 && h.fld F.RS_LANE_LANE p.spare == l else none

/-- A SPARE lane comes in as a lane of a role, PARENT (1) or CHILD (2). -/
def Hub.comesAs (h : Hub) (l r : Nat) : Bool := (h.spareEntry l).any fun p => h.fld F.RS_LANE_ROLE p.spare == r

/-- The pattern generator or checker of a lane acts (R384). -/
def Hub.patternLane (h : Hub) (l : Nat) : Bool :=
  (h.role l == roleOff || h.role l == roleSpare) && !h.flag F.LN_STAT_FENCED l &&
    (h.flag F.LN_PRBS_GEN_EN l || h.flag F.LN_PRBS_CHK_EN l)

/-- The lane search of S03 goes on, at the start or under R26. -/
def Hub.searching (h : Hub) : Bool :=
  h.start.again == 3 || (!h.start.held && !h.flag F.JNL_STAT_DONE 0 && !h.start.failed && h.fld F.JNL_STAT_STEP 0 == 3)

/-- The receiver of a lane is powered (R22, R27, R383, R384, R428): every other lane is in standby, with nothing but its
loss-of-signal detector active. -/
def Hub.powered (h : Hub) (l : Nat) : Bool :=
  if h.role l = roleParent then !h.standby l
  else h.laneServes l || (h.spareEntry l).isSome || h.patternLane l ||
    (h.fld F.LANE_ROLE_ROLE l == roleAuto && h.searching && !h.flag F.LN_STAT_FENCED l && !bit (h.fld F.JNL_LANES_SKIP 0) l)

/-! ### Registers of a context (R188) -/

/-- A write of a general register. -/
def Ctx.setG (c : Ctx) (r : Nat) (w : W32) : Ctx :=
  if r = 0 then c else { c with g := Store.set (fun _ => (0 : W32)) c.g r w }

/-! ### Open values -/

/-- The next open value (notes/assumptions/2.md). -/
def Hub.openValue (h : Hub) : BitVec 64 := Config.free h.free

/-- One open value has been taken. -/
def Hub.tookOpen (h : Hub) : Hub := { h with free := h.free + 1 }

end Sys2Proof.Machine
end

