-- ==== Sys2Proof/Machine/Records.lean ====
section
/-! DEFINITION. The common shape of records (R286, R287) and the CRC-32C that records, packets and replies share. -/

namespace Sys2Proof.Machine

/-- One bit of the reflected CRC-32C division, generator 1EDC_6F41h. -/
def crcBit (c : W32) : W32 :=
  if c &&& 1#32 = 1#32 then (c >>> 1) ^^^ 0x82F63B78#32 else c >>> 1

/-- One byte of the CRC-32C. -/
def crcByte (c : W32) (b : W8) : W32 :=
  crcBit (crcBit (crcBit (crcBit (crcBit (crcBit (crcBit (crcBit (c ^^^ b.setWidth 32))))))))

/-- CRC-32C of bytes in their order (R287): initial value and final XOR FFFF_FFFFh. -/
def crc32c (bs : List W8) : W32 := bs.foldl crcByte 0xFFFFFFFF#32 ^^^ 0xFFFFFFFF#32

/-- The bytes of a 64-bit word, bits 63-56 first. -/
def bytes64 (w : W64) : List W8 := [w.extractLsb' 56 8, w.extractLsb' 48 8, w.extractLsb' 40 8, w.extractLsb' 32 8,
  w.extractLsb' 24 8, w.extractLsb' 16 8, w.extractLsb' 8 8, w.extractLsb' 0 8]

/-- The bytes of a 32-bit word, bits 31-24 first. -/
def bytes32 (w : W32) : List W8 := [w.extractLsb' 24 8, w.extractLsb' 16 8, w.extractLsb' 8 8, w.extractLsb' 0 8]

/-- The number that bytes spell, most significant first. -/
def ofBytes (bs : List W8) : Nat := bs.foldl (fun a b => a * 256 + b.toNat) 0

/-- Words of eight bytes each, most significant byte first, by fuel. -/
def words64 (fuel : Nat) (bs : List W8) : List W64 :=
  match fuel with
  | 0 => []
  | k + 1 => if bs.length < 8 then [] else BitVec.ofNat 64 (ofBytes (bs.take 8)) :: words64 k (bs.drop 8)

/-- Words of four bytes each. -/
def words32 (fuel : Nat) (bs : List W8) : List W32 :=
  match fuel with
  | 0 => []
  | k + 1 => if bs.length < 4 then [] else BitVec.ofNat 32 (ofBytes (bs.take 4)) :: words32 k (bs.drop 4)

/-- A 64-bit word of an upper and a lower half. -/
def pair (hi lo : W32) : W64 := hi ++ lo

/-- Whether two words are equal as field contents. -/
def hiWord (w : W64) : W32 := w.extractLsb' 32 32

/-- Bits 31-0. -/
def loWord (w : W64) : W32 := w.extractLsb' 0 32

/-- A record header (R286). -/
def header (type hub source slot length : Nat) : W64 :=
  BitVec.ofNat 64 (type % 64 * 2 ^ 58 + hub % 65536 * 2 ^ 42 + source % 64 * 2 ^ 36 + slot % 2 ^ 24 * 2 ^ 12 + length % 4096)

/-- Fields of a record header. -/
def hdrType (w : W64) : Nat := bits w.toNat 63 58
def hdrHub (w : W64) : Nat := bits w.toNat 57 42
def hdrSource (w : W64) : Nat := bits w.toNat 41 36
def hdrSlot (w : W64) : Nat := bits w.toNat 35 12
def hdrLength (w : W64) : Nat := bits w.toNat 11 0

/-- CRC-32C over the words of a record in order (R287). -/
def crcWords (ws : List W64) : W32 := crc32c (ws.flatMap bytes64)

/-- A record with its trailer: CRC and sequence number (R287). -/
def withTrailer (ws : List W64) (seq : W32) : List W64 := ws ++ [pair (crcWords ws) seq]

/-- Record types (R288). -/
abbrev tHit : Nat := 1
abbrev tTrigger : Nat := 2
abbrev tLong : Nat := 3
abbrev tHeldOff : Nat := 4
abbrev tGap : Nat := 5
abbrev tLedger : Nat := 6
abbrev tHealth : Nat := 7
abbrev tReply : Nat := 8
abbrev tMonitor : Nat := 9
abbrev tNotice : Nat := 10
abbrev tTwinSync : Nat := 11
abbrev tCompressed : Nat := 12
abbrev tMaskViol : Nat := 13

/-- The address of the hub. -/
def Hub.address (h : Hub) : Nat := h.fld F.HUB_ADDR_ADDR 0

/-- Blocks of record memory that `n` words take (R281). -/
def blocksOf (n : Nat) : Nat := ceilDiv n 64

end Sys2Proof.Machine
end

