-- ==== Sys2Proof/Machine/Frames.lean ====
section
/-! DEFINITION. Frames of 512 bits: the Reed-Solomon codes, the scrambler, and the layout of downlink and uplink frames
(12_serial_lanes.md; R352, R353, R369). -/

namespace Sys2Proof.Machine

/-! ### GF(2^8), field polynomial 11Dh (R369) -/

/-- Multiplication by x. -/
def gfX (a : W8) : W8 := if a.msb then (a <<< 1) ^^^ 0x1D#8 else a <<< 1

/-- Product: `k` steps over the bits of `b` from bit 7 down. -/
def gfMulAux (k : Nat) (a b acc : W8) : W8 :=
  match k with
  | 0 => acc
  | j + 1 => gfMulAux j a b (if b.getLsbD j then gfX acc ^^^ a else gfX acc)

/-- Product in the field. -/
def gfMul (a b : W8) : W8 := gfMulAux 8 a b 0

/-- Power. -/
def gfPow (a : W8) (n : Nat) : W8 :=
  match n with
  | 0 => 1
  | k + 1 => gfMul a (gfPow a k)

/-- Inverse: a^254. -/
def gfInv (a : W8) : W8 := gfPow a 254

/-- α^n, α = 02h. -/
def gfAlpha (n : Nat) : W8 := gfPow 2 (n % 255)

/-- Value of a polynomial, coefficients from the highest degree down. -/
def gfEval (p : List W8) (x : W8) : W8 := p.foldl (fun acc c => gfMul acc x ^^^ c) 0

/-- Sum of two polynomials, coefficients from the lowest degree up. -/
def polyAdd (p q : List W8) : List W8 :=
  match p, q with
  | [], q => q
  | p, [] => p
  | a :: p, b :: q => (a ^^^ b) :: polyAdd p q

/-- Product of two polynomials, coefficients from the lowest degree up. -/
def polyMul (p q : List W8) : List W8 :=
  match p with
  | [] => []
  | a :: p => polyAdd (q.map (gfMul a)) (0 :: polyMul p q)

/-! ### The codes (R369) -/

/-- The generator (x - α^0) … (x - α^5), coefficients from x^5 down to x^0, without the leading 1. -/
def rsGen : List W8 :=
  ((List.range 6).foldl (fun p i => polyMul p [gfAlpha i, 1]) [1]).dropLast.reverse

/-- One data byte enters the division; the remainder has six bytes, highest degree first. -/
def rsShift (gen : List W8) (r : List W8) (d : W8) : List W8 :=
  match r with
  | [] => []
  | h :: t => polyAdd (t ++ [0]) (gen.map (gfMul (h ^^^ d)))

/-- The six parity bytes of data bytes. -/
def rsParity (data : List W8) : List W8 := let g := rsGen; data.foldl (rsShift g) (List.replicate 6 0)

/-- Syndromes of a received word. -/
def rsSyndromes (w : List W8) : List W8 := (List.range 6).map fun i => gfEval w (gfAlpha i)

/-- State of the Berlekamp-Massey algorithm: Λ, B, L, m, b. -/
structure Bm where
  lam : List W8
  bb : List W8
  len : Nat
  m : Nat
  b : W8
  deriving DecidableEq, Repr

/-- One step of it, for syndrome `n`. -/
def bmStep (syn : List W8) (x : Bm) (n : Nat) : Bm :=
  let d := (List.range (x.len + 1)).foldl (fun acc i => acc ^^^ gfMul ((x.lam[i]?).getD 0) ((syn[n - i]?).getD 0)) 0
  if d = 0 then { x with m := x.m + 1 }
  else
    let lam := polyAdd x.lam (List.replicate x.m 0 ++ x.bb.map (gfMul (gfMul d (gfInv x.b))))
    if 2 * x.len ≤ n then { lam := lam, bb := x.lam, len := n + 1 - x.len, m := 1, b := d }
    else { x with lam := lam, m := x.m + 1 }

/-- Odd-degree coefficients, as the derivative of a polynomial keeps them. -/
def polyDeriv (p : List W8) : List W8 :=
  ((List.range p.length).drop 1).map fun i => if i % 2 = 1 then (p[i]?).getD 0 else 0

/-- Decodes a word of a shortened code: the corrected word and the number of corrected bytes; none when it does not
decode (R369). -/
def rsDecode (w : List W8) : Option (List W8 × Nat) :=
  let syn := rsSyndromes w
  if syn.all (· == 0) then some (w, 0)
  else
    let x := (List.range 6).foldl (bmStep syn) { lam := [1], bb := [1], len := 0, m := 1, b := 1 }
    let n := w.length
    let at_ (p : List W8) (i : Nat) : W8 := gfEval p.reverse (gfInv (gfAlpha (n - 1 - i)))
    let places := (List.range n).filter fun i => at_ x.lam i == 0
    if 3 < x.len || places.length ≠ x.len then none
    else
      let omega := (polyMul syn x.lam).take 6
      let der := polyDeriv x.lam
      let fixed := places.foldl (fun (w : List W8) i =>
        let e := gfMul (gfAlpha (n - 1 - i)) (gfMul (at_ omega i) (gfInv (at_ der i)))
        w.set i (((w[i]?).getD 0) ^^^ e)) w
      if (rsSyndromes fixed).all (· == 0) then some (fixed, x.len) else none

/-! ### The scrambler (R353) -/

/-- One bit of the generator x^31 + x^28 + 1: the output is the last stage. -/
def scrBit (s : BitVec 31) : Bool × BitVec 31 :=
  let o := s.getLsbD 30
  (o, (s <<< 1) ||| (if o != s.getLsbD 27 then 1#31 else 0#31))

/-- One byte of it, bit 7 first. -/
def scrByte (k : Nat) (s : BitVec 31) (acc : W8) : W8 × BitVec 31 :=
  match k with
  | 0 => (acc, s)
  | j + 1 =>
    let b := scrBit s
    scrByte j b.2 ((acc <<< 1) ||| (if b.1 then 1#8 else 0#8))

/-- Adds the generator to bytes, restarted with every stage at 1. -/
def scrambleFrom (s : BitVec 31) (bs : List W8) : List W8 :=
  match bs with
  | [] => []
  | b :: rest => let x := scrByte 8 s 0; (b ^^^ x.1) :: scrambleFrom x.2 rest

/-- Scrambling, and descrambling. -/
def scramble (bs : List W8) : List W8 := scrambleFrom (BitVec.allOnes 31) bs

/-! ### Downlink frames -/

/-- A downlink frame but for its FC bytes. -/
structure Down where
  ack : W8
  grant : W8
  claimP : Bool
  nak : Bool
  kind : Nat
  trig : W24
  claim : BitVec 16
  eseq : W8
  edly : W24
  pstart : Bool
  plen : Nat
  pbytes : List W8
  deriving DecidableEq, Repr

/-- Bytes of a number, most significant first. -/
def bytesOf (n v : Nat) : List W8 := ((List.range n).reverse).map fun i => BitVec.ofNat 8 (v / 256 ^ i)

/-- Bytes 3 to 57 of a downlink frame. -/
def Down.data (d : Down) : List W8 :=
  [d.ack, d.grant, BitVec.ofNat 8 ((if d.claimP then 128 else 0) + (if d.nak then 64 else 0) + d.kind % 16)]
    ++ bytesOf 3 d.trig.toNat ++ bytesOf 2 d.claim.toNat ++ [d.eseq] ++ bytesOf 3 d.edly.toNat
    ++ [BitVec.ofNat 8 ((if d.pstart then 128 else 0) + d.plen % 64)]
    ++ (d.pbytes ++ List.replicate 40 0).take 40 ++ [0, 0]

/-- The 64 bytes of a downlink frame as sent: FC three times, then the scrambled codeword. -/
def Down.bytes (d : Down) (fc : W8) : List W8 := [fc, fc, fc] ++ scramble (d.data ++ rsParity d.data)

/-- Reads bytes 3 to 57 of a decoded downlink frame. -/
def Down.read (b : List W8) : Down :=
  let at_ (i : Nat) : W8 := (b[i - 3]?).getD 0
  let num (i n : Nat) : Nat := ofBytes ((b.drop (i - 3)).take n)
  { ack := at_ 3, grant := at_ 4, claimP := (at_ 5).getLsbD 7, nak := (at_ 5).getLsbD 6, kind := (at_ 5).toNat % 16
    trig := BitVec.ofNat 24 (num 6 3), claim := BitVec.ofNat 16 (num 9 2), eseq := at_ 11, edly := BitVec.ofNat 24 (num 12 3)
    pstart := (at_ 15).getLsbD 7, plen := (at_ 15).toNat % 64, pbytes := (b.drop 13).take 40 }

/-- Decodes the codeword of a received downlink frame: bytes 3 to 63 as delivered, and how many of them were corrected. -/
def downRaw (bytes : List W8) : Option (List W8 × Nat) :=
  if bytes.length ≠ 64 then none else rsDecode (scramble (bytes.drop 3))

/-- A received downlink frame, and how many of its bytes were corrected. -/
def downOf (bytes : List W8) : Option (Down × Nat) := (downRaw bytes).map fun x => (Down.read x.1, x.2)

/-- Bitwise majority of the three FC bytes (R55). -/
def vote (bytes : List W8) : W8 :=
  let a := (bytes[0]?).getD 0
  let b := (bytes[1]?).getD 0
  let c := (bytes[2]?).getD 0
  (a &&& b) ||| (a &&& c) ||| (b &&& c)

/-! ### Uplink frames -/

/-- An uplink frame: FLAGS is NEW, REPLAY and the two zero bits. -/
structure Up where
  seq : W8
  kind : Nat
  new : Bool
  again : Bool
  low : Nat
  cell : List W64
  deriving DecidableEq, Repr

abbrev kIdle : Nat := 0
abbrev kData : Nat := 1
abbrev kAudit : Nat := 2
abbrev kTrain : Nat := 3

/-- Bytes 0 to 57. -/
def Up.data (u : Up) : List W8 :=
  [u.seq, BitVec.ofNat 8 (u.kind % 16 * 16 + (if u.new then 8 else 0) + (if u.again then 4 else 0) + u.low % 4)]
    ++ ((u.cell ++ List.replicate 7 0).take 7).flatMap bytes64

/-- The 64 bytes of an uplink frame as sent. -/
def Up.bytes (u : Up) : List W8 := scramble (u.data ++ rsParity u.data)

/-- Reads bytes 0 to 57 of a decoded uplink frame. -/
def Up.read (b : List W8) : Up :=
  let f := ((b[1]?).getD 0).toNat
  { seq := (b[0]?).getD 0, kind := f / 16, new := f / 8 % 2 == 1, again := f / 4 % 2 == 1, low := f % 4
    cell := words64 7 ((b.drop 2).take 56) }

/-- Decodes a received uplink frame: the frame and the corrected bytes. -/
def upOf (bytes : List W8) : Option (Up × Nat) :=
  if bytes.length ≠ 64 then none
  else (rsDecode (scramble bytes)).map fun x => (Up.read x.1, x.2)

end Sys2Proof.Machine
end

