-- ==== Sys2Proof/Machine/Queues.lean ====
section
/-! DEFINITION. The operations of the record queues (09_records_queues_ledger.md, "The queues"). -/

namespace Sys2Proof.Machine

/-- Queue `q`. -/
def Hub.queue (h : Hub) (q : Nat) : Queue := Store.get (fun _ => {}) h.queues q

/-- Puts the state of queue `q`, with the DEPTH and FULL it reports. -/
def Hub.setQueue (h : Hub) (q : Nat) (x : Queue) : Hub :=
  (({ h with queues := Store.set (fun _ => ({} : Queue)) h.queues q x }).setFld F.Q_STAT_DEPTH q x.ws.length).setFlag
    F.Q_STAT_FULL q (x.ws.length == 16)

/-- What follows a change of depth from `before` (R280): the largest depth, the crossing of THR and its notice. Where a pop and a push
share a cycle, `before` is the depth ahead of both, since the depth between them is not seen (R269). -/
def Hub.depthMoved (h : Hub) (q before : Nat) : Hub :=
  let now := h.fld F.Q_STAT_DEPTH q
  let thr := h.fld F.Q_CFG_THR q
  let h := if h.fld F.Q_HWM_HWM q < now then h.setFld F.Q_HWM_HWM q now else h
  if thr = 0 then h.setFld F.Q_STAT_ABOVE q 0
  else if now < thr then h.setFld F.Q_STAT_ABOVE q 0
  else if before < thr then
    let h := (h.setFld F.Q_STAT_ABOVE q 1).bump F.Q_LEVELCNT_COUNT q
    if h.flag F.Q_CFG_LVL_EN q then h.attn aLevel else h
  else h.setFld F.Q_STAT_ABOVE q 1

/-- One more dropped item in P, which saturates with OVF (R272, R273). -/
def Hub.addPend (h : Hub) (q n : Nat) : Hub :=
  let p := h.fld F.Q_STAT_PEND q + n
  if p ≤ 0xFFFF then h.setFld F.Q_STAT_PEND q p
  else (h.setFld F.Q_STAT_PEND q 0xFFFF).setFld F.Q_STAT_OVF q 1

/-- The counters that a dropped item moves (R274). A dropped hit is no longer in flight. -/
def Hub.countDrop (h : Hub) (q : Nat) (hit : Bool) : Hub :=
  let h := h.bump F.Q_DROPCNT_COUNT q
  if hit then (h.ledAdd 3 1).ledSub 0x10 1 else h.ledAdd 0xB 1

/-- The word of a GAP marker as a program pops it (R275). -/
def gapMarker (ovf : Bool) (count : Nat) : W64 :=
  BitVec.ofNat 64 (0xFFFF000000000000 + b2n ovf * 65536 + count % 65536)

/-- What became of a push. -/
inductive Pushed where
  | accepted
  | dropped
  /-- It belongs to an item being discarded (R272). -/
  | discarded
  deriving DecidableEq, Repr

/-- Whether a push of the first word of an item, or of a later one, fits (R271). -/
def Hub.pushFits (h : Hub) (q : Nat) (first : Bool) : Bool :=
  let need := if first && h.fld F.Q_STAT_PEND q != 0 then 2 else 1
  (h.queue q).ws.length + need ≤ 16

/-- Enters a word in a cycle of the slot, behind a GAP marker when the word opens an item while items have been dropped (R271); `before`
is the depth of the queue as the cycle began. -/
def Hub.enterFrom (h : Hub) (q cyc before : Nat) (first last : Bool) (hit : Bool) (data : W64) : Hub :=
  let x := h.queue q
  let p := h.fld F.Q_STAT_PEND q
  let word : QWord := { data := data, last := last, gap := false, hit := hit, slot := h.slot, cyc := cyc }
  let mark : List QWord :=
    if first && p != 0 then
      [{ data := gapMarker (h.flag F.Q_STAT_OVF q) p, last := true, gap := true, hit := false, slot := h.slot, cyc := cyc }]
    else []
  let h := if first && p != 0 then (h.setFld F.Q_STAT_PEND q 0).setFld F.Q_STAT_OVF q 0 else h
  let openItem := if hit then x.openItem else !last
  (h.setQueue q { x with ws := x.ws ++ mark ++ [word], openItem := openItem }).depthMoved q before

/-- A push of one word of an item in a cycle of the slot (R271-R274). A hit pushed by HEMIT is a one-word item of its own and leaves an
open item of the program as it is (notes/assumptions/12.md). -/
def Hub.pushFrom (h : Hub) (q cyc before : Nat) (data : W64) (last hit : Bool) : Hub × Pushed :=
  let x := h.queue q
  if hit then
    if h.pushFits q true then (h.enterFrom q cyc before true true true data, .accepted)
    else ((h.addPend q 1).countDrop q true, .dropped)
  else if h.flag F.Q_STAT_DISCARD q then
    (if last then h.setFld F.Q_STAT_DISCARD q 0 else h, .discarded)
  else if h.pushFits q (!x.openItem) then (h.enterFrom q cyc before (!x.openItem) last false data, .accepted)
  else
    let h := (h.addPend q 1).countDrop q false
    ((h.setQueue q { x with openItem := false }).setFlag F.Q_STAT_DISCARD q (!last), .dropped)

/-- A push in a cycle in which nothing else changes the queue. -/
def Hub.push (h : Hub) (q : Nat) (data : W64) (last hit : Bool) : Hub × Pushed :=
  h.pushFrom q 0 (h.queue q).ws.length data last hit

/-- Pushes a whole item, word by word. -/
def Hub.pushItem (h : Hub) (q : Nat) (ws : List W64) : Hub :=
  match ws with
  | [] => h
  | [w] => (h.push q w true false).1
  | w :: rest => ((h.push q w false false).1).pushItem q rest

/-- An item that the hub's own units push into Q30. In a twin unit it is a unit-local event (R508). -/
def Hub.localItem (h : Hub) (ws : List W64) : Hub :=
  if h.twinLocal then { h with twin := { h.twin with items := h.twin.items ++ [ws] } } else h.pushItem 30 ws

/-- A pop: the head of the queue, if any (R270). -/
def Hub.pop (h : Hub) (q : Nat) : Option (QWord × Hub) :=
  let x := h.queue q
  match x.ws with
  | [] => none
  | w :: rest => some (w, (h.setQueue q { x with ws := rest, taken := !w.last && !w.gap }).depthMoved q x.ws.length)

/-- Effect of a flush on the words of a queue, in their order (R278): complete items are counted, GAP markers give
their count back. -/
def Hub.flushWords (h : Hub) (q : Nat) (ws : List QWord) : Hub :=
  match ws with
  | [] => h
  | w :: rest =>
    let h :=
      if w.gap then
        let h := h.addPend q (bits w.data.toNat 15 0)
        if bit w.data.toNat 16 then h.setFld F.Q_STAT_OVF q 1 else h
      else if w.last then (h.addPend q 1).countDrop q w.hit
      else h
    h.flushWords q rest

/-- Flushes queue `q` (R278, R279). -/
def Hub.flush (h : Hub) (q : Nat) : Hub :=
  let h := h.bump F.Q_FLUSHCNT_COUNT q
  if q = 28 || q = 29 then h
  else
    let x := h.queue q
    let h := h.flushWords q x.ws
    let h := if x.openItem then ((h.addPend q 1).countDrop q false).setFld F.Q_STAT_DISCARD q 1 else h
    (h.setQueue q { ws := [], openItem := false, taken := false }).setFld F.Q_STAT_ABOVE q 0

/-- Codes that R267 allows for a queue, as producer or as consumer (R268). -/
def codeAllowed (q : Nat) (producer : Bool) (code : Nat) : Bool :=
  if (16 ≤ q && q ≤ 27) || q = 31 then
    code = 0 || (0x20 ≤ code && code ≤ 0x2F) || code = 0x30 || code = 0x31
  else if producer then
    if q < 16 then code = 0x10 + q else if q = 28 then code = 0x38 else if q = 29 then code = 0x3A else code = 0x39
  else code = 0

end Sys2Proof.Machine
end

