-- ==== Sys2Proof/Machine/Goose.lean ====
section
/-! DEFINITION. Fault reports: classes, the first-error capture, the ring, notices and requests (16_fault_collection.md).
The commands of the Goose are at the end. -/

namespace Sys2Proof.Machine

/-- Classes of fault (R467). -/
inductive FaultClass where
  | corrected
  | contained
  | fatal
  deriving DecidableEq, Repr

/-- Class of a fault code (R467); none for a code that is not used. -/
def faultClass (code : Nat) : Option FaultClass :=
  if code ∈ [0x04, 0x10, 0x42, 0x43] then some .corrected
  else if code ∈ [0x03, 0x05, 0x08, 0x12, 0x21, 0x51] then some .fatal
  else if code ∈ [0x01, 0x02, 0x06, 0x07, 0x11, 0x13, 0x14, 0x20, 0x22, 0x23, 0x24, 0x25, 0x26, 0x30, 0x31, 0x32, 0x33,
    0x40, 0x41, 0x50] then some .contained
  else none

/-- REACT of a fault entry: 0 none, 1 fence, 2 HOLD, 3 repair (R467). -/
def faultReact (code : Nat) : Nat :=
  if code ∈ [0x01, 0x02, 0x20, 0x26, 0x30, 0x31, 0x33, 0x40] then 1
  else if faultClass code = some .fatal then 2
  else if code ∈ [0x11, 0x13, 0x14] then 3
  else 0

/-- Codes marked as standing (R467, R481). -/
def faultStands (code : Nat) : Bool := code ∈ [0x03, 0x08, 0x12, 0x21, 0x51]

/-- CLASS field of a fault entry. -/
def FaultClass.code : FaultClass → Nat
  | .corrected => 1
  | .contained => 2
  | .fatal => 3

/-- A report made by the hub itself, with no initiator. -/
def mkReport (code unit : Nat) : Report :=
  { code := BitVec.ofNat 8 code, unit := BitVec.ofNat 16 unit, master := 0, access := 0, addr := 0 }

/-- UNIT of a kind and an index (R465). -/
def unitOf (kind ix : Nat) : Nat := kind * 1024 + ix

/-- Whether the fence of a unit has taken effect. -/
def Hub.fenced (h : Hub) (u : Nat) : Bool := decide (BitVec.ofNat 16 u ∈ h.goose.fenced)

/-- Whether a unit has been retired (R488). -/
def Hub.retired (h : Hub) (u : Nat) : Bool := decide (BitVec.ofNat 16 u ∈ h.goose.retired)

/-- TIME_NS in CK640 cycle `cycle` of the slot in progress, 0 for the cycle at its boundary (R43). -/
def Hub.timeAt (h : Hub) (cycle : Nat) : Nat :=
  let inc := if h.rooster.counting then h.fld F.RT_TNSINC_INC 0 else 0
  (h.fld F.RT_TIME_NS_NS 0 * 2 ^ 24 + h.rooster.frac.toNat + cycle * inc) / 2 ^ 24 % 2 ^ 32

/-- The four words of a fault entry of a report found in a CK640 cycle of this slot (the fault entry table, R465). -/
def Hub.faultEntry (h : Hub) (cycle : Nat) (r : Report) (c : FaultClass) : List W32 := [
  BitVec.ofNat 32 (r.code.toNat * 2 ^ 24 + c.code * 2 ^ 22 + r.access.toNat * 2 ^ 19 + faultReact r.code.toNat * 2 ^ 17
    + r.unit.toNat),
  BitVec.ofNat 32 (r.master.toNat * 2 ^ 26 + r.addr.toNat),
  BitVec.ofNat 32 h.tag.toNat,
  BitVec.ofNat 32 (h.timeAt cycle)]

/-- Writes four words from an address on. -/
def Hub.setWords (h : Hub) (a : Nat) (ws : List W32) : Hub :=
  match ws with
  | [] => h
  | w :: rest => (h.setWord a w).setWords (a + 1) rest

/-- A new ring entry (R478); answers its position. -/
def Hub.ringEntry (h : Hub) (e : List W32) : Hub × Nat :=
  let n := h.fld F.GS_RING_NEXT 0
  let h := (h.setWords (A.GS_RENT + 4 * n) e).setFld F.GS_RING_NEXT 0 ((n + 1) % 32)
  (if n = 31 then h.setFld F.GS_RING_WRAPPED 0 1 else h, n)

/-- The first-error capture (R477): VALID is bit 31 and OVER bit 30 of its word 2. -/
def Hub.capture (h : Hub) (e : List W32) (c : FaultClass) : Hub :=
  let w0 := h.fld F.FE_W_W 0
  let w2 := h.fld F.FE_W_W 2
  let valid := bit w2 31
  let put (o : Bool) : Hub :=
    let h := h.setWords A.FE_W e
    h.setFld F.FE_W_W 2 (h.fld F.FE_W_W 2 + 2 ^ 31 + b2n o * 2 ^ 30)
  if !valid then put false
  else if c = .fatal && bits w0 23 22 = 2 then put true
  else h

/-- The FAULT NOTICE of a ring entry (R479), or the count of one skipped. -/
def Hub.notice (h : Hub) (code : Nat) (c : FaultClass) (e : List W32) (pos : Nat) : Hub :=
  if c = .contained && code ∈ h.goose.noticed then
    let h := h.bump F.GS_NOTSKIP_COUNT 0
    { h with goose := { h.goose with skipped := min 0xFFFF (h.goose.skipped + 1) } }
  else
    let w (k : Nat) : W32 := (e[k]?).getD 0
    let last : W64 := BitVec.ofNat 64 (pos + h.goose.skipped * 2 ^ 16 + h.fld F.GS_STAT_RECOV 0 * 2 ^ 32 + h.mode * 2 ^ 40)
    let h' := h.localItem [header tNotice 0 0 h.tag.toNat 0, pair (w 1) (w 0), pair (w 3) (w 2), last]
    { h' with goose := { h'.goose with
        skipped := 0
        noticed := if c = .contained then code :: h'.goose.noticed else h'.goose.noticed } }

/-! ### Fences that reports ask for -/

/-- GS_STAT.FENCED. -/
def Hub.refreshFenced (h : Hub) : Hub := h.setFld F.GS_STAT_FENCED 0 (min 255 h.goose.fenced.length)

/-- Enters a unit into the list of fenced units; `idle` when it held no job (R604). -/
def Hub.listFence (h : Hub) (u : Nat) (idle : Bool) : Hub :=
  let b : BitVec 16 := BitVec.ofNat 16 u
  ({ h with goose := { h.goose with
      fenced := if b ∈ h.goose.fenced then h.goose.fenced else h.goose.fenced ++ [b]
      idle := if idle then b :: h.goose.idle else h.goose.idle } }).refreshFenced

/-- Whether a crystal (0, 1) or VCO band (2, 3) is in use. -/
def Hub.clockPartUsed (h : Hub) (ix : Nat) : Bool :=
  if ix < 2 then h.fld F.RT_CLK_XO_SEL 0 == ix else h.fld F.RT_CLK_BAND 0 + 2 == ix

/-- A crystal or VCO band is fenced, at once; the other takes its place while it is not fenced itself (R40, R41). -/
def Hub.fenceClockPart (h : Hub) (ix : Nat) : Hub :=
  if h.fenced (unitOf 1 ix) then h
  else
    let inUse := h.clockPartUsed ix
    let other := if ix < 2 then 1 - ix else 5 - ix
    let h := h.listFence (unitOf 1 ix) (!inUse)
    if !inUse || h.fenced (unitOf 1 other) then h
    else if ix < 2 then h.setFld F.RT_CLK_XO_SEL 0 other
    else (h.setFld F.RT_CLK_BAND 0 (other - 2)).bump F.RT_BANDSW_COUNT 0

/-- A report alone has switched the band of `h0`: the phase error that its HEALTH item states is an open value (R606). -/
def Hub.bandTold (h h0 : Hub) : Hub :=
  if h.fld F.RT_CLK_BAND 0 = h0.fld F.RT_CLK_BAND 0 then h
  else { h.tookOpen with rooster := { h.rooster with band := some (21, BitVec.ofNat 32 h.openValue.toNat) } }

/-- A unit that is to be fenced at the next boundary (R473). -/
def Hub.dueFence (h : Hub) (u : BitVec 16) : Hub :=
  { h with goose := { h.goose with due := if u ∈ h.goose.due then h.goose.due else h.goose.due ++ [u] } }

/-- Reaction of a contained code (R470, R473): a crystal or band is fenced at once, a lane at the next boundary by its own rule
(R380), any other unit whose reaction is Fence at the next boundary; the Bull pair stops for its self-check (R475), unless the
recovery has fenced the core already; a memory word is handed to the reserve manager. -/
def Hub.react (h : Hub) (r : Report) : Hub :=
  let code := r.code.toNat
  let ix := bits r.unit.toNat 9 0
  if code = 0x01 || code = 0x02 then (if ix < 4 then h.fenceClockPart ix else h).bandTold h
  else if code = 0x20 then
    (if decide (r.unit ∈ h.goose.fenced) then h else { h with bull := { h.bull with stopped := true } })
  else if code = 0x40 then
    (if ix < 24 && h.laneServes ix && !decide (r.unit ∈ h.goose.fenced) then h.laneCause ix 5 else h)
  else if code ∈ [0x26, 0x30, 0x31, 0x33] then (if decide (r.unit ∈ h.goose.fenced) then h else h.dueFence r.unit)
  else if code ∈ [0x11, 0x13, 0x14] then
    { h with goose := { h.goose with repairs := h.goose.repairs ++ [(ix, r.addr.toNat)] } }
  else h

/-- A request to enter HOLD for a fatal fault; in UNLOADED it marks the start journal instead, and in HOLD it changes no
mode (R418, R471). -/
def Hub.fatalRequest (h : Hub) : Hub :=
  if h.mode = mUnloaded then
    if h.flag F.JNL_STAT_DONE 0 then h else h.setFld F.JNL_STAT_FATAL 0 1
  else if h.mode = mHold then h
  else { h with goose := { h.goose with fatal := true } }

/-- A report reaches the Goose, unless the hub is held in reset (R424). It is taken with the others of its CK640 cycle (R466); whether
its unit was fenced already (R472) is settled now. TIME_LOST and BAND_LOST are about the reference and the clock, whose loss R40 and R41
report just when both parts are fenced, so no fence excludes them (notes/assumptions/67.md). -/
def Hub.report (h : Hub) (r : Report) : Hub :=
  let known := decide (r.unit ∈ h.goose.fenced) && r.code != 0x08#8 && r.code != 0x03#8
  if h.start.held then h else { h with goose := { h.goose with found := h.goose.found ++ [(r, known)] } }

/-- What the Goose does with a report found in a CK640 cycle (R467, R469-R472); `known` when its unit was fenced already. A code
that is not used has no class and changes nothing (notes/assumptions/13.md). -/
def Hub.takeReport (h : Hub) (cycle : Nat) (r : Report) (known : Bool) : Hub :=
  let code := r.code.toNat
  match faultClass code with
  | none => h
  | some c =>
    let h := h.bump F.GS_CODECNT_COUNT code
    if known then h
    else
      match c with
      | .corrected =>
        let h := (h.bump F.GS_CORCNT_COUNT 0).attn aCorrected
        let h := { h with twin := { h.twin with cor := h.twin.cor + 1 } }
        if h.flag F.GS_CFG_LOGCOR 0 && !(code ∈ h.goose.logged) then
          let h := (h.ringEntry (h.faultEntry cycle r c)).1
          { h with goose := { h.goose with logged := code :: h.goose.logged } }
        else h
      | .contained =>
        let h := (h.bump F.GS_CONTCNT_COUNT 0).attn aContained
        let h := { h with twin := { h.twin with cont := h.twin.cont + 1 } }
        let e := h.faultEntry cycle r c
        let (h, pos) := h.ringEntry e
        let h := ((h.capture e c).react r).notice code c e pos
        { h with goose := { h.goose with quietFrom := h.slot } }
      | .fatal =>
        let h := (h.bump F.GS_FATCNT_COUNT 0).attn aFatal
        let e := h.faultEntry cycle r c
        let (h, pos) := h.ringEntry e
        let h := ((h.capture e c).notice code c e pos).fatalRequest
        { h with goose := { h.goose with
            quietFrom := h.slot
            standing := if faultStands code && !(code ∈ h.goose.standing) then code :: h.goose.standing
              else h.goose.standing } }

/-- Place of a report among those of its cycle (R466): fatal, contained, corrected; then by code; then by UNIT. -/
def reportKey (r : Report) : Nat :=
  let rank : Nat := match faultClass r.code.toNat with
    | some .fatal => 0
    | some .contained => 1
    | some .corrected => 2
    | none => 3
  (rank * 2 ^ 8 + r.code.toNat) * 2 ^ 16 + r.unit.toNat

/-- The reports of a CK640 cycle, but for the first `n` found, are taken in the order of R466. -/
def Hub.reportsTaken (h : Hub) (cycle n : Nat) : Hub :=
  let l := sortBy (fun x => reportKey x.1) (h.goose.found.drop n)
  each l { h with goose := { h.goose with found := h.goose.found.take n } } fun x h => h.takeReport cycle x.1 x.2

/-- The reports that a command has made since `h0` are taken. In which CK640 cycle of the slot the command came the spec does not
fix: the cycle is open (notes/assumptions/16.md). -/
def Hub.settled (h0 h : Hub) : Hub :=
  if h.goose.found.length ≤ h0.goose.found.length then h
  else h.tookOpen.reportsTaken (h.openValue.toNat % 16) h0.goose.found.length

/-- Held in reset, the hub stays as it is (R424). -/
def Hub.awake (h0 h : Hub) : Hub := if h0.start.held then h0 else h

/-- The outcome of a meaning that may report: the hub as it is once its reports are taken. -/
def goesOn (s : State) (h : Hub) : Host.Outcome State Fault Refusal := .next { s with hub := s.hub.settled h }

/-- FECLR. Writing 1 to GS_CTL.FECLR clears every field of the first-error capture (R477). -/
def execFeclr (s : State) : Host.Outcome State Fault Refusal :=
  .next { s with hub := s.hub.awake (s.hub.setWords A.FE_W [0, 0, 0, 0]) }

/-- Every ring entry and GS_RING become 0 (R478). -/
def Hub.clearRing (h : Hub) : Hub := (h.setWords A.GS_RENT (List.replicate 128 0)).setWord A.GS_RING 0

/-- RINGCLR. Writing 1 to GS_CTL.RINGCLR clears the ring (R478). -/
def execRingclr (s : State) : Host.Outcome State Fault Refusal :=
  .next { s with hub := s.hub.awake s.hub.clearRing }

end Sys2Proof.Machine
end

