-- ==== Sys2Proof/Machine/Ox.lean ====
section
/-! DEFINITION. The group engines beside their instructions: presentation of hits, the end of a slot program, overrun
and fallback, restarts and SWAP (08_ox_engine_programming.md). The commands are at the end. -/

namespace Sys2Proof.Machine

/-- Engine `e`, by its logical number. -/
def Hub.oxOf (h : Hub) (e : Nat) : Ox := Store.get (fun _ => {}) h.ox e

/-- The number that CS.ID and a report's UNIT give the engine that serves group `e` (R204, R465). -/
def Hub.oxId (h : Hub) (e : Nat) : Nat := if h.fld F.RS_STAT_OXG 0 = e then 16 else e

/-- CS as it reads: what the instructions have set in it, CTX and ID (07_belouz_instruction_set.md, "The core status word"). -/
def csShown (cs : W32) (bg : Bool) (id : Nat) : W32 := cs ||| BitVec.ofNat 32 (b2n bg * 2 ^ 8 + id % 256 * 2 ^ 16)

/-- Puts the state of engine `e`, with what OX_PC, OX_CS_S, OX_CS_B and OX_STAT.NOTICES show of it. -/
def Hub.setOx (h : Hub) (e : Nat) (x : Ox) : Hub :=
  let h := { h with ox := Store.set (fun _ => ({} : Ox)) h.ox e x }
  let h := (h.setFld F.OX_PC_SPC e x.slot.pc).setFld F.OX_PC_BPC e x.bg.pc
  let h := h.setWord (F.OX_CS_S_VSAT.addr e) (csShown x.slot.cs false (h.oxId e))
  let h := h.setWord (F.OX_CS_B_VSAT.addr e) (csShown x.bg.cs true (h.oxId e))
  h.setFld F.OX_STAT_NOTICES e x.notices.length

/-- The engine that serves group `e` is fenced, and no spare has taken its place. -/
def Hub.oxDown (h : Hub) (e : Nat) : Bool :=
  if h.fld F.RS_STAT_OXG 0 = e then h.fenced (unitOf 4 16) || (h.oxOf e).loadWait else h.fenced (unitOf 4 e)

/-- The group falls back in every slot (R255, R498). -/
def Hub.oxFalls (h : Hub) (e : Nat) : Bool :=
  !h.flag F.OX_CFG_EN e || h.oxDown e || (h.oxOf e).stopped

/-- The hit word of a hit (R116). `pile` is its PILEUP bit. -/
def hitWord (x : Hit) (pile : Bool) : W64 :=
  BitVec.ofNat 64 (x.ch % 512 * 2 ^ 55 + x.toa % 2 ^ 15 * 2 ^ 40 + x.tot % 2 ^ 12 * 2 ^ 28 + x.amp.toNat * 2 ^ 12
    + b2n pile * 2 ^ 11 + b2n x.edge * 2 ^ 10 + b2n x.sat * 2 ^ 9 + b2n x.spare * 2 ^ 8 + x.slot.toNat % 256)

/-- Whether the primary of a channel carries PILEUP (R111). -/
def Ox.piled (x : Ox) (ch : Nat) : Bool := bit x.pile.toNat (ch % 32)

/-- The presented hits of a slot in ascending channel order, each primary ahead of its secondary, with their PILEUP bits
(R252). -/
def Ox.inOrder (x : Ox) : List (Hit × Bool) :=
  x.prim.flatMap fun p => (p, x.piled p.ch) :: ((x.sec.filter fun s => s.ch == p.ch).map fun s => (s, true))

/-- The registers that a trigger notice is read into (R214). -/
def noticeRegs (rd : Nat) (x : W24 × W24) : List (Nat × W32) := [(rd, x.1.setWidth 32), (rd + 1, x.2.setWidth 32)]

/-- A background context whose wait is over goes on: it has waited for its slot boundaries, a notice is there, or none came in time. -/
def Ox.waitOver (x : Ox) : Ox :=
  match x.bg.wait, x.notices with
  | .slots 0, _ => { x with bg := { x.bg with wait := .run }, bgCyc := x.bgCyc + 1 }
  | .trig rd _, y :: rest =>
    let c := each (noticeRegs rd y) x.bg fun e c => c.setG e.1 e.2
    { x with notices := rest, bg := { c with wait := .run }, bgCyc := x.bgCyc + 1 }
  | .trig rd (some 0), [] => { x with bg := { x.bg.setG rd 0xFFFFFFFF#32 with wait := .run }, bgCyc := x.bgCyc + 1 }
  | _, _ => x

/-- The slot program has left the rest of the slot to the background: a WSLOT or WTRIG of it whose condition is met completes in the first
cycle (R248). -/
def Hub.bgWakes (h : Hub) (e : Nat) : Hub :=
  let x := h.oxOf e
  if e < 16 && x.bg.wait != .run && h.flag F.OX_CFG_EN e && !h.oxDown e && !h.flag F.OX_STAT_BG_HALT e && decide (x.cyc + x.bgCyc < 16)
  then h.setOx e x.waitOver else h

/-- Places a hit in the fallback buffer of its group, or drops it (R253). -/
def Hub.toFallback (h : Hub) (e : Nat) (w : W64) : Hub :=
  let x := h.oxOf e
  if x.fb.length < 64 then h.setOx e { x with fb := x.fb ++ [(w, h.slot)] }
  else ((h.bump F.OX_FBDROP_COUNT e).ledAdd 3 1).ledSub 0x10 1

/-- The slot of a group falls back: every hit not yet pushed goes into the fallback buffer (R252). -/
def Hub.fallback (h : Hub) (e : Nat) : Hub :=
  let x := h.oxOf e
  let left := x.inOrder.filter fun p => !p.1.gone
  let h := each left h fun p h => h.toFallback e (hitWord p.1 p.2)
  let x := h.oxOf e
  ((h.setOx e { x with
    prim := x.prim.map fun y => { y with gone := true }
    sec := x.sec.map fun y => { y with gone := true }
    done := true }).ledAdd 5 1).bgWakes e

/-- The slot program of a slot ends normally: what it did not push is suppressed (R111, R243), and OX_CYC shows its
cycles (R249). -/
def Hub.slotProgramEnds (h : Hub) (e : Nat) : Hub :=
  let x := h.oxOf e
  let n := ((x.prim ++ x.sec).filter fun y => !y.gone).length
  let h := h.setOx e { x with
    prim := x.prim.map fun y => { y with gone := true }
    sec := x.sec.map fun y => { y with gone := true }
    done := true
    excRun := 0 }
  let h := (h.ledAdd 2 n).ledSub 0x10 n
  let h := h.setFld F.OX_CYC_LAST e x.cyc
  (if h.fld F.OX_CYC_MAX e < x.cyc then h.setFld F.OX_CYC_MAX e x.cyc else h).bgWakes e

/-- A queue without the queued words of the item that its producer has left open, newest first. -/
def dropOpenRev (ws : List QWord) : List QWord :=
  match ws with
  | [] => []
  | w :: rest => if w.hit then w :: dropOpenRev rest else if w.last then w :: rest else dropOpenRev rest

/-- The item that a context has left open in a queue is discarded as a flush discards a partly pushed item (R251, R278): its queued
words go, and what is left of it is discarded on arrival. -/
def Hub.discardOpen (h : Hub) (q : Nat) : Hub :=
  let x := h.queue q
  if x.openItem then
    let n := x.ws.length
    ((((h.setQueue q { x with ws := (dropOpenRev x.ws.reverse).reverse, openItem := false }).depthMoved q n).addPend q
      1).countDrop q false).setFld F.Q_STAT_DISCARD q 1
  else h

/-- The slot context ends without its WSLOT: the bundle in progress writes nothing, CS.EXC takes the code, the slot falls
back, and the context restarts at the next slot (R246, R251, R256). -/
def Hub.slotAborts (h : Hub) (e code : Nat) : Hub :=
  let x := h.oxOf e
  let c := x.slot
  let cs := (c.cs &&& 0x00FFFFFF#32) ||| BitVec.ofNat 32 (code * 2 ^ 24)
  let h := h.setOx e { x with slot := { c with cs := cs, pc := 0, wait := .run, half := none } }
  (h.discardOpen e).fallback e

/-- An overrun (R251, R254). -/
def Hub.overrun (h : Hub) (e : Nat) : Hub :=
  let h := ((h.setOx e { h.oxOf e with cyc := 12 }).slotAborts e 0x0C).bump F.OX_OVRCNT_COUNT e
  let x := h.oxOf e
  let h := h.setOx e { x with excRun := 0, excNow := false }
  if h.flag F.OX_CFG_OVR_REP e && !x.reported then
    let h := h.report (mkReport 0x24 (unitOf 4 (h.oxId e)))
    h.setOx e { h.oxOf e with reported := true }
  else h

/-- A slot-program exception (R208, R256). -/
def Hub.slotException (h : Hub) (e code : Nat) : Hub :=
  let h := ((h.slotAborts e code).bump F.OX_EXCCNT_COUNT e).report (mkReport 0x23 (unitOf 4 (h.oxId e)))
  h.setOx e { h.oxOf e with excNow := true }

/-- A background exception: the context halts (R208, R258). -/
def Hub.bgException (h : Hub) (e code : Nat) : Hub :=
  let x := h.oxOf e
  let cs := (x.bg.cs &&& 0x00FFFFFF#32) ||| BitVec.ofNat 32 (code * 2 ^ 24)
  let h := h.setOx e { x with bg := { x.bg with cs := cs, wait := .run, half := none }, haltAt := h.slot }
  ((h.setFld F.OX_STAT_BG_HALT e 1).bump F.OX_EXCCNT_COUNT e).report (mkReport 0x23 (unitOf 4 (h.oxId e)))

/-- The background context starts at bundle 001h (R247). -/
def Hub.bgStarts (h : Hub) (e : Nat) : Hub :=
  let x := h.oxOf e
  (h.setOx e { x with bg := { x.bg with pc := 1, wait := .run, half := none } }).setFld F.OX_STAT_BG_HALT e 0

/-- Both contexts restart from the active bank (R246, R247). -/
def Hub.oxRestart (h : Hub) (e : Nat) : Hub :=
  let x := h.oxOf e
  (h.setOx e { x with
    slot := { x.slot with pc := 0, wait := .run, half := none }
    excRun := 0
    excNow := false
    stopped := false }).bgStarts e

/-- The engine stops at the boundary at which the hub leaves the running modes (R244, R260). -/
def Hub.oxStop (h : Hub) (e : Nat) : Hub :=
  let x := h.oxOf e
  let h := h.setOx e { x with notices := [], done := true, slot := { x.slot with half := none }, bg := { x.bg with half := none } }
  (h.setFld F.OX_STAT_RUNNING e 0).setFld F.OX_STAT_FALLBACK e 0

/-- The chain of a channel. -/
def Hub.chainOf (h : Hub) (c : Nat) : Chain := Store.get (fun _ => {}) h.chain c

/-- A hit with its amplitude and flags: the largest of LEN stage A outputs from k_0 + START on (R112). At a boundary the
newest output lies one sample before it. DESIGN CHOICE: START and LEN are those in force as the hit is presented; the spec does not
say when TDC_AMPWIN is read (notes/assumptions/81.md). -/
def Hub.withAmp (h : Hub) (x : Hit) : Hit :=
  let newest : Int := 4 * circ 48 h.slot.toNat x.base.toNat - 1
  let start := h.fld F.TDC_AMPWIN_START 0
  let got := (upto (h.fld F.TDC_AMPWIN_LEN 0)).filterMap fun (j : Nat) =>
    let back := newest - (x.k0 + start + j)
    if back < 0 then none else (h.chainOf x.ch).hist[back.toNat]?
  { x with
    amp := got.foldl (fun m v => if m < v.1 then v.1 else m) 0
    edge := got.any fun v => v.2 == 1
    sat := got.any fun v => v.2 == 3 }

/-- The hits of the slot six slots back are presented to the group (R113): of each channel at most a primary and a
secondary, by their TOA, and the pile-up mask (R106, R111). -/
def Hub.present (h : Hub) (g : Nat) : Hub :=
  let s := h.slot - 6#48
  let mine := h.hits.filter fun y => y.ch / 32 == g && y.slot == s
  if mine.isEmpty && (h.dead.filter fun d => d.1 / 32 == g && d.2 == s).isEmpty then h
  else
    let byCh := (upto 32).map fun k => mine.filter fun y => y.ch == 32 * g + k
    let firsts := byCh.filterMap fun l => (sortBy (fun y => y.toa) l).head?
    let seconds := byCh.filterMap fun l => (sortBy (fun y => y.toa) l)[1]?
    let dead := (h.dead.filter fun d => d.1 / 32 == g && d.2 == s).map fun d => d.1 % 32
    let pile := maskOf ((seconds.map fun y => y.ch % 32) ++ dead.filter fun k => firsts.any fun y => y.ch % 32 == k)
    let h := { h with
      hits := h.hits.filter fun y => !(y.ch / 32 == g && y.slot == s)
      dead := h.dead.filter fun d => !(d.1 / 32 == g && d.2 == s) }
    let mask : W32 := BitVec.ofNat 32 (maskOf (firsts.map fun (y : Hit) => y.ch % 32))
    let h := { h with seeds := (s, g, mask) :: h.seeds.filter fun x => decide (slotsFrom x.1 s < 2 ^ 15) }
    h.setOx g { h.oxOf g with
      prim := firsts.map h.withAmp
      sec := seconds.map h.withAmp
      pile := BitVec.ofNat 32 pile
      fetched := false }

/-- What a slot boundary does to the engine of group `e` in a running mode: the slot program that has not ended
overran; 256 consecutive slots with an exception stop the context (R257); the hits of the new slot are presented and
the slot program starts, or the slot falls back (R245, R255). -/
def Hub.oxSlotEnds (h : Hub) (e : Nat) : Hub :=
  let x := h.oxOf e
  let h := if x.done then h else h.overrun e
  let x := h.oxOf e
  let run := if x.excNow then x.excRun + 1 else x.excRun
  let h := h.setOx e { x with excRun := run, excNow := false, prim := [], sec := [], pile := 0, fetched := false }
  if 256 ≤ run && !x.stopped then
    (h.setOx e { h.oxOf e with stopped := true }).report (mkReport 0x25 (unitOf 4 (h.oxId e)))
  else h

/-- The new slot of an engine begins (R245, R255). -/
def Hub.oxSlotStarts (h : Hub) (e : Nat) : Hub :=
  let h := h.present e
  let h := h.setOx e { h.oxOf e with cyc := 0, bgCyc := 0 }
  if h.oxFalls e then
    ((h.setFld F.OX_STAT_FALLBACK e 1).setFlag F.OX_STAT_RUNNING e (h.flag F.OX_CFG_EN e && !h.oxDown e)).fallback e
  else
    let x := h.oxOf e
    let h := (h.setFld F.OX_STAT_FALLBACK e 0).setFld F.OX_STAT_RUNNING e 1
    h.setOx e { x with done := false, slot := { x.slot with wait := .run } }

/-- Exchanges the two banks in the list of uncorrectable words. -/
def swapBad (k : Nat) : Nat := if k < 0x800 then k + 0x800 else if k < 0x1000 then k - 0x800 else k

/-- A pending SWAP acts, at a boundary after the slot in which it was made (R235, R263). -/
def Hub.swapActs (h : Hub) (e : Nat) : Hub :=
  if h.flag F.OX_STAT_SWAP_PEND e && (h.oxOf e).swapFrom != h.slot then
    let x := h.oxOf e
    let a := h.flag F.OX_STAT_ACT_SEALED e
    let b := h.flag F.OX_STAT_STBY_SEALED e
    let h := h.setOx e { x with act := x.stby, stby := x.act, bad := x.bad.map swapBad }
    let h := ((h.setFlag F.OX_STAT_ACT_SEALED e b).setFlag F.OX_STAT_STBY_SEALED e a).setFld F.OX_STAT_SWAP_PEND e 0
    h.oxRestart e
  else h

/-- The background context of an engine that halted before this slot restarts (R258). -/
def Hub.bgResumes (h : Hub) (e : Nat) : Hub :=
  if h.flag F.OX_STAT_BG_HALT e && (h.oxOf e).haltAt != h.slot then h.bgStarts e else h

/-- At an orbit boundary the engines report overruns again (R254). -/
def Hub.oxOrbit (h : Hub) : Hub :=
  forN 17 h fun e h =>
    let x := h.oxOf e
    if x.reported then h.setOx e { x with reported := false } else h

/-- Whether the slot in progress is the first of its orbit (R42). -/
def Hub.atOrbit (h : Hub) : Bool := h.fld F.RT_ORBIT_POS 0 == 0

/-- HIT_PRESENT. The hits of slot s are presented at the start of slot s + 6, in the running modes (R113, R114). -/
def execHitPresent (g : Fin 16) (s : State) : Host.Outcome State Fault Refusal :=
  .next { s with hub := if s.hub.live then s.hub.present g.val else s.hub }

/-- OX_OVERRUN. A slot program that has not ended by cycle 12 is aborted (R251). -/
def execOxOverrun (e : Fin 17) (s : State) : Host.Outcome State Fault Refusal :=
  .next { s with hub := s.hub.settled <| if s.hub.live && !(s.hub.oxOf e.val).done then s.hub.overrun e.val else s.hub }

/-- OX_SLOT_STOP. After slot-program exceptions in 256 consecutive slots the slot context stops (R257). The exception of
the slot in progress is the last of them. -/
def Hub.slotStop (h : Hub) (e : Nat) : Hub :=
  let x := h.oxOf e
  if h.live && x.excNow && 255 ≤ x.excRun && !x.stopped then
    (h.setOx e { x with stopped := true }).report (mkReport 0x25 (unitOf 4 (h.oxId e)))
  else h

/-- OX_SLOT_STOP (R257). -/
def execOxSlotStop (e : Fin 17) (s : State) : Host.Outcome State Fault Refusal :=
  .next { s with hub := s.hub.settled (s.hub.slotStop e.val) }

/-- OX_BG_RESTART. At an orbit boundary a halted background context restarts (R258). -/
def execOxBgRestart (e : Fin 17) (s : State) : Host.Outcome State Fault Refusal :=
  .next { s with hub := if s.hub.atOrbit then s.hub.bgResumes e.val else s.hub }

/-- SWAP_EXCHANGE. A pending SWAP acts at an orbit boundary in the running modes, at any slot boundary in the others (R235,
R263). -/
def execSwapExchange (e : Fin 17) (s : State) : Host.Outcome State Fault Refusal :=
  .next { s with hub := if s.hub.atOrbit || !s.hub.running then s.hub.swapActs e.val else s.hub }

end Sys2Proof.Machine
end

