-- ==== Sys2Proof/Machine/Reserve.lean ====
section
/-! DEFINITION. Fences and the reserve manager: what a fence withdraws, which spare takes its place, and when
(16_fault_collection.md, 17_reserve_and_wear.md). The commands are at the end. -/

namespace Sys2Proof.Machine

/-- Kinds of spare that the reserve manager takes (R484). -/
abbrev kRow : Nat := 0
abbrev kLine : Nat := 1
abbrev kDslot : Nat := 2
abbrev kOx : Nat := 3
abbrev kLane : Nat := 4

/-- Whether RS_VETO vetoes a kind. -/
def Hub.vetoed (h : Hub) (kind : Nat) : Bool :=
  let v := h.word A.RS_VETO
  bit v.toNat (if kind = kRow then 3 else if kind = kLine then 1 else if kind = kDslot then 0 else if kind = kOx then 2 else 4)

/-- The channel that digitiser slot `p` serves, if any. -/
def Hub.channelOf (h : Hub) (p : Nat) : Option Nat :=
  ((upto 32).map fun k => 32 * (p / 34) + k).find? fun c => h.fld F.RS_CHMAP_SERVE c == p % 34

/-- The digitiser slot that serves a channel, if any. -/
def Hub.servingSlot (h : Hub) (c : Nat) : Option Nat :=
  let s := h.fld F.RS_CHMAP_SERVE c
  if s < 34 then some (34 * (c / 32) + s) else none

/-- The procedure 1h-9h that runs on a group, within PROC Fh too; 0 when none does. -/
def Hub.calPart (h : Hub) (g : Nat) : Nat :=
  if h.flag F.CAL_STAT_BUSY 0 && h.cal.gmask.getLsbD g then h.cal.part else 0

/-- The calibration engine feeds internal pulses or ramps to digitiser slot `p`: OFFSET, TDC or PHASE runs on its group (R451), and no
bring-in has taken the slot from it (R97). -/
def Hub.feeds (h : Hub) (p : Nat) : Bool :=
  decide (1 ≤ h.calPart (p / 34)) && decide (h.calPart (p / 34) ≤ 3) && !(h.cal.lost.contains p)

/-- The digitiser slot that serves a channel with its signal: none while the calibration engine feeds it (R96, R451). -/
def Hub.liveSlot (h : Hub) (c : Nat) : Option Nat := (h.servingSlot c).filter fun p => !h.feeds p

/-- TDC_STAT of a channel: a TDC serves it and measures; its standby line is unfenced (R120, R608). DESIGN CHOICE: STBY_AVAIL is 0 while
the front end is without power, where the spec says only what it is while a TDC serves (notes/assumptions/80.md). -/
def Hub.refreshTdc (h : Hub) (c : Nat) : Hub :=
  match h.servingSlot c with
  | none => (h.setFld F.TDC_STAT_ACTIVE c 0).setFld F.TDC_STAT_STBY_AVAIL c 0
  | some p =>
    let line := h.flag F.RS_DSLOT_LINE p
    let f0 := h.flag F.RS_DSLOT_L0F p
    let f1 := h.flag F.RS_DSLOT_L1F p
    let activeBad := if line then f1 else f0
    let standbyBad := if line then f0 else f1
    let on := h.flag F.FE_STAT_PWR c && h.flag F.TDC_CFG_EN c
    (h.setFlag F.TDC_STAT_ACTIVE c (on && !activeBad)).setFlag F.TDC_STAT_STBY_AVAIL c (h.flag F.FE_STAT_PWR c && !standbyBad)

/-- Gives a channel a serving slot of its group, or none (3Fh). -/
def Hub.serve (h : Hub) (c s : Nat) : Hub :=
  ((h.setFld F.RS_CHMAP_SERVE c s).setFlag F.RS_CHMAP_SPARE c (s != c % 32)).refreshTdc c

/-- Rows of spare entries of a memory (R484), and words of one row. -/
def spareRows (mem : Nat) : Nat := if mem < 16 then 32 else if mem = 0x10 then 128 else if mem = 0x20 || mem = 0x21 then 8
  else if 0x40 ≤ mem && mem ≤ 0x50 then 4 else if mem = 0x60 then 8 else 0

/-- Words of one row of a memory (R484); a child-buffer row holds 16 cells of 7 words. -/
def rowWords (mem : Nat) : Nat := if mem < 16 then 32 else if mem = 0x60 then 112 else 64

/-- The row-map entry of a memory that replaces a row and is not faulty. -/
def Hub.rowEntry (h : Hub) (mem row : Nat) : Option Nat :=
  (upto (spareRows mem)).find? fun r =>
    let w := (h.bankWord (rowKey mem r)).toNat
    bits w 10 0 == row && (bits w 13 12 == 1 || bits w 13 12 == 2)

/-- A free entry of the row map of a memory. -/
def Hub.freeRow (h : Hub) (mem : Nat) : Option Nat :=
  (upto (spareRows mem)).find? fun r => bits (h.bankWord (rowKey mem r)).toNat 13 12 == 0

/-- Sets an entry of the row map: row, state, on the repair list (R491). -/
def Hub.setRow (h : Hub) (mem r row state : Nat) : Hub :=
  h.setBank (rowKey mem r) (BitVec.ofNat 32 (row % 2048 + state % 4 * 4096 + 16384))

/-- The reserve manager has added to the repair list of a start step (R491). -/
def Hub.listAdds (h : Hub) (step : Nat) : Hub :=
  { h with start := { h.start with added := if step ∈ h.start.added then h.start.added else step :: h.start.added } }

/-- Role and port that a lane has, or had before its fence. -/
def Hub.laneJob (h : Hub) (l : Nat) : Nat × Nat :=
  if h.laneServes l then (h.role l, h.lanePort l) else ((h.lane l).lostRole, (h.lane l).lostPort)

/-- Whether entry `j` of RS_LANE names a route that can take the place of a PARENT or CHILD lane: a ROLE of another value disables
the entry, and bit 1 of the port of a PARENT lane is ignored (17_reserve_and_wear.md, RS_LANE). -/
def Hub.routeFits (h : Hub) (j unit : Nat) : Bool :=
  let r := h.fld F.RS_LANE_ROLE j
  let p := h.fld F.RS_LANE_PORT j
  (r == roleParent || r == roleChild) && h.laneJob unit == (r, if r = roleParent then p % 2 else p)

/-- A free spare of a kind for a unit (R484, R485). -/
def Hub.freeSpare (h : Hub) (kind unit : Nat) : Option Nat :=
  if kind = kRow then h.freeRow (unit / 65536)
  else if kind = kDslot then
    let g := unit / 32
    [32, 33].find? fun s =>
      let p := 34 * g + s
      let state := h.fld F.RS_DSLOT_STATE p
      (state == 0 || (state == 2 && !(h.rsv.preps.any fun q => q.kind == kDslot && q.unit / 32 == g && q.spare == s)))
        && !h.flag F.RS_DSLOT_FENCED p && !h.flag F.RS_DSLOT_RETIRED p
  else if kind = kOx then
    if h.fld F.RS_STAT_OXG 0 = 0x1F && !h.fenced (unitOf 4 16) && !(h.rsv.preps.any fun p => p.kind == kOx) then some 16 else none
  else if kind = kLane then
    (upto 8).find? fun j =>
      let l := h.fld F.RS_LANE_LANE j
      h.flag F.RS_LANE_VALID j && h.fld F.RS_LANE_SERVES j == 0x1F && h.routeFits j unit && h.role l == roleSpare
        && !h.flag F.LN_STAT_FENCED l && !(h.rsv.preps.any fun p => p.kind == kLane && p.spare == j)
  else none

/-- Orbit boundaries that a preparation takes (R152, R264, R497, R499, R500); the last is the bring-in. -/
def Hub.prepOrbits (h : Hub) (kind unit : Nat) : Nat :=
  if kind = kRow then (if unit / 65536 = 0x10 then 1 else 2)
  else if kind = kDslot then h.fld F.CAL_ROLL_SELFORB 0 + 2
  else if kind = kOx then 2
  else 1

/-- A lane that is aligned trains from the beginning (R360). -/
def Hub.retrain (h : Hub) (l : Nat) : Hub :=
  if h.comesAs l roleParent && h.flag F.LN_STAT_ALIGNED l then
    (h.setFld F.LN_STAT_TRAINED l 0).setLane l { h.lane l with train := 2048, mark := none, echoed := false, launches := [] }
  else h

/-- What a preparation marks in the reserve map when it starts; a spare lane trains, or waits for the first frames (R383). -/
def Hub.markPrep (h : Hub) (p : Prep) : Hub :=
  if p.kind = kRow then (h.setRow (p.unit / 65536) p.spare (p.unit % 65536) 1).listAdds 6
  else if p.kind = kDslot then h.setFld F.RS_DSLOT_STATE (34 * (p.unit / 32) + p.spare) 2
  else if p.kind = kLane then
    let sp := h.fld F.RS_LANE_LANE p.spare
    (h.setLane sp { h.lane sp with upSeen := false }).retrain sp
  else h

/-- RS_STAT.PREP and HOLDWAIT. -/
def Hub.refreshPrep (h : Hub) : Hub :=
  let some? := !h.rsv.preps.isEmpty
  (h.setFlag F.RS_STAT_PREP 0 (some? && h.mode != mHold)).setFlag F.RS_STAT_HOLDWAIT 0 (some? && h.mode == mHold)

/-- The round trip of a group (R461). -/
def Hub.rollOf (h : Hub) (g : Nat) : Option Roll := Store.get (fun _ => none) h.cal.roll g

/-- Puts the round trip of a group. -/
def Hub.setRoll (h : Hub) (g : Nat) (r : Option Roll) : Hub :=
  { h with cal := { h.cal with roll := Store.set (fun _ => (none : Option Roll)) h.cal.roll g r } }

/-- The digitiser slot of the group that a round trip tests: the spare in stages 1 and 2, the home slot after them. -/
def Roll.tested (r : Roll) : Nat := if r.stage ≤ 2 then r.spare else r.home

/-- Rolling use of the slots of a group ends (R97, R463): its channel stays where it is. -/
def Hub.endRoll (h : Hub) (g : Nat) : Hub :=
  match h.rollOf g with
  | none => h
  | some r =>
    let p := 34 * g + r.tested
    let h := h.setRoll g none
    let h := if h.fld F.RS_CHMAP_SHADOW r.ch = r.tested then h.setFld F.RS_CHMAP_SHADOW r.ch 0x3F else h
    if h.fld F.RS_DSLOT_STATE p = 2 then h.setFld F.RS_DSLOT_STATE p 0 else h

/-- Starts a preparation. A claim on a digitiser slot that a round trip uses takes effect at the next orbit boundary (R97, R463). -/
def Hub.startPrep (h : Hub) (kind unit spare : Nat) (reactive : Bool) : Hub :=
  let p : Prep := { kind := kind, unit := unit, spare := spare, left := h.prepOrbits kind unit, since := h.slot, reactive := reactive }
  (({ h with rsv := { h.rsv with preps := h.rsv.preps ++ [p] } }).markPrep p).refreshPrep

/-- The claims on digitiser slots take effect at an orbit boundary: round trips in their groups end (R97, R463). -/
def Hub.claimsSlots (h : Hub) : Hub :=
  each (h.rsv.preps.filter fun p => p.kind == kDslot) h fun p h =>
    if (h.rollOf (p.unit / 32)).isSome then (h.endRoll (p.unit / 32)).markPrep p else h

/-- Gives up a preparation; its spare is free again. -/
def Hub.dropPrep (h : Hub) (p : Prep) : Hub :=
  let h := { h with rsv := { h.rsv with preps := h.rsv.preps.filter fun q => !(q == p) } }
  let h :=
    if p.kind = kRow then h.setBank (rowKey (p.unit / 65536) p.spare) 0
    else if p.kind = kDslot then
      let ps := 34 * (p.unit / 32) + p.spare
      let rolls := (h.rollOf (p.unit / 32)).any fun r => r.tested == p.spare
      let h := if h.fld F.RS_DSLOT_STATE ps = 2 && !rolls then h.setFld F.RS_DSLOT_STATE ps 0 else h
      if h.fld F.RS_CHMAP_SHADOW p.unit = p.spare then h.setFld F.RS_CHMAP_SHADOW p.unit 0x3F else h
    else if p.kind = kLane && (h.lane p.unit).retiring then h.setLane p.unit { h.lane p.unit with retiring := false }
    else h
  h.refreshPrep

/-- A replacement that a veto holds back (R485, R490). -/
def Hub.holdBack (h : Hub) (kind unit : Nat) : Hub :=
  let h := { h with rsv := { h.rsv with heldBack := if (kind, unit) ∈ h.rsv.heldBack then h.rsv.heldBack
    else h.rsv.heldBack ++ [(kind, unit)] } }
  (h.bump F.RS_VETOED_COUNT 0).attn aReserve

/-- No spare is free for a fenced unit, which stays fenced and not replaced (R485, R494). -/
def Hub.noSpare (h : Hub) : Hub := (h.bump F.RS_NOSPARE_COUNT 0).attn aReserve

/-- The spare that a preparation holds would do for a unit (R484). -/
def Hub.spareFits (h : Hub) (p : Prep) (kind unit : Nat) : Bool :=
  p.kind == kind && (kind != kDslot || p.unit / 32 == unit / 32) && (kind != kRow || p.unit / 65536 == unit / 65536)
    && (kind != kLane || h.routeFits p.spare unit)

/-- A reactive need for a spare (R485, R489). A preventive preparation gives its spare up to it, that of the same unit first, and the spare
is prepared from the start; a reactive preparation of the unit goes on. -/
def Hub.needSpare (h : Hub) (kind unit : Nat) : Hub :=
  match h.rsv.preps.find? fun p => p.kind == kind && p.unit == unit with
  | some p =>
    if p.reactive then h
    else if h.vetoed kind then (h.dropPrep p).holdBack kind unit
    else (h.dropPrep p).startPrep kind unit p.spare true
  | none =>
    if h.vetoed kind then h.holdBack kind unit
    else
      match h.freeSpare kind unit with
      | some s => h.startPrep kind unit s true
      | none =>
        match h.rsv.preps.find? fun p => !p.reactive && h.spareFits p kind unit with
        | some p => (h.dropPrep p).startPrep kind unit p.spare true
        | none => h.noSpare

/-- Whether a preventive bring-in of a kind may be made now (R487, R495). -/
def Hub.preventive (h : Hub) (kind : Nat) : Bool :=
  h.running && !bit (h.word A.RS_VETO).toNat 8 && !h.vetoed kind

/-- Free spare digitiser slots of a group. -/
def Hub.freeDslots (h : Hub) (g : Nat) : Nat :=
  ([32, 33].filter fun s =>
    let p := 34 * g + s
    h.fld F.RS_DSLOT_STATE p == 0 && !h.flag F.RS_DSLOT_FENCED p && !h.flag F.RS_DSLOT_RETIRED p).length

/-- A group keeps RS_POLICY.KEEPD free spare digitiser slots behind one more bring-in (R487). -/
def Hub.keepsSpares (h : Hub) (g : Nat) : Bool := decide (h.fld F.RS_POLICY_KEEPD 0 + 1 ≤ h.freeDslots g)

/-- A preventive preparation of a unit, when a spare is free and none runs for it. -/
def Hub.preventPrep (h : Hub) (kind unit : Nat) : Hub :=
  if h.rsv.preps.any fun p => p.kind == kind && p.unit == unit then h
  else match h.freeSpare kind unit with
    | some s => h.startPrep kind unit s false
    | none => h

/-- A bring-in has taken effect (R494): RS_BRINGIN counts a reactive one. -/
def Hub.broughtIn (h : Hub) (reactive : Bool) : Hub :=
  (if reactive then h.bump F.RS_BRINGIN_COUNT 0 else h).attn aReserve

/-- A digitiser slot is fenced (R473): it is withdrawn, and its channel waits for a spare under R96. A use of it by a
preparation or a shadow ends (R490). -/
def Hub.fenceDslot (h : Hub) (p : Nat) : Hub :=
  let g := p / 34
  let h := if (h.rollOf g).any fun r => r.tested == p % 34 then h.endRoll g else h
  let h := (((h.setFld F.RS_DSLOT_FENCED p 1).setFld F.RS_DSLOT_STATE p 3).setFld F.RS_DSLOT_DREP p 1).listAdds 8
  let h := forN 32 h fun k h =>
    if h.fld F.RS_CHMAP_SHADOW (32 * g + k) = p % 34 then h.setFld F.RS_CHMAP_SHADOW (32 * g + k) 0x3F else h
  let using_ := h.rsv.preps.filter fun q => q.kind == kDslot && q.unit / 32 == g && q.spare == p % 34
  let h := match h.channelOf p with
    | none =>
      -- a home slot under test in a round trip: the spare that serves its channel has taken over its work
      let h := h.listFence (unitOf 5 p) true
      if p % 34 < 32 && !h.flag F.RS_DSLOT_RETIRED p && (h.servingSlot (32 * g + p % 34)).isSome then h.broughtIn true else h
    | some c =>
      let h := (h.listFence (unitOf 5 p) false).serve c 0x3F
      let h := { h with goose := { h.goose with jobs := (unitOf 5 p, c) :: h.goose.jobs } }
      h.needSpare kDslot c
  each using_ h fun q h =>
    let h := { h with rsv := { h.rsv with preps := h.rsv.preps.filter fun r => !(r == q) } }
    if q.reactive then h.needSpare kDslot q.unit
    else if h.preventive kDslot && h.keepsSpares g then h.preventPrep kDslot q.unit else h.refreshPrep

/-- The other line of a digitiser slot is to take over from a fenced one; that takes effect among the changes of the boundary of the fence
(R118, R496). -/
def Hub.lineTurns (h : Hub) (p : Nat) (line : Bool) : Hub :=
  let q : Prep := { kind := kLine, unit := 2 * p + b2n line, spare := b2n (!line), left := 0, since := h.slot, reactive := true }
  ({ h with rsv := { h.rsv with preps := h.rsv.preps ++ [q] } }).refreshPrep

/-- A line of a digitiser slot's TDC is fenced (R120, R608). A line that is not active, and either line of a slot that serves no channel,
held no job (R604). -/
def Hub.fenceLine (h : Hub) (p : Nat) (line : Bool) : Hub :=
  let active := h.flag F.RS_DSLOT_LINE p == line
  let h := ((if line then h.setFld F.RS_DSLOT_L1F p 1 else h.setFld F.RS_DSLOT_L0F p 1).setFld F.RS_DSLOT_TREP p 1).listAdds 7
  let h := h.listFence (unitOf (if line then 7 else 6) p) (!active || (h.channelOf p).isNone)
  let otherBad := if line then h.flag F.RS_DSLOT_L0F p else h.flag F.RS_DSLOT_L1F p
  let h :=
    if otherBad then
      let h := if active then h.noSpare else h
      if h.fenced (unitOf 5 p) then h else h.fenceDslot p
    else if !active then h
    else if h.vetoed kLine then h.holdBack kLine (2 * p + b2n line)
    else h.lineTurns p line
  match h.channelOf p with
  | some c => h.refreshTdc c
  | none => h

/-- A unit is fenced now: what the fence withdraws (R473). Lanes are fenced by their own rule (R380). -/
def Hub.fenceUnit (h : Hub) (u : Nat) : Hub :=
  if h.fenced u then h
  else
    let kind := bits u 15 10
    let ix := bits u 9 0
    if kind = 5 then h.fenceDslot ix
    else if kind = 6 then h.fenceLine ix false
    else if kind = 7 then h.fenceLine ix true
    else if kind = 4 then
      if ix = 16 then
        if h.fld F.RS_STAT_OXG 0 = 0x1F then
          -- a preparation of the spare is given up (R490)
          each (h.rsv.preps.filter fun q => q.kind == kOx) (h.listFence u true) fun q h =>
            let h := h.dropPrep q
            if q.reactive then h.needSpare kOx q.unit else h
        else (h.listFence u false).noSpare
      else if h.fld F.RS_STAT_OXG 0 = ix then h.listFence u (decide (BitVec.ofNat 16 u ∈ h.goose.retired))
      else (h.listFence u false).needSpare kOx ix
    else if kind = 1 && ix < 4 then h.fenceClockPart ix
    else if kind = 0xA then (h.listFence u false).setFld F.CMP_STAT_FENCED 0 1
    else h.listFence u false

/-- Whether a fenced unit counts as replaced (R604). -/
def Hub.replaced (h : Hub) (b : BitVec 16) : Bool :=
  let u := b.toNat
  let kind := bits u 15 10
  let ix := bits u 9 0
  if kind = 0xA then false
  else if b ∈ h.goose.idle then true
  else if kind = 1 then
    if ix < 2 then !h.fenced (unitOf 1 (1 - ix)) else !h.fenced (unitOf 1 (5 - ix))
  else if kind = 3 then decide (((upto 3).filter fun k => h.fenced (unitOf 3 k)).length ≤ 1)
  else if kind = 4 then ix != 16 && h.fld F.RS_STAT_OXG 0 == ix && !h.oxFalls ix
  else if kind = 5 then
    match h.goose.jobs.find? fun j => j.1 == u with
    | some (_, c) => (h.servingSlot c).isSome
    | none => true
  else if kind = 6 then h.flag F.RS_DSLOT_LINE ix && !h.flag F.RS_DSLOT_L1F ix
  else if kind = 7 then !h.flag F.RS_DSLOT_LINE ix && !h.flag F.RS_DSLOT_L0F ix
  else if kind = 8 then (upto 8).any fun j => h.fld F.RS_LANE_SERVES j == ix
  else false

/-- Some fenced unit is not replaced (R416). -/
def Hub.degraded (h : Hub) : Bool := h.goose.fenced.any fun u => !h.replaced u

/-- MODE_STAT.DEGR. -/
def Hub.refreshDegr (h : Hub) : Hub := h.setFlag F.MODE_STAT_DEGR 0 h.degraded

/-- One orbit boundary of every preparation: it comes nearer its end, and a digitiser slot shadows its channel in the last
orbit (R497). -/
def Hub.prepOrbit (h : Hub) : Hub :=
  if h.running then
    let h := h.claimsSlots
    let preps := h.rsv.preps
    let h := { h with rsv := { h.rsv with preps := preps.map fun p =>
        if p.left = 0 then p
        else { p with left := p.left - 1, since := if p.left = 2 || p.kind != kRow then h.slot else p.since } } }
    each h.rsv.preps h fun p h =>
      if p.kind = kDslot && p.left = 1 then h.setFld F.RS_CHMAP_SHADOW p.unit p.spare else h
  else h

/-- Every preparation starts again from the beginning after HOLD (R495). -/
def Hub.prepRestart (h : Hub) : Hub :=
  let h := { h with rsv := { h.rsv with preps := h.rsv.preps.map fun (p : Prep) =>
      ({ p with left := h.prepOrbits p.kind p.unit, since := h.slot, passed := false, selfDone := false, seen := {} } : Prep) } }
  (each h.rsv.preps h fun p h =>
    let h := if p.kind = kDslot && h.fld F.RS_CHMAP_SHADOW p.unit = p.spare then h.setFld F.RS_CHMAP_SHADOW p.unit 0x3F else h
    h.markPrep p).refreshPrep

/-- A row of a memory with an uncorrectable word is handed to the reserve manager (R473): a latency bank without a spare
row left is a fatal fault. -/
def Hub.repairRow (h : Hub) (mem word : Nat) : Hub :=
  let row := word / rowWords mem
  let h := match h.rowEntry mem row with
    | some r => if bits (h.bankWord (rowKey mem r)).toNat 13 12 = 2 then (h.setRow mem r row 3).listAdds 6 else h
    | none => h
  let unit := mem * 65536 + row
  let mine (h : Hub) : Bool := h.rsv.preps.any fun p => p.kind == kRow && p.unit == unit
  if (h.rowEntry mem row).isSome && !mine h then h
  else
    let h := h.needSpare kRow unit
    if mem < 16 && !h.vetoed kRow && !mine h then h.report { mkReport 0x12 (unitOf 2 mem) with addr := BitVec.ofNat 24 word } else h

/-- The repairs that reports have asked for (R473). -/
def Hub.repairs (h : Hub) : Hub :=
  let l := h.goose.repairs
  each l { h with goose := { h.goose with repairs := [] } } fun r h => h.repairRow r.1 r.2

/-- Whether a due fence takes effect at this boundary: a TDC line in a running mode waits for an orbit boundary (R118). -/
def Hub.fenceNow (h : Hub) (u : Nat) : Bool :=
  let kind := bits u 15 10
  if (kind = 6 || kind = 7) && h.running then h.atOrbit else true

/-- The fences due at this boundary take effect (R473). -/
def Hub.fencesAct (h : Hub) : Hub :=
  let l := h.goose.due.filter fun u => h.fenceNow u.toNat
  each l { h with goose := { h.goose with due := h.goose.due.filter fun u => !(h.fenceNow u.toNat) } } fun u h => h.fenceUnit u.toNat

/-- Two unfenced Bull cores form the pair, as far as there are two; the third is free when it is not fenced (R475, R481). -/
def Hub.formPair (h : Hub) : Hub :=
  let good := (upto 3).filter fun k => !h.fenced (unitOf 3 k)
  let kept := good.filter fun k => k == h.bull.pairA.val || k == h.bull.pairB.val
  let h := match sortBy (fun k => k) ((kept ++ good.filter fun k => !(k ∈ kept)).take 2) with
    | [a, b] => { h with bull := { h.bull with pairA := Fin.ofNat 3 a, pairB := Fin.ofNat 3 b } }
    | _ => h
  h.setFlag F.RS_STAT_BCFREE 0 (decide (good.length = 3))

/-- A fence or retirement of a unit is lifted (R476, R488). Lanes are ignored. -/
def Hub.unfence (h : Hub) (u : Nat) : Hub :=
  let b : BitVec 16 := BitVec.ofNat 16 u
  let kind := bits u 15 10
  let ix := bits u 9 0
  if kind = 8 || !(b ∈ h.goose.fenced || b ∈ h.goose.retired) then h
  else
    let job := h.goose.jobs.find? fun j => j.1 == u
    let h := ({ h with goose := { h.goose with
        fenced := h.goose.fenced.filter fun x => !(x == b)
        retired := h.goose.retired.filter fun x => !(x == b)
        idle := h.goose.idle.filter fun x => !(x == b)
        jobs := h.goose.jobs.filter fun j => !(j.1 == u) } }).refreshFenced
    let h :=
      if kind = 5 then
        let h := ((h.setFld F.RS_DSLOT_FENCED ix 0).setFld F.RS_DSLOT_RETIRED ix 0).setFld F.RS_DSLOT_STATE ix 0
        match job with
        | some (_, c) => { h with rsv := { h.rsv with returns := h.rsv.returns ++ [(ix, c)] } }
        | none => h
      else if kind = 6 || kind = 7 then
        let line := kind == 7
        let h := if line then h.setFld F.RS_DSLOT_L1F ix 0 else h.setFld F.RS_DSLOT_L0F ix 0
        match h.channelOf ix with
        | some c => h.refreshTdc c
        | none => h
      else if kind = 3 then h.formPair
      else if kind = 0xA then h.setFld F.CMP_STAT_FENCED 0 0
      else h
    h.refreshDegr

/-- A write to RS_VETO; clearing a bit starts the replacements that it held back (R490). -/
def Hub.vetoWrite (h : Hub) (v : W32) : Hub :=
  let h := h.setWord A.RS_VETO (v &&& 0x0000011F#32)
  let free := h.rsv.heldBack.filter fun x => !h.vetoed x.1
  let h := { h with rsv := { h.rsv with heldBack := h.rsv.heldBack.filter fun x => h.vetoed x.1 } }
  each free h fun x h => if x.1 = kLine then h.startPrep kLine x.2 (1 - x.2 % 2) true else h.needSpare x.1 x.2

/-- FAULT_REPORT. Detectors' reports of one CK640 cycle of the slot reach the Goose, which takes them in the order of R466. -/
def execFaultReport (r : CycleReports) (s : State) : Host.Outcome State Fault Refusal :=
  .next { s with hub :=
    if s.hub.start.held then s.hub
    else ((each r.reports s.hub fun x h => h.report x).reportsTaken r.cycle.val s.hub.goose.found.length).refreshDegr }

/-- GS_UNFENCE. A write of a UNIT in SETUP lifts its fence or retirement (R476); in every other mode it is rejected (R9). -/
def execGsUnfence (u : BitVec 16) (s : State) : Host.Outcome State Fault Refusal :=
  .next { s with hub := if s.hub.mode = mSetup then s.hub.unfence u.toNat else s.hub }

/-- RS_VETO_WRITE. A write to RS_VETO that clears a bit starts the replacements it held back (R490). -/
def execRsVetoWrite (v : W32) (s : State) : Host.Outcome State Fault Refusal :=
  .next { s with hub := s.hub.awake (s.hub.vetoWrite v) }

end Sys2Proof.Machine
end

