-- ==== Sys2Proof/Machine/Rooster.lean ====
section
/-! DEFINITION. The Rooster: crystals and bands, the slot counters, the place on the grid, holdover and its HEALTH items,
votes and counter clears (02_time_and_the_rooster.md). The commands are at the end. -/

namespace Sys2Proof.Machine

/-! ### The timing lane -/

/-- The timing lane (R48). -/
def Hub.timingLane (h : Hub) : Option Nat :=
  (h.parentsOf h.portInForce).find? fun l => h.flag F.RT_LANE_VALID l

/-! ### Lengths -/

/-- CK2G56 period in 2^-18 ns: the coarse weight W of R102 with its 8 fraction bits; 64 of them make a slot (R104). -/
def Hub.coarseW (h : Hub) : Nat :=
  (roundDiv ((10 ^ 9 * 2 ^ 18 : Nat) : Int) (64 * max 1 (h.fld F.RT_BCFREQ_FREQ 0))).toNat

/-- Slot length in 2^-18 ns. -/
def Hub.slotLen18 (h : Hub) : Nat := 64 * h.coarseW

/-- RT_TNSINC.INC for the programmed bunch clock (R43). -/
def Hub.tnsInc (h : Hub) : Nat :=
  (roundDiv ((10 ^ 9 * 2 ^ 24 : Nat) : Int) (16 * max 1 (h.fld F.RT_BCFREQ_FREQ 0))).toNat

/-- Decode latency of the fast-command path in 10^-2 ns at 40.000 MHz, by the rate of the parent lanes (R57, R66). -/
def fcLatency (rate : Nat) : Nat := if rate = 1 then 1797 else if rate = 2 then 2656 else 1367

/-- DEC_SLOTS for the timing lane (R57): D is an absolute time, the latency is a figure that scales with the slot (R11). DESIGN
CHOICE: the spec says nothing of it while there is no timing lane; the model takes 0 (notes/assumptions/68.md). -/
def Hub.decSlots (h : Hub) : Nat :=
  match h.timingLane with
  | none => 0
  | some l => ceilDiv (h.fld F.RT_LANE_D l * h.fld F.RT_BCFREQ_FREQ 0 * 2500 + fcLatency (h.laneRate l) * 1024 * 10 ^ 9)
      (1024 * 10 ^ 9 * 2500)

/-- The largest round trip in 2^-10 ns: 16,000 ns at 40.000 MHz, a figure that scales with the slot (R11, R47). -/
def Hub.rttLimit (h : Hub) : Int := (16000 * 1024 * 40000000 / max 1 (h.fld F.RT_BCFREQ_FREQ 0) : Nat)

/-- RT_LANE(n).VALID: PARENT, framed, echoed and within R47, once the lane has been measured. The round trip that counts is the measured
one, which RT_RTT shows in 24 bits. -/
def Hub.laneValid (h : Hub) (l : Nat) : Bool :=
  h.role l == roleParent && h.framed l && (h.lane l).echoed && (h.lane l).averaged && decide ((h.lane l).rtt ≤ h.rttLimit)

/-! ### Reference -/

/-- RT_CLK.SRC is CRYSTAL. -/
def Hub.onCrystal (h : Hub) : Bool := h.fld F.RT_CLK_SRC 0 == 2

/-- The start has come as far as S04: the recovered clock may be the reference (R39). -/
def Hub.pastS03 (h : Hub) : Bool := h.flag F.JNL_STAT_DONE 0 || decide (4 ≤ h.fld F.JNL_STAT_STEP 0)

/-- The start has passed S02 (R571). -/
def Hub.pastS02 (h : Hub) : Bool := h.flag F.JNL_STAT_DONE 0 || decide (3 ≤ h.fld F.JNL_STAT_STEP 0)

/-- The start has passed S04. -/
def Hub.pastS04 (h : Hub) : Bool := h.flag F.JNL_STAT_DONE 0 || decide (5 ≤ h.fld F.JNL_STAT_STEP 0)

/-- The crystal is the reference: SRC at CRYSTAL, or left and no timing lane since, before S04, or in holdover (R39, R40, R607). -/
def Hub.crystalRef (h : Hub) : Bool :=
  h.onCrystal || h.rooster.leaving || h.flag F.RT_CLK_HOLDOVER 0 || !h.pastS03

/-- Both crystals are fenced. -/
def Hub.noCrystal (h : Hub) : Bool := h.fenced (unitOf 1 0) && h.fenced (unitOf 1 1)

/-- Time is lost (R40): the report names the crystal selected. -/
def Hub.timeLost (h : Hub) : Hub := h.report (mkReport 0x08 (unitOf 1 (h.fld F.RT_CLK_XO_SEL 0)))

/-- The crystal in use fails (R40). -/
def Hub.crystalFails (h : Hub) : Hub :=
  let u := unitOf 1 (h.fld F.RT_CLK_XO_SEL 0)
  let was := h.fenced u
  let h := (h.report (mkReport 0x01 u)).fenceClockPart (h.fld F.RT_CLK_XO_SEL 0)
  if !was && h.noCrystal && h.crystalRef then h.timeLost else h

/-- The VCO band in use fails (R41). `err` is the phase error measured at the switch, s32 in 2^-10 ns. -/
def Hub.bandFails (h : Hub) (err : W32) : Hub :=
  let b := h.fld F.RT_CLK_BAND 0
  if h.fenced (unitOf 1 (3 - b)) then (h.report (mkReport 0x03 (unitOf 1 (2 + b)))).setFld F.RT_CLK_LOCK 0 0
  else
    let h := (h.report (mkReport 0x02 (unitOf 1 (2 + b)))).fenceClockPart (2 + b)
    { h with rooster := { h.rooster with band := some (21, err) } }

/-! ### HEALTH items of the Rooster (R606) -/

/-- Body word 1. -/
def healthWord1 (kind lane claim dur : Nat) : W64 :=
  BitVec.ofNat 64 (kind * 2 ^ 56 + lane % 256 * 2 ^ 48 + claim % 65536 * 2 ^ 32 + dur % 2 ^ 32)

/-- Pushes a HEALTH item of the Rooster into Q30. -/
def Hub.healthItem (h : Hub) (kind lane claim dur : Nat) (theta : W32) (port ambig : Bool) : Hub :=
  h.localItem [header tHealth 0 0 h.tag.toNat 0, healthWord1 kind lane claim dur,
    BitVec.ofNat 64 (theta.toNat * 2 ^ 32 + b2n port * 65536 + b2n ambig)]

/-- The HEALTH item of a band switch, once its 20 slots have passed. DESIGN CHOICE: HKIND 03h states a phase error and no grid error, and
whether bits [55:48] then name the timing lane the spec leaves open; they do, and hold FFh only when there is none
(notes/assumptions/96.md). -/
def Hub.bandHealth (h : Hub) : Hub :=
  match h.rooster.band with
  | some (0, err) =>
    let lane := match h.timingLane with | some l => l | none => 0xFF
    { (h.healthItem 3 lane 0 0 err false false) with rooster := { h.rooster with band := none } }
  | _ => h

/-! ### The grid -/

/-- Takes a grid error, in 2^-10 ns / 125, as the one to be slewed out. -/
def Hub.setTheta (h : Hub) (theta : Int) : Hub :=
  let t := clamp (-(0x800000 * 125)) (0x7FFFFF * 125) theta
  ({ h with rooster := { h.rooster with theta := t } }).setS F.RT_OFFSET_THETA 0 (roundDiv t 125)

/-- The grid error of a lane now: that of its last average less what the grid has been moved since (R50). -/
def Hub.thetaOf (h : Hub) (l : Nat) : Int := (h.lane l).theta - h.rooster.moved

/-- The grid is moved in one step by a grid error, and is placed (R49). -/
def Hub.stepGrid (h : Hub) (theta : Int) : Hub :=
  ({ h with rooster := { h.rooster with moved := h.rooster.moved + theta } }.setFld F.RT_CLK_GRID 0 1).setTheta 0

/-- The grid follows the timing lane: while GRID is 0 it is placed with a step, and then the error of the lane is slewed out
(R49, R50). On the crystal and in holdover nothing drives it. -/
def Hub.drivesGrid (h : Hub) (l : Nat) : Hub :=
  if h.onCrystal || h.flag F.RT_CLK_HOLDOVER 0 || !h.pastS03 then h
  else if h.flag F.RT_CLK_GRID 0 then h.setTheta (h.thetaOf l) else h.stepGrid (h.thetaOf l)

/-- VALID, the TIMING mark and the ages that follow from the timing lane (R48, R57). When the timing lane changes, the grid goes on
from the error of the new one (R50); a timing lane takes the reference over from a crystal that SRC has left (R607). -/
def Hub.refreshAges (h : Hub) : Hub :=
  let h := each ((upto 24).filter fun l => h.flag F.RT_LANE_VALID l != h.laneValid l) h fun l h =>
    h.setFlag F.RT_LANE_VALID l (h.laneValid l)
  let new := h.timingLane
  let moved := (upto 24).filter fun l => h.flag F.RT_LANE_TIMING l != (new == some l)
  let h := each moved h fun l h => h.setFlag F.RT_LANE_TIMING l (new == some l)
  let d := h.decSlots
  let a := h.fld F.RT_FCCFG_UP_AGE 0 + d
  let h := ((h.setFld F.RT_AGE_DEC_SLOTS 0 d).setFld F.RT_AGE_FC_AGE 0 a).setFld F.RT_AGE_FWD_AGE 0 (a + 1)
  match new with
  | none => h
  | some l =>
    let h := if h.onCrystal then h else { h with rooster := { h.rooster with leaving := false } }
    if moved.isEmpty && h.flag F.RT_CLK_GRID 0 then h else h.drivesGrid l

/-- One slot of slewing, 1 ps, while there is a timing lane (R48, R49). -/
def Hub.slew (h : Hub) : Hub :=
  let t := h.rooster.theta
  let d := clamp (-128) 128 t
  if t = 0 || h.flag F.RT_CLK_HOLDOVER 0 || h.timingLane.isNone then h
  else { h with rooster := { h.rooster with moved := h.rooster.moved + d } }.setTheta (t - d)

/-- A grid error modulo one slot, between minus and plus half a slot. -/
def Hub.foldTheta (h : Hub) (t : Int) : Int :=
  let l : Int := (h.slotLen18 / 256 : Nat)
  if l = 0 then t else (t + l / 2) % l - l / 2

/-- Transmit and receive path delays of a lane, as last measured (R460). -/
def Hub.txDelay (h : Hub) (l : Nat) : Int := signed 16 (h.bankWord (qualKey 2 l 1)).toNat
def Hub.rxDelay (h : Hub) (l : Nat) : Int := signed 16 ((h.bankWord (qualKey 2 l 1)).toNat / 65536)

/-- One-way delay of a PARENT lane for a round trip, with the asymmetry constants of its port (R46). -/
def Hub.oneWay (h : Hub) (l : Nat) (rtt : Int) : Int :=
  let port := h.lanePort l
  roundDiv (rtt - h.sfld F.RT_TX_ASYM_V port - h.sfld F.RT_RX_ASYM_V port) 2

/-- One echo of a PARENT lane joins its average: the round trip, and the arrival phase of the downlink frame at the balls
(R46, R460). -/
def Hub.sample (h : Hub) (l : Nat) (rtt ac : Int) : Hub :=
  let x := h.lane l
  h.setLane l { x with avgN := x.avgN + 1, avgRtt := x.avgRtt + rtt, avgTheta := x.avgTheta + h.foldTheta (ac - h.oneWay l rtt) }

/-- The average of a PARENT lane is complete (R46): RTT, D and the grid error follow from the echoes since the last one; without any
nothing is known anew. -/
def Hub.laneAverages (h : Hub) (l : Nat) : Hub :=
  let x := h.lane l
  if h.role l ≠ roleParent || x.avgN = 0 then h
  else
    let rtt := roundDiv x.avgRtt x.avgN
    let theta := roundDiv (x.avgTheta * 125) x.avgN
    let h := (h.setFld F.RT_RTT_RTT l (satU 24 rtt)).setFld F.RT_LANE_D l (satU 24 (h.oneWay l rtt))
    h.setLane l { x with
      avgN := 0, avgRtt := 0, avgTheta := 0, rtt := rtt, averaged := true, fresh := true, theta := theta + h.rooster.moved }

/-- The HEALTH item of a new master, with its first averaged grid error (R54, R606). -/
def Hub.masterHealth (h : Hub) (l : Nat) (theta : Int) : Hub :=
  if h.rooster.newMaster && !h.onCrystal then
    let h := h.healthItem 2 l h.rooster.claim.toNat 0 (BitVec.ofInt 32 theta) (h.portInForce == 1) false
    { h with rooster := { h.rooster with newMaster := false } }
  else h

/-- A 256-slot average of a PARENT lane is complete (R46-R49, R54). In holdover the error waits for HOLDOVER_END. -/
def Hub.thetaAverage (h : Hub) (l : Nat) : Hub :=
  if h.role l ≠ roleParent || (h.lane l).avgN = 0 then h
  else
    let h := h.laneAverages l
    let theta := roundDiv (h.thetaOf l) 125
    let h := h.refreshAges
    if h.timingLane = some l && !h.flag F.RT_CLK_HOLDOVER 0 then (h.drivesGrid l).masterHealth l theta else h

/-- Entry to holdover (R51), once the start has passed S04: without a crystal left, time is lost (R40). -/
def Hub.holdoverEntry (h : Hub) : Hub :=
  if 2 ≤ h.rooster.noFrame && h.pastS04 && !h.flag F.RT_CLK_HOLDOVER 0 && !h.onCrystal then
    let h := (h.setFld F.RT_CLK_HOLDOVER 0 1).attn aTime
    let h := { h with rooster := { h.rooster with backAt := none } }
    if h.noCrystal then h.timeLost else h
  else h

/-- End of holdover with the first averaged grid error of the timing lane (R52, R53). -/
def Hub.holdoverEnd (h : Hub) : Hub :=
  match h.rooster.backAt, h.timingLane with
  | some back, some l =>
    let h' := (h.laneAverages l).refreshAges
    if h.flag F.RT_CLK_HOLDOVER 0 && h'.timingLane = some l && (h'.lane l).fresh then
      let theta := roundDiv (h'.thetaOf l) 125
      let dur := slotsFrom h'.rooster.lossAt back
      let ambig := 7600000 < dur
      let h := (h'.setFld F.RT_HOLDDUR_V 0 (min 0xFFFFFFFF dur)).setWord A.RT_HOLDERR (BitVec.ofInt 32 theta)
      let h := if ambig then h.setFld F.RT_CLK_AMBIG 0 1 else h
      let h := h.setFld F.RT_CLK_HOLDOVER 0 0
      let h := h.healthItem 1 l 0 (min 0xFFFFFFFF dur) (BitVec.ofInt 32 theta) false (h.flag F.RT_CLK_AMBIG 0)
      ({ h with rooster := { h.rooster with backAt := none, noFrame := 0 } }).drivesGrid l
    else h
  | _, _ => h

/-- Averages start anew as framing returns in holdover: the first of them ends it (R52). -/
def Hub.averagesAnew (h : Hub) : Hub :=
  each h.parents h fun l h => h.setLane l { h.lane l with avgN := 0, avgRtt := 0, avgTheta := 0, fresh := false }

/-- One slot of the framing watch (R26, R51, R52). -/
def Hub.watchFraming (h : Hub) : Hub :=
  let here := (h.parentsOf h.portInForce).any fun l => h.framed l
  let any := h.parents.any fun l => h.framed l
  let back := here && h.flag F.RT_CLK_HOLDOVER 0 && h.rooster.backAt.isNone
  let r := h.rooster
  let r := { r with noParent := if any then 0 else r.noParent + 1 }
  let r := if here then { r with noFrame := 0, backAt := if back then some (h.slot - 1#48) else r.backAt }
    else { r with noFrame := r.noFrame + 1, lossAt := if r.noFrame = 0 && !h.flag F.RT_CLK_HOLDOVER 0 then h.slot - 1#48 else r.lossAt }
  let h := { h with rooster := r }
  (if back then h.averagesAnew else h).refreshAges

/-- A change of RT_CLK.SRC (R607). Time is lost when the reference then is a crystal, and both are fenced (R40). -/
def Hub.clockSource (h : Hub) (src : Nat) : Hub :=
  let was := h.onCrystal
  let h := h.setFld F.RT_CLK_SRC 0 src
  if h.onCrystal then
    let h := { ((h.setFld F.RT_CLK_HOLDOVER 0 0).setFld F.RT_CLK_GRID 0 1).setTheta 0 with
      rooster := { (h.setTheta 0).rooster with leaving := false, backAt := none } }
    if !was && h.noCrystal then h.timeLost else h
  else if was then
    let h := (h.setFld F.RT_CLK_GRID 0 0).setFld F.RT_CLK_AMBIG 0 0
    { h with rooster := { h.rooster with leaving := h.timingLane.isNone } }
  else h

/-- REGRID (R49): the grid is placed again with a step. It does nothing while SRC is CRYSTAL (R607). -/
def Hub.regrid (h : Hub) : Hub :=
  if h.onCrystal then h else (h.setFld F.RT_CLK_GRID 0 0).setFld F.RT_CLK_AMBIG 0 0

/-! ### Counting time -/

/-- SLOT_COUNT, TIME_NS and POS advance by one slot, once the root PLL has locked (R42, R43, R605). DESIGN CHOICE: where RT_ORBIT.LEN
has been written at or below POS the spec names no end of the orbit; POS returns to 0 at the next boundary
(notes/assumptions/70.md). -/
def Hub.tick (h : Hub) : Hub :=
  if h.rooster.counting then
    let h := h.setSlot (h.slot + 1#48)
    let acc := h.fld F.RT_TIME_NS_NS 0 * 2 ^ 24 + h.rooster.frac.toNat + 16 * h.fld F.RT_TNSINC_INC 0
    let h := h.setFld F.RT_TIME_NS_NS 0 (acc / 2 ^ 24 % 2 ^ 32)
    let h := { h with rooster := { h.rooster with frac := BitVec.ofNat 24 acc } }
    let pos := h.fld F.RT_ORBIT_POS 0 + 1
    h.setFld F.RT_ORBIT_POS 0 (if pos < h.fld F.RT_ORBIT_LEN 0 then pos else 0)
  else h

/-- Clears one counter word. -/
def Hub.clearCounter (h : Hub) (a : Nat) : Hub := h.setWord a 0

/-- What the bits written as 1 to a CNTCLR register clear (R8). -/
def Hub.clearBy (h : Hub) (addr : Nat) (v : W32) : Hub :=
  let b (k : Nat) : Bool := bit v.toNat k
  let run (n base : Nat) : Hub := forN n h fun k h => if b k then h.clearCounter (base + k) else h
  if addr = A.RT_CNTCLR then run 6 0x1030
  else if addr = A.FE_CNTCLR then
    let h := if b 0 then forN 512 h fun c h => h.clearCounter (F.FE_DISCCNT_COUNT.addr c) else h
    if b 1 then h.clearCounter A.FE_INJSKIP else h
  else if addr = A.TDC_CNTCLR then
    let h := if b 0 then forN 512 h fun c h => h.clearCounter (F.TDC_PILECNT_COUNT.addr c) else h
    if b 1 then forN 512 h fun c h => h.clearCounter (F.TDC_DEADCNT_COUNT.addr c) else h
  else if addr = A.CHN_CNTCLR then
    let h := if b 0 then forN 512 h fun c h => h.clearCounter (F.CH_SATCNT_COUNT.addr c) else h
    if b 1 then forN 512 h fun c h => h.clearCounter (F.CH_EDGECNT_COUNT.addr c) else h
  else if addr = A.ACQ_CNTCLR then run 9 0x10010
  else if addr = A.MULE_CNTCLR then run 4 0x7008
  else if addr = A.CMP_CNTCLR then run 6 0x7408
  else if addr = A.HEN_CNTCLR then
    let h := forN 2 h fun k h => if b k then h.clearCounter (0x4008 + k) else h
    forN 16 h fun k h => if b (2 + k) then h.clearCounter (0x4018 + 16 * (k / 4) + k % 4) else h
  else if addr = A.CP_CNTCLR then
    let h := forN 4 h fun k h => if b k then h.clearCounter (0x408 + k) else h
    let h := forN 11 h fun k h => if b (4 + k) then h.clearCounter (0x410 + k) else h
    if b 15 then (h.setWords A.PV_LOG (List.replicate 32 0)).setWord A.PV_HEAD 0 else h
  else if addr = A.GS_CNTCLR then
    let h := forN 4 h fun k h => if b k then h.clearCounter (0x814 + k) else h
    if b 4 then forN 256 h fun k h => h.clearCounter (0x900 + k) else h
  else if addr = A.CAL_CNTCLR then run 3 0x60890
  else if addr = A.RS_CNTCLR then run 4 0x63008
  else if addr = A.TW_CNTCLR then run 5 0x62208
  else if addr = A.MON_CNTCLR then run 4 0x61008
  else if addr = A.ILK_CNTCLR then run 4 0x62008
  else if addr = A.TT_CNTCLR then
    let h := run 2 0x62104
    h.setFld F.TT_STAT_REJCNT 0 (h.fld F.TT_REJCNT_COUNT 0 % 16)
  else if 0x20000 ≤ addr && addr < 0x42000 && addr % 8192 = 0x180F then
    let h := forN 4 h fun k h => if b k then h.clearCounter (addr - 7 + k) else h
    if b 4 then h.setFld F.OX_CYC_MAX ((addr - 0x20000) / 8192) 0 else h
  else if 0x6000 ≤ addr && addr < 0x6800 && addr % 64 = 7 then
    let h := forN 3 h fun k h => if b k then h.clearCounter (addr - 5 + k) else h
    if b 3 then h.setFld F.Q_HWM_HWM ((addr - 0x6000) / 64) 0 else h
  else if 0x2000 ≤ addr && addr < 0x3800 && addr % 256 = 0xF then run 7 (addr - 7)
  else h

/-- The packet that executes sees the clears that it has written itself (R443). -/
def Hub.clearsSeen (h : Hub) : Hub :=
  match h.pk.cur with
  | none => h
  | some x =>
    if x.clears.isEmpty then h
    else
      let view := (each x.clears { h with regs := x.view } fun c h => h.clearBy c.1 c.2).regs
      { h with pk := { h.pk with cur := some { x with view := view, clears := [] } } }

/-- The clears written before this boundary act. -/
def Hub.clearsAct (h : Hub) : Hub :=
  let l := h.rooster.clears
  (each l { h with rooster := { h.rooster with clears := [] } } fun c h => h.clearBy c.1 c.2).clearsSeen

/-- A write of 1 to bits of a CNTCLR register, which acts at the next boundary (R8). -/
def Hub.clearLater (h : Hub) (addr : Nat) (v : W32) : Hub :=
  { h with rooster := { h.rooster with clears := h.rooster.clears ++ [(addr, v)] } }

/-! ### Commands -/

/-- CRYSTAL_FAIL. The crystal in use departs by more than 100 ppm or stops (R40). -/
def execCrystalFail (s : State) : Host.Outcome State Fault Refusal :=
  .next { s with hub := s.hub.awake (s.hub.settled s.hub.crystalFails).refreshDegr }

/-- BAND_FAIL. The VCO band in use loses lock or trips its amplitude detector (R41). -/
def execBandFail (err : W32) (s : State) : Host.Outcome State Fault Refusal :=
  .next { s with hub := s.hub.awake (s.hub.settled (s.hub.bandFails err)).refreshDegr }

/-- VCO_BAND_LOCKS_AGAIN. A band locks again, and the cause of BAND_LOST stands no longer (R481). No slots measured what the interlock timed
meanwhile (R569). -/
def execVcoBandLocksAgain (band : Bool) (s : State) : Host.Outcome State Fault Refusal :=
  let h := s.hub
  let h := { h with
    goose := { h.goose with standing := h.goose.standing.filter fun c => c != 0x03 }
    ilk := { h.ilk with gap := 15 } }
  .next { s with hub := s.hub.awake (if h.fld F.RT_CLK_BAND 0 = b2n band then h.setFld F.RT_CLK_LOCK 0 1 else h) }

/-- BAND_SWITCH_HEALTH. Twenty slots after a band switch the Rooster pushes its HEALTH item (R606). -/
def execBandSwitchHealth (s : State) : Host.Outcome State Fault Refusal := .next { s with hub := s.hub.bandHealth }

/-- THETA_AVERAGE. A 256-slot average of a PARENT lane is complete, over the echoes that its frames brought (R46, R366): the command names
the port of the lane and how many they are, and none but that one can complete (notes/assumptions/7.md). -/
def execThetaAverage (l : Fin 24) (port : Fin 2) (echoes : Nat) (s : State) : Host.Outcome State Fault Refusal :=
  .next { s with hub :=
    if s.hub.lanePort l == port.val && (s.hub.lane l).avgN == echoes then s.hub.thetaAverage l.val else s.hub }

/-- HOLDOVER_ENTRY. Two slots without framing on the port in force (R51). -/
def execHoldoverEntry (s : State) : Host.Outcome State Fault Refusal := .next { s with hub := s.hub.settled s.hub.holdoverEntry }

/-- HOLDOVER_END. Framing is back and the first averaged grid error of the timing lane is ready (R52): the command names that lane
and the port in force, and no other holdover can end (notes/assumptions/7.md). -/
def execHoldoverEnd (l : Fin 24) (port : Fin 2) (s : State) : Host.Outcome State Fault Refusal :=
  .next { s with hub :=
    if s.hub.timingLane = some l.val && s.hub.portInForce == port.val then s.hub.holdoverEnd else s.hub }

/-- CLOCK_SOURCE_WRITE. A write of RT_CLK.SRC, a SETUP-only register (R9, R607). -/
def execClockSourceWrite (src : BitVec 2) (s : State) : Host.Outcome State Fault Refusal :=
  .next { s with hub := if s.hub.mode = mSetup then s.hub.settled (s.hub.clockSource src.toNat) else s.hub }

/-- REGRID. Writing 1 to RT_CLK.REGRID, in SETUP (R9, R49). -/
def execRegrid (s : State) : Host.Outcome State Fault Refusal :=
  .next { s with hub := if s.hub.mode = mSetup then s.hub.regrid else s.hub }

/-- VOTE_FIX. One copy of a voted register disagrees (R68). -/
def execVoteFix (addr : W24) (s : State) : Host.Outcome State Fault Refusal :=
  .next { s with hub := s.hub.awake (s.hub.settled <|
    (s.hub.bump F.RT_VOTEFIX_COUNT 0).report { mkReport 0x04 (unitOf 1 4) with addr := addr }) }

/-- VOTE_FAIL. All three copies of a voted register disagree (R69). DESIGN CHOICE: what the register holds then the spec does not
say; it keeps its value (notes/assumptions/69.md). -/
def execVoteFail (addr : W24) (s : State) : Host.Outcome State Fault Refusal :=
  .next { s with hub := s.hub.settled <| s.hub.report { mkReport 0x05 (unitOf 1 4) with addr := addr } }

/-- COUNTER_CLEAR. A write of 1s to a CNTCLR register acts at the next slot boundary (R8). -/
def execCounterClear (addr : W24) (v : W32) (s : State) : Host.Outcome State Fault Refusal :=
  .next { s with hub := s.hub.awake (s.hub.clearLater addr.toNat v) }

end Sys2Proof.Machine
end

