-- ==== Sys2Proof/Machine/Front.lean ====
section
/-! DEFINITION. Front ends and time digitisers: powering, the discriminator, crossings and hits
(03_sensor_channel_front_end.md, 04_time_digitisers.md). The commands are at the end. -/

namespace Sys2Proof.Machine

/-- Powering of a front end (R70): one that is powered up settles first (R71). -/
def Hub.fePower (h : Hub) (c : Nat) : Hub :=
  let on := h.flag F.FE_CFG_EN c && h.mode != mUnloaded && !h.parked
  let h := h.setFlag F.FE_STAT_PARKED c h.parked
  if on then
    if h.flag F.FE_STAT_PWR c then h else h.setFld F.FE_STAT_SETTLING c 1
  else ((h.setFld F.FE_STAT_PWR c 0).setFld F.FE_STAT_SETTLING c 0).refreshTdc c

/-- Powering of every front end. -/
def Hub.fePowerAll (h : Hub) : Hub := forN 512 h fun c h =>
  if h.flag F.FE_CFG_EN c || h.flag F.FE_STAT_PWR c || h.flag F.FE_STAT_SETTLING c || h.parked || h.flag F.FE_STAT_PARKED c then
    h.fePower c
  else h

/-! ### What the calibration engine sets in place of the registers (R449) -/

/-- Word `w` of the quality window of a unit: kind 0 digitiser slot, 1 channel, 2 lane, 3 group. -/
def Hub.qual (h : Hub) (kind ix w : Nat) : Nat := (h.bankWord (qualKey kind ix w)).toNat

/-- Crossings of a channel in `n` steps of THRESH from step `first` on. -/
def Hub.stepCounts (h : Hub) (c first n : Nat) : List Nat :=
  (upto n).map fun i => Store.get (fun _ => 0) h.cal.counts (256 * c + first + i)

/-- Where the share num / den of crossings lies, in 2^-8 GTHR steps, by linear interpolation between the two steps that bracket it;
`base` is GTHR of the first step, and crossings become fewer as GTHR rises (R454). -/
def crossAt (counts : List Nat) (base : Int) (num den : Nat) : Option Int :=
  ((counts.zip (counts.drop 1)).zipIdx.find? fun e => decide (num ≤ e.1.1 * den) && decide (e.1.2 * den < num)).map fun e =>
    (base + e.2) * 256 + roundDiv ((256 * (e.1.1 * den - num) : Nat) : Int) ((e.1.1 - e.1.2) * den)

/-- INJG of a channel, u2.14: the figure published, or in PROC Fh, once its INJ has ended, what that found (R452, R454). -/
def Hub.injg (h : Hub) (c : Nat) : Nat :=
  if h.flag F.CAL_STAT_BUSY 0 && h.cal.proc == 15 && 5 ≤ h.cal.part && h.cal.gmask.getLsbD (c / 32) then
    Store.get (fun _ => 0) h.cal.injg c
  else h.qual 1 c 1 / 65536

/-- GTHR at which the first sweep of THRESH begins: round(64 Q) - 64, Q = 4.0 fC × INJG (R454). -/
def Hub.sweepBase (h : Hub) (c : Nat) : Int := roundDiv (h.injg c) 64 - 64

/-- g50 of the first sweep, in 2^-8 GTHR steps; none outside the sweep (R454). -/
def Hub.firstG50 (h : Hub) (c : Nat) : Option Int := crossAt (h.stepCounts c 0 128) (h.sweepBase c) 128 1

/-- The residual Q - g50 / 64 in 2^-14 fC: INJG is in 2^-14, Q = 4.0 fC × INJG, and g50 is in 2^-8 GTHR steps (R454, R455). -/
def thrResidual (injg : Nat) (g50 : Int) : Int := (4 * injg : Nat) - g50

/-- The proposed TRIM of R454. -/
def trimProposal (injg : Nat) (g50 : Int) : Int := clamp (-32) 31 (roundDiv (-(thrResidual injg g50)) 512)

/-- GTHR at which the sweep at a tap begins: 16 steps around the expected point, eight of them below it (R455). TRIM moves the point by
two steps a tap (R74). -/
def tapBase (g50 t : Int) : Int := roundDiv g50 256 - 2 * t - 8

/-- GTHR and TRIM in force for a channel: the registers, or what THRESH sets at the step it is at (R449, R454, R455). -/
def Hub.thresholds (h : Hub) (c : Nat) : Int × Int :=
  let own := ((h.fld F.FE_GTHR_GTHR 0 : Int), h.sfld F.FE_THR_TRIM c)
  if h.calPart (c / 32) = 7 then
    let step := (h.cal.fired - 1) / 256
    if step < 128 then (h.sweepBase c + step, 0)
    else match h.firstG50 c with
      | none => own
      | some g =>
        let t := trimProposal (h.injg c) g - 1 + (((step - 128) / 16 : Nat) : Int)
        (tapBase g t + (((step - 128) % 16 : Nat) : Int), t)
  else own

/-- Threshold of a channel in 1/64 fC, without its own offset (R74). -/
def Hub.threshold (h : Hub) (c : Nat) : Int := max 0 ((h.thresholds c).1 + 2 * (h.thresholds c).2)

/-- Range mode in force for a channel: INJ and GAIN force HG, RATIO alternates HG and LG (R449). -/
def Hub.rangeMode (h : Hub) (c : Nat) : Nat :=
  let part := h.calPart (c / 32)
  if part = 4 || part = 5 then 1
  else if part = 6 then (if (h.cal.fired - 1) % 2 = 0 then 1 else 2)
  else h.fld F.FE_CFG_RANGE c

/-- CTLE in force on a lane: LANE_RX sets each value in turn, in a sixteenth of its 3 ms (R449, R458). -/
def Hub.ctle (h : Hub) (l : Nat) : Nat :=
  if h.flag F.CAL_STAT_BUSY 0 && h.cal.part == 10 && h.cal.lane == l then min 15 (h.cal.ticks / 7500) else h.fld F.LN_RX_CTLE l

/-- A crossing in a step of THRESH is counted for it (R454). -/
def Hub.stepCrossing (h : Hub) (c : Nat) : Hub :=
  if h.calPart (c / 32) = 7 && h.cal.fired != 0 then
    let k := 256 * c + (h.cal.fired - 1) / 256
    { h with cal := { h.cal with counts := Store.set (fun _ => 0) h.cal.counts k (Store.get (fun _ => 0) h.cal.counts k + 1) } }
  else h

/-! ### Times and hits -/

/-- Raw time of a crossing in 2^-18 ns from its slot boundary (R102). -/
def Hub.rawTime (h : Hub) (p : Nat) (line : Bool) (coarse fine : Nat) : Int :=
  let lut := bits (h.bankWord (lutKey p line fine)).toNat 8 0
  let ofs := signed 10 (h.bankWord (lineOfsKey p line)).toNat
  coarse * h.coarseW + ((lut : Int) + ofs) * 256

/-- Slot `s`, if it has begun, began in a running mode (R114). -/
def Hub.beganRunning (h : Hub) (s : W48) : Bool :=
  (match h.rooster.runFrom with
    | some f => reached s f
    | none => false) &&
  (match h.rooster.runTo with
    | some t => !reached s t
    | none => true)

/-- Hits and their counters move now, in a running mode, for a slot that has begun in one (R114). -/
def Hub.hitsCount (h : Hub) (s : W48) : Bool :=
  !h.parked && h.running && h.beganRunning s && reached h.slot s

/-- A crossing without a time digitiser: seen and dropped (R96, R300, R608). -/
def Hub.lostCrossing (h : Hub) : Hub :=
  if h.hitsCount h.slot then (h.ledAdd 0 1).ledAdd 3 1 else h

/-- A crossing during dead time (R110, R111). -/
def Hub.deadCrossing (h : Hub) (c : Nat) : Hub :=
  if h.hitsCount h.slot then
    let h := ((h.ledAdd 0 1).ledAdd 4 1).ledAdd 3 1
    let h := (h.bump F.TDC_DEADCNT_COUNT c).bump F.TDC_PILECNT_COUNT c
    { h with dead := (c, h.slot) :: h.dead }
  else h

/-- Largest integer below the slot length, in 2^-10 ns (R104). -/
def Hub.toaMax (h : Hub) : Nat := ceilDiv h.slotLen18 256 - 1

/-- Slot and time of arrival of a corrected time counted from slot `s` (R104). -/
def Hub.placeHit (h : Hub) (s : W48) (tc : Int) : W48 × Nat :=
  let l18 : Int := h.slotLen18
  if tc < 0 then (s - 1#48, (clamp 0 h.toaMax (roundDiv (tc * 256 + l18) 256)).toNat)
  else if tc * 256 < l18 then (s, tc.toNat)
  else (s + 1#48, (clamp 0 h.toaMax (roundDiv (tc * 256 - l18) 256)).toNat)

/-- A rising crossing is measured: its hit is assigned to its slot and counted, in flight from then on (R111, R115). Of three or more of
a channel in one slot the two earliest carry words. One that is assigned to the next slot waits for that slot to begin. -/
def Hub.addHit (h : Hub) (x : Hit) : Hub :=
  if h.hitsCount x.slot then
    let same := h.hits.filter fun y => y.ch == x.ch && y.slot == x.slot
    let h := h.ledAdd 0 1
    let h := if same.isEmpty then h else (h.ledAdd 4 1).bump F.TDC_PILECNT_COUNT x.ch
    if same.length < 2 then ({ h with hits := h.hits ++ [x] }).ledAdd 0x10 1
    else
      let kept := (sortBy (fun y => y.toa) (same ++ [x])).take 2
      ({ h with hits := (h.hits.filter fun (y : Hit) => !(y.ch == x.ch && y.slot == x.slot)) ++ kept }).ledAdd 3 1
  else if h.running && !reached h.slot x.slot then { h with early := h.early ++ [x] }
  else h

/-- A hit is complete: it takes its TOT (R107, R108). -/
def Hub.setTot (h : Hub) (y : Hit) : Hub :=
  let put (z : Hit) : Hit :=
    if z.ch == y.ch && z.slot == y.slot && z.toa == y.toa && z.base == y.base && z.k0 == y.k0 then { z with tot := y.tot } else z
  { h with hits := h.hits.map put, early := h.early.map put }

/-- The slot that opens has begun, and its mode is known: hits assigned to it count, or are not seen (R114). -/
def Hub.earlyHits (h : Hub) : Hub := each h.early { h with early := [] } fun x h => if h.running then h.addHit x else h

/-- State of a channel's time digitiser. -/
def Hub.tdcOf (h : Hub) (c : Nat) : Tdc := Store.get (fun _ => {}) h.tdc c

/-- Puts the state of a channel's time digitiser. -/
def Hub.setTdc (h : Hub) (c : Nat) (x : Tdc) : Hub := { h with tdc := Store.set (fun _ => ({} : Tdc)) h.tdc c x }

/-- The hit of a pulse with its TOT. Its amplitude window counts from the first sample at or after the crossing, with the
digitiser slot's TAP (R112, R124). -/
def Hub.hitOf (h : Hub) (c : Nat) (x : Pulse) (tot : Nat) : Hit :=
  let place := h.placeHit x.slot x.tc
  let quarter : Int := max 1 (h.slotLen18 / 4)
  let tap : Int := (h.fld F.ADC_PHASE_TAP x.p : Int) * h.slotLen18 / 256
  let k0 := -((-(x.rise - tap)) / quarter)
  { ch := c, slot := place.1, toa := place.2, tot := tot, base := x.slot, k0 := k0, spare := x.p % 34 != c % 32 }

/-- TOT of a pulse whose falling crossing has the raw time `fall`, both in 2^-18 ns (R107, R108). -/
def totOf (rise fall : Int) : Nat :=
  if 32760 * 256 < fall - rise then 0xFFF else (clamp 0 0xFFF (roundDiv (fall - rise) 2048)).toNat

/-- A rising crossing that the discriminator passes reaches the serving time digitiser (R101-R111), whose standby line latches its own
fine bin `stby` (R117). The 5.0 ns of dead time are a fifth of a slot (R11, R110). -/
def Hub.rising (h : Hub) (c coarse fine stby : Nat) : Hub :=
  match h.liveSlot c with
  | none => h.lostCrossing
  | some p =>
    if !h.flag F.TDC_CFG_EN c || !h.flag F.TDC_STAT_ACTIVE c then h.lostCrossing
    else
      let line := h.flag F.RS_DSLOT_LINE p
      let t := h.rawTime p line coarse fine
      let h := h.setTdc c { h.tdcOf c with stbyRise := BitVec.ofNat 7 stby }
      let x := h.tdcOf c
      let close := match x.lastFall with
        | some (s, f) => 5 * (circ 48 h.slot.toNat s.toNat * h.slotLen18 + t - f) < (h.slotLen18 : Int)
        | none => false
      if x.pulse.isSome || x.overLong || close then h.deadCrossing c
      else
        let tc := roundDiv (t + h.sfld F.TDC_OFS_OFS c * 256) 256
        let tot := h.flag F.TDC_CFG_TOT_EN c
        let pulse : Pulse := { slot := h.slot, rise := t, tc := tc, p := p, line := line, tot := tot, done := !tot }
        (h.setTdc c { x with pulse := some pulse }).addHit (h.hitOf c pulse 0)

/-- The falling crossing of a passed pulse (R107, R108), measured by the line that measured its rise (R119). -/
def Hub.falling (h : Hub) (c coarse fine stby : Nat) : Hub :=
  let x := h.tdcOf c
  let done (t : Int) : Tdc :=
    { pulse := none, lastFall := some (h.slot, t), overLong := false, stbyRise := x.stbyRise, stbyFall := BitVec.ofNat 7 stby }
  match x.pulse with
  | some p =>
    let t := h.rawTime p.p p.line coarse fine
    let fall := circ 48 h.slot.toNat p.slot.toNat * h.slotLen18 + t
    let h := h.setTdc c (done t)
    if p.done then h else h.setTot (h.hitOf c p (totOf p.rise fall))
  | none =>
    if x.overLong then h.setTdc c (done (h.rawTime x.longP x.longLine coarse fine)) else h

/-- No falling crossing within 31.99 ns (R108). -/
def Hub.totTimeout (h : Hub) (c : Nat) : Hub :=
  let x := h.tdcOf c
  match x.pulse with
  | some p =>
    let h := h.setTdc c { x with pulse := none, overLong := true, longP := p.p, longLine := p.line }
    if p.done then h else h.setTot (h.hitOf c p 0xFFF)
  | none => h

/-- A pulse at the discriminator of a channel, with its peak charge in 1/64 fC of the selected polarity, noise included and
the channel's own offset taken off (R72, R74-R77). A peak at or below the threshold makes no crossing. -/
def Hub.discriminator (h : Hub) (c coarse fine stby : Nat) (charge : Int) : Hub :=
  if h.flag F.FE_STAT_PWR c && h.threshold c < charge then
    let h := (h.bump F.FE_DISCCNT_COUNT c).stepCrossing c
    if h.flag F.FE_THR_DISC_EN c then h.rising c coarse fine stby else h
  else h

/-- A procedure that uses the injectors runs (R450): INJ to WALK, by themselves or within PROC Fh. -/
def Hub.injecting (h : Hub) : Bool := h.flag F.CAL_STAT_BUSY 0 && decide (4 ≤ h.cal.part) && decide (h.cal.part ≤ 9)

/-- Charge of a CODE in 0.5 fC (R84, R85). -/
def injectCharge (code : Nat) : Nat := max 8 (min 1000 code)

/-- The charge steps of a CAL_PULSE: of every channel that is powered and settled, with INJ_EN at 1 and a CODE that is not 0, with
the values in force (R84-R86). -/
def Hub.injects (h : Hub) : List Inject :=
  ((upto 512).filter fun c => h.flag F.FE_STAT_PWR c && h.flag F.FE_INJ_INJ_EN c && h.fld F.FE_INJ_CODE c != 0).map fun c =>
    { ch := c, charge := injectCharge (h.fld F.FE_INJ_CODE c), pol := h.flag F.FE_CFG_POL c,
      arrives := 1024 + 25 * h.fld F.FE_INJCFG_DELAY 0 }

/-- A CAL_PULSE acts (R84, R87): it fires unless one fired less than 80 slots before, or a procedure that uses the
injectors runs (R450); where both hold, both count it. What the charge does reaches the hub as crossings and samples (R89). -/
def Hub.calPulse (h : Hub) : Hub :=
  let soon := match h.rooster.lastCal with
    | some s => decide (slotsFrom s h.slot < 80)
    | none => false
  let skipped := if soon then h.bump F.FE_INJSKIP_COUNT 0 else h
  if h.injecting then skipped.bump F.CAL_FCSKIP_COUNT 0
  else if soon then skipped
  else { h with rooster := { h.rooster with lastCal := some h.slot, injected := h.injects } }

/-- Pulses of a procedure that uses the injectors (15_calibration.md, "Procedures on the channels", R454-R457). -/
def calPulses (part : Nat) : Nat :=
  if part = 4 then 32 * 512 else if part = 5 then 1024 else if part = 6 then 4 * 4096 else if part = 7 then 176 * 256
  else if part = 8 then 64 * 64 else if part = 9 then 16 * 256 else 0

/-- Slots of 25 ns that OFFSET, TDC and PHASE take within PROC Fh: 0.2 ms, 2.5 ms and 0.6 ms. -/
def calSlots (part : Nat) : Nat := if part = 1 then 8000 else if part = 2 then 100000 else 24000

/-- CODE and DELAY of pulse `k` of a procedure, and whether the group references inject (PROC 4h-9h). INJ alternates own injector and
reference; WALK spaces its 16 charges evenly. -/
def calCode (part k delay : Nat) : Nat × Nat × Bool :=
  if part = 4 then (40, delay, k % 2 == 1)
  else if part = 5 then (40, delay, true)
  else if part = 6 then (48, delay, false)
  else if part = 7 then (8, delay, false)
  else if part = 8 then (40, 4 * (k / 64), false)
  else (4 + (roundDiv ((1016 * (k / 256) : Nat) : Int) 15).toNat, delay, false)

/-- The charge steps of the engine's next pulse: on the powered and settled channels of the groups named, for INJ on one channel of
each group in turn (R450, R84-R86). -/
def Hub.calInjects (h : Hub) : List Inject :=
  let k := h.cal.fired
  let (code, delay, ref) := calCode h.cal.part k (h.fld F.FE_INJCFG_DELAY 0)
  ((upto 512).filter fun c => h.cal.gmask.getLsbD (c / 32) && h.flag F.FE_STAT_PWR c && (h.cal.part != 4 || c % 32 == k / 512)).map
    fun c => { ch := c, charge := injectCharge code, pol := h.flag F.FE_CFG_POL c, arrives := 1024 + 25 * delay, ref := ref }

/-- The INJ of PROC Fh has ended: the engine holds the INJG of every channel measured, each an open value, since the measurements come
with the end of PROC Fh (notes/assumptions/103.md). -/
def Hub.injEnds (h : Hub) : Hub :=
  each ((upto 512).filter fun c => h.cal.gmask.getLsbD (c / 32)) h fun c h =>
    { h.tookOpen with cal := { h.cal with injg := Store.set (fun _ => 0) h.cal.injg c (h.openValue.toNat % 65536) } }

/-- The procedure in progress at a slot boundary (R450): the engine fires its next pulse when 80 slots have passed since the last pulse;
within PROC Fh the next procedure begins when the one before it is over. -/
def Hub.calTick (h : Hub) : Hub :=
  let x := h.cal
  let next (h : Hub) : Hub :=
    let h := if x.part = 4 then h.injEnds else h
    { h with cal := { h.cal with part := x.part + 1, ticks := 0, fired := 0 } }
  if !h.flag F.CAL_STAT_BUSY 0 then h
  else if h.injecting then
    if h.rooster.lastCal.any fun s => decide (slotsFrom s h.slot < 80) then h
    else if x.fired < calPulses x.part then
      { h with
        rooster := { h.rooster with lastCal := some h.slot, injected := h.calInjects }
        cal := { x with fired := x.fired + 1 } }
    else if x.proc = 15 && x.part < 9 then next h else h
  else if x.proc = 15 && calSlots x.part ≤ x.ticks + 1 then next h
  else { h with cal := { x with ticks := x.ticks + 1 } }

/-- The CAL_PULSE that is due at the boundary that opened this slot, once. -/
def Hub.calPulseActs (h : Hub) : Hub :=
  if h.rooster.sched.any fun x => x.1 == Fc.calPulse && x.2 == h.slot then
    ({ h with rooster := { h.rooster with sched := h.rooster.sched.filter fun x => !(x.1 == Fc.calPulse && x.2 == h.slot) } }).calPulse
  else h

/-- FE_SETTLED. A front end has settled 20 µs after its power-up (R71). -/
def execFeSettled (c : Fin 512) (s : State) : Host.Outcome State Fault Refusal :=
  .next { s with hub :=
    if s.hub.flag F.FE_STAT_SETTLING c.val then
      (((s.hub.setFld F.FE_STAT_SETTLING c.val 0).setFld F.FE_STAT_PWR c.val 1).refreshTdc c.val)
    else s.hub }

/-- FE_LEAK_CHANGE. The leakage of a front end passes a limit of R73 or returns within it. -/
def execFeLeakChange (c : Fin 512) (leak : Bool) (s : State) : Host.Outcome State Fault Refusal :=
  .next { s with hub := s.hub.awake (s.hub.setFlag F.FE_STAT_LEAK c.val leak) }

/-- DISCRIMINATOR_CROSSING. A pulse rises at the discriminator, in the slot in progress (R75, R77, R101). The fine bin of
the standby line is latched, and is in no hit (R117). -/
def execDiscriminatorCrossing (c : Fin 512) (coarse : Fin 64) (fine stby : Fin 128) (charge : Int) (s : State) :
    Host.Outcome State Fault Refusal :=
  .next { s with hub := s.hub.discriminator c.val coarse.val fine.val stby.val charge }

/-- FALLING_CROSSING. A passed pulse falls, in the slot in progress (R107). -/
def execFallingCrossing (c : Fin 512) (coarse : Fin 64) (fine stby : Fin 128) (s : State) : Host.Outcome State Fault Refusal :=
  .next { s with hub := s.hub.falling c.val coarse.val fine.val stby.val }

/-- TOT_TIMEOUT. A pulse has lasted 31.99 ns (R108). -/
def execTotTimeout (c : Fin 512) (s : State) : Host.Outcome State Fault Refusal := .next { s with hub := s.hub.totTimeout c.val }

/-- CAL_PULSE_FIRE. A scheduled CAL_PULSE is due at the boundary that opened this slot (R84, R87). -/
def execCalPulseFire (s : State) : Host.Outcome State Fault Refusal := .next { s with hub := s.hub.calPulseActs }

end Sys2Proof.Machine
end

