-- ==== Sys2Proof/Machine/Chain.lean ====
section
/-! DEFINITION. The sampling chain of a channel: stages A to D, its delays, its start, and the latency memory it fills
(05_amplitude_chain.md, R149, R150). -/

namespace Sys2Proof.Machine

/-- A sample of the capture scale with its flag code: 0 clean, 1 RANGE_EDGE, 2 SETTLE, 3 SAT. -/
abbrev Samp := BitVec 16 × BitVec 2

/-- Puts the chain of a channel. -/
def Hub.setChain (h : Hub) (c : Nat) (x : Chain) : Hub := { h with chain := Store.set (fun _ => ({} : Chain)) h.chain c x }

/-- The flag code of a stage's output (R141): `used` are the inputs that entered with a weight other than zero. -/
def flagOf (used : List Samp) (result : Int) : BitVec 2 :=
  if (used.any fun u => u.2 == 3) || 65535 < result then 3 else if used.any fun u => u.2 == 1 then 1 else 0

/-- A weighted sum of a history (newest first, weights of the newest first), divided by 2^shift, rounded and limited to
the capture scale. Samples beyond the history are zero. -/
def firStep (weights : List Int) (hist : List Samp) (shift : Nat) : Samp :=
  let pairs := weights.zip hist
  let sum : Int := pairs.foldl (fun a p => a + p.1 * (p.2.1.toNat : Int)) 0
  let r := roundDiv sum (2 ^ shift)
  (BitVec.ofNat 16 (satU 16 r), flagOf ((pairs.filter fun p => p.1 != 0).map fun p => p.2) r)

/-- The path that a digitiser slot converts in a range mode, and the flag code of the sample (R78-R82). -/
def rangeOf (range : Nat) (x : Raw) : Bool × BitVec 2 :=
  let lg := if range = 1 then false else if range = 2 then true else x.above
  let edge := range != 1 && range != 2 && x.changed
  let sat := x.full && (lg || range == 1)
  (lg, if sat then 3 else if edge then 1 else 0)

/-- Stage A (R128): its output, and the flag code of R79 and R80 by itself, without the limit of R141 (R112). -/
def Hub.stageA (h : Hub) (c p : Nat) (x : Raw) : Samp × BitVec 2 :=
  let (lg, flag) := rangeOf (h.rangeMode c) x
  let ofs := if lg then h.sfld F.ADC_OFS_OFS_LG p else h.sfld F.ADC_OFS_OFS_HG p
  let gain : Int := if lg then h.fld F.ADC_GLG_GAIN p else h.fld F.ADC_GHG_GAIN p
  let v := roundDiv (((x.code.toNat : Int) * 16 - ofs) * gain) (2 ^ (20 + h.fld F.CH_CHAIN_SHIFT_A c)) + h.fld F.CH_PED_PED c
  ((BitVec.ofNat 16 (satU 16 v), if 65535 < v then 3 else flag), flag)

/-- Taps of stage B: 0 in bypass (R130). -/
def Hub.tapsB (h : Hub) (c : Nat) : Nat :=
  let m := h.fld F.CH_CHAIN_B_MODE c
  if m = 1 || m = 2 then 4 * (h.fld F.CH_CHAIN_B_LEN c + 1) else 0

/-- Coefficient h(j) as CH_FIR holds it, s16.14. -/
def Hub.firWord (h : Hub) (c j : Nat) : Int :=
  let w := (h.word (A.CH_FIR + 64 * c + j / 2)).toNat
  signed 16 (if j % 2 = 0 then bits w 15 0 else bits w 31 16)

/-- The coefficients of stage B in use (R130). -/
def Hub.coefB (h : Hub) (c : Nat) : List Int :=
  let n := h.tapsB c
  if h.fld F.CH_CHAIN_B_MODE c = 1 then (upto n).map fun j => h.firWord c (if j < n / 2 then j else n - 1 - j)
  else (upto n).map fun j => h.firWord c j

/-- Coefficients of the halfband decimator (R133). -/
def halfband : List Int := [354, 0, -1953, 0, 9791, 16384, 9791, 0, -1953, 0, 354]

/-- One stage A output through stages B and C (R130, R133). -/
def Hub.chainSample (h : Hub) (c : Nat) (x : Chain) (y : Samp × BitVec 2) : Chain :=
  let a := y.1
  let n := h.tapsB c
  let fir := (a :: x.fir).take 16
  let b := if n = 0 then a else firStep (h.coefB c) fir (14 + h.fld F.CH_CHAIN_SHIFT_B c)
  let bs := (b :: x.bs).take 11
  let k := x.nb
  let x := { x with hist := ((a.1, y.2) :: x.hist).take 64, fir := fir, bs := bs, nb := k + 1 }
  if h.flag F.CHN_RATE_C_EN 0 then
    if k % 2 = 0 then
      { x with xs := (firStep halfband bs (15 + h.fld F.CH_CHAIN_SHIFT_C c) :: x.xs).take 96, nx := x.nx + 1 }
    else x
  else { x with xs := (b :: x.xs).take 96, nx := x.nx + 1 }

/-- Stage D input periods in a slot (R134). -/
def Hub.perSlotD (h : Hub) : Nat := if h.flag F.CHN_RATE_C_EN 0 then 2 else 4

/-- Stage D input period in 2^-18 ns, times 4. -/
def Hub.tD4 (h : Hub) : Nat := 4 * h.slotLen18 / h.perSlotD

/-- Offset term of stage D in 2^-19 input samples (R135): d_b, d_c, theta, phofs and fine, theta as the slot opened (R138). DESIGN CHOICE:
the rule states the terms in 2^-10 ns and does not say how D_C, which at bunch clocks other than 40 MHz is no whole number of them, is
rounded; it is taken exactly (notes/assumptions/36.md). -/
def Hub.offsetD (h : Hub) (c p : Nat) : Int :=
  let dc : Int := if h.flag F.CHN_RATE_C_EN 0 then 5 * h.slotLen18 else 0
  let sum : Int := (h.fld F.CH_GDB_D_B c : Int) + h.chainTheta + h.sfld F.CH_PHOFS_PHOFS c - h.sfld F.ADC_PHASE_FINE p
  roundDiv ((sum * 1024 + dc) * (2 ^ 19 : Nat)) (max 1 h.tD4)

/-- Coefficient c_rs[ph][j] (R135, R136): row 64 is row 0 shifted by one place, and c_rs[0][7] is not used. -/
def Hub.coefD (h : Hub) (ph j : Nat) : Int :=
  if ph = 64 then (if j = 0 then 0 else signed 16 (let w := (h.word (A.RS_COEF + (j - 1) / 2)).toNat
    if (j - 1) % 2 = 0 then bits w 15 0 else bits w 31 16))
  else if ph = 0 ∧ j = 7 then 0
  else signed 16 (let w := (h.word (A.RS_COEF + 4 * ph + j / 2)).toNat
    if j % 2 = 0 then bits w 15 0 else bits w 31 16)

/-- Input sample `i` of stage D: zero before the first and where it has not come. -/
def Chain.input (x : Chain) (i : Int) : Samp :=
  if i < 0 || (x.nx : Int) ≤ i then (0, 0) else (x.xs[x.nx - 1 - i.toNat]?).getD (0, 0)

/-- Output of stage D at a position in 2^-19 input samples (R135, R141). -/
def Hub.stageD (h : Hub) (c : Nat) (x : Chain) (pos : Int) : Samp :=
  let i := pos / (2 ^ 19 : Nat)
  let mu := (pos % ((2 ^ 19 : Nat) : Int)).toNat
  let ph := mu / 8192
  let w : Int := (mu % 8192 : Nat)
  let pairs : List (Int × Samp) := (upto 8).map fun (j : Nat) =>
    ((8192 - w) * h.coefD ph j + w * h.coefD (ph + 1) j, x.input (i - 3 + j))
  let sum : Int := pairs.foldl (fun a p => a + p.1 * (p.2.1.toNat : Int)) 0
  let r := roundDiv sum (2 ^ (27 + h.fld F.CH_CHAIN_SHIFT_D c))
  (BitVec.ofNat 16 (satU 16 r), flagOf ((pairs.filter fun p => p.1 != 0).map fun p => p.2) r)

/-- D_B in 2^-21 ns, unrounded but for τ of free mode, which R131 rounds to 2^-10 ns; and GD_VALID (R131, R132). A free
filter has the DC group delay of its coefficients. -/
def Hub.delayB (h : Hub) (c : Nat) : Nat × Bool :=
  let n := h.tapsB c
  let l : Nat := h.slotLen18
  if n = 0 then (0, true)
  else
    let mid := (n - 1) * l
    let whole (x : Nat) : Nat := (roundDiv (x : Int) 2048).toNat * 2048
    let cs := h.coefB c
    let sum : Int := cs.foldl (· + ·) 0
    if h.fld F.CH_CHAIN_B_MODE c = 1 then (mid, sum != 0)
    else
      let mom : Int := ((upto n).zip cs).foldl (fun a p => a + (p.1 : Int) * p.2) 0
      let mom := if sum < 0 then -mom else mom
      let s := sum.natAbs
      if s = 0 then (whole mid, false)
      else if mom < 0 then (0, false)
      else if (((n - 1) * s : Nat) : Int) < mom then (whole (2 * mid), false)
      else ((roundDiv (mom * l) (4 * 256 * s)).toNat * 2048, true)

/-- D_total in 2^-22 ns (R139). -/
def Hub.delayTotal (h : Hub) (c : Nat) : Nat :=
  let cIn := h.flag F.CHN_RATE_C_EN 0
  -- sixteenths of a slot: D_A 8, D_pipe 10, D_D one slot and four input periods, D_C five quarter slots
  let parts := 8 + 10 + 16 + (if cIn then 32 else 16) + (if cIn then 20 else 0)
  parts * h.slotLen18 + 2 * (h.delayB c).1

/-- First CK640 edge, from the chain's start, at or after T_n + D_total (R139): when output n is written. `total` is
D_total in 2^-22 ns. -/
def Hub.edgeOf (h : Hub) (total n : Nat) : Nat :=
  let s := h.perSlotD * 2 ^ 19
  ceilDiv (16 * (n * h.fld F.CHN_RATE_INC 0 * h.slotLen18) + total * s) (max 1 (s * h.slotLen18))

/-- Outputs whose instant T_n lies before the end of slot `r` of the chain. -/
def Hub.outputsBefore (h : Hub) (r : Nat) : Nat :=
  ceilDiv ((r + 1) * h.perSlotD * 2 ^ 19) (max 1 (h.fld F.CHN_RATE_INC 0))

/-- Extends the last range of outputs, or opens a new one. -/
def addRange (l : List (Nat × Nat)) (n : Nat) : List (Nat × Nat) :=
  match l with
  | (a, b) :: rest => if b + 1 = n then (a, n) :: rest else (n, n) :: (a, b) :: rest
  | [] => [(n, n)]

/-- Whether an output lies in one of the ranges. -/
def inRange (l : List (Nat × Nat)) (n : Nat) : Bool := l.any fun r => r.1 ≤ n && n ≤ r.2

/-- The outputs of slot `r` of the chain take their positions, with what is in force as the slot opens (R138). -/
def Hub.fixOutputs (h : Hub) (c r : Nat) (x : Chain) : Chain :=
  let stop := h.outputsBefore r
  let slot := h.liveSlot c
  let ofs := h.offsetD c (slot.getD 0)
  let spare := h.flag F.RS_CHMAP_SPARE c
  (upto (stop - x.next)).foldl (fun x _ =>
    let n := x.next
    { x with
      due := x.due ++ [(n, (n * h.fld F.CHN_RATE_INC 0 : Nat) + ofs)]
      next := n + 1
      holes := if slot.isNone then addRange x.holes n else x.holes
      spares := if slot.isSome && spare then addRange x.spares n else x.spares }) x

/-- Ranges of outputs before output `a`. -/
def rangesBefore (l : List (Nat × Nat)) (a : Nat) : List (Nat × Nat) :=
  l.filterMap fun r => if r.1 < a then some (r.1, min r.2 (a - 1)) else none

/-- PHOFS, FINE or the serving slot of a channel has changed in the slot in progress: its outputs take their positions anew with what
is in force now (R138, R146, R461); at a boundary whose outputs are still to be fixed there is nothing to do. Where in the slot a
command falls the model does not say, so all outputs of the slot follow (notes/assumptions/76.md). -/
def Hub.refix (h : Hub) (c : Nat) : Hub :=
  let x := h.chainOf c
  let a := if h.chainSlots = 0 then 0 else h.outputsBefore (h.chainSlots - 1)
  if h.flag F.CHN_STAT_RUNNING 0 && decide (a < x.next) then
    h.setChain c (h.fixOutputs c h.chainSlots { x with
      due := x.due.filter fun d => decide (d.1 < a), next := a
      holes := rangesBefore x.holes a, spares := rangesBefore x.spares a })
  else h

/-- The channels of a group take their positions anew. -/
def Hub.refixGroup (h : Hub) (g : Nat) : Hub := forN 32 h fun k h => h.refix (32 * g + k)

/-- Key of a latency-memory word (R149): bank, channel in the group, word. -/
def lmemKey (c n : Nat) : Nat := (c / 32) * 32768 + c % 32 * 1024 + n / 3 % 1024

/-- One output enters the capture stream (the check bits of a stored word, [60:54], stay 0 in the model: DESIGN CHOICE, the spec gives
no code; notes/assumptions/77.md) and, with the third of its word, the latency memory (R142, R149, R150). -/
def Hub.capture3 (h : Hub) (c n : Nat) (y : Samp) : Hub :=
  let flag : BitVec 2 := if n < h.fld F.CH_SETTLE_K c then 2 else y.2
  let h := if flag = 3 then h.bump F.CH_SATCNT_COUNT c else if flag = 1 then h.bump F.CH_EDGECNT_COUNT c else h
  let x := h.chainOf c
  let v : BitVec 18 := flag ++ y.1
  match x.part with
  | [a, b] =>
    let w : W64 := BitVec.ofNat 64 (a.toNat + b.toNat * 2 ^ 18 + v.toNat * 2 ^ 36)
    { (h.setChain c { x with part := [], stored := n + 1 }) with lmem := Store.set (fun _ => 0) h.lmem (lmemKey c n) w }
  | l => h.setChain c { x with part := l ++ [v] }

/-- The outputs of a channel that are written by edge `e` of the chain, at that edge itself too (R150). -/
def Hub.emit (h : Hub) (c e : Nat) : Hub :=
  let x := h.chainOf c
  let total := h.delayTotal c
  let ready := x.due.filter fun d => decide (h.edgeOf total d.1 ≤ e)
  let h := h.setChain c { x with due := x.due.filter fun d => !decide (h.edgeOf total d.1 ≤ e) }
  each ready h fun d h => h.capture3 c d.1 (h.stageD c (h.chainOf c) d.2)

/-- A raw sample that the surroundings have not named: an open value. -/
def rawOpen (v : BitVec 64) : Raw :=
  { code := v.extractLsb' 0 12, above := v.getLsbD 12, changed := v.getLsbD 13, full := v.getLsbD 14 }

/-- The four raw samples of a digitiser slot in the slot that ends, or open values (notes/assumptions/17.md). -/
def Hub.rawOf (h : Hub) (adc : List AdcIn) (p : Option Nat) : List Raw × Hub :=
  match p.bind fun p => adc.find? fun a => a.p.val == p with
  | some a => ([a.s0, a.s1, a.s2, a.s3], h)
  | none => ([rawOpen (Config.free h.free), rawOpen (Config.free (h.free + 1)), rawOpen (Config.free (h.free + 2)),
      rawOpen (Config.free (h.free + 3))], { h with free := h.free + 4 })

/-- The slot that ends goes through the chain of one channel; `r` is its number from the chain's start. DESIGN CHOICE: a command stands
somewhere in its slot, and the spec does not say between which samples a write of ADC_OFS, ADC_GHG or ADC_GLG of a serving slot, or a
change of serving slot by a command, falls; it acts on all four samples of the slot (notes/assumptions/76.md). -/
def Hub.chainSlot (h : Hub) (adc : List AdcIn) (r c : Nat) : Hub :=
  let p := h.liveSlot c
  let (raws, h) := h.rawOf adc p
  let x := raws.foldl (fun x a => h.chainSample c x (h.stageA c (p.getD 0) a)) (h.chainOf c)
  (h.setChain c x).emit c (16 * (r + 1))

/-- The slot that ends goes through every chain (R145). -/
def Hub.chainSlots_ (h : Hub) (adc : List AdcIn) : Hub :=
  if h.flag F.CHN_STAT_RUNNING 0 then
    { (forN 512 h fun c h => h.chainSlot adc h.chainSlots c) with chainSlots := h.chainSlots + 1 }
  else h

/-- The outputs of the slot that opens take their positions. -/
def Hub.fixAll (h : Hub) : Hub :=
  let h := { h with chainTheta := h.sfld F.RT_OFFSET_THETA 0 }
  if h.flag F.CHN_STAT_RUNNING 0 then forN 512 h fun c h => h.setChain c (h.fixOutputs c h.chainSlots (h.chainOf c)) else h

/-- The chains start at this boundary (R143, R145): histories are cleared and the indices restart. Stage A has no
history. -/
def Hub.chainStart (h : Hub) (anchored : Bool) : Hub :=
  let h := { h with
    chain := h.chain.map fun (e : Nat × Chain) => (e.1, ({ hist := e.2.hist } : Chain))
    chainAt := h.slot
    chainSlots := 0 }
  let h := { h with chain := h.chain.filter fun (e : Nat × Chain) => !(e.2 == ({} : Chain)) }
  (h.setFld F.CHN_STAT_RUNNING 0 1).setFlag F.CHN_STAT_ANCHORED 0 anchored

/-- The chains stop as the hub leaves the running modes (R145). -/
def Hub.chainStop (h : Hub) : Hub := ({ h with chain := [] }).setFld F.CHN_STAT_RUNNING 0 0

/-! ### Delays as published (R139, R140, R144) -/

/-- Recomputes and publishes the delays and K of a channel (R139, R140, R144). -/
def Hub.refreshChain (h : Hub) (c : Nat) : Hub :=
  let (db, valid) := h.delayB c
  let db := (roundDiv (db : Int) 2048).toNat
  let total := h.delayTotal c
  let l := h.slotLen18
  let cIn := h.flag F.CHN_RATE_C_EN 0
  let inc := max 1 (h.fld F.CHN_RATE_INC 0)
  let dtot := (roundDiv (total : Int) 4096).toNat
  let dsamp := (roundDiv ((total * 256 * h.perSlotD * 2 ^ 19 : Nat) : Int) (16 * max 1 (inc * l))).toNat
  let td := if cIn then 2 else 1
  let n := h.tapsB c
  let span := (if n = 0 then 0 else n - 1) + (if cIn then 10 else 0) + 7 * td
  let k := ceilDiv (span * 2 ^ 19) (inc * td)
  let h := (h.setFld F.CH_GDB_D_B c (min (2 ^ 20 - 1) db)).setFlag F.CH_GDB_GD_VALID c valid
  let h := h.setFld F.CH_DTOT_D_TOTAL c (min (2 ^ 20 - 1) dtot)
  (h.setFld F.CH_DSAMP_D_SAMP c (min (2 ^ 24 - 1) dsamp)).setFld F.CH_SETTLE_K c (min 255 k)

end Sys2Proof.Machine
end

