-- ==== Sys2Proof/Machine/Space.lean ====
section
/-! DEFINITION. Record memory: which records hold blocks, which class may take more, and the layout of a HIT BLOCK
(R281, R282, R292, R293). Records on their way up count on the lanes of the parent port in force. -/

namespace Sys2Proof.Machine

/-- The leading words of a list that belong to the group `g` and to one kind. -/
def runOf (g kind : Nat) (ws : List HbWord) : List HbWord :=
  match ws with
  | [] => []
  | w :: rest => if w.g = g && w.kind = kind then w :: runOf g kind rest else []

/-- A run word (R292). -/
def runWord (kind g n : Nat) (ovf : Bool) : W64 :=
  BitVec.ofNat 64 (kind * 2 ^ 60 + g * 2 ^ 56 + b2n ovf * 65536 + n % 65536)

/-- The body of a HIT BLOCK as runs: each a run word and the words that follow it (R292). GAP markers make runs of their
own, with the count and OVF of the marker. `ws` are the words of one group, in the order taken. -/
def runsOf (fuel g : Nat) (ws : List HbWord) : List (Nat × W64 × List W64) :=
  match fuel with
  | 0 => []
  | k + 1 =>
    match ws with
    | [] => []
    | w :: rest =>
      if w.kind = 2 then (2, runWord 2 g (bits w.w.toNat 15 0) (bit w.w.toNat 16), []) :: runsOf k g rest
      else
        let run := runOf g w.kind ws
        (w.kind, runWord w.kind g run.length false, run.map fun x => x.w) :: runsOf k g (ws.drop run.length)

/-- The words of a HIT BLOCK by push slot, a slot's queue words ahead of its fallback hits (R292); the Mule keeps that order
as it takes them. -/
def groupWords (ws : List HbWord) (g : Nat) : List HbWord := ws.filter fun w => w.g == g

/-- All runs of a span, groups ascending. -/
def spanRuns (ws : List HbWord) : List (Nat × W64 × List W64) :=
  (upto 16).flatMap fun g => let l := groupWords ws g; runsOf l.length g l

/-- The body of the record of a span in progress (R292). -/
def spanBody (ws : List HbWord) : List W64 := (spanRuns ws).flatMap fun r => r.2.1 :: r.2.2

/-- LENGTH of that record as it stands. -/
def spanLength (ws : List HbWord) : Nat := (spanRuns ws).foldl (fun a r => a + 1 + r.2.2.length) 2

/-- Blocks that it holds. -/
def spanBlocks (ws : List HbWord) : Nat := blocksOf (spanLength ws)

/-- Removes the words of a torn item of group `g` (R276): those of the slot program that no word has closed. `ws` are the words
of a block, newest first; the answer tells whether the item began in it. -/
def tearItem (g : Nat) (ws : List HbWord) : List HbWord × Bool :=
  match ws with
  | [] => ([], false)
  | w :: rest =>
    if w.g = g && (w.kind = 2 || (w.kind = 0 && !w.hit && w.last)) then (w :: rest, true)
    else
      let r := tearItem g rest
      (if w.g = g && w.kind = 0 && !w.hit then r.1 else w :: r.1, r.2)

/-- The class of a record by its TYPE (R282); the LEDGER record and the records of children hold no blocks. -/
def clsOfType (t : Nat) : Cls :=
  if t = tHit then .hit
  else if t = tTrigger || t = tLong || t = tHeldOff || t = tMaskViol then .acq
  else if t = tLedger then .ledger
  else .ctrl

/-- Blocks of the records of a list that are of a class. Records of children hold none. -/
def wholeBlocks (c : Cls) (l : List Whole) : Nat :=
  l.foldl (fun a r => if r.cls = c && r.port.isNone then a + blocksOf r.ws.length else a) 0

/-- The records that a lane has not had acknowledged whole, each once (R376). -/
def Lane.records (x : Lane) : List Whole :=
  (((x.kept ++ x.copies).flatMap fun (k : Kept) => k.recs) ++ x.tx.map fun (t : Assigned) => t.r).dedup

/-- The class of the item that the Mule takes words of from a queue, by its header. -/
def itemCls (ws : List QWord) : Cls :=
  match ws with
  | w :: _ => clsOfType (hdrType w.data)
  | [] => .ctrl

/-- Whether the Mule accepts an item of a TYPE from a queue (R296). -/
def Hub.typeFits (h : Hub) (q t : Nat) : Bool :=
  let p := h.fld F.Q_CFG_PROD q
  if q = 30 then true
  else if 0x20 ≤ p && p ≤ 0x2F then t == tTrigger
  else if p = 0x30 || p = 0x31 then t == tHealth || t == tMonitor
  else false

/-- An item of a queue that becomes a record: another one takes no block (R296). -/
def Hub.itemFits (h : Hub) (q : Nat) (ws : List QWord) : Bool :=
  match ws with
  | w :: _ => h.typeFits q (hdrType w.data) && ws.length ≤ 4094
  | [] => false

/-- Blocks that a class holds (R281): from the start of the assembly until the frame with
the last word is acknowledged (R376). The engine's
output takes blocks of its own beside those of the original (R313). -/
def Hub.blocksHeld (h : Hub) (c : Cls) : Nat :=
  let made := h.mule.recs.foldl (fun a r => if r.cls = c then a + blocksOf (r.ws.length + 1) else a) 0
  let items := h.mule.items.foldl (fun a e => if itemCls e.2 = c && h.itemFits e.1 e.2 then a + blocksOf (e.2.length + 1) else a) 0
  let openHb := if c = .hit then h.mule.blocks.foldl (fun a b => a + spanBlocks b.ws) 0 else 0
  let coding := match h.cmp.job with
    | some j => if j.src.cls = c then blocksOf j.src.ws.length + j.blocks else 0
    | none => 0
  let assembling := if c = .acq then h.trigs.foldl (fun a t => a + t.blocks) 0 else 0
  let sending := (upto 24).foldl (fun a l => a + wholeBlocks c (h.lane l).records) 0
  made + items + openHb + coding + assembling + sending + wholeBlocks c h.cmp.waiting + wholeBlocks c h.hen.pool
    + wholeBlocks c h.hen.front

/-- Blocks taken out of allocation: row repairs of record memory that have not taken effect (R500). -/
def Hub.blocksOut (h : Hub) : Nat := (h.rsv.preps.filter fun p => p.kind == 0 && p.unit / 65536 == 0x10).length

/-- Free blocks (MULE_STAT.FREE). -/
def Hub.freeBlocks (h : Hub) : Nat :=
  2048 - (h.blocksHeld .hit + h.blocksHeld .acq + h.blocksHeld .ctrl + h.blocksOut)

/-- Whether a record of a class may take `n` more blocks (R282). -/
def Hub.roomFor (h : Hub) (c : Cls) (n : Nat) : Bool :=
  match c with
  | .ledger => true
  | .ctrl => decide (n ≤ h.freeBlocks)
  | .hit => decide (n + 64 ≤ h.freeBlocks) || n == 0
  | .acq => (decide (n + 64 ≤ h.freeBlocks) && decide (h.blocksHeld .acq + n ≤ h.fld F.MULE_POOL_ACQ_MAX 0)) || n == 0

/-- FREE and HB_OPEN of MULE_STAT follow. -/
def Hub.refreshMule (h : Hub) : Hub :=
  (h.setFld F.MULE_STAT_FREE 0 h.freeBlocks).setFld F.MULE_STAT_HB_OPEN 0 h.mule.blocks.length

end Sys2Proof.Machine
end

