-- ==== Sys2Proof/Machine/Acq.lean ====
section
/-! DEFINITION. Triggers: accepts, hold-off, windows, readout from the latency memory, gap entries, sections and parts
(06_acquisition_and_triggers.md). The commands are at the end. -/

namespace Sys2Proof.Machine

/-! ### Settings (R155) -/

/-- The acquisition registers as they stand: the listed words from 0001_0000h to 0001_02FFh. -/
def Hub.acqRegs (h : Hub) : Store W32 := h.regs.filter fun e => decide (0x10000 ≤ e.1 && e.1 < 0x10300)

/-- The settings in force at this boundary are noted when they have changed; the last 1,026 slots are kept (R155). -/
def Hub.noteSettings (h : Hub) : Hub :=
  let now := h.acqRegs
  let old := match h.settings with
    | (_, s) :: _ => s == now
    | [] => false
  if old then h
  else
    let recent := h.settings.filter fun e => decide (slotsFrom e.1 h.slot < 1026)
    let before := (h.settings.filter fun e => !decide (slotsFrom e.1 h.slot < 1026)).take 1
    { h with settings := (h.slot, now) :: (recent ++ before) }

/-- The settings in force at the boundary that opened slot `o`. -/
def Hub.settingsAt (h : Hub) (o : W48) : Store W32 :=
  match h.settings.find? fun e => reached o e.1 with
  | some e => e.2
  | none =>
    match h.settings.getLast? with
    | some e => e.2
    | none => h.acqRegs

/-- A field of settings. -/
def setOf (st : Store W32) (f : Fld) (i : Nat) : Nat := f.get (Store.get loadWord st (f.addr i))

/-- A signed field of settings. -/
def setOfS (st : Store W32) (f : Fld) (i : Nat) : Int := signed f.width (setOf st f i)

/-! ### Ages and states (R157, R158, R161) -/

/-- Largest D_total of the 512 channels. -/
def Hub.dMax (h : Hub) : Nat := forN 512 0 fun c m => max m (h.fld F.CH_DTOT_D_TOTAL c)

/-- PENDING and RUNNING of ACQ_STAT. -/
def Hub.refreshTrigs (h : Hub) : Hub :=
  (h.setFld F.ACQ_STAT_PENDING 0 h.trigs.length).setFlag F.ACQ_STAT_RUNNING 0 h.live

/-- ACQ_AGE and ACQ_STAT are recomputed. -/
def Hub.refreshAcq (h : Hub) : Hub :=
  let age := h.fld F.ACQ_LAT_LAT 0 + h.fld F.RT_AGE_FC_AGE 0 + 2
  let span : Int := (age * h.slotLen18 : Nat) - (h.fld F.ACQ_LAT_TOFS 0 * 256 : Nat) - (h.dMax * 256 : Nat)
  let samp := (clamp 0 0xFFFF (span * (h.perSlotD * 2 ^ 19 : Nat) / (max 1 (h.fld F.CHN_RATE_INC 0 * h.slotLen18) : Nat))).toNat
  let h := (h.setFld F.ACQ_AGE_AGE_SLOT 0 age).setFld F.ACQ_AGE_AGE_SAMP 0 samp
  let h := h.setFlag F.ACQ_STAT_S_LATOK 0 (decide (samp + h.fld F.ACQ_SWIN_PRE 0 + 1 ≤ 3072))
  let h := h.setFlag F.ACQ_STAT_L_LATOK 0 (decide (samp + h.fld F.ACQ_LWIN_PRE 0 + 1 ≤ 3072))
  let h := h.setFlag F.ACQ_STAT_L_BUF 0 (decide (h.fld F.ACQ_LWIN_PRE 0 + h.fld F.ACQ_LWIN_POST 0 ≤ 3008))
  (h.setFlag F.ACQ_STAT_SEED_OK 0 (decide (h.sfld F.ACQ_CFG_SEED_HI 0 ≤ (age : Int) - 6))).refreshTrigs

/-! ### The window (R156, R160, R163) -/

/-- Positions of a window. -/
def Trig.width (t : Trig) : Nat := t.pre + t.post

/-- A streamed record (R163). -/
def Trig.streamed (t : Trig) : Bool := !decide (t.width ≤ 3008)

/-- Output index of a position. -/
def Trig.index (t : Trig) (p : Nat) : Int := t.nt - t.pre + p

/-- n_T, and DT_FIRST in 2^-10 ns, for an event slot (R156, R181). -/
def Hub.trigSample (h : Hub) (e : W48) (tofs pre : Nat) : Int × Int :=
  let l : Int := h.slotLen18
  let s := circ 48 e.toNat h.chainAt.toNat
  let at_ := s * l + tofs * 256
  let unit : Int := (max 1 (h.fld F.CHN_RATE_INC 0) * h.slotLen18 : Nat)
  let per : Int := (h.perSlotD * 2 ^ 19 : Nat)
  let nt := -((-(at_ * per)) / unit)
  (nt, roundDiv ((nt - pre) * unit - s * l * per) (256 * (h.perSlotD * 2 ^ 19)))

/-- Whether a slot is one of those from e + lo to e + hi. -/
def seedSlot (e : W48) (lo hi : Int) (s : W48) : Bool :=
  let d := circ 48 s.toNat e.toNat
  decide (lo ≤ d) && decide (d ≤ hi)

/-- The channels with a primary hit in slots e + lo to e + hi, of those presented no later than the boundary that opens this slot
(R160, R161): the hits of six slots back are presented at it, behind the accepts. -/
def Hub.seeded (h : Hub) (e : W48) (lo hi : Int) (c : Nat) : Bool :=
  (h.seeds.any fun x => seedSlot e lo hi x.1 && x.2.1 == c / 32 && bit x.2.2.toNat (c % 32))
    || h.hits.any fun y => y.ch == c && y.slot == h.slot - 6#48 && seedSlot e lo hi y.slot

/-- Selected channels of a trigger (R160). -/
def Hub.selected (h : Hub) (st : Store W32) (long : Bool) (e : W48) : List Nat :=
  let mode := if long then setOf st F.ACQ_CFG_L_SEL 0 else setOf st F.ACQ_CFG_S_SEL 0
  let lo := setOfS st F.ACQ_CFG_SEED_LO 0
  let hi := setOfS st F.ACQ_CFG_SEED_HI 0
  (upto 512).filter fun c =>
    h.flag F.FE_CFG_EN c &&
      (if mode = 1 || mode = 2 then
        bit (setOf st F.ACQ_CHMASK_MASK (16 * b2n long + c / 32)) (c % 32) && (mode == 1 || h.seeded e lo hi c)
      else true)

/-! ### Reading (R164-R166, R169, R609) -/

/-- Type of a gap (the gap-type table). -/
abbrev gPreStart : W8 := 1
abbrev gOverwritten : W8 := 2
abbrev gUnserved : W8 := 3
abbrev gMemory : W8 := 4
abbrev gCut : W8 := 5

/-- A position that is missing before any read: before output 0, or without a serving slot. -/
def Hub.missing (h : Hub) (t : Trig) (c p : Nat) : Option W8 :=
  let n := t.index p
  if n < 0 then some gPreStart
  else if inRange (h.chainOf c).holes n.toNat then some gUnserved
  else none

/-- Whether an output is no longer held (R150, R166). -/
def Hub.overwritten (h : Hub) (c : Nat) (n : Int) : Bool := decide (n + 3072 < (h.chainOf c).stored)

/-- Gap positions from the next one of a section on, by fuel. `all` tests for overwriting too (R166, at accept). -/
def Hub.lead (h : Hub) (t : Trig) (c : Nat) (all : Bool) (fuel p : Nat) : List Pos :=
  match fuel with
  | 0 => []
  | k + 1 =>
    match h.missing t c p with
    | some g => .gap g :: h.lead t c all k (p + 1)
    | none => if all && h.overwritten c (t.index p) then .gap gOverwritten :: h.lead t c all k (p + 1) else []

/-- Gaps among positions. -/
def gapsIn (l : List Pos) : Nat := l.foldl (fun a p => match p with
  | .gap _ => a + 1
  | .sample _ _ _ => a) 0

/-- Gap entries cover positions: samples gapped, and in flight no longer (R187, R300). -/
def Hub.gapped (h : Hub) (n : Nat) : Hub := (h.ledAdd 0xA n).ledSub 0x11 n

/-- Replaces a pending trigger, by its place. -/
def Hub.setTrig (h : Hub) (i : Nat) (t : Trig) : Hub := { h with trigs := h.trigs.set i t }

/-- Adds positions to section `j` of trigger `i`. -/
def Hub.addPos (h : Hub) (i j : Nat) (l : List Pos) : Hub :=
  match h.trigs[i]? with
  | some t =>
    match t.sects[j]? with
    | some s => (h.setTrig i { t with sects := t.sects.set j { s with got := s.got ++ l } }).gapped (gapsIn l)
    | none => h
  | none => h

/-- Every section of a trigger takes the gaps that stand next in it. -/
def Hub.leadAll (h : Hub) (i : Nat) (all : Bool) : Hub :=
  match h.trigs[i]? with
  | some t => forN t.sects.length h fun j h =>
      match t.sects[j]? with
      | some s => h.addPos i j (h.lead t s.ch all (t.width - s.got.length) s.got.length)
      | none => h
  | none => h

/-- Every started trigger takes the gaps that stand next. -/
def Hub.settle (h : Hub) : Hub := forN h.trigs.length h fun i h =>
  match h.trigs[i]? with
  | some t => if t.started then h.leadAll i false else h
  | none => h

/-- A buffered record may be read: its last output is stored in every selected channel (R164). -/
def Hub.windowStored (h : Hub) (t : Trig) : Bool :=
  t.sects.all fun s => decide (t.index (t.width - 1) < (h.chainOf s.ch).stored)

/-- The acquisition engine waits for a block or for room in Q28 (R277, R283). -/
def Hub.acqBlocked (h : Hub) : Bool := h.flag F.MULE_STAT_ACQ_STALL 0 || decide (16 ≤ (h.queue 28).ws.length)

/-- Reading starts where R164 lets it, while the engine does not wait. -/
def Hub.startReads (h : Hub) : Hub := forN h.trigs.length h fun i h =>
  match h.trigs[i]? with
  | some t => if !t.started && !h.acqBlocked && h.windowStored t then (h.setTrig i { t with started := true }).leadAll i false else h
  | none => h

/-- The word that a bank reads next: trigger and section, by the oldest needed output, then accept order, then channel
(R165). -/
def Hub.nextRead (h : Hub) (g : Nat) : Option (Nat × Nat × Nat) :=
  let all := (upto h.trigs.length).flatMap fun i =>
    match h.trigs[i]? with
    | some t =>
      if t.started then
        (upto t.sects.length).filterMap fun j =>
          match t.sects[j]? with
          | some s =>
            let n := t.index s.got.length
            if s.ch / 32 = g && s.got.length < t.width && 0 ≤ n && n < (h.chainOf s.ch).stored then some (n.toNat, i, j) else none
          | none => none
      else []
    | none => []
  all.foldl (fun best x => match best with
    | some b => if x.1 < b.1 then some x else some b
    | none => some x) none

/-- The sample of an output in its bank word (R149), with its flag code. -/
def Hub.lmemSample (h : Hub) (c n : Nat) : BitVec 16 × BitVec 2 :=
  let w := Store.get (fun _ => (0 : W64)) h.lmem (lmemKey c n)
  (w.extractLsb' (18 * (n % 3)) 16, w.extractLsb' (18 * (n % 3) + 16) 2)

/-- Whether a sample violates its point, and whether it lies above (R176). DESIGN CHOICE: with REL at 1 the difference from PED is
taken modulo 2^16, as s16; the spec does not say what it is outside s16 (notes/assumptions/78.md). -/
def Hub.violates (h : Hub) (t : Trig) (c p : Nat) (x : Pos) : Option Bool :=
  match x with
  | .gap _ => none
  | .sample v flag _ =>
    if !t.long || setOf t.sel F.ACQ_MASKCTL_EN 0 = 0 || flag = 2 then none
    else
      let k := setOf t.sel F.ACQ_MASKSEL_SEL (c / 16) / 4 ^ (c % 16) % 4
      let point := h.word (A.MASK + 4096 * k + min 4095 p)
      let lo := bits point.toNat 15 0
      let hi := bits point.toNat 31 16
      if setOf t.sel F.ACQ_MASKCTL_REL 0 = 0 then
        if hi < v.toNat then some true else if v.toNat < lo then some false else none
      else
        let d := signed 16 (field 16 ((v.toNat : Int) - (h.fld F.CH_PED_PED c : Int)))
        if signed 16 hi < d then some true else if d < signed 16 lo then some false else none

/-- One access of a bank reads a word for one record (R151, R165, R166). No word is read while the engine waits (R283). DESIGN CHOICE: of a
word that the same access finds overwritten the spec does not say whether an error of its check is counted and reported; it is not, since
nothing of the word is used (notes/assumptions/95.md). -/
def Hub.bankRead (h : Hub) (g : Nat) (ecc : Ecc) : Hub :=
  if h.acqBlocked then h else
  match h.nextRead g with
  | none => h
  | some (n, i, j) =>
    match h.trigs[i]?, (h.trigs[i]?).bind fun t => t.sects[j]? with
    | some t, some s =>
      let p := s.got.length
      let count := min (3 - n % 3) (t.width - p)
      let old := h.overwritten s.ch n
      let word := s.ch % 32 * 1024 + n / 3 % 1024
      let rep (code : Nat) : Report := { mkReport code (unitOf 2 g) with master := 0x23, access := 1, addr := BitVec.ofNat 24 word }
      let h := if old then h
        else match ecc with
          | .ok => h
          | .corrected => (h.bump F.ACQ_MEMCOR_COUNT 0).report (rep 0x10)
          | .uncorrectable => (h.bump F.ACQ_MEMERR_COUNT 0).report (rep 0x11)
      let l : List Pos := (upto count).map fun k =>
        match h.missing t s.ch (p + k) with
        | some x => Pos.gap x
        | none =>
          if h.overwritten s.ch (n + k) then Pos.gap gOverwritten
          else if ecc = .uncorrectable then Pos.gap gMemory
          else
            let v := h.lmemSample s.ch (n + k)
            Pos.sample v.1 v.2 (inRange (h.chainOf s.ch).spares (n + k))
      let bad := ((upto count).zip l).any fun x => (h.violates t s.ch (p + x.1) x.2).isSome
      let h := (h.addPos i j l).leadAll i false
      if bad && setOf t.sel F.ACQ_MASKCTL_STOP 0 = 1 then { h with maskStop := true } else h
    | _, _ => h

/-- STOPPED follows a violation at the next boundary (R178). -/
def Hub.maskStops (h : Hub) : Hub :=
  if h.maskStop then ({ h with maskStop := false }).setFld F.ACQ_MASKCTL_STOPPED 0 1 else h

/-! ### Accepts (R154, R159, R171-R174, R259) -/

/-- Reason of a hold-off (R173): 0 TIME, 1 COUNT, 2 FULL, 3 STOPPED. DESIGN CHOICE: whether a trigger that was held off, and whose HELD-OFF
record still waits for the Mule, is one of the 64 pending triggers of R167 the spec leaves open; only triggers with a record to be read
count here and in ACQ_STAT.PENDING (notes/assumptions/94.md). -/
def Hub.heldOff (h : Hub) (st : Store W32) (long : Bool) (o : W48) : Option Nat :=
  let t := setOf st F.ACQ_HOLDOFF_T 0
  let n := setOf st F.ACQ_HOLDOFF_N 0
  let w := max 1 (setOf st F.ACQ_HOLDOFF_W 0)
  let close := match h.reads.head? with
    | some r => decide (slotsFrom r o < t)
    | none => false
  let within := (h.reads.filter fun r => decide (slotsFrom r o < w)).length
  if long && h.flag F.ACQ_MASKCTL_STOPPED 0 then some 3
  else if t ≠ 0 && close then some 0
  else if n ≠ 0 && decide (n ≤ within) then some 1
  else if 64 ≤ h.trigs.length then some 2
  else none

/-- A trigger notice for every engine that asks for it (R259). -/
def Hub.notices (h : Hub) (num : W24) (e : W48) : Hub := forN 16 h fun k h =>
  if h.flag F.OX_CFG_TRIGN k then
    let x := h.oxOf k
    if x.notices.length < 8 then h.setOx k { x with notices := x.notices ++ [(num, BitVec.ofNat 24 e.toNat)] }
    else h.bump F.OX_NOTELOST_COUNT k
  else h

/-- The positions covered so far are those of the accept (R166). -/
def Hub.markEarly (h : Hub) (i : Nat) : Hub :=
  match h.trigs[i]? with
  | some t => h.setTrig i { t with sects := t.sects.map fun (s : Sect) => { s with early := s.got.length } }
  | none => h

/-- A trigger is accepted and read (R154-R160, R163, R187). -/
def Hub.readTrigger (h : Hub) (x : L1a) (st : Store W32) (long : Bool) : Hub :=
  let e := x.origin - BitVec.ofNat 48 (setOf st F.ACQ_LAT_LAT 0)
  let pre := if long then setOf st F.ACQ_LWIN_PRE 0 else setOf st F.ACQ_SWIN_PRE 0
  let post := max 1 (if long then setOf st F.ACQ_LWIN_POST 0 else setOf st F.ACQ_SWIN_POST 0)
  let (nt, dt) := h.trigSample e (setOf st F.ACQ_LAT_TOFS 0) pre
  let chans := h.selected st long e
  let t : Trig := {
    num := x.num, inferred := x.inferred, origin := x.origin, event := e, long := long, pre := pre, post := post
    anchor := h.flag F.CHN_STAT_ANCHORED 0, nt := nt, dtFirst := dt, started := false, sel := st
    sects := chans.map fun (c : Nat) => ({ ch := c } : Sect) }
  let t := { t with started := t.streamed }
  let h := if t.streamed then h.bump F.ACQ_STREAMED_COUNT 0 else h
  let due := t.width * chans.length
  let h := (h.ledAdd 9 due).ledAdd 0x11 due
  let h := { h with trigs := h.trigs ++ [t], reads := x.origin :: h.reads.take 15 }
  ((h.leadAll (h.trigs.length - 1) true).markEarly (h.trigs.length - 1)).notices x.num e

/-- An L1A whose accept boundary this is (R154, R173, R174). -/
def Hub.acceptL1a (h : Hub) (x : L1a) : Hub :=
  if !h.live then h.bump F.ACQ_TRIGIGN_COUNT 0
  else
    let st := h.settingsAt x.origin
    let lpresc := setOf st F.ACQ_LSEL_LPRESC 0
    let long := lpresc ≠ 0 && x.num.toNat % lpresc == setOf st F.ACQ_LSEL_LPHASE 0
    let h := h.ledAdd 6 1
    match h.heldOff st long x.origin with
    | some r =>
      let h := h.bump (if r = 0 then F.ACQ_HOFFTIME_COUNT else if r = 1 then F.ACQ_HOFFCNT_COUNT
        else if r = 2 then F.ACQ_HOFFFULL_COUNT else F.ACQ_HOFFSTOP_COUNT) 0
      let w := header tHeldOff h.address (32 + 8 * b2n x.inferred + r) x.num.toNat 2
      { (h.ledAdd 8 1) with answers := h.answers ++ [([w], true)] }
    | none => h.readTrigger x st long

/-- Every L1A whose accept boundary has come, in the order of their decoding. -/
def Hub.accepts (h : Hub) : Hub :=
  let due := h.l1as.filter fun x => reached h.slot x.accept
  (each due { h with l1as := h.l1as.filter fun x => !(reached h.slot x.accept) } fun x h => h.acceptL1a x).refreshTrigs

/-! ### Sections (R170, R175, R182) -/

/-- A section as it goes into a part: channel, first position, positions, and whether the channel continues. -/
structure Secn where
  ch : Nat
  first : Nat
  ps : List Pos
  cont : Bool
  deriving DecidableEq, Repr

/-- Runs of gaps of one type among positions counted from `p`: type, first position, length. -/
def gapRuns (ps : List Pos) (p : Nat) (cur : Option (W8 × Nat × Nat)) : List (W8 × Nat × Nat) :=
  match ps with
  | [] => cur.toList
  | .sample _ _ _ :: rest => cur.toList ++ gapRuns rest (p + 1) none
  | .gap g :: rest =>
    match cur with
    | some (t, f, n) => if t = g then gapRuns rest (p + 1) (some (t, f, n + 1)) else (t, f, n) :: gapRuns rest (p + 1) (some (g, p, 1))
    | none => gapRuns rest (p + 1) (some (g, p, 1))

/-- Splits the positions of a channel where a 64th gap entry would be needed (R170), by fuel; `more` says that the channel goes on in
a later section behind them (R182). -/
def splitGaps (fuel c first : Nat) (more : Bool) (ps : List Pos) : List Secn :=
  match fuel with
  | 0 => []
  | k + 1 =>
    match (gapRuns ps 0 none)[63]? with
    | none => [⟨c, first, ps, more⟩]
    | some (_, f, _) => ⟨c, first, ps.take f, true⟩ :: splitGaps k c (first + f) more (ps.drop f)

/-- Present samples of positions, with their positions, from position `p`. -/
def presentOf (ps : List Pos) (p : Nat) : List (Nat × BitVec 16 × BitVec 2 × Bool) :=
  match ps with
  | [] => []
  | .gap _ :: rest => presentOf rest (p + 1)
  | .sample v f s :: rest => (p, v, f, s) :: presentOf rest (p + 1)

/-- Sample words: four samples each, the first at bits 15-0. -/
def sampleWords (fuel : Nat) (l : List Nat) : List W64 :=
  match fuel with
  | 0 => []
  | k + 1 => if l.isEmpty then [] else
      BitVec.ofNat 64 ((l.take 4).reverse.foldl (fun a v => a * 65536 + v) 0) :: sampleWords k (l.drop 4)

/-- A flag-map word of up to 32 samples. -/
def flagMap (l : List Nat) : W64 := BitVec.ofNat 64 (l.reverse.foldl (fun a v => a * 4 + v) 0)

/-- Flag maps and sample words of the present samples (R182). -/
def dataWords (fuel : Nat) (l : List (Nat × Nat)) : List W64 :=
  match fuel with
  | 0 => []
  | k + 1 => if l.isEmpty then [] else
      let c := l.take 32
      flagMap (c.map fun x => x.2) :: (sampleWords 8 (c.map fun x => x.1) ++ dataWords k (l.drop 32))

/-- Baseline samples that NB asks for. -/
def baseSamples (nb : Nat) : Nat := if nb = 0 then 0 else if nb < 5 then 2 ^ (nb - 1) else 16

/-- The measurement word of a section, and MEAS_SAT (R175). -/
def Hub.measure (h : Hub) (t : Trig) (c : Nat) (l : List (Nat × Nat)) : W64 × Bool :=
  let nb := baseSamples (setOf t.sel F.ACQ_CFG_NB 0)
  let lead := l.filter fun x => x.1 < nb
  let sum := lead.foldl (fun (a : Nat) x => a + x.2) 0
  let base := if lead.isEmpty then h.fld F.CH_PED_PED c else (roundDiv (sum : Int) lead.length).toNat
  let body := l.filter fun x => decide (t.pre ≤ x.1)
  let peak := body.foldl (fun (m : Nat × Nat × Bool) x => if !m.2.2 || m.1 < x.2 then (x.2, x.1, true) else m) (0, 0, false)
  let area : Int := body.foldl (fun (a : Int) x => a + ((x.2 : Int) - (base : Int))) 0
  let sat : Int := satS 24 area
  (BitVec.ofNat 64 (peak.1 * 2 ^ 48 + peak.2.1 % 256 * 2 ^ 40 + base % 65536 * 2 ^ 24 + field 24 sat), decide (sat ≠ area))

/-- Violations of a section: position, whether above, value. -/
def Hub.violations (h : Hub) (t : Trig) (s : Secn) : List (Nat × Bool × Nat) :=
  (presentOf s.ps s.first).filterMap fun x =>
    (h.violates t s.ch x.1 (.sample x.2.1 x.2.2.1 x.2.2.2)).map fun a => (x.1, a, x.2.1.toNat)

/-- The words of a section (R182). -/
def Hub.sectionWords (h : Hub) (t : Trig) (s : Secn) : List W64 :=
  let l := presentOf s.ps s.first
  let m := h.measure t s.ch (l.map fun x => (x.1, x.2.1.toNat))
  let gaps := gapRuns s.ps s.first none
  let fail := t.long && !(h.violations t s).isEmpty
  let any (f : BitVec 2) : Nat := b2n (l.any fun x => x.2.2.1 == f)
  let head := s.ch * 2 ^ 55 + b2n (!t.long) * 2 ^ 54 + b2n s.cont * 2 ^ 53 + s.first % 2 ^ 17 * 2 ^ 36
    + s.ps.length % 65536 * 2 ^ 20 + gaps.length % 64 * 2 ^ 14 + b2n (l.any fun x => x.2.2.2) * 2 ^ 13
    + any 2 * 2 ^ 12 + any 1 * 2 ^ 11 + any 3 * 2 ^ 10 + b2n (!t.long && m.2) * 2 ^ 9 + b2n fail * 2 ^ 8
  BitVec.ofNat 64 head :: ((if t.long then [] else [m.1])
    ++ dataWords l.length (l.map fun x => (x.2.1.toNat, x.2.2.1.toNat))
    ++ gaps.map fun g => BitVec.ofNat 64 (g.1.toNat * 2 ^ 56 + g.2.1 % 2 ^ 24 * 2 ^ 24 + g.2.2 % 2 ^ 24))

/-! ### Parts (R180, R181, R183) -/

/-- The ranges of a record in order: section of the trigger, first position, positions (R183). -/
def Trig.ranges (t : Trig) : List (Nat × Nat × Nat) :=
  if t.streamed then
    (upto (ceilDiv t.width 256)).flatMap fun b =>
      (upto t.sects.length).map fun j => (j, 256 * b, min 256 (t.width - 256 * b))
  else (upto t.sects.length).map fun j => (j, 0, t.width)

/-- The sections that have been read whole, in order, and the words that the first one not read whole would take with
every sample present; none when every section has been read. -/
def Trig.sections (t : Trig) (rs : List (Nat × Nat × Nat)) : List Secn × Option Nat :=
  match rs with
  | [] => ([], none)
  | (j, first, n) :: rest =>
    match t.sects[j]? with
    | none => t.sections rest
    | some s =>
      if t.started && first + n ≤ s.got.length then
        let own := splitGaps (n + 1) s.ch first (decide (first + n < t.width)) ((s.got.drop first).take n)
        let more := t.sections rest
        (own ++ more.1, more.2)
      else ([], some (1 + b2n (!t.long) + ceilDiv n 32 + ceilDiv n 4))

/-- Fills a part: the sections that fit in `room` words, and what is left. -/
def Hub.fill (h : Hub) (t : Trig) (l : List Secn) (room : Nat) : List Secn × List (List W64) × List Secn :=
  match l with
  | [] => ([], [], [])
  | s :: rest =>
    let ws := h.sectionWords t s
    if ws.length ≤ room then
      let f := h.fill t rest (room - ws.length)
      (s :: f.1, ws :: f.2.1, f.2.2)
    else ([], [], l)

/-- The next part of a trigger: its words without the trailer, its sections, and whether it is the last; none while it is not
complete. Of a section not yet read, its length with every sample present decides whether the part ends ahead of it, as in
the example of "Parts". -/
def Hub.nextPart (h : Hub) (t : Trig) : Option (List W64 × List Secn × Bool) :=
  let (all, more) := t.sections t.ranges
  let (chosen, words, rest) := h.fill t (all.drop t.doneSec) 4091
  let used := words.foldl (fun a w => a + w.length) 0
  let last := rest.isEmpty && more.isNone && t.started
  let complete := last || !rest.isEmpty || (match more with
    | some n => !chosen.isEmpty && decide (4091 < used + n)
    | none => false)
  if complete then
    let tw := t.num.toNat * 2 ^ 40 + b2n t.inferred * 2 ^ 39 + b2n t.streamed * 2 ^ 38 + b2n last * 2 ^ 37
      + b2n t.anchor * 2 ^ 36 + t.part % 4096 * 2 ^ 24 + chosen.length % 1024 * 2 ^ 14
    let ww := t.pre % 4096 * 2 ^ 52 + t.post % 65536 * 2 ^ 36 + field 32 t.dtFirst
    let hd := header (if t.long then tLong else tTrigger) h.address 16 t.event.toNat (used + 4)
    some (hd :: BitVec.ofNat 64 tw :: BitVec.ofNat 64 ww :: words.flatten, chosen, last)
  else none

/-- The MASK VIOLATION record of a LONG record, if any sample violated its point (R177, R184). -/
def Hub.violationRecord (h : Hub) (t : Trig) (tw : W64) : Option (List W64) :=
  let per := t.sects.filterMap fun s =>
    match h.violations t ⟨s.ch, 0, s.got, false⟩ with
    | [] => none
    | v :: rest => some (s.ch, v, 1 + rest.length)
  if !t.long || per.isEmpty then none
  else
    let word (x : Nat × (Nat × Bool × Nat) × Nat) : W64 := BitVec.ofNat 64 (x.1 * 2 ^ 55 + x.2.1.1 % 2 ^ 17 * 2 ^ 38
      + min 0xFFFF x.2.2 * 2 ^ 22 + b2n x.2.1.2.1 * 2 ^ 16 + x.2.1.2.2)
    let tw' := tw.toNat / 2 ^ 24 * 2 ^ 24 + per.length % 1024 * 2 ^ 14
    some (header tMaskViol h.address 16 t.event.toNat (per.length + 3) :: BitVec.ofNat 64 tw' :: per.map word)

/-! ### Closing (R185) -/

/-- Positions of a channel that the parts handed over so far hold. -/
def Trig.handed (t : Trig) (c : Nat) : Nat :=
  ((t.sections t.ranges).1.take t.doneSec).foldl (fun a s => if s.ch = c then max a (s.first + s.ps.length) else a) 0

/-- A position that the accept found overwritten has not been read: it is cut too, unless it has been handed over (R609). -/
def Trig.cutEarly (t : Trig) (s : Sect) : List Pos :=
  let done := t.handed s.ch
  ((upto s.got.length).zip s.got).map fun x =>
    if done ≤ x.1 && x.1 < s.early && x.2 == .gap gOverwritten then .gap gCut else x.2

/-- The unread positions of a section: those missing already keep their type, the rest are cut (R609). -/
def Hub.cutRest (h : Hub) (t : Trig) (c p n : Nat) : List Pos :=
  (upto n).map fun k => match h.missing t c (p + k) with
    | some g => .gap g
    | none => .gap gCut

/-- Every pending record is closed. -/
def Hub.closeTrigs (h : Hub) : Hub := forN h.trigs.length h fun i h =>
  match h.trigs[i]? with
  | some t =>
    let h := h.setTrig i { t with
      started := true
      sects := t.sects.map fun (s : Sect) => ({ s with got := t.cutEarly s } : Sect) }
    forN t.sects.length h fun j h =>
      match t.sects[j]? with
      | some s => h.addPos i j (h.cutRest t s.ch s.got.length (t.width - s.got.length))
      | none => h
  | none => h

/-! ### Hand-over to the Mule (R277, R281, R283) -/

/-- What has been read of the first section that has not been read whole. -/
def Trig.inReading (t : Trig) (rs : List (Nat × Nat × Nat)) : List Secn :=
  match rs with
  | [] => []
  | (j, first, n) :: rest =>
    match t.sects[j]? with
    | none => t.inReading rest
    | some s =>
      if !t.started then []
      else if first + n ≤ s.got.length then t.inReading rest
      else if first < s.got.length then splitGaps (n + 1) s.ch first true (s.got.drop first)
      else []

/-- Blocks of the part of a trigger that is in assembly: its words so far, those of the section in reading included, with header,
trigger and window word and trailer (R281). -/
def Hub.partBlocks (h : Hub) (t : Trig) : Nat :=
  let ws := (h.fill t (((t.sections t.ranges).1 ++ t.inReading t.ranges).drop t.doneSec) 4091).2.1
  if ws.isEmpty then 0 else blocksOf (ws.foldl (fun a w => a + w.length) 4)

/-- The HELD-OFF or MASK VIOLATION record that is next cannot get its blocks (R283). -/
def Hub.answerWaits (h : Hub) : Bool :=
  match h.answers with
  | [] => false
  | (ws, _) :: _ => !h.roomFor .acq (blocksOf (ws.length + 1))

/-- The parts in assembly take the blocks that their words need; ACQ_STALL shows that one of them, or a record that waits, cannot (R281,
R283). -/
def Hub.assembles (h : Hub) : Hub :=
  (forN h.trigs.length (h.setFlag F.MULE_STAT_ACQ_STALL 0 h.answerWaits) fun i h =>
    match h.trigs[i]? with
    | some t =>
      let n := h.partBlocks t
      if n ≤ t.blocks then h
      else if h.roomFor .acq (n - t.blocks) then h.setTrig i { t with blocks := n }
      else h.setFld F.MULE_STAT_ACQ_STALL 0 1
    | none => h).refreshMule

/-- Announces a complete record of the acquisition engine, which has taken `had` blocks already, on Q28; none while it must wait. -/
def Hub.announce (h : Hub) (ws : List W64) (had samples : Nat) : Option Hub :=
  if h.roomFor .acq (blocksOf (ws.length + 1) - had) && (h.queue 28).ws.length < 16 then
    let h := (h.push 28 0 true false).1
    some (({ h with mule := { h.mule with
      recs := h.mule.recs ++ [({ ws := ws, cls := .acq, ann := some 28, samples := samples } : Rec)] } }).setFld F.MULE_STAT_ACQ_STALL 0 0)
  else none

/-- Acquisition waits: for blocks, ACQ_STALL shows it (R283). -/
def Hub.acqWaits (h : Hub) (ws : List W64) (had : Nat) : Hub :=
  h.setFlag F.MULE_STAT_ACQ_STALL 0 (!h.roomFor .acq (blocksOf (ws.length + 1) - had))

/-- A closing LEDGER record that waits is completed once every acquisition record before it is (R186, R298). -/
def Hub.closingGoes (h : Hub) : Hub :=
  match h.mule.closing with
  | some ws =>
    if h.mule.beforeA = 0 && h.mule.beforeT = 0 then
      { h with mule := { h.mule with closing := none, recs := h.mule.recs ++ [({ ws := ws, cls := .ledger } : Rec)] } }
    else h
  | none => h

/-- One record of the acquisition engine goes to the Mule: a HELD-OFF or MASK VIOLATION record that waits, else the next
part of the first trigger, in accept order, that has one complete. -/
def Hub.handPart (h : Hub) : Hub :=
  let h := h.settle
  match h.answers with
  | (ws, answers) :: rest =>
    match h.announce ws 0 0 with
    | some h =>
      let h := { h with answers := rest, mule := { h.mule with beforeA := h.mule.beforeA - 1 } }
      (if answers then h.ledAdd 7 1 else h).assembles.closingGoes
    | none => h.acqWaits ws 0
  | [] =>
    match (upto h.trigs.length).find? fun i => ((h.trigs[i]?).bind fun t => h.nextPart t).isSome with
    | none => h
    | some i =>
      match h.trigs[i]?, (h.trigs[i]?).bind fun t => h.nextPart t with
      | some t, some (ws, secs, last) =>
        match h.announce ws t.blocks (secs.foldl (fun a s => a + (presentOf s.ps 0).length) 0) with
        | none => h.acqWaits ws t.blocks
        | some h' =>
          if last then
            let v := h.violationRecord t ((ws[1]?).getD 0)
            let old := b2n (decide (0 < h'.mule.beforeT))
            let h' := { h' with trigs := h'.trigs.eraseIdx i, mule := { h'.mule with beforeT := h'.mule.beforeT - 1 } }
            let h' := match v with
              | some r => { (h'.bump F.ACQ_MASKVIOL_COUNT 0) with
                  answers := [(r, false)], mule := { h'.mule with beforeA := h'.mule.beforeA + old } }
              | none => h'
            ((h'.ledAdd 7 1).refreshTrigs).assembles.closingGoes
          else (h'.setTrig i { t with part := t.part + 1, doneSec := t.doneSec + secs.length, blocks := 0 }).assembles
      | _, _ => h

/-! ### Commands -/

/-- TRIGGER_ACCEPT. The L1As whose accept boundary opened this slot are accepted (R154). -/
def execTriggerAccept (s : State) : Host.Outcome State Fault Refusal := .next { s with hub := s.hub.accepts }

/-- RECORD_READ_START. A buffered record whose window is stored begins to be read (R164). -/
def execRecordReadStart (s : State) : Host.Outcome State Fault Refusal := .next { s with hub := s.hub.startReads }

/-- LATENCY_BANK_READ. A bank reads the unread word with the oldest needed sample; its check found an error or not
(R151, R165). -/
def execLatencyBankRead (g : Fin 16) (ecc : Ecc) (s : State) : Host.Outcome State Fault Refusal :=
  goesOn s (s.hub.settle.bankRead g.val ecc).assembles

/-- RECORD_PART_HANDOVER. A record of the acquisition engine is handed to the Mule (R183, R187, R277). -/
def execRecordPartHandover (s : State) : Host.Outcome State Fault Refusal := .next { s with hub := s.hub.handPart }

/-- MASK_REARM. Writing 1 to REARM clears STOPPED (R178). -/
def execMaskRearm (s : State) : Host.Outcome State Fault Refusal :=
  .next { s with hub := s.hub.awake (s.hub.setFld F.ACQ_MASKCTL_STOPPED 0 0) }

end Sys2Proof.Machine
end

