-- ==== Sys2Proof/Machine/Mule.lean ====
section
/-! DEFINITION. The Mule: HIT BLOCKs, records from items, the ledger records, hand-over and the drain
(09_records_queues_ledger.md). The commands are at the end. -/

namespace Sys2Proof.Machine

/-! ### HIT BLOCKs (R289-R294, R615) -/

/-- Slots of a span. -/
def Hub.span (h : Hub) : Nat := max 1 (h.fld F.MULE_HBCFG_SPAN 0)

/-- The span behind a span: spans begin at the multiples of S, and the last one before SLOT_COUNT wraps is cut short (R289). -/
def Hub.nextSpan (h : Hub) (b : W48) : W48 := if b.toNat + h.span < 2 ^ 48 then b + BitVec.ofNat 48 h.span else 0

/-- The span whose push window holds a slot (R289). -/
def Hub.spanOf (h : Hub) (s : W48) : W48 := BitVec.ofNat 48 ((s - 6#48).toNat / h.span * h.span)

/-- First slot after the push window of a span. -/
def Hub.spanEnd (h : Hub) (b : W48) : W48 := h.nextSpan b + 6#48

/-- Opens the HIT BLOCK of the next span, when the window has begun, in the drain before the drain did (R615), fewer than two are
open and a block is free. -/
def Hub.openNext (h : Hub) : Hub :=
  match h.mule.span with
  | none => h
  | some b0 =>
    let b := if h.mule.blocks.isEmpty then b0 else h.nextSpan b0
    if 2 ≤ h.mule.blocks.length || !reached h.slot (b + 6#48) || (h.mule.drain.isSome && reached (b + 6#48) h.mule.stop) then h
    else if h.roomFor .hit 1 then
      { h with mule := { h.mule with blocks := h.mule.blocks ++ [{ b := b }] } }
    else h.setFld F.MULE_STAT_HIT_STALL 0 1

/-- The first word that a group holds for the Mule: of its hit queue, or of its fallback buffer when that was pushed in an
earlier slot (R292). -/
def Hub.headOf (h : Hub) (g : Nat) : Option HbWord :=
  let q : Option HbWord := (h.queue g).ws.head?.map fun (w : QWord) =>
    ({ g := g, kind := if w.gap then 2 else 0, w := w.data, slot := w.slot, hit := w.hit, last := w.last } : HbWord)
  let f : Option HbWord := (h.oxOf g).fb.head?.map fun (x : W64 × W48) =>
    ({ g := g, kind := 1, w := x.1, slot := x.2, hit := true } : HbWord)
  match q, f with
  | some a, some b => if reached b.slot a.slot then some a else some b
  | some a, none => some a
  | none, x => x

/-- Removes the word that `headOf` names. -/
def Hub.dropHead (h : Hub) (g : Nat) (w : HbWord) : Hub :=
  if w.kind = 1 then h.setOx g { h.oxOf g with fb := (h.oxOf g).fb.drop 1 }
  else match h.pop g with
    | some (_, h) => h
    | none => h

/-- A record of a span, header and body (R291-R293). -/
def Hub.hitRecord (h : Hub) (blk : HitBlock) (more : Bool) : Rec :=
  { ws := header tHit h.address (32 * b2n more + 16 + blk.part % 16) blk.b.toNat (spanLength blk.ws) :: spanBody blk.ws, cls := .hit }

/-- The words of an item of group `g` that is torn leave the open HIT BLOCKs (R276). -/
def Hub.tearGroup (h : Hub) (g : Nat) : Hub :=
  let r := h.mule.blocks.reverse.foldl (fun (a : List HitBlock × Bool) blk =>
    if a.2 then (blk :: a.1, true)
    else
      let t := tearItem g blk.ws.reverse
      ({ blk with ws := t.1.reverse } :: a.1, t.2)) ([], false)
  { h with mule := { h.mule with blocks := r.1 } }

/-- Puts the open HIT BLOCK of the same span. -/
def Hub.setBlock (h : Hub) (blk : HitBlock) : Hub :=
  { h with mule := { h.mule with blocks := h.mule.blocks.map fun (x : HitBlock) => if x.b = blk.b then blk else x } }

/-- The word that leads a group goes into an open HIT BLOCK, or opens the next record of the span when the one in progress would
become too long (R293); answers whether blocks were free for it. -/
def Hub.placeWord (h : Hub) (g : Nat) (w : HbWord) (blk : HitBlock) : Hub × Bool :=
  let grown := blk.ws ++ [w]
  if 4095 < spanLength grown then
    if h.roomFor .hit 1 then
      let h := (h.dropHead g w).setBlock { blk with ws := [w], part := blk.part + 1 }
      ({ h with mule := { h.mule with recs := h.mule.recs ++ [h.hitRecord blk true] } }, true)
    else (h.setFld F.MULE_STAT_HIT_STALL 0 1, false)
  else if h.roomFor .hit (spanBlocks grown - spanBlocks blk.ws) then
    ((h.dropHead g w).setBlock { blk with ws := grown }, true)
  else (h.setFld F.MULE_STAT_HIT_STALL 0 1, false)

/-- The open HIT BLOCK of a span. -/
def Hub.blockOf (h : Hub) (b : W48) : Option HitBlock := h.mule.blocks.find? fun x => x.b == b

/-- The word that leads a group has been pushed in the cycle of the slot that the Mule is in, or in a later one (R270). -/
def Hub.tooFresh (h : Hub) (g : Nat) : Bool :=
  match (h.queue g).ws.head? with
  | some w => w.slot == h.slot && decide (h.mule.cyc ≤ w.cyc)
  | none => false

/-- The Mule takes a word of a group into the block of its span, when that is open and has room; answers whether it did. A GAP
marker tears the item in progress (R276). A hit counts as delivered (R294). -/
def Hub.takeWord (h : Hub) (g : Nat) : Hub × Bool :=
  match h.headOf g with
  | none => (h, false)
  | some w =>
    if (h.blockOf (h.spanOf w.slot)).isNone || (w.kind != 1 && h.tooFresh g) then (h, false)
    else
      let h := if w.kind = 2 then h.tearGroup g else h
      match h.blockOf (h.spanOf w.slot) with
      | none => (h, false)
      | some blk =>
        let r := h.placeWord g w blk
        (if r.2 && w.hit then (r.1.ledAdd 1 1).ledSub 0x10 1 else r.1, r.2)

/-- The group whose turn it is next. -/
def Hub.turnTo (h : Hub) (g : Nat) : Hub := { h with mule := { h.mule with turn := g % 16 } }

/-- One cycle of the Mule at the hit queues: up to two words, from different groups, in rotation (R290). -/
def Hub.takeCycle (h : Hub) : Hub :=
  let step (h : Hub) (from_ skip : Nat) : Hub × Option Nat :=
    (upto 16).foldl (fun (acc : Hub × Option Nat) k =>
      match acc.2 with
      | some _ => acc
      | none =>
        let g := (from_ + k) % 16
        if g = skip then acc
        else
          let r := acc.1.takeWord g
          if r.2 then (r.1, some g) else (r.1, none)) (h, none)
  let a := step h h.mule.turn 16
  match a.2 with
  | none => a.1
  | some g =>
    let b := step a.1 ((g + 1) % 16) g
    match b.2 with
    | none => b.1.turnTo (g + 1)
    | some g2 => b.1.turnTo (g2 + 1)

/-- Some hit queue or fallback buffer holds a word. -/
def Hub.hitWords (h : Hub) : Bool := (upto 16).any fun g => (h.headOf g).isSome

/-- The Mule is in cycle `n` of the slot. -/
def Hub.muleAt (h : Hub) (n : Nat) : Hub := { h with mule := { h.mule with cyc := n } }

/-- The Mule at the hit queues up to cycle `cyc` of the slot, one cycle after the other; a cycle in which it finds nothing is gone
(R290). -/
def Hub.muleBy (h : Hub) (cyc : Nat) : Hub :=
  let last := min 16 cyc
  if last ≤ h.mule.cyc then h
  else if h.hitWords then
    (forN 16 h.openNext.openNext fun _ h =>
      if h.mule.cyc < last then
        let h := h.muleAt (h.mule.cyc + 1)
        if h.hitWords then h.takeCycle else h
      else h).refreshMule
  else h.muleAt last

/-- The end of a slot for the Mule: what its sixteen cycles leave waits. HIT_STALL shows whether a word waits for a block (R283). -/
def Hub.muleSlot (h : Hub) : Hub :=
  let h := if h.flag F.MULE_STAT_HIT_STALL 0 then h.setFld F.MULE_STAT_HIT_STALL 0 0 else h
  let h := (h.openNext.openNext).muleBy 16
  h.muleAt 0

/-- Closes the oldest open HIT BLOCK. -/
def Hub.closeBlock (h : Hub) : Hub :=
  match h.mule.blocks with
  | [] => h
  | blk :: rest =>
    { h with mule := { h.mule with
        blocks := rest
        recs := h.mule.recs ++ [h.hitRecord blk false]
        span := h.mule.span.map h.nextSpan } }

/-- A word that belongs to a span still waits in a queue or a fallback buffer. -/
def Hub.spanWaits (h : Hub) (b : W48) : Bool := (upto 16).any fun g =>
  ((h.queue g).ws.any fun w => h.spanOf w.slot == b) || ((h.oxOf g).fb.any fun x => h.spanOf x.2 == b)

/-- The oldest HIT BLOCK closes, once its push window is over and every word that belongs to it has been taken (R291). -/
def Hub.hitBlockCloses (h : Hub) : Hub :=
  match h.mule.span with
  | none => h
  | some b =>
    if !reached h.slot (h.spanEnd b) then h
    else (if h.spanWaits b then h else h.closeBlock).refreshMule

/-! ### Records from items (R295-R297) -/

/-- Queues whose items become records. -/
def itemQueue (q : Nat) : Bool := (16 ≤ q && q ≤ 27) || q == 30 || q == 31

/-- The Mule is the consumer of a queue. -/
def Hub.muleConsumes (h : Hub) (q : Nat) : Bool := q < 16 || q == 28 || q == 29 || q == 30 || h.fld F.Q_CFG_CONS q == 0

/-- SOURCE of the records of a queue: the group of an Ox producer, else 16 (R295). -/
def Hub.sourceOf (h : Hub) (q : Nat) : Nat :=
  let p := h.fld F.Q_CFG_PROD q
  if 0x20 ≤ p && p ≤ 0x2F then p - 0x20 else 16

/-- A record made by the Mule joins the completed ones. -/
def Hub.complete (h : Hub) (ws : List W64) (c : Cls) : Hub :=
  { h with mule := { h.mule with recs := h.mule.recs ++ [{ ws := ws, cls := c }] } }

/-- The words taken so far of the item of a queue. -/
def Hub.itemOf (h : Hub) (q : Nat) : List QWord := Store.get (fun _ => []) h.mule.items q

/-- Puts the words taken of the item of a queue. -/
def Hub.setItem (h : Hub) (q : Nat) (l : List QWord) : Hub :=
  { h with mule := { h.mule with items := Store.set (fun _ => ([] : List QWord)) h.mule.items q l } }

/-- A complete item becomes a record, or is discarded and counted (R295, R296). -/
def Hub.makeRecord (h : Hub) (q : Nat) (l : List QWord) : Hub :=
  match l with
  | [] => h
  | w :: rest =>
    let t := hdrType w.data
    if h.itemFits q l then
      h.complete (header t h.address (h.sourceOf q) (hdrSlot w.data) (l.length + 1) :: rest.map fun x => x.data) (clsOfType t)
    else (h.bump F.MULE_BADITEM_COUNT 0).ledAdd 0xB 1

/-- The GAP record of a marker (R297). -/
def Hub.gapRecord (h : Hub) (q : Nat) (w : QWord) : Hub :=
  h.complete [header tGap h.address (h.sourceOf q) w.slot.toNat 3,
    BitVec.ofNat 64 (q * 2 ^ 56 + bits w.data.toNat 16 0)] .ctrl

/-- The Mule pops words of a queue until a record is made or nothing more can be taken, by fuel (R283, R295-R297). Words
past the 4,094th of an item are popped without being kept. -/
def Hub.itemRecord (fuel : Nat) (h : Hub) (q : Nat) : Hub :=
  match fuel with
  | 0 => h
  | k + 1 =>
    match (h.queue q).ws.head? with
    | none => h
    | some w =>
      let l := h.itemOf q
      if w.gap then
        if h.roomFor .ctrl 1 then
          match h.pop q with
          | some (_, h) => (h.setItem q []).gapRecord q w
          | none => h
        else h
      else
        let grown := if l.length ≤ 4094 then l ++ [w] else l
        let had := if l.isEmpty then 0 else blocksOf (l.length + 1)
        if !h.itemFits q grown || h.roomFor (itemCls grown) (blocksOf (grown.length + 1) - had) then
          match h.pop q with
          | some (_, h) =>
            if w.last then (h.setItem q []).makeRecord q grown else Hub.itemRecord k (h.setItem q grown) q
          | none => h
        else h

/-- One record of a queue. -/
def Hub.muleItem (h : Hub) (q : Nat) : Hub :=
  if itemQueue q && h.muleConsumes q then (h.itemRecord 17 q).refreshMule else h

/-- A unit of the hub pushes an item into Q30 word by word. DESIGN CHOICE: the spec does not say how fast such a unit pushes; where a word
finds the queue full, the Mule, which takes from Q30 in every cycle, takes what it can first, so that an item longer than the queue
can pass (notes/assumptions/92.md). -/
def Hub.pushOwn (h : Hub) (ws : List W64) : Hub :=
  match ws with
  | [] => h
  | w :: rest =>
    let h := if (h.queue 30).ws.length < 16 then h else h.muleItem 30
    ((h.push 30 w rest.isEmpty false).1).pushOwn rest

/-- An item of a hub unit that may be longer than Q30. In a twin unit it is a unit-local event (R508). -/
def Hub.ownItem (h : Hub) (ws : List W64) : Hub :=
  if h.twinLocal then { h with twin := { h.twin with items := h.twin.items ++ [ws] } } else h.pushOwn ws

/-! ### The ledger (R299-R303) -/

/-- The words of a LEDGER record but for its trailer. -/
def Hub.ledgerWords (h : Hub) (closing skipped : Bool) : List W64 :=
  let wraps := h.mule.wraps.toNat
  let w1 := h.slot.toNat + b2n (wraps != 0) * 2 ^ 63 + b2n closing * 2 ^ 62 + b2n skipped * 2 ^ 61
    + b2n h.mule.firstLedger * 2 ^ 60
  header tLedger h.address 16 h.slot.toNat 22 :: BitVec.ofNat 64 w1 :: BitVec.ofNat 64 (h.fld F.RT_TIME_NS_NS 0)
    :: (upto 18).map fun i => BitVec.ofNat 64 (i * 2 ^ 56 + b2n (bit wraps i && i < 16) * 2 ^ 48 + h.led i)

/-- A LEDGER record waits to be handed over: a periodic one, or a closing one among the completed records or behind the records of the
acquisition engine. -/
def Hub.ledgerWaits (h : Hub) : Bool :=
  h.mule.ledger.isSome || h.mule.closing.isSome || h.mule.recs.any fun r => r.cls == .ledger

/-- The LEDGER records that wait go. -/
def Hub.dropLedgers (h : Hub) : Hub :=
  { h with mule := { h.mule with ledger := none, closing := none, recs := h.mule.recs.filter fun r => r.cls != .ledger } }

/-- A LEDGER record is made; it replaces one that still waits (R302, R303). -/
def Hub.makeLedger (h : Hub) : Hub :=
  let skipped := h.ledgerWaits
  let ws := h.ledgerWords false skipped
  let h := if skipped then h.bump F.MULE_LEDSKIP_COUNT 0 else h
  { h.dropLedgers with mule := { h.dropLedgers.mule with ledger := some ws } }

/-- Whether this boundary is a ledger boundary that has not been taken yet (R301). -/
def Hub.ledgerDue (h : Hub) : Bool :=
  let p := h.fld F.MULE_LEDCFG_PERIOD 0
  let fresh := match h.mule.lastLedger with
    | some s => s != h.slot
    | none => true
  let time :=
    if p = 0 then h.atOrbit && (match h.mule.lastLedger with
      | some s => decide (2048 ≤ slotsFrom s h.slot)
      | none => true)
    else h.slot.toNat % 2 ^ (min 24 (max 11 p)) == 0
  h.flag F.HUB_ADDR_VALID 0 && fresh && time

/-- A ledger boundary, where this slot opened with one. -/
def Hub.ledgerBoundary (h : Hub) : Hub :=
  if h.ledgerDue then
    let h := h.makeLedger
    { h with mule := { h.mule with lastLedger := some h.slot } }
  else h

/-! ### The drain (R298, R299) -/

/-- The hits in flight that the closing LEDGER record states are dropped (R299). -/
def Hub.dropFlight (h : Hub) : Hub :=
  let n := h.led 0x10
  let h := (h.ledAdd 3 n).ledSub 0x10 n
  let h := { h with hits := [], early := [], dead := [] }
  forN 16 h fun e h =>
    let x := h.oxOf e
    if x.fb.isEmpty && x.prim.isEmpty && x.sec.isEmpty then h else h.setOx e { x with fb := [], prim := [], sec := [] }

/-- The closing LEDGER record is made, and ends the drain (R298, R299). It goes behind the records completed by then and those that the
acquisition engine has closed (R186). A LEDGER record that still waits is replaced (R303). -/
def Hub.drainCloses (h : Hub) : Hub :=
  let skipped := h.ledgerWaits
  let ws := h.ledgerWords true skipped
  let h := (if skipped then h.bump F.MULE_LEDSKIP_COUNT 0 else h).dropLedgers
  let h := { h with mule := { h.mule with
    ledger := none, closing := some ws, beforeA := h.answers.length, beforeT := h.trigs.length, drain := none } }
  (h.closingGoes.dropFlight).setFld F.MULE_STAT_DRAIN 0 0

/-- The closing LEDGER record is made when acquisition and the Mule have handed over everything that comes before it. -/
def Hub.closingLedger (h : Hub) : Hub :=
  if h.mule.drain = some 0 && h.trigs.isEmpty && h.answers.isEmpty && h.mule.recs.isEmpty then h.drainCloses else h

/-- Records of the acquisition engine are handed to the Mule while they can be, by fuel. -/
def Hub.handAll (fuel : Nat) (h : Hub) : Hub :=
  match fuel with
  | 0 => h
  | k + 1 => if h.trigs.isEmpty && h.answers.isEmpty then h else Hub.handAll k h.handPart

/-- Closes every open HIT BLOCK with what it has taken. -/
def Hub.closeBlocks (h : Hub) : Hub := h.closeBlock.closeBlock

/-- What the Mule does by the end of the drain (R298): it has taken what it can, closes the HIT BLOCKs, and flushes the
rest of the queues it consumes; Q28 and Q29 are drained whole. -/
def Hub.drainEnds (h : Hub) : Hub :=
  match h.mule.drain with
  | some (_ + 1) =>
    let h := forN 4 h fun _ h => h.hitBlockCloses
    let h := forN 32 h fun q h => if itemQueue q && h.muleConsumes q then forN 16 h fun _ h => h.muleItem q else h
    let h := h.handAll 16
    let h := h.closeBlocks
    let h := forN 32 h fun q h =>
      if h.muleConsumes q && q != 28 && q != 29 && !((h.queue q).ws.isEmpty && !(h.queue q).openItem) then h.flush q else h
    let h := { h with mule := { h.mule with drain := some 0, span := none, items := [] } }
    h.closingLedger.refreshMule
  | some 0 => h.closingLedger.refreshMule
  | none => h

/-- The drain begins as the hub leaves the running modes. -/
def Hub.drainStarts (h : Hub) : Hub :=
  ({ h with mule := { h.mule with drain := some 64, stop := h.slot } }).setFld F.MULE_STAT_DRAIN 0 1

/-- One slot of the drain. -/
def Hub.drainSlot (h : Hub) : Hub :=
  match h.mule.drain with
  | some 0 => h.closingLedger
  | some 1 => h.drainEnds
  | some (n + 1) => { h with mule := { h.mule with drain := some n } }
  | none => h

/-! ### Hand-over (R284, R285, R474) -/

/-- The compression engine takes a record: none is being coded and none waits. -/
def Hub.cmpFree (h : Hub) : Bool := h.cmp.waiting.isEmpty && h.cmp.job.isNone

/-- A record leaves the Mule with its trailer: number, CRC, RECORDS. `bad` inverts the CRC (R474). -/
def Hub.handOn (h : Hub) (ws : List W64) (c : Cls) (bad : Bool) : Hub :=
  let seq : W32 := BitVec.ofNat 32 (h.fld F.MULE_SEQ_SEQ 0)
  let crc := crcWords ws
  let ws := ws ++ [pair (if bad then ~~~crc else crc) seq]
  let h := (h.setWord A.MULE_SEQ (seq + 1#32)).ledAdd 0xC 1
  { h with cmp := { h.cmp with waiting := h.cmp.waiting ++ [{ ws := ws, cls := c }] } }

/-- What a check of record memory found; where the word lies the spec leaves open, so its index is an open value. -/
def Hub.recordCheck (h : Hub) (ecc : Ecc) : Hub :=
  match ecc with
  | .ok => h
  | e =>
    let word := h.openValue.toNat % 131072
    let code := if e = .corrected then 0x10 else 0x13
    h.tookOpen.report { mkReport code (unitOf 2 0x10) with master := 0x21, access := 1, addr := BitVec.ofNat 24 word }

/-- A LEDGER record is handed over: its WRAP bits have been told, and it was the first or not. -/
def Hub.ledgerGoes (h : Hub) (ws : List W64) : Hub :=
  let told := (upto 18).filter fun i => bit (ws[3 + i]?.getD 0).toNat 48
  let h := { h with mule := { h.mule with
    firstLedger := false
    wraps := h.mule.wraps &&& ~~~(BitVec.ofNat 18 (maskOf told)) } }
  h.handOn ws .ledger false

/-- A closing LEDGER record as it is handed over: the records ahead of it have gone since it was made, so that RECORDS is its own number,
and none of their samples is in flight (R304). DESIGN CHOICE: R302 has every value copied as the record is made; where records that
wait then go first, these two follow them, so that the identities hold (notes/assumptions/93.md). -/
def Hub.closingWords (h : Hub) (ws : List W64) : List W64 :=
  let put (i v : Nat) (ws : List W64) : List W64 :=
    ws.set (3 + i) (BitVec.ofNat 64 (((ws[3 + i]?).getD 0).toNat / 2 ^ 48 * 2 ^ 48 + v % 2 ^ 48))
  put 0x11 0 (put 0xC (h.led 0xC) ws)

/-- The next record is handed over (R284): a LEDGER record of a ledger boundary first, else the oldest completed one. -/
def Hub.muleHands (h : Hub) (ecc : Ecc) : Hub :=
  if !h.cmpFree then (if h.mule.ledger.isSome || !h.mule.recs.isEmpty then h.setFld F.MULE_STAT_HAND_STALL 0 1 else h)
  else
    let h := h.setFld F.MULE_STAT_HAND_STALL 0 0
    match h.mule.ledger with
    | some ws => { h with mule := { h.mule with ledger := none } }.ledgerGoes ws
    | none =>
      match h.mule.recs with
      | [] => h
      | r :: rest =>
        let h := { h with mule := { h.mule with recs := rest } }
        let h := if r.samples = 0 then h else h.ledSub 0x11 r.samples
        let h := match r.ann with
          | some q => match h.pop q with
            | some (_, h) => h
            | none => h
          | none => h
        let h := if r.cls = .ledger then h.ledgerGoes (h.closingWords r.ws) else (h.recordCheck ecc).handOn r.ws r.cls (ecc == .uncorrectable)
        h.closingLedger.refreshMule

/-! ### Commands -/

/-- HIT_BLOCK_CLOSE. The HIT BLOCK of the oldest span closes once its push window is over and its words have been taken
(R291). -/
def execHitBlockClose (s : State) : Host.Outcome State Fault Refusal := .next { s with hub := s.hub.hitBlockCloses }

/-- MULE_ITEM_RECORD. The Mule takes an item of a queue it consumes and makes a record of it, or of a GAP marker
(R295-R297). -/
def execMuleItemRecord (q : Fin 32) (s : State) : Host.Outcome State Fault Refusal :=
  .next { s with hub := s.hub.muleItem q.val }

/-- MULE_HANDOVER. A completed record is handed whole to the compression engine; the check of its words in record memory
found an error or not (R284, R285, R474). -/
def execMuleHandover (ecc : Ecc) (s : State) : Host.Outcome State Fault Refusal :=
  goesOn s (s.hub.muleHands ecc)

/-- MULE_DRAIN. The drain after the running modes ends (R298). -/
def execMuleDrain (s : State) : Host.Outcome State Fault Refusal := .next { s with hub := s.hub.drainEnds }

/-- LEDGER_BOUNDARY. A ledger boundary has opened this slot (R301, R302). -/
def execLedgerBoundary (s : State) : Host.Outcome State Fault Refusal := .next { s with hub := s.hub.ledgerBoundary }

end Sys2Proof.Machine
end

