-- ==== Sys2Proof/Machine/Compress.lean ====
section
/-! DEFINITION. The compression engine: contexts, the native and the forerunner code, output space, verification
(10_compression.md). The commands are at the end. -/

namespace Sys2Proof.Machine

/-! ### Contexts (R305-R307) -/

/-- The context that codes a record, if any (R305). -/
def Hub.cmpContext (h : Hub) (w : W64) : Option Nat :=
  let t := hdrType w
  if !h.flag F.CMP_CFG_EN 0 || t ∈ [0, tLedger, tReply, tNotice, tTwinSync, tCompressed] then none
  else (upto 32).find? fun k =>
    h.flag F.CMP_CTXCFG_EN k && h.fld F.CMP_CTXCFG_TYPE k == t
      && (h.flag F.CMP_CTXCFG_ANYSRC k || h.fld F.CMP_CTXCFG_SOURCE k == hdrSource w)

/-- Marks contexts for reset (R307). -/
def Hub.markContexts (h : Hub) (p : Nat → Bool) : Hub :=
  forN 32 h fun k h => if p k then h.setFld F.CMP_CTXST_RSTPEND k 1 else h

/-- At an orbit boundary the contexts with ORBRST are marked (R307). -/
def Hub.contextsOrbit (h : Hub) : Hub := h.markContexts fun k => h.flag F.CMP_CTXCFG_ORBRST k

/-! ### The native code (R309-R311) -/

/-- Symbol i of a body word. -/
def symbol (w : W64) (i : Nat) : BitVec 16 := w.extractLsb' (16 * i) 16

/-- The four deltas of a word (R309). -/
def deltas (p : BitVec 16) (w : W64) : List Int :=
  let d (a b : BitVec 16) : Int := (a - b).toInt
  [d (symbol w 0) p, d (symbol w 1) (symbol w 0), d (symbol w 2) (symbol w 1), d (symbol w 3) (symbol w 2)]

/-- Classes of a body word (R311). -/
inductive WordClass where
  | zero
  | d4
  | d8
  | lit
  deriving DecidableEq, Repr

/-- The class of a body word. -/
def classify (p : BitVec 16) (w : W64) : WordClass :=
  if w = 0 then .zero
  else if (deltas p w).all fun d => decide (-8 ≤ d) && decide (d ≤ 7) then .d4
  else if (deltas p w).all fun d => decide (-128 ≤ d) && decide (d ≤ 127) then .d8
  else .lit

/-- Code word of a zero run. -/
def zrunCode (n : Nat) : Nat × Nat := (6, n - 1)

/-- Code word of a word by its deltas, of `b` bits each. -/
def deltaCode (pre b : Nat) (ds : List Int) : Nat × Nat :=
  (2 + 4 * b, ds.foldl (fun a d => a * 2 ^ b + field b d) pre)

/-- A literal word as it is written: x0 first. -/
def litValue (w : W64) : Nat :=
  (((symbol w 0).toNat * 65536 + (symbol w 1).toNat) * 65536 + (symbol w 2).toNat) * 65536 + (symbol w 3).toNat

/-- Code words of a literal group: header, then its words. -/
def groupCode (ws : List W64) : List (Nat × Nat) :=
  (8, 6 * 32 + (ws.length - 1)) :: ws.map fun w => (64, litValue w)

/-- Code word END. -/
def endCode : Nat × Nat := (4, 14)

/-- Bits of code words. -/
def codeBits (l : List (Nat × Nat)) : Nat := l.foldl (fun a c => a + c.1) 0

/-- The space held of a job (R313). -/
def Job.space (j : Job) : Nat := 4096 * j.blocks - j.nbits

/-- Writes code words. -/
def Job.put (j : Job) (l : List (Nat × Nat)) : Job := { j with code := l.reverse ++ j.code, nbits := j.nbits + codeBits l }

/-- Writes code words when they fit in the space held, taking one more block when `limit` lets it; none: a stall (R313). -/
def Job.emit (j : Job) (limit : Nat) (l : List (Nat × Nat)) : Option Job :=
  if codeBits l ≤ j.space then some (j.put l)
  else if j.blocks < limit then some ({ j with blocks := j.blocks + 1 }.put l)
  else none

/-- Writes the open literal group (R314): whole when it fits; else as many words as fit, and the rest stays open until the
next block. The answer's flag tells that the engine stalls. -/
def Job.group (j : Job) (limit : Nat) : Job × Bool :=
  let m := j.lit.length
  if 8 + 64 * m ≤ j.space then ({ j.put (groupCode j.lit) with lit := [] }, false)
  else
    let k := (j.space - 8) / 64
    let j := if 72 ≤ j.space then { j.put (groupCode (j.lit.take k)) with lit := j.lit.drop k } else j
    if j.blocks < limit then ({ j with blocks := j.blocks + 1 }, false) else (j, true)

/-- One action of the native encoder: it writes a code word or takes a body word. The answer's flag tells that it stalls. -/
def Job.native (j : Job) (limit : Nat) : Job × Bool :=
  match j.rest with
  | [] =>
    if j.zrun > 0 then
      match j.emit limit [zrunCode j.zrun] with
      | some j => ({ j with zrun := 0 }, false)
      | none => (j, true)
    else if !j.lit.isEmpty then j.group limit
    else
      match j.emit limit [endCode] with
      | some j => ({ j with ended := true }, false)
      | none => (j, true)
  | w :: rest =>
    let kind := if j.vfail then WordClass.lit else classify j.p w
    if kind ≠ .zero && j.zrun > 0 || j.zrun = 16 then
      match j.emit limit [zrunCode j.zrun] with
      | some j => ({ j with zrun := 0 }, false)
      | none => (j, true)
    else if kind ≠ .lit && !j.lit.isEmpty || 32 ≤ j.lit.length then j.group limit
    else
      match kind with
      | .zero => ({ j with zrun := j.zrun + 1, rest := rest }, false)
      | .lit => ({ j with lit := j.lit ++ [w], p := symbol w 3, rest := rest }, false)
      | k =>
        match j.emit limit [if k = .d4 then deltaCode 1 4 (deltas j.p w) else deltaCode 2 8 (deltas j.p w)] with
        | some j => ({ j with p := symbol w 3, rest := rest }, false)
        | none => (j, true)

/-! ### The forerunner code (R321-R323) -/

/-- A control word. -/
def controlWord (kind n : Nat) : W64 := BitVec.ofNat 64 (kind * 2 ^ 62 + n % 4096)

/-- Words at the head of a list that equal one word. -/
def sameAs (x : W64) (ws : List W64) : Nat := (ws.takeWhile fun w => w == x).length

/-- The forerunner code area of a body, by fuel: the literals gathered so far, newest first, and the word before. -/
def forerunner (fuel : Nat) (ws lit : List W64) (prev : Option W64) : List W64 :=
  let flush (k : List W64) : List W64 := if lit.isEmpty then k else controlWord 0 lit.length :: (lit.reverse ++ k)
  match fuel with
  | 0 => flush [controlWord 3 0]
  | k + 1 =>
    match ws with
    | [] => flush [controlWord 3 0]
    | w :: rest =>
      let z := sameAs 0 ws
      let r := match prev with
        | some p => if p = 0 then 0 else sameAs p ws
        | none => 0
      if 2 ≤ z then flush (controlWord 1 z :: forerunner k (ws.drop z) [] (some 0))
      else if 2 ≤ r then flush (controlWord 2 r :: forerunner k (ws.drop r) [] prev)
      else forerunner k rest (w :: lit) (some w)

/-- One action of the forerunner encoder: one word of the code area is written. -/
def Job.fore (j : Job) (limit : Nat) : Job × Bool :=
  match j.rest with
  | [] => ({ j with ended := true }, false)
  | w :: rest =>
    match j.emit limit [(64, w.toNat)] with
    | some j => ({ j with rest := rest }, false)
    | none => (j, true)

/-! ### Decoding (R316, R321, R324) -/

/-- `k` bits of a stream of `n` bits with the value `v`, from bit `pos` on, where bit 0 is written first. -/
def streamBits (v n pos k : Nat) : Option Nat := if pos + k ≤ n then some (v / 2 ^ (n - pos - k) % 2 ^ k) else none

/-- A word of four symbols. -/
def wordOf (a b c d : BitVec 16) : W64 := d ++ c ++ b ++ a

/-- `m` literal words from bit `pos` on (R310). -/
def literals (v n pos m : Nat) : Option (List W64) :=
  (upto m).mapM fun k => (streamBits v n (pos + 64 * k) 64).map fun x =>
    wordOf (BitVec.ofNat 16 (x / 2 ^ 48)) (BitVec.ofNat 16 (x / 2 ^ 32)) (BitVec.ofNat 16 (x / 2 ^ 16)) (BitVec.ofNat 16 x)

/-- The word whose deltas, of `b` bits each, follow bit `pos`. -/
def deltaWord (v n pos b : Nat) (p : BitVec 16) : Option W64 :=
  (streamBits v n pos (4 * b)).map fun x =>
    let d (i : Nat) : BitVec 16 := BitVec.ofInt 16 (signed b (x / 2 ^ (b * (3 - i)) % 2 ^ b))
    wordOf (p + d 0) (p + d 0 + d 1) (p + d 0 + d 1 + d 2) (p + d 0 + d 1 + d 2 + d 3)

/-- The native decoder: the body, when the stream holds whole code words up to END and zeros behind it; by fuel. -/
def decodeNative (fuel v n pos : Nat) (p : BitVec 16) (out : List W64) : Option (List W64) :=
  match fuel with
  | 0 => none
  | k + 1 =>
    match streamBits v n pos 2 with
    | some 0 => (streamBits v n (pos + 2) 4).bind fun z => decodeNative k v n (pos + 6) p (out ++ List.replicate (z + 1) 0)
    | some 1 => (deltaWord v n (pos + 2) 4 p).bind fun w => decodeNative k v n (pos + 18) (symbol w 3) (out ++ [w])
    | some 2 => (deltaWord v n (pos + 2) 8 p).bind fun w => decodeNative k v n (pos + 34) (symbol w 3) (out ++ [w])
    | some _ =>
      match streamBits v n (pos + 2) 1 with
      | some 0 => (streamBits v n (pos + 3) 5).bind fun m => (literals v n (pos + 8) (m + 1)).bind fun ws =>
          decodeNative k v n (pos + 8 + 64 * (m + 1)) (symbol (ws.getLast?.getD 0) 3) (out ++ ws)
      | some _ =>
        if streamBits v n (pos + 3) 1 = some 0 && v % 2 ^ (n - (pos + 4)) == 0 && decide (n - (pos + 4) < 64) then some out else none
      | none => none
    | none => none

/-- The forerunner decoder, by fuel (R321). -/
def decodeForerunner (fuel : Nat) (ws : List W64) (prev : W64) (out : List W64) : Option (List W64) :=
  match fuel, ws with
  | k + 1, c :: rest =>
    let n := bits c.toNat 11 0
    let go (l rest : List W64) : Option (List W64) := decodeForerunner k rest (l.getLast?.getD prev) (out ++ l)
    if bits c.toNat 61 12 != 0 then none
    else if bits c.toNat 63 62 = 3 then (if n = 0 && rest.isEmpty then some out else none)
    else if n = 0 then none
    else if bits c.toNat 63 62 = 0 then (if n ≤ rest.length then go (rest.take n) (rest.drop n) else none)
    else go (List.replicate n (if bits c.toNat 63 62 = 1 then 0 else prev)) rest
  | _, _ => none

/-! ### Coding a record -/

/-- The body of a record. -/
def Whole.body (r : Whole) : List W64 := (r.ws.drop 1).dropLast

/-- The trailer of a record. -/
def Whole.trailer (r : Whole) : W64 := r.ws.getLast?.getD 0

/-- The code area as words of 64 bits, zero bits behind the last code word. -/
def codeArea (code : List (Nat × Nat)) (nbits : Nat) : List W64 :=
  let v := code.reverse.foldl (fun a c => a * 2 ^ c.1 + c.2) 0
  let n := ceilDiv nbits 64
  let v := v * 2 ^ (64 * n - nbits)
  (upto n).map fun k => BitVec.ofNat 64 (v / 2 ^ (64 * (n - 1 - k)))

/-- A code area of which an upset has inverted a bit as it was written, counted from bit 63 of the first word. -/
def upsetArea (area : List W64) (upset : Option Nat) : List W64 :=
  match upset with
  | none => area
  | some u => area.zipIdx.map fun (x : W64 × Nat) => if x.2 = u / 64 then x.1 ^^^ (1#64 <<< (63 - u % 64)) else x.1

/-- The check of the code area that a job has written: it decodes to the original body, word by word, with END, OLEN - 2 words and
zero padding (R316). A RAW area is the body itself (R323). -/
def Job.passes (j : Job) (upset : Option Nat) : Bool :=
  let area := upsetArea (codeArea j.code j.nbits) upset
  if j.fmt then
    (if j.raw then area == j.src.body else decodeForerunner (area.length + 1) area 0 [] == some j.src.body)
  else
    let v := area.foldl (fun (a : Nat) w => a * 2 ^ 64 + w.toNat) 0
    decodeNative (64 * area.length) v (64 * area.length) 0 j.p0 [] == some j.src.body

/-- Words of the block that a job makes. -/
def Job.blockLen (j : Job) : Nat := ceilDiv j.nbits 64 + 3

/-- The COMPRESSED BLOCK of a job that has ended (R308). -/
def Job.block (j : Job) (bseq : Nat) : List W64 :=
  let hd := j.src.ws.headD 0
  let desc : W64 := BitVec.ofNat 64 ((hiWord j.src.trailer).toNat * 2 ^ 32 + hdrType hd * 2 ^ 26 + j.ctx * 2 ^ 21
    + b2n j.fmt * 2 ^ 20 + b2n j.reset * 2 ^ 19 + b2n (j.raw || (j.vfail && !j.fmt)) * 2 ^ 18 + b2n j.vfail * 2 ^ 17
    + bseq * 2 ^ 12 + hdrLength hd)
  withTrailer (header tCompressed (hdrHub hd) (hdrSource hd) (hdrSlot hd) j.blockLen :: desc :: codeArea j.code j.nbits)
    (loWord j.src.trailer)

/-- A record is handed on to the Hen (R326, R329). -/
def Hub.toHen (h : Hub) (ws : List W64) (c : Cls) : Hub :=
  { h with hen := { h.hen with pool := h.hen.pool ++ [{ ws := ws, cls := c, enter := h.slot }] } }

/-- CMP_STAT shows the job in progress, and HAND_STALL that the Mule waits for it (R315). -/
def Hub.refreshCmp (h : Hub) : Hub :=
  let h := h.setFlag F.MULE_STAT_HAND_STALL 0 h.cmp.job.isSome
  match h.cmp.job with
  | none => ((h.setFld F.CMP_STAT_BUSY 0 0).setFld F.CMP_STAT_STALL 0 0).setFld F.CMP_STAT_HELD 0 0
  | some j => (((h.setFld F.CMP_STAT_BUSY 0 1).setFld F.CMP_STAT_STALL 0 1).setFld F.CMP_STAT_CTX 0 j.ctx).setFld
      F.CMP_STAT_HELD 0 j.lit.length

/-- A context is reset: P is 0, and its next block carries RESET (R307). -/
def Hub.resetContext (h : Hub) (k : Nat) : Hub := (h.setFld F.CMP_CTXST_RSTPEND k 1).setFld F.CMP_CTXST_P k 0

/-- The record of a matching context is handed on unchanged (R312, R319, R323). -/
def Hub.passOn (h : Hub) (r : Whole) : Hub :=
  ((h.toHen r.ws r.cls).bump F.CMP_PASSED_COUNT 0).bumpN F.CMP_WOUT_COUNT 0 r.ws.length

/-- The block of a job is handed on: its context keeps P and counts the block. -/
def Hub.blockOn (h : Hub) (j : Job) : Hub :=
  let bseq := h.fld F.CMP_CTXST_BSEQ j.ctx
  let ws := j.block bseq
  let h := ((h.toHen ws j.src.cls).bump F.CMP_BLOCKS_COUNT 0).bumpN F.CMP_WOUT_COUNT 0 ws.length
  let h := h.setFld F.CMP_CTXST_BSEQ j.ctx ((bseq + 1) % 32)
  let h := h.setFld F.CMP_CTXST_P j.ctx (if j.fmt || j.vfail then 0 else j.p.toNat)
  if j.fmt || j.vfail then h.setFld F.CMP_CTXST_RSTPEND j.ctx 1 else h

/-- The context of an abandoned job is as before the record (R312). P has not been touched. -/
def Hub.abandon (h : Hub) (j : Job) : Hub :=
  let h := if j.reset then h.setFld F.CMP_CTXST_RSTPEND j.ctx 1 else h
  h.passOn j.src

/-- Blocks that a class may still take. -/
def Hub.blocksLeft (h : Hub) (c : Cls) : Nat :=
  match c with
  | .acq => min (h.freeBlocks - 64) (h.fld F.MULE_POOL_ACQ_MAX 0 - h.blocksHeld .acq)
  | .hit => h.freeBlocks - 64
  | _ => h.freeBlocks

/-- The engine works until its record is coded, is to be abandoned, or it stalls, by fuel. -/
def Job.run (fuel limit : Nat) (j : Job) : Job :=
  match fuel with
  | 0 => j
  | k + 1 =>
    if j.ended then j
    else
      let r := if j.fmt then j.fore limit else j.native limit
      if r.2 then r.1 else Job.run k limit r.1

/-- The forerunner job of a record: RAW when coding would not be shorter than OLEN + 1 words, or under R318. -/
def Job.forerunner (j : Job) (raw : Bool) : Job :=
  let body := j.src.body
  let area := Machine.forerunner (body.length + 1) body [] none
  let raw := raw || decide (hdrLength (j.src.ws.headD 0) + 1 ≤ area.length + 3)
  { j with raw := raw, rest := if raw then body else area, code := [], nbits := 0, blocks := 0, ended := false }

/-- The replacement job of R317: literal groups only, on a reset context. -/
def Job.replacement (j : Job) : Job :=
  { j with
    vfail := true, reset := true, p := 0, p0 := 0, rest := j.src.body, zrun := 0, lit := [], code := [], nbits := 0
    blocks := 0, ended := false }

/-- What becomes of a job that has ended or stalls. `upset` and `upset2` are bits that upsets invert as the block and its replacement
are written (R316-R319); by fuel, since a replacement runs in turn. -/
def Hub.cmpGoes (fuel : Nat) (h : Hub) (j : Job) (upset upset2 : Option Nat) : Hub :=
  let h := { h with cmp := { h.cmp with job := some j } }
  let limit := j.blocks + h.blocksLeft j.src.cls
  let j := j.run (4 * j.rest.length + 64) limit
  let h := { h with cmp := { h.cmp with job := none } }
  let olen := hdrLength (j.src.ws.headD 0)
  let fail (h : Hub) : Hub := ((h.setFld F.CMP_CTXST_P j.ctx 0).bump F.CMP_VFAIL_COUNT 0).report (mkReport 0x32 (unitOf 0xA 0))
  if !j.fmt && !j.vfail && olen ≤ j.blockLen then h.abandon j
  else if (j.raw || j.vfail) && 4095 < j.blockLen then (h.resetContext j.ctx).passOn j.src
  else if !j.ended then { h with cmp := { h.cmp with job := some j } }
  else
    match fuel with
    | 0 => h
    | k + 1 =>
      if j.fmt then
        if j.vfail || j.passes upset then h.blockOn j
        else (fail h).cmpGoes k { j.forerunner true with vfail := true } upset upset2
      else if j.vfail then
        if j.passes upset2 then h.blockOn j
        else
          let h := ((h.bump F.CMP_VFAIL_COUNT 0).resetContext j.ctx).report (mkReport 0x33 (unitOf 0xA 0))
          ((h.fenceUnit (unitOf 0xA 0)).refreshDegr).passOn j.src
      else if j.passes upset then h.blockOn j
      else (fail h).cmpGoes k j.replacement upset upset2

/-- The record that waits is coded or passed on unchanged (R305, R307, R319). -/
def Hub.compress (h : Hub) (upset upset2 : Option Nat) : Hub :=
  match h.cmp.job, h.cmp.waiting with
  | none, r :: rest =>
    let h := { h with cmp := { h.cmp with waiting := rest } }
    let h := match h.cmpContext (r.ws.headD 0) with
      | none => h.toHen r.ws r.cls
      | some k =>
        let h := h.bumpN F.CMP_WIN_COUNT 0 r.ws.length
        if h.flag F.CMP_STAT_FENCED 0 then h.passOn r
        else
          let fmt := h.flag F.CMP_CTXCFG_FMT k
          let reset := h.flag F.CMP_CTXST_RSTPEND k || fmt
          let p : BitVec 16 := if reset then 0 else BitVec.ofNat 16 (h.fld F.CMP_CTXST_P k)
          let j : Job := { src := r, ctx := k, fmt := fmt, reset := reset, p := p, p0 := p, rest := r.body }
          let h := h.setFld F.CMP_CTXST_RSTPEND k 0
          h.cmpGoes 3 (if fmt then j.forerunner false else j) upset upset2
    h.refreshCmp.refreshMule
  | _, _ => h

/-- A stalled engine goes on when blocks are free again (R313). -/
def Hub.cmpResumes (h : Hub) (upset upset2 : Option Nat) : Hub :=
  match h.cmp.job with
  | some j => ((h.cmpGoes 3 j upset upset2).refreshCmp).refreshMule
  | none => h

/-- COMPRESS_RECORD. The record that the Mule handed over is coded in its context or handed on unchanged; `upset` is a
bit of the block's code area that an upset inverts as it is written, `upset2` one of its replacement's (R305, R316-R319). -/
def execCompressRecord (upset upset2 : Option Nat) (s : State) : Host.Outcome State Fault Refusal :=
  goesOn s (s.hub.compress upset upset2)

/-- CMP_STALL_RESUME. A stalled engine gets another block and goes on (R313). -/
def execCmpStallResume (upset upset2 : Option Nat) (s : State) : Host.Outcome State Fault Refusal :=
  goesOn s (s.hub.cmpResumes upset upset2)

/-- CONTEXT_RESET. Writing 1 to bits of CMP_CTXRST marks those contexts (R307). -/
def execContextReset (v : W32) (s : State) : Host.Outcome State Fault Refusal :=
  .next { s with hub := s.hub.awake (s.hub.markContexts fun k => bit v.toNat k) }

end Sys2Proof.Machine
end

