-- ==== Sys2Proof/Machine/Write.lean ====
section
/-! DEFINITION. Reads and writes of the parameter space: which words there are, what a write stores, what rejects it, what
follows from it, COMMIT and SNAP (R6-R10, R16-R19, R436-R442). -/

namespace Sys2Proof.Machine

/-! ### Places (R16-R18) -/

/-- Last address of the region of an address (R16). -/
def regionEnd (a : Nat) : Nat :=
  match [0x3FF, 0x7FF, 0xFFF, 0x1FFF, 0x3FFF, 0x5FFF, 0x6FFF, 0x7FFF, 0xFFFF, 0x13FFF, 0x17FFF, 0x1FFFF, 0x41FFF, 0x4FFFF,
    0x57FFF, 0x5FFFF, 0x60FFF, 0x61FFF, 0x620FF, 0x621FF, 0x622FF, 0x62FFF, 0x63FFF].find? fun e => decide (a ≤ e) with
  | some e => e
  | none => 0xFFFFFF

/-- A word of a memory that the parameter space shows. -/
inductive MemWord where
  /-- Word of an Ox engine: engine, word index in its block (active bank, standby bank, data memory). -/
  | ox (e i : Nat)
  /-- Bull instruction memory. -/
  | imem (i : Nat)
  /-- Bull data memory. -/
  | dmem (i : Nat)
  deriving DecidableEq, Repr

/-- The memory word at an address, if it is one (R195, 08_ox_engine_programming.md "The engine block"). -/
def memWord (a : Nat) : Option MemWord :=
  if 0x20000 ≤ a && a < 0x42000 && (a - 0x20000) % 8192 < 0x1800 then some (.ox ((a - 0x20000) / 8192) ((a - 0x20000) % 8192))
  else if 0x50000 ≤ a && a < 0x54000 then some (.imem (a - 0x50000))
  else if 0x54000 ≤ a && a < 0x58000 then some (.dmem (a - 0x54000))
  else none

/-- Digitiser slot and line that the window of the time digitisers shows (R122). -/
def Hub.lutWindow (h : Hub) : Option (Nat × Bool) :=
  let serves (p : Nat) : Bool := !(if h.flag F.RS_DSLOT_LINE p then h.flag F.RS_DSLOT_L1F p else h.flag F.RS_DSLOT_L0F p)
  ((h.servingSlot (h.fld F.TDC_LUTSEL_CH 0)).filter serves).map fun p =>
    (p, if h.flag F.TDC_LUTSEL_LINE 0 then !h.flag F.RS_DSLOT_LINE p else h.flag F.RS_DSLOT_LINE p)

/-- A register that a window shows, with the place of the word it shows; none in it when the window shows nothing. -/
def Hub.window (h : Hub) (a : Nat) : Option (Option Nat) :=
  if a = A.TDC_LINEOFS then some (h.lutWindow.map fun x => lineOfsKey x.1 x.2)
  else if A.TDC_LUT ≤ a && a < A.TDC_LUT + 128 then some (h.lutWindow.map fun x => lutKey x.1 x.2 (a - A.TDC_LUT))
  else if A.PN_BUF ≤ a && a < A.PN_BUF + 128 then
    let n := (a - A.PN_BUF) / 64
    some (some (portKey n (64 * h.fld F.PN_CFG_PAGE n + (a - A.PN_BUF) % 64)))
  else if A.CAL_QWIN ≤ a && a < A.CAL_QWIN + 40 then
    let kind := h.fld F.CAL_QSEL_KIND 0
    let ix := h.fld F.CAL_QSEL_INDEX 0
    let size := if kind = 0 then 544 else if kind = 1 then 512 else if kind = 2 then 24 else 16
    some (if ix < size then some (qualKey kind ix (a - A.CAL_QWIN)) else none)
  else if A.RS_ROWMAP ≤ a && a < A.RS_ROWMAP + 128 then
    let m := h.fld F.RS_ROWSEL_MEM 0
    some (if a - A.RS_ROWMAP < spareRows m then some (rowKey m (a - A.RS_ROWMAP)) else none)
  else none

/-- Whether an access to an address sets RANGE (R18, R122). The blocks of the channels have no reserved part (R17). -/
def Hub.outOfRange (h : Hub) (a : Nat) : Bool :=
  (memWord a).isNone && (((a < 0x8000 || 0x10000 ≤ a) && (findRow regRows a).isNone) ||
    ((a = A.TDC_LINEOFS || (A.TDC_LUT ≤ a && a < A.TDC_LUT + 128)) && h.lutWindow.isNone))

/-! ### Reading (R8) -/

/-- Bits of a word with an access code. -/
def accBits (c : Acc) (a : Nat) : W32 := bitsOf a fun f => decide (f.acc = c)

/-- A memory word. -/
def Hub.readMem (h : Hub) (m : MemWord) : W32 :=
  match m with
  | .ox e i =>
    let x := h.oxOf e
    if i < 0x800 then Store.get (fun _ => 0) x.act i
    else if i < 0x1000 then Store.get (fun _ => 0) x.stby (i - 0x800)
    else Store.get (fun _ => 0) x.dmem (i - 0x1000)
  | .imem i => Store.get (fun _ => 0) h.bull.imem i
  | .dmem i => Store.get (fun _ => 0) h.bull.dmem i

/-- What a read of an address gives: live fields as they stand, SN fields as the last snapshot left them, WO fields and
reserved bits 0 (R6, R8). -/
def Hub.readWord (h : Hub) (a : Nat) : W32 :=
  match memWord a, h.window a with
  | some m, _ => h.readMem m
  | none, some (some k) => h.bankWord k
  | none, some none => 0
  | none, none => (h.word a &&& ~~~(accBits .sn a ||| accBits .wo a)) ||| Store.get (fun _ => 0) h.snap a

/-! ### Writing a memory word -/

/-- A word of an Ox engine is written through the parameter space (R261, R262); a whole-word write mends it (R191). -/
def Ox.put (x : Ox) (i : Nat) (v : W32) : Ox :=
  let x := { x with bad := x.bad.filter fun b => b != i }
  if i < 0x800 then { x with act := Store.set (fun _ => 0) x.act i v }
  else if i < 0x1000 then { x with stby := Store.set (fun _ => 0) x.stby (i - 0x800) v }
  else { x with dmem := Store.set (fun _ => 0) x.dmem (i - 0x1000) v }

/-- A memory word is written. -/
def Hub.writeMem (h : Hub) (m : MemWord) (v : W32) : Hub :=
  match m with
  | .ox e i => h.setOx e ((h.oxOf e).put i v)
  | .imem i => { h with bull := { h.bull with imem := Store.set (fun _ => 0) h.bull.imem i v, badI := h.bull.badI.filter fun b => b != i } }
  | .dmem i => { h with bull := { h.bull with dmem := Store.set (fun _ => 0) h.bull.dmem i v, badD := h.bull.badD.filter fun b => b != i } }

/-! ### What a write stores -/

/-- Instance of a per-channel register, when the address is that register of a channel. -/
def chanOf (a base : Nat) : Option Nat :=
  if base ≤ a && a < 0x10000 && (a - base) % 64 = 0 then some ((a - base) / 64) else none

/-- Instance of a register repeated at a distance. -/
def instOf (a base stride n : Nat) : Option Nat :=
  if base ≤ a && (a - base) % stride = 0 && (a - base) / stride < n then some ((a - base) / stride) else none

/-- A field of a word put into a range. -/
def Fld.bound (f : Fld) (lo hi : Nat) (w : W32) : W32 := f.put w (max lo (min hi (f.get w)))

/-- A signed field of a word put into a range. -/
def Fld.boundS (f : Fld) (lo hi : Int) (w : W32) : W32 := f.put w (field f.width (clamp lo hi (signed f.width (f.get w))))

/-- What a written value is taken as: the clamps and replacements that the register tables and rules give. -/
def Hub.takenAs (h : Hub) (a : Nat) (w : W32) : W32 :=
  if a = A.RT_BCFREQ then F.RT_BCFREQ_FREQ.bound 35000000 45000000 w
  else if a = A.RT_ORBIT then (if F.RT_ORBIT_LEN.get w = 0 then F.RT_ORBIT_LEN.put w (h.fld F.RT_ORBIT_LEN 0) else w)
  else if (chanOf a A.TDC_OFS).isSome then F.TDC_OFS_OFS.boundS (-12800) 12799 w
  else if (chanOf a A.CH_PHOFS).isSome then
    let half : Int := (h.slotLen18 / 512 : Nat)
    F.CH_PHOFS_PHOFS.boundS (512 - half) (half - 513) w
  else if a = A.TDC_AMPWIN then F.TDC_AMPWIN_LEN.bound 1 8 w
  else if a = A.CHN_RATE then
    if F.CHN_RATE_C_EN.get w = 1 then F.CHN_RATE_INC.bound 0x80000 0x400000 w else F.CHN_RATE_INC.bound 0x100000 0x800000 w
  else if a = A.ACQ_LAT then F.ACQ_LAT_TOFS.bound 0 h.toaMax w
  else if a = A.ACQ_SWIN then F.ACQ_SWIN_POST.bound 1 128 w
  else if a = A.ACQ_LWIN then F.ACQ_LWIN_POST.bound 1 65535 (F.ACQ_LWIN_PRE.bound 0 3071 w)
  else if (instOf a A.Q_CFG 64 32).isSome then
    let q := (a - A.Q_CFG) / 64
    let free := (16 ≤ q && q ≤ 27) || q == 31
    let code (prod : Bool) (f : Fld) (w : W32) : W32 :=
      if !free then f.put w (h.fld f q) else if codeAllowed q prod (f.get w) then w else f.put w 0
    let w := code false F.Q_CFG_CONS (code true F.Q_CFG_PROD w)
    F.Q_CFG_THR.bound 0 16 w
  else if a = A.MULE_HBCFG then F.MULE_HBCFG_SPAN.bound 1 64 w
  else if a = A.MULE_LEDCFG then (if F.MULE_LEDCFG_PERIOD.get w = 0 then w else F.MULE_LEDCFG_PERIOD.bound 11 24 w)
  else if a = A.MULE_POOL then F.MULE_POOL_ACQ_MAX.bound 0 1984 w
  else if (instOf a A.HEN_PCFG 16 4).isSome then F.HEN_PCFG_CAPL.bound 0 512 w
  else if (instOf a A.LN_TX 256 24).isSome then
    let ends := F.LN_TX_PRE.get w + F.LN_TX_POST.get w
    if 63 < ends + F.LN_TX_MAIN.get w then F.LN_TX_MAIN.put w (63 - ends) else w
  else if (instOf a A.LN_INJ 256 24).isSome then F.LN_INJ_COUNT.bound 1 4095 (F.LN_INJ_LEN.bound 1 64 w)
  else if (instOf a A.LN_INJPOS 256 24).isSome then F.LN_INJPOS_NBYTE.bound 1 8 w
  else if a = A.CP_CFG then F.CP_CFG_LIMIT.bound 1 0xFFFFFF w
  else if a = A.CAL_ROLL then F.CAL_ROLL_SELFORB.bound 1 15 w
  else if a = A.GS_CFG then F.GS_CFG_RLIMIT.bound (h.fld F.GS_STAT_RECOV 0) 255 w
  else if a = A.GS_QUIET then F.GS_QUIET_MS.bound 1 60000 w
  else if a = A.RS_POLICY then F.RS_POLICY_ROWCOR.bound 1 15 (F.RS_POLICY_KEEPD.bound 0 2 w)
  else if a = A.TW_CFG then F.TW_CFG_COPYMAX.bound 1 255 (F.TW_CFG_ALIGN.bound 2 63 w)
  else if a = A.MON_CTL then F.MON_CTL_LEN.bound 1 32 w
  else if a = A.MON_REC then F.MON_REC_PERIOD.bound 1 255 w
  else if (instOf a A.MON_SEQ 4 32).isSome then F.MON_SEQ_RATE.bound 0 4 w
  else if a = A.TT_LEN then F.TT_LEN_LEN.put w (max 32 (min 4096 (F.TT_LEN_LEN.get w / 32 * 32)))
  else if (instOf a A.PN_CFG 16 2).isSome then F.PN_CFG_TMO.bound 1 255 (F.PN_CFG_LEAD.bound 1 15 (F.PN_CFG_DIV.bound 1 159 w))
  else if (instOf a A.PN_LEN 16 2).isSome then F.PN_LEN_BITS.bound 1 4096 w
  else if (instOf a A.LANE_ROLE 256 24).isSome then
    if F.LANE_ROLE_ROLE.get w = 5 || F.LANE_ROLE_ROLE.get w = 6 then F.LANE_ROLE_ROLE.put w 0 else w
  else w

/-! ### What rejects a write (R9, R121, R126, R196, R220, R384) -/

/-- The hub is in RUN or DEGRADED. -/
def Hub.taking (h : Hub) : Bool := h.mode == mRun || h.mode == mDegraded

/-- The exception with which a write of a value to an address is rejected: 0 none, 02h WRONG_MODE, 07h SEAL. DESIGN CHOICE: a write
of the active line's window in RUN or DEGRADED is rejected by R121 even where the channel has no serving TDC, whose window R122 would
ignore; the spec does not say which of the two comes first (notes/assumptions/82.md). -/
def Hub.rejects (h : Hub) (a : Nat) (v : W32) : Nat :=
  match memWord a with
  | some (.ox e i) =>
    if (i < 0x800 && h.flag F.OX_STAT_ACT_SEALED e) || (0x800 ≤ i && i < 0x1000 && h.flag F.OX_STAT_STBY_SEALED e) then 7 else 0
  | some (.imem _) => if h.mode = mSetup then 0 else 2
  | some (.dmem _) => 0
  | none =>
    match findRow regRows a with
    | none => 0
    | some (r, i, _) =>
      if r.setupOnly && h.mode != mSetup then 2
      else if a = A.HUB_ADDR then (if h.mode = mUnloaded || h.mode = mSetup then 0 else 2)
      else if a = A.TDC_LINEOFS || (A.TDC_LUT ≤ a && a < A.TDC_LUT + 128) then
        if h.taking && !h.flag F.TDC_LUTSEL_LINE 0 then 2 else 0
      else if A.ADC_OFS ≤ a && a < A.ADC_OFS + 544 * 4 then
        if h.taking && (h.channelOf i).isSome then 2 else 0
      else if (instOf a (F.LN_PRBS_PAT.addr 0) 256 24).isSome then
        if (F.LN_PRBS_GEN_EN.get v = 1 || F.LN_PRBS_CHK_EN.get v = 1) &&
            (!(h.role i = roleOff || h.role i = roleSpare) || h.flag F.LN_STAT_FENCED i) then 2 else 0
      else 0

/-! ### What follows from a new value -/

/-- What depends on the bunch clock and the output rate (R43, R140, R157). -/
def Hub.refreshClock (h : Hub) : Hub :=
  let h := h.setFld F.RT_TNSINC_INC 0 h.tnsInc
  ((forN 512 h fun c h => h.refreshChain c).refreshAges).refreshAcq

/-- ABOVE of a queue follows a write of its threshold (R280). -/
def Hub.refreshAbove (h : Hub) (q : Nat) : Hub :=
  h.setFlag F.Q_STAT_ABOVE q (h.fld F.Q_CFG_THR q != 0 && decide (h.fld F.Q_CFG_THR q ≤ h.fld F.Q_STAT_DEPTH q))

/-- What follows when a word has taken a new value. -/
def Hub.afterWrite (h : Hub) (a : Nat) : Hub :=
  match chanOf a A.FE_CFG, chanOf a A.TDC_CFG, chanOf a A.CH_CHAIN with
  | some c, _, _ => h.fePower c
  | _, some c, _ => h.refreshTdc c
  | _, _, some c => (h.refreshChain c).refreshAcq
  | _, _, _ =>
    if 0x8000 ≤ a && a < 0x10000 && 0x24 ≤ a % 64 && a % 64 < 0x2C then (h.refreshChain ((a - 0x8000) / 64)).refreshAcq
    else if a = A.RT_BCFREQ || a = A.CHN_RATE then h.refreshClock
    else if 0x10000 ≤ a && a < 0x10300 then h.refreshAcq
    else if (chanOf a A.CH_PHOFS).isSome then h.refix (((chanOf a A.CH_PHOFS).getD 0))
    else if A.ADC_OFS ≤ a && a < A.ADC_OFS + 544 * 4 then
      match h.channelOf ((a - A.ADC_OFS) / 4) with
      | some c => h.refix c
      | none => h
    else if a = A.ATTN_EN then h.refreshAttn
    else match instOf a A.Q_CFG 64 32 with
      | some q => h.refreshAbove q
      | none => h

/-- Whether some shadow is pending. -/
def Hub.showPending (h : Hub) : Hub := h.setFlag F.COMMIT_STAT_PENDING 0 (!h.shadow.isEmpty)

/-- A write under the access codes of R8, of a word that is not rejected: RW fields take the value, W1C bits written as 1
clear, SH fields go to the shadow in RUN and DEGRADED and take effect at once in every other mode. -/
def Hub.codeWrite (h : Hub) (a : Nat) (v : W32) : Hub :=
  let v := h.takenAs a v
  let sh := accBits .sh a
  let live := if h.taking then accBits .rw a else accBits .rw a ||| sh
  let w := ((h.word a &&& ~~~live) ||| (v &&& live)) &&& ~~~(v &&& accBits .w1c a)
  let h := h.setWord a w
  if sh ≠ 0 then
    if h.taking then ({ h with shadow := Store.ins (Store.del h.shadow a) a (v &&& sh) }).showPending.afterWrite a
    else ({ h with shadow := Store.del h.shadow a }).showPending.afterWrite a
  else h.afterWrite a

/-- A write to a word that a window shows. -/
def Hub.windowWrite (h : Hub) (a k : Nat) (v : W32) : Hub :=
  let m := accBits .rw a
  h.setBank k ((h.bankWord k &&& ~~~m) ||| (v &&& m))

/-! ### COMMIT and SNAP (R436-R442) -/

/-- Every pending shadow becomes active (R436). -/
def Hub.commitNow (h : Hub) : Hub :=
  let sh := h.shadow
  let h := each sh { h with shadow := [] } fun e h =>
    let m := accBits .sh e.1
    (h.setWord e.1 ((h.word e.1 &&& ~~~m) ||| (e.2 &&& m))).afterWrite e.1
  h.showPending.setFld F.COMMIT_STAT_LAST 0 h.tag.toNat

/-- Every pending shadow is discarded, on entry to SETUP (R439). -/
def Hub.dropShadows (h : Hub) : Hub :=
  if h.shadow.isEmpty then h
  else ({ h with shadow := [] }).showPending.setFld F.COMMIT_STAT_DISC 0 1

/-- Every SN field copies its source (R441). -/
def Hub.snapNow (h : Hub) : Hub :=
  let copy := h.regs.filterMap fun (e : Nat × W32) =>
    let w := e.2 &&& accBits .sn e.1
    if w = 0 then none else some (e.1, w)
  ({ h with snap := copy }).setFld F.SNAP_STAT_LAST 0 h.tag.toNat

/-- A COMMIT is due at the boundary that opened this slot, by instruction or by fast command (R440). -/
def Hub.commitDue (h : Hub) : Bool :=
  h.rooster.commitAt == some h.slot || h.rooster.sched.any fun x => x.1 == Fc.commit && x.2 == h.slot

/-- A SNAP is due at the boundary that opened this slot (R442). -/
def Hub.snapDue (h : Hub) : Bool :=
  h.rooster.snapAt == some h.slot || h.rooster.sched.any fun x => x.1 == Fc.snap && x.2 == h.slot

/-- The scheduled fast commands of a kind that are due have acted. -/
def Hub.unschedule (h : Hub) (c : Fc) : Hub :=
  { h with rooster := { h.rooster with sched := h.rooster.sched.filter fun x => !(x.1 == c && x.2 == h.slot) } }

/-- The COMMIT of this boundary, once (R440). -/
def Hub.commitActs (h : Hub) : Hub :=
  if h.commitDue then
    let h := (h.unschedule .commit).commitNow
    if h.rooster.commitAt = some h.slot then
      ({ h with rooster := { h.rooster with commitAt := none } }).setFld F.COMMIT_STAT_SCHED 0 0
    else h
  else h

/-- The SNAP of this boundary, once (R442). -/
def Hub.snapActs (h : Hub) : Hub :=
  if h.snapDue then
    let due := h.rooster.snapAt == some h.slot
    let h := h.unschedule .snap
    let h := if due then ({ h with rooster := { h.rooster with snapAt := none } }).setFld F.SNAP_STAT_SCHED 0 0 else h
    h.snapNow
  else h

/-- COMMIT_APPLY. A COMMIT is due at the boundary that opened this slot (R436). -/
def execCommitApply (s : State) : Host.Outcome State Fault Refusal := .next { s with hub := s.hub.commitActs }

/-- SNAPSHOT. A SNAP is due at the boundary that opened this slot (R441). -/
def execSnapshot (s : State) : Host.Outcome State Fault Refusal := .next { s with hub := s.hub.snapActs }

end Sys2Proof.Machine
end

