-- ==== Sys2Proof/Machine/Fast.lean ====
section
/-! DEFINITION. Fast commands: decoding, forwarding, immediate and scheduled commands, SYNC and the ORBIT check
(02_time_and_the_rooster.md, "Fast commands"; R34). The commands are at the end. -/

namespace Sys2Proof.Machine

/-- The fast command of a code after the vote, if it is assigned (R55). -/
def fcOf (b : W8) : Option Fc :=
  if b = 0x8E then some .nop
  else if b = 0x4D then some .l1a
  else if b = 0x2B then some .sync
  else if b = 0x17 then some .orbit
  else if b = 0xC3 then some .hold
  else if b = 0xA5 then some .calPulse
  else if b = 0x99 then some .snap
  else if b = 0x66 then some .commit
  else if b = 0x5A then some .twinTake
  else none

/-- The code of a fast command (R55). -/
def Fc.code : Fc → W8
  | .nop => 0x8E
  | .l1a => 0x4D
  | .sync => 0x2B
  | .orbit => 0x17
  | .hold => 0xC3
  | .calPulse => 0xA5
  | .snap => 0x99
  | .commit => 0x66
  | .twinTake => 0x5A

/-- The scheduled commands act at a boundary, the others at once. -/
def Fc.scheduled : Fc → Bool
  | .sync | .orbit | .calPulse | .snap | .commit => true
  | .nop | .l1a | .hold | .twinTake => false

/-- Slots q + DEC_SLOTS, q - UP_AGE (R56, R57). -/
def Hub.decodeSlot (h : Hub) (q : W48) : W48 := q + BitVec.ofNat 48 (h.fld F.RT_AGE_DEC_SLOTS 0)
def Hub.originSlot (h : Hub) (q : W48) : W48 := q - BitVec.ofNat 48 (h.fld F.RT_FCCFG_UP_AGE 0)

/-- The number of an L1A, received or inferred (R62, R63). -/
def Hub.trigNumber (h : Hub) (num : W24) (ok : Bool) : W24 :=
  if ok then num else match h.rooster.prevTrig with
    | some p => p + 1#24
    | none => 0

/-- An L1A: its number and its way to the accept slot (R62-R64, R154). -/
def Hub.l1aDecoded (h : Hub) (o dec : W48) (num : W24) (ok : Bool) : Hub :=
  let prev := h.rooster.prevTrig
  let n := h.trigNumber num ok
  let skipped := match prev with
    | some p => if ok then (num - (p + 1#24)).toNat else 0
    | none => 0
  let h := h.bumpN F.RT_TRIGSKIP_COUNT 0 skipped
  let x : L1a := { num := n, inferred := !ok, origin := o, accept := dec + 2#48 }
  { h with rooster := { h.rooster with prevTrig := some n }, l1as := h.l1as ++ [x] }

/-- TWIN_TAKE (R518): it permits a healthy standby to take over at the next boundary, or is counted and ignored. -/
def Hub.twinTakeDecoded (h : Hub) : Hub :=
  if h.fld F.TW_STAT_STATE 0 = 4 && h.flag F.TW_STAT_HEALTHY 0 then { h with twin := { h.twin with take := true } }
  else h.bump F.TW_TAKEIGN_COUNT 0

/-- HOLD (R417, R418): a request for the next boundary; ignored in UNLOADED, and in HOLD the quiet period starts again. -/
def Hub.holdDecoded (h : Hub) : Hub :=
  if h.mode = mUnloaded then h
  else if h.mode = mHold then { h with goose := { h.goose with quietFrom := h.slot } }
  else { h with goose := { h.goose with holdFc := true } }

/-- A scheduled command takes its action slot; a late one acts at the next boundary (R58, R59). -/
def Hub.scheduleFc (h : Hub) (c : Fc) (o dec : W48) : Hub :=
  let act := o + BitVec.ofNat 48 (h.fld F.RT_FCCFG_FC_LAT 0)
  if reached dec act then
    let h := h.bump F.RT_FCLATE_COUNT 0
    let h := h.report { mkReport 0x06 (unitOf 1 5) with addr := BitVec.ofNat 24 A.RT_FCLATE }
    { h with rooster := { h.rooster with sched := h.rooster.sched ++ [(c, dec + 1#48)] } }
  else { h with rooster := { h.rooster with sched := h.rooster.sched ++ [(c, act)] } }

/-- A fast command is decoded, in its decode slot or, when the frame came later, in the slot in progress: it is forwarded
in the next slot (R34) and takes effect or is scheduled. -/
def Hub.fcDecoded (h : Hub) (c : Fc) (q : W48) (num : W24) (ok : Bool) : Hub :=
  let o := h.originSlot q
  let dec := h.slot
  let fwd : List (W8 × W24 × W48) :=
    if c = .nop then [] else [(c.code, if c = .l1a then h.trigNumber num ok else 0, h.slot + 1#48)]
  let h := { h with hen := { h.hen with fc := h.hen.fc ++ fwd } }
  match c with
  | .nop => h
  | .l1a => h.l1aDecoded o dec num ok
  | .hold => h.holdDecoded
  | .twinTake => h.twinTakeDecoded
  | .sync => h.scheduleFc c o dec
  | .orbit => h.scheduleFc c o dec
  | .calPulse => h.scheduleFc c o dec
  | .snap => h.scheduleFc c o dec
  | .commit => h.scheduleFc c o dec

/-- The fast command of a frame launched in slot `q` arrives: one that comes before its decode slot is held (R57). -/
def Hub.fcArrives (h : Hub) (c : Fc) (q : W48) (num : W24) (ok : Bool) : Hub :=
  let due := h.decodeSlot q
  if h.start.held then h
  else if reached h.slot due then h.fcDecoded c q num ok
  else { h with rooster := { h.rooster with held := h.rooster.held ++ [(c, q, due, num, ok)] } }

/-- The FC bytes of a frame of the timing lane (R55, R355). -/
def Hub.fcByte (h : Hub) (b : W8) (q : W48) (num : W24) (ok : Bool) : Hub :=
  match fcOf b with
  | some c => h.fcArrives c q num ok
  | none => h.bump F.RT_FCBAD_COUNT 0

/-- The held commands whose decode slot this is are decoded. -/
def Hub.heldActs (h : Hub) : Hub :=
  let due := h.rooster.held.filter fun x => reached h.slot x.2.2.1
  each due { h with rooster := { h.rooster with held := h.rooster.held.filter fun x => !(reached h.slot x.2.2.1) } } fun x h =>
    h.fcDecoded x.1 x.2.1 x.2.2.2.1 x.2.2.2.2

/-- A write to RT_FCCFG: every scheduled command that has not acted is cancelled, those that wait for their decode slot included
(R57, R65); a FC_LAT of 0 is 1; and the trigger age follows (R157). -/
def Hub.fccfgWrite (h : Hub) (v : W32) : Hub :=
  let early := h.rooster.held.filter fun x => x.1.scheduled
  let n := h.rooster.sched.length + early.length
  let lat := bits v.toNat 9 0
  let h := (h.setFld F.RT_FCCFG_FC_LAT 0 (max 1 lat)).setFld F.RT_FCCFG_UP_AGE 0 (bits v.toNat 25 16)
  let h := { h with rooster := { h.rooster with sched := [], held := h.rooster.held.filter fun x => !x.1.scheduled } }
  (h.bumpN F.RT_FCLATE_COUNT 0 n).refreshAges.refreshAcq

/-! ### SYNC -/

/-- Moves every stored slot number by `d`, when an armed SYNC loads SLOT_COUNT. -/
def Hub.shiftSlots (h : Hub) (d : W48) : Hub :=
  let sh : Option W48 → Option W48 := fun x => x.map fun (s : W48) => s + d
  let r := h.rooster
  let exec : Option Exec → Option Exec := fun x => x.map fun (e : Exec) =>
    { e with start := e.start + d, pkt := { e.pkt with arrived := e.pkt.arrived + d } }
  let hit : Hit → Hit := fun x => { x with slot := x.slot + d, base := x.base + d }
  let whole : Whole → Whole := fun x => { x with enter := x.enter + d }
  let reply : Option Reply → Option Reply := fun x => x.map fun (y : Reply) => { y with slot := y.slot + d }
  { h with
    rooster := { r with
      held := r.held.map fun x => (x.1, x.2.1 + d, x.2.2.1 + d, x.2.2.2)
      sched := r.sched.map fun x => (x.1, x.2 + d)
      snapAt := sh r.snapAt
      commitAt := sh r.commitAt
      lossAt := r.lossAt + d
      backAt := sh r.backAt
      syncedAt := sh r.syncedAt
      lastCal := sh r.lastCal
      runFrom := sh r.runFrom
      runTo := sh r.runTo }
    goose := { h.goose with quietFrom := h.goose.quietFrom + d }
    pk := { h.pk with
      waiting := h.pk.waiting.map fun (p : Pkt) => { p with arrived := p.arrived + d }
      cur := exec h.pk.cur
      apply := exec h.pk.apply
      laneReply := reply h.pk.laneReply
      tetherReply := reply h.pk.tetherReply
      out := h.pk.out.map fun (y : Reply) => { y with slot := y.slot + d }
      awaitLane := h.pk.awaitLane.map fun (y : Reply) => { y with slot := y.slot + d }
      freed := sh h.pk.freed }
    tdc := h.tdc.map fun (e : Nat × Tdc) => (e.1, { e.2 with
      pulse := e.2.pulse.map fun (p : Pulse) => { p with slot := p.slot + d }
      lastFall := e.2.lastFall.map fun (x : W48 × Int) => (x.1 + d, x.2) })
    hits := h.hits.map hit
    early := h.early.map hit
    cmp := { h.cmp with waiting := h.cmp.waiting.map whole, job := h.cmp.job.map fun (j : Job) => { j with src := whole j.src } }
    dead := h.dead.map fun x => (x.1, x.2 + d)
    ox := h.ox.map fun (e : Nat × Ox) => (e.1, { e.2 with haltAt := e.2.haltAt + d, swapFrom := e.2.swapFrom + d })
    chainAt := h.chainAt + d
    l1as := h.l1as.map fun (x : L1a) => { x with origin := x.origin + d, accept := x.accept + d }
    settings := h.settings.map fun x => (x.1 + d, x.2)
    reads := h.reads.map fun s => s + d
    seeds := h.seeds.map fun x => (x.1 + d, x.2)
    mule := { h.mule with lastLedger := sh h.mule.lastLedger }
    hen := { h.hen with
      pool := h.hen.pool.map whole
      front := h.hen.front.map whole
      child := h.hen.child.map fun (e : Nat × Child) => (e.1, { e.2 with
        recs := e.2.recs.map whole
        gHist := e.2.gHist.map fun x => (x.1 + d, x.2)
        recent := e.2.recent.map fun x => (x.1, x.2.1, x.2.2 + d) })
      claimAt0 := sh h.hen.claimAt0
      claimAt1 := sh h.hen.claimAt1
      grantSlot := h.hen.grantSlot + d
      fc := h.hen.fc.map fun x => (x.1, x.2.1, x.2.2 + d) }
    lanes := h.lanes.map fun (e : Nat × Lane) => (e.1, { e.2 with
      mark := sh e.2.mark
      lastReplay := sh e.2.lastReplay
      ackSlot := e.2.ackSlot + d
      launches := e.2.launches.map fun x => (x.1, x.2 + d)
      sentAt := sh e.2.sentAt
      upTime := e.2.upTime.map fun x => (x.1 + d, x.2)
      hold := e.2.hold.map fun (x : Held) => { x with slot := x.slot + d, q := x.q + d }
      trainedAt := e.2.trainedAt + d })
    rsv := { h.rsv with
      preps := h.rsv.preps.map fun (p : Prep) => { p with since := p.since + d }
      rows := h.rsv.rows.map fun x => (x.1, x.2.1, x.2.2.1, x.2.2.2 + d)
      oxErrs := h.rsv.oxErrs.map fun x => (x.1, x.2 + d) }
    twin := { h.twin with
      since := h.twin.since + d
      joinAt := sh h.twin.joinAt
      lastSeen := sh h.twin.lastSeen
      events := h.twin.events.map fun x => (x.1 + d, x.2)
      ustat := h.twin.ustat.map fun x => (x.1 + d, x.2) }
    mon := { h.mon with start := h.mon.start + d } }

/-- An armed SYNC loads SLOT_COUNT and TIME_NS (R44). It acts in SETUP, so a drain that still goes on ends first, with the slot
numbers of its time. -/
def Hub.loadTime (h : Hub) : Hub :=
  if h.flag F.RT_TSARM_ARM 0 then
    let s : W48 := BitVec.ofNat 48 (h.fld F.RT_SLOTSET_LO_V 0 + h.fld F.RT_SLOTSET_HI_V 0 * 2 ^ 32)
    let ns := h.fld F.RT_TNSSET_V 0
    let h := (h.drainEnds.shiftSlots (s - h.slot)).setSlot s
    let h := h.setFld F.RT_TIME_NS_NS 0 ns
    let h := { h with rooster := { h.rooster with frac := 0 } }
    (h.setFld F.RT_TSARM_ARM 0 0).setFld F.RT_CLK_EPOCH 0 1
  else h

/-- A SYNC acts at the boundary that opened this slot (R44, R143, R185). -/
def Hub.syncNow (h : Hub) : Hub :=
  let run := h.live
  let h := (h.loadTime).setFld F.RT_ORBIT_POS 0 0
  let h := { h with rooster := { h.rooster with syncedAt := some h.slot } }
  if run then h.closeTrigs.chainStart true else h.setFld F.CHN_STAT_ANCHORED 0 1

/-- Whether a scheduled command of a kind is due. -/
def Hub.fcDue (h : Hub) (c : Fc) : Bool := h.rooster.sched.any fun x => x.1 == c && x.2 == h.slot

/-- The SYNC of this boundary, once. -/
def Hub.syncActs (h : Hub) : Hub := if h.fcDue .sync then (h.unschedule .sync).syncNow else h

/-! ### ORBIT (R61) -/

/-- An ORBIT acts. -/
def Hub.orbitNow (h : Hub) : Hub :=
  if h.atOrbit then h
  else if h.mode = mUnloaded || h.mode = mSetup || h.mode = mCalibrate then h.setFld F.RT_ORBIT_POS 0 0
  else
    ((h.bump F.RT_ORBSLIP_COUNT 0).attn aTime).report { mkReport 0x07 (unitOf 1 5) with addr := BitVec.ofNat 24 A.RT_ORBIT }

/-- The ORBIT of this boundary, once. -/
def Hub.orbitActs (h : Hub) : Hub := if h.fcDue .orbit then (h.unschedule .orbit).orbitNow else h

/-! ### Commands -/

/-- FCCFG_WRITE. A write to RT_FCCFG, in SETUP (R9, R65). -/
def execFccfgWrite (v : W32) (s : State) : Host.Outcome State Fault Refusal :=
  .next { s with hub := if s.hub.mode = mSetup then s.hub.fccfgWrite v else s.hub }

/-- FC_NOP. A NOP of the frame launched in slot `q` (R55). -/
def execFcNop (q : W48) (s : State) : Host.Outcome State Fault Refusal := goesOn s (s.hub.awake (s.hub.fcArrives .nop q 0 true))

/-- FC_L1A. An L1A with the trigger number of its frame, or with an uncorrectable codeword (R62, R63). -/
def execFcL1a (q : W48) (num : W24) (ok : Bool) (s : State) : Host.Outcome State Fault Refusal :=
  goesOn s (s.hub.awake (s.hub.fcArrives .l1a q num ok))

/-- FC_SYNC (R58). -/
def execFcSync (q : W48) (s : State) : Host.Outcome State Fault Refusal := goesOn s (s.hub.awake (s.hub.fcArrives .sync q 0 true))

/-- FC_ORBIT (R58). -/
def execFcOrbit (q : W48) (s : State) : Host.Outcome State Fault Refusal := goesOn s (s.hub.awake (s.hub.fcArrives .orbit q 0 true))

/-- FC_HOLD (R417). -/
def execFcHold (q : W48) (s : State) : Host.Outcome State Fault Refusal := goesOn s (s.hub.awake (s.hub.fcArrives .hold q 0 true))

/-- FC_CAL_PULSE (R58). -/
def execFcCalPulse (q : W48) (s : State) : Host.Outcome State Fault Refusal :=
  goesOn s (s.hub.awake (s.hub.fcArrives .calPulse q 0 true))

/-- FC_SNAP (R58). -/
def execFcSnap (q : W48) (s : State) : Host.Outcome State Fault Refusal := goesOn s (s.hub.awake (s.hub.fcArrives .snap q 0 true))

/-- FC_COMMIT (R58). -/
def execFcCommit (q : W48) (s : State) : Host.Outcome State Fault Refusal := goesOn s (s.hub.awake (s.hub.fcArrives .commit q 0 true))

/-- FC_TWIN_TAKE (R518). -/
def execFcTwinTake (q : W48) (s : State) : Host.Outcome State Fault Refusal :=
  goesOn s (s.hub.awake (s.hub.fcArrives .twinTake q 0 true))

/-- SYNC_ACTION. A SYNC is due at the boundary that opened this slot (R44, R143). -/
def execSyncAction (s : State) : Host.Outcome State Fault Refusal := .next { s with hub := s.hub.syncActs }

/-- ORBIT_CHECK. An ORBIT is due at the boundary that opened this slot (R61). -/
def execOrbitCheck (s : State) : Host.Outcome State Fault Refusal := goesOn s (s.hub.orbitActs)

end Sys2Proof.Machine
end

