-- ==== Sys2Proof/Machine/Intake.lean ====
section
/-! DEFINITION. Command packets up to their execution, and replies on their way out: packet bytes of a lane, routing,
acceptance, NAK and duplicate replies, the reply unit, the partner-violation log (13_command_packets_and_replies.md;
R28, R31-R33, R362-R364). The commands are at the end. -/

namespace Sys2Proof.Machine

/-! ### The partner-violation log (R412, R413) -/

abbrev pvBadCrc : Nat := 1
abbrev pvUnreadable : Nat := 2
abbrev pvDuplicate : Nat := 3
abbrev pvIllegal : Nat := 4
abbrev pvUnroutable : Nat := 5
abbrev pvTruncated : Nat := 6
abbrev pvFwdFull : Nat := 7
abbrev pvPktFull : Nat := 8
abbrev pvOverspend : Nat := 9
abbrev pvMalformed : Nat := 0xA
abbrev pvTether : Nat := 0xB

/-- A violation is counted and logged. -/
def Hub.violation (h : Hub) (code loc seq : Nat) : Hub :=
  let h := h.bump F.PV_CNT_COUNT (code - 1)
  let n := h.fld F.PV_HEAD_NEXT 0
  let h := h.setWords (A.PV_LOG + 2 * n) [BitVec.ofNat 32 (code % 256 * 2 ^ 24 + loc % 256 * 2 ^ 16 + seq % 4096),
    BitVec.ofNat 32 h.tag.toNat]
  let h := h.setFld F.PV_HEAD_NEXT 0 ((n + 1) % 16)
  if n = 15 then h.setFld F.PV_HEAD_WRAPPED 0 1 else h

/-- WHERE of a source. -/
def srcPlace : Source → Nat
  | .lane l => l.val
  | .tether => 0x40

/-! ### Packets as bytes (R387-R389) -/

/-- The header of a packet as a number of 64 bits. -/
def pkHeader (b : List W8) : Nat := ofBytes (b.take 8)

/-- Fields of a packet header. -/
def pkDest (hd : Nat) : Nat := bits hd 63 48
def pkSeq (hd : Nat) : Nat := bits hd 47 36
def pkCount (hd : Nat) : Nat := bits hd 31 16

/-- A header is unreadable (R389). -/
def pkUnreadable (hd : Nat) : Bool := bits hd 15 0 != 0 || decide (1024 < pkCount hd)

/-- Bytes of a packet (R388). -/
def pkLength (hd : Nat) : Nat := 12 + 4 * pkCount hd

/-! ### Child ports as packets see them (R31, R393) -/

/-- State of a child port. -/
def Hub.child (h : Hub) (k : Nat) : Child := Store.get (fun _ => {}) h.hen.child k

/-- Puts the state of a child port. -/
def Hub.setChild (h : Hub) (k : Nat) (x : Child) : Hub :=
  { h with hen := { h.hen with child := Store.set (fun _ => ({} : Child)) h.hen.child k x } }

/-- CHILD lanes of a child port. -/
def Hub.childLanes (h : Hub) (k : Nat) : List Nat := (upto 24).filter fun l => h.role l == roleChild && h.lanePort l == k

/-- A child port is active (R327). -/
def Hub.childActive (h : Hub) (k : Nat) : Bool := !(h.childLanes k).isEmpty

/-- A route is usable: not empty, and its port has a CHILD lane. -/
def Hub.routeUsable (h : Hub) (k : Nat) : Bool := decide (h.fld F.ROUTE_LO k ≤ h.fld F.ROUTE_HI k) && h.childActive k

/-- The child ports on which a packet is to be forwarded (R31). -/
def Hub.routePorts (h : Hub) (hd : Nat) : List Nat :=
  let ks := (upto 4).filter fun k => h.routeUsable k
  if bit hd 35 then (if bit hd 33 then ks else [])
  else if pkDest hd = h.address || !h.flag F.HUB_ADDR_VALID 0 then []
  else if !bit hd 33 then []
  else (ks.find? fun k => decide (h.fld F.ROUTE_LO k ≤ pkDest hd) && decide (pkDest hd ≤ h.fld F.ROUTE_HI k)).toList

/-- The packet is executed here (R31, R392). -/
def Hub.pkMine (h : Hub) (hd : Nat) : Bool := bit hd 35 || pkDest hd == h.address || !h.flag F.HUB_ADDR_VALID 0

/-- Packets that arrive on lanes other than `l` to be forwarded on child port `k`: each holds its place in the forward buffer from
its first byte on (R393). -/
def Hub.forwardComing (h : Hub) (l k : Nat) : Nat :=
  ((upto 24).filter fun m => m != l && match (h.lane m).pkt with
    | some b => decide (8 ≤ b.length) && (h.routePorts (pkHeader b)).contains k && !(h.lane m).pktSkip.contains k
    | none => false).length

/-- The ports whose forward buffer holds 8 packets, each logged (R393). -/
def Hub.fullPorts (h : Hub) (l hd : Nat) : Hub × List Nat :=
  let full := (h.routePorts hd).filter fun k => decide (8 ≤ (h.child k).fwd.length + h.forwardComing l k)
  (each full h fun _ h => h.violation pvFwdFull l (pkSeq hd), full)

/-! ### Replies (R403-R406) -/

/-- STATUS as it stands (R407-R410). -/
def Hub.status (h : Hub) (stale range : Bool) : Nat :=
  bits (h.word A.ATTN_STAT).toNat 15 2 * 4 + 2 * b2n stale + b2n range

/-- A reply header (R403). -/
def Hub.replyHeader (h : Hub) (hub : BitVec 16) (seq : BitVec 12) (tail : Bool) (status count : Nat) : W64 :=
  BitVec.ofNat 64 (hub.toNat * 2 ^ 48 + seq.toNat * 2 ^ 36 + h.mode % 8 * 2 ^ 33 + b2n tail * 2 ^ 32 + status % 65536 * 65536
    + count % 65536)

/-- A whole reply: header, result words, CRC. -/
def Hub.mkReply (h : Hub) (hub : BitVec 16) (seq : BitVec 12) (slot : W48) (tail : Bool) (status : Nat) (rs : List W32) : Reply :=
  let hd := h.replyHeader hub seq tail status rs.length
  let ws := hiWord hd :: loWord hd :: rs
  { seq := seq, slot := slot, ws := ws ++ [crc32c (ws.flatMap bytes32)] }

/-- A tail word (R405). -/
def tailWord (code trej : Nat) (rdisc adisc : Bool) (ix : Nat) : W32 :=
  BitVec.ofNat 32 (code % 256 * 2 ^ 24 + trej % 256 * 2 ^ 16 + b2n rdisc * 2048 + b2n adisc * 1024 + ix % 1024)

/-- Result words two to a word, a last odd one padded (R406). -/
def pairUp (rs : List W32) : List W64 :=
  match rs with
  | [] => []
  | [a] => [pair a 0]
  | a :: b :: rest => pair a b :: pairUp rest

/-- The REPLY record of a reply, header and body (R406). -/
def Hub.replyRecord (h : Hub) (r : Reply) : List W64 :=
  let a := (r.ws[0]?).getD 0
  let b := (r.ws[1]?).getD 0
  let rs := (r.ws.drop 2).dropLast
  let body := pair a b :: pairUp rs ++ [pair (r.ws.getLast?.getD 0) 0]
  header tReply h.address 16 r.slot.toNat (body.length + 2) :: body

/-- The reply unit announces its oldest reply on Q29 and puts it into record memory, when both have room; by fuel. -/
def Hub.replyUnit (fuel : Nat) (h : Hub) : Hub :=
  match fuel with
  | 0 => h
  | k + 1 =>
    match h.pk.out with
    | [] => h
    | r :: rest =>
      let ws := h.replyRecord r
      if h.roomFor .ctrl (blocksOf (ws.length + 1)) && (h.queue 29).ws.length < 16 then
        let h := (h.push 29 0 true false).1
        Hub.replyUnit k (({ h with
          pk := { h.pk with out := rest }
          mule := { h.mule with recs := h.mule.recs ++ [({ ws := ws, cls := .ctrl, ann := some 29 } : Rec)] } }).refreshMule)
      else h

/-- Every reply that can be announced now is. -/
def Hub.repliesGo (h : Hub) : Hub := h.replyUnit h.pk.out.length

/-- TT_STAT.PKT and REPLIES. -/
def Hub.refreshTether (h : Hub) : Hub :=
  (h.setFlag F.TT_STAT_PKT 0 h.tether.pkt.isSome).setFld F.TT_STAT_REPLIES 0 h.tether.out.length

/-- A reply leaves by its source: as a REPLY record, or on the Tether port (R392, R396). -/
def Hub.sendReply (h : Hub) (src : Source) (r : Reply) : Hub :=
  match src with
  | .lane _ => ({ h with pk := { h.pk with out := h.pk.out ++ [r] } }).repliesGo
  | .tether => ({ h with tether := { h.tether with out := h.tether.out ++ [(r.ws.flatMap bytes32, true)] } }).refreshTether

/-- The Tether port holds 4 replies, the one that the packet in execution is to have included (R575). -/
def Hub.tetherFull (h : Hub) : Bool :=
  let own (x : Option Exec) : Nat := b2n (x.any fun x => x.pkt.src == .tether && !x.pkt.noReply)
  decide (4 ≤ h.tether.out.length + own h.pk.cur + own h.pk.apply)

/-- The TREJ code that the next Tether reply states; it is stated once (R405). -/
def Hub.takeTrej (h : Hub) (src : Source) : Nat × Hub :=
  match src with
  | .lane _ => (0, h)
  | .tether => (h.tether.trej.toNat, { h with tether := { h.tether with trej := 0 } })

/-- A reply beside that of the packet in execution. DESIGN CHOICE: the spec does not say what becomes of a NAK or of a reply sent again
that would be a fifth reply on the Tether port; it is not made (notes/assumptions/97.md). -/
def Hub.extraReply (h : Hub) (src : Source) (f : Hub → Hub) : Hub := if src == .tether && h.tetherFull then h else f h

/-- A NAK reply (R394, R405). -/
def Hub.nak (h : Hub) (src : Source) (hub : BitVec 16) (seq : BitVec 12) (code : Nat) : Hub :=
  h.extraReply src fun h =>
    let (trej, h) := h.takeTrej src
    h.sendReply src (h.mkReply hub seq h.slot true (h.status false false) [tailWord code trej false false 0])

/-! ### Acceptance (R394, R395) -/

/-- The stored reply of a source. -/
def Hub.stored (h : Hub) (src : Source) : Option Reply :=
  match src with
  | .lane _ => h.pk.laneReply
  | .tether => h.pk.tetherReply

/-- CP_STAT follows. -/
def Hub.refreshCp (h : Hub) : Hub :=
  let h := h.setFld F.CP_STAT_WAITING 0 h.pk.waiting.length
  let h := (h.setFlag F.CP_STAT_LANE_VALID 0 h.pk.laneReply.isSome).setFlag F.CP_STAT_TETH_VALID 0 h.pk.tetherReply.isSome
  let h := match h.pk.laneReply with
    | some r => h.setFld F.CP_STAT_LANE_SEQ 0 r.seq.toNat
    | none => h.setFld F.CP_STAT_LANE_SEQ 0 0
  match h.pk.tetherReply with
    | some r => h.setFld F.CP_STAT_TETH_SEQ 0 r.seq.toNat
    | none => h.setFld F.CP_STAT_TETH_SEQ 0 0

/-- Address of the reply to a packet (R28, R403). -/
def Hub.replyHub (h : Hub) (src : Source) (hd : Nat) : BitVec 16 :=
  match src with
  | .lane _ => if h.flag F.HUB_ADDR_VALID 0 || bit hd 35 then BitVec.ofNat 16 h.address else BitVec.ofNat 16 (pkDest hd)
  | .tether => BitVec.ofNat 16 h.address

/-- A complete packet that is to be executed (R394). -/
def Hub.accept (h : Hub) (src : Source) (b : List W8) : Hub :=
  let hd := pkHeader b
  let b := b.take (pkLength hd)
  let seq := BitVec.ofNat 12 (pkSeq hd)
  let hub := h.replyHub src hd
  let n := b.length - 4
  if BitVec.ofNat 32 (ofBytes (b.drop n)) ≠ crc32c (b.take n) then
    (h.violation pvBadCrc (srcPlace src) seq.toNat).nak src hub seq 0x80
  else
    match (h.stored src).filter fun r => r.seq == seq with
    | some r =>
      (h.violation pvDuplicate (srcPlace src) seq.toNat).extraReply src fun h => h.sendReply src { r with slot := h.slot }
    | none =>
      if 4 ≤ h.pk.waiting.length then (h.violation pvPktFull (srcPlace src) seq.toNat).nak src hub seq 0x81
      else
        let p : Pkt := { src := src, dest := BitVec.ofNat 16 (pkDest hd), seq := seq, broadcast := bit hd 35, noReply := bit hd 34
                         forward := bit hd 33, atomic := bit hd 32, code := words32 1024 ((b.drop 8).take (4 * pkCount hd))
                         arrived := h.slot, hub := hub
                         late := h.flag F.HUB_ADDR_VALID 0 && decide (5 ≤ h.fld F.JNL_STAT_STEP 0) && !h.flag F.JNL_STAT_DONE 0 }
        ({ h with pk := { h.pk with waiting := h.pk.waiting ++ [p] } }).refreshCp

/-! ### Routing (R31-R33, R391, R393) -/

/-- A packet joins those that a child port forwards. -/
def Hub.forward (h : Hub) (k : Nat) (b : List W8) : Hub :=
  let x := h.child k
  (h.setChild k { x with fwd := x.fwd ++ [(b, true)] }).bump F.CP_FWD_COUNT 0

/-- A complete packet of lane `l`; `skip` are the child ports that had no room for it. -/
def Hub.route (h : Hub) (l : Fin 24) (b : List W8) (skip : List Nat) : Hub :=
  let hd := pkHeader b
  let b := b.take (pkLength hd)
  let ports := h.routePorts hd
  let mine := h.pkMine hd
  let h := each (ports.filter fun k => !(k ∈ skip)) h fun k h => h.forward k b
  if mine then h.accept (.lane l) b
  else if ports.isEmpty then h.violation pvUnroutable l.val (pkSeq hd)
  else h

/-- The lane is a source of packets (R33, R391). -/
def Hub.takesPackets (h : Hub) (l : Nat) : Bool := h.role l == roleParent && h.lanePort l == h.portInForce && !h.standby l && !h.start.held

/-- A whole packet on a lane (PACKET_ROUTE): one whose bytes end early is TRUNCATED. -/
def Hub.routeWhole (h : Hub) (l : Fin 24) (b : List W8) : Hub :=
  if !h.takesPackets l.val then h
  else
    let hd := pkHeader b
    if b.length < 8 then h.violation pvTruncated l.val 0
    else if pkUnreadable hd then h.violation pvUnreadable l.val (pkSeq hd)
    else if b.length < pkLength hd then h.violation pvTruncated l.val (pkSeq hd)
    else
      let (h, full) := h.fullPorts l.val hd
      h.route l b full

/-! ### Packet bytes of a lane (R362-R364, R389) -/

/-- The packet in progress on a lane is discarded, and packet bytes are ignored until the next PSTART (R363). -/
def Hub.pktLost (h : Hub) (l : Nat) : Hub :=
  let x := h.lane l
  h.setLane l { x with pkt := none, ignore := true, pktSkip := [] }

/-- SEQ of a packet in progress, once its header has arrived. -/
def partialSeq (b : List W8) : Nat := if b.length < 8 then 0 else pkSeq (pkHeader b)

/-- Bytes of the packet in progress have arrived: its header is judged when it is there, and the packet is complete at the
length it gives. `before` are the bytes that had arrived before. -/
def Hub.pktGrows (h : Hub) (l : Fin 24) (before got : List W8) : Hub :=
  let x := h.lane l.val
  if got.length < 8 then h.setLane l.val { x with pkt := some got, ignore := false }
  else
    let hd := pkHeader got
    if pkUnreadable hd then (h.pktLost l.val).violation pvUnreadable l.val (pkSeq hd)
    else
      let (h, skip) := if before.length < 8 then h.fullPorts l.val hd else (h, x.pktSkip)
      let x := h.lane l.val
      if got.length < pkLength hd then h.setLane l.val { x with pkt := some got, ignore := false, pktSkip := skip }
      else (h.setLane l.val { x with pkt := none, ignore := false, pktSkip := [] }).route l got skip

/-- The packet bytes of a decoded frame. A frame with PSTART set ends the ignoring of bytes. -/
def Hub.laneBytes (h : Hub) (l : Fin 24) (pstart : Bool) (plen : Nat) (pbytes : List W8) : Hub :=
  let x := h.lane l.val
  if x.ignore && !pstart then h
  else if 40 < plen || (plen != 0 && !pstart && x.pkt.isNone) then
    (h.pktLost l.val).violation pvUnreadable l.val 0
  else if pstart then
    let h := match x.pkt with
      | some b => h.violation pvTruncated l.val (partialSeq b)
      | none => h
    h.pktGrows l [] (pbytes.take plen)
  else
    match x.pkt with
    | some b => h.pktGrows l b (b ++ pbytes.take plen)
    | none => h

/-! ### Commands -/

/-- PACKET_ROUTE. A whole packet has arrived on a PARENT lane (R31). -/
def execPacketRoute (l : Fin 24) (bytes : List W8) (s : State) : Host.Outcome State Fault Refusal :=
  .next { s with hub := s.hub.awake (s.hub.routeWhole l bytes) }

/-- A whole packet that is to be executed (R389, R392, R394): on a lane it must be a source of packets, and the header must
be readable and the packet complete. -/
def Hub.acceptWhole (h : Hub) (src : Source) (b : List W8) : Hub :=
  let hd := pkHeader b
  let mine := match src with
    | .lane l => h.takesPackets l.val
    | .tether => !h.start.held
  if !mine then h
  else if b.length < 8 then h.violation pvTruncated (srcPlace src) 0
  else if pkUnreadable hd then h.violation pvUnreadable (srcPlace src) (pkSeq hd)
  else if b.length < pkLength hd then h.violation pvTruncated (srcPlace src) (pkSeq hd)
  else if h.pkMine hd then h.accept src b
  else h.violation pvUnroutable (srcPlace src) (pkSeq hd)

/-- PACKET_ACCEPT. A complete packet that is to be executed is queued, answered, or refused (R394). -/
def execPacketAccept (src : Source) (bytes : List W8) (s : State) : Host.Outcome State Fault Refusal :=
  .next { s with hub := s.hub.awake (s.hub.acceptWhole src bytes) }

end Sys2Proof.Machine
end

