-- ==== Sys2Proof/Machine/Hen.lean ====
section
/-! DEFINITION. The Hen: merging in slot order, assignment to lanes, child ports and their cells, audits, claims
(11_hen_merge_and_credits.md). The commands are at the end. -/

namespace Sys2Proof.Machine

/-! ### The bundle (R22, R378) -/

/-- The lanes to which records go: in use, trained, not about to retire (R501), and while the port in force has lost framing those of
the other port with framing (R350). -/
def Hub.sendLanes (h : Hub) : List Nat :=
  let p := h.sendPort
  (h.bundle p).filter fun l => h.flag F.LN_STAT_TRAINED l && !(h.lane l).retiring && (p == h.portInForce || h.framed l)

/-- The lane whose frames a lane of the other port repeats (R22). -/
def Hub.twinOf (h : Hub) (l : Nat) : Option Nat :=
  let p := h.sendPort
  if h.role l = roleParent && h.lanePort l ≠ p then
    match (h.bundle (1 - p)).idxOf? l with
    | some i => (h.bundle p)[i]?
    | none => none
  else none

/-- Words that a record still has to send. -/
def Assigned.left (a : Assigned) : Nat := a.r.ws.length - a.sent

/-- Words assigned to a lane and not yet sent. -/
def Lane.words (x : Lane) : Nat := x.tx.foldl (fun n a => n + a.left) 0

/-- Of the words that wait on a lane, whether those of the last, partial cell are all of returned records. -/
def Lane.partialAgain (x : Lane) : Bool :=
  let flags := x.tx.flatMap fun a => List.replicate a.left a.r.again
  (flags.drop (flags.length / 7 * 7)).all fun b => b

/-- Cells that a record of `n` words opens on a lane (R332): the free words of the last cell that waits there are used. A
cell that so far holds returned words alone is opened by the first new word. -/
def Lane.opens (x : Lane) (n : Nat) : Nat :=
  let part := x.words % 7
  let free := if part = 0 then 0 else 7 - part
  ceilDiv (n - free) 7 + (if part ≠ 0 && x.partialAgain then 1 else 0)

/-! ### Merging (R326-R329) -/

/-- The type of a record whose SLOT carries a trigger number (R329). -/
def Whole.numbered (r : Whole) : Bool :=
  let t := hdrType ((r.ws[0]?).getD 0)
  t == tHeldOff || (t == tCompressed && bits ((r.ws[1]?).getD 0).toNat 31 26 == tHeldOff)

/-- The slot tag by which a record is merged. -/
def Hub.mergeTag (h : Hub) (r : Whole) : W24 :=
  if r.numbered then BitVec.ofNat 24 (r.enter - BitVec.ofNat 48 (h.fld F.HEN_CFG_HORIZON 0)).toNat
  else BitVec.ofNat 24 (hdrSlot ((r.ws[0]?).getD 0))

/-- The age of a record. -/
def Hub.age (h : Hub) (r : Whole) : Nat := (h.tag - h.mergeTag r).toNat

/-- Sequence number of a record: bits 31-0 of its trailer (R287). -/
def Whole.seq (r : Whole) : W32 := loWord (r.ws.getLast?.getD 0)

/-- The head of the local pool: the oldest record, then the lowest number (R326). -/
def Hub.poolHead (h : Hub) : Option Whole :=
  h.hen.pool.foldl (fun best r => match best with
    | none => some r
    | some b => if h.age b < h.age r || (h.age b = h.age r && r.seq.toNat < b.seq.toNat) then some r else some b) none

/-- The heads of the inputs: 4 is the local pool, then the child ports. -/
def Hub.heads (h : Hub) : List (Nat × Whole) :=
  (match h.poolHead with
    | some r => [(4, r)]
    | none => []) ++
  (upto 4).filterMap fun k => (h.child k).recs.head?.map fun (r : Whole) => (k, r)

/-- The oldest head; ties go to the one named first. -/
def Hub.oldest (h : Hub) : Option (Nat × Whole) :=
  h.heads.foldl (fun best x => match best with
    | none => some x
    | some b => if h.age b.2 < h.age x.2 then some x else some b) none

/-- Every active input holds a record (R327). -/
def Hub.allActive (h : Hub) : Bool :=
  !h.hen.pool.isEmpty && (upto 4).all fun k => !h.childActive k || !(h.child k).recs.isEmpty

/-- HEN_STAT and the counts of a port follow. -/
def Hub.refreshHen (h : Hub) : Hub := h.setFld F.HEN_STAT_ACTIVE 0 (maskOf ((upto 4).filter fun k => h.childActive k))

/-- The lane for the next record (R378). -/
def Hub.laneFor (h : Hub) : Option Nat :=
  h.sendLanes.foldl (fun best l => match best with
    | none => some l
    | some b => if (h.lane l).words < (h.lane b).words then some l else some b) none

/-- Words and bytes that the output hash of the slot covers (R512). -/
def Hub.hashed (h : Hub) (place : Nat) (bs : List W8) : Hub :=
  if h.parked then { h with twin := { h.twin with hashBytes := h.twin.hashBytes ++ [(place, bs)] } } else h

/-- A record is assigned to a lane with `cells` reserved. -/
def Hub.assign (h : Hub) (l : Nat) (r : Whole) (cells : Nat) : Hub :=
  let x := h.lane l
  let h := h.setLane l { x with tx := x.tx ++ [{ r := r, sent := 0, reserved := cells }], led := h.lanePort l != h.portInForce }
  ({ h with hen := { h.hen with reserved := h.hen.reserved + cells } }).hashed 0 (r.ws.flatMap bytes64)

/-- Removes a record from the input that holds it. -/
def Hub.takeInput (h : Hub) (k : Nat) (r : Whole) : Hub :=
  if k = 4 then { h with hen := { h.hen with pool := h.hen.pool.erase r } }
  else h.setChild k { h.child k with recs := (h.child k).recs.drop 1 }

/-- The Hen sends its next record (R327, R328, R332, R378, R380): a returned record first, on no credit of its own; else the
oldest head, when it may go and the balance covers its cells. -/
def Hub.henSends (h : Hub) : Hub :=
  match h.laneFor with
  | none => h
  | some l =>
    match h.hen.front with
    | r :: rest => ({ h with hen := { h.hen with front := rest } }).assign l { r with again := true } 0
    | [] =>
      match h.oldest with
      | none => (h.setFld F.HEN_STAT_WAIT 0 0).setFld F.HEN_STAT_NOCRED 0 0
      | some (k, r) =>
        if !h.allActive && h.age r < h.fld F.HEN_CFG_HORIZON 0 then h.setFld F.HEN_STAT_WAIT 0 1
        else
          let h := h.setFld F.HEN_STAT_WAIT 0 0
          let cells := (h.lane l).opens r.ws.length
          if h.fld F.HEN_UPSTAT_BAL 0 < h.hen.reserved + cells then h.setFld F.HEN_STAT_NOCRED 0 1
          else
            let tag := h.mergeTag r
            let late := !r.numbered && (match h.hen.lastTag with
              | some t => decide ((h.tag - t).toNat < (h.tag - tag).toNat)
              | none => false)
            let h := h.setFld F.HEN_STAT_NOCRED 0 0
            let h := if late then h.bump F.HEN_LATE_COUNT 0 else h
            let h := { h.takeInput k r with hen := { (h.takeInput k r).hen with lastTag := some tag } }
            h.assign l r cells

/-! ### Child ports: credits and cells (R336-R342) -/

/-- o_k (R337). -/
def Hub.outstanding (h : Hub) (k : Nat) : Int :=
  circ 32 (h.fld F.HEN_PGRANT_GRANTED k) (h.fld F.HEN_PRECV_RECEIVED k + h.fld F.HEN_PRET_RETURNED k)

/-- OUTST follows. -/
def Hub.refreshPort (h : Hub) (k : Nat) : Hub := h.setS F.HEN_PSTAT_OUTST k (satS 16 (h.outstanding k))

/-- Cells to grant in a frame of port k (R336, R337). -/
def Hub.grantOf (h : Hub) (k : Nat) : Nat :=
  let cap : Int := h.fld F.HEN_PCFG_CAPL k * (h.childLanes k).length
  (clamp 0 255 (cap - h.fld F.HEN_PSTAT_HELD k - max (h.outstanding k) 0)).toNat

/-- A grant is made in this slot. -/
def Hub.granted (h : Hub) (k g : Nat) : Hub :=
  let total := (h.fld F.HEN_PGRANT_GRANTED k + g) % 2 ^ 32
  let h := (h.setFld F.HEN_PGRANT_GRANTED k total).refreshPort k
  let x := h.child k
  let past := x.gHist.filter fun e => e.1 != h.slot
  h.setChild k { x with gHist := (h.slot, BitVec.ofNat 32 total) :: past.take 1023 }

/-- Cells leave the buffer of port k. -/
def Hub.releaseCells (h : Hub) (k n : Nat) : Hub := h.setFld F.HEN_PSTAT_HELD k (h.fld F.HEN_PSTAT_HELD k - n)

/-- Reasons of a GAP item (R342). -/
abbrev rOverflow : Nat := 1
abbrev rMalformed : Nat := 2
abbrev rPortLost : Nat := 3

/-- The GAP item of a dropped child record: header and trailer where they were received (R342). -/
def Hub.gapItem (h : Hub) (k reason : Nat) (hd tr : Option W64) : Hub :=
  let slot := match hd with
    | some w => hdrSlot w
    | none => h.tag.toNat
  let hub := match hd with
    | some w => hdrHub w
    | none => 0xFFFF
  let seq := match tr with
    | some w => (loWord w).toNat
    | none => 0xFFFFFFFF
  h.pushItem 30 [header tGap 0 0 slot 0,
    BitVec.ofNat 64 ((0x20 + k) * 2 ^ 56 + reason * 2 ^ 48 + hub * 2 ^ 32 + seq), hd.getD 0]

/-- A dropped child record is counted and its GAP item made. -/
def Hub.dropRecord (h : Hub) (k reason : Nat) (hd tr : Option W64) : Hub :=
  (h.bump F.HEN_CDROP_COUNT k).gapItem k reason hd tr

/-- How a cell reads on a lane: pieces of records. `own` words belong to a record of `len` words of which `from_` came
before this cell; `hd` is its header. -/
structure Piece where
  hd : W64
  from_ : Nat
  ws : List W64
  len : Nat
  deriving DecidableEq, Repr

/-- Reads the words of a cell at a record start (R367, R368): its pieces, and whether it is malformed. -/
def readCell (fuel : Nat) (twin : Bool) (ws : List W64) : List Piece × Bool :=
  match fuel with
  | 0 => ([], false)
  | k + 1 =>
    match ws with
    | [] => ([], false)
    | w :: rest =>
      if hdrType w = 0 then ([], w != 0 || rest.any fun x => x != 0)
      else if hdrLength w < 2 || (hdrType w = tTwinSync && !twin) then ([], true)
      else
        let own := (w :: rest).take (hdrLength w)
        let more := readCell k twin ((w :: rest).drop (hdrLength w))
        ({ hd := w, from_ := 0, ws := own, len := hdrLength w } :: more.1, more.2)

/-- Reads a cell behind what a lane has in progress. -/
def Lane.readCell (x : Lane) (twin : Bool) (cell : List W64) : List Piece × Bool :=
  if x.rxSkip ≠ 0 then
    let own := cell.take x.rxSkip
    let more := Machine.readCell 8 twin (cell.drop x.rxSkip)
    let hd := (x.rx[0]?).getD 0
    ({ hd := hd, from_ := hdrLength hd - x.rxSkip, ws := own, len := hdrLength hd } :: more.1, more.2)
  else
    match x.rx with
    | [] => Machine.readCell 8 twin cell
    | hd :: _ =>
      let left := hdrLength hd - x.rx.length
      let own := cell.take left
      let more := Machine.readCell 8 twin (cell.drop left)
      ({ hd := hd, from_ := x.rx.length, ws := own, len := hdrLength hd } :: more.1, more.2)

/-- A piece ends its record. -/
def Piece.ends (p : Piece) : Bool := decide (p.len ≤ p.from_ + p.ws.length)

/-- The trailer, when the piece holds it. -/
def Piece.trailer (p : Piece) : Option W64 := if p.ends then p.ws.getLast? else none

/-- One piece of a cell whose records are dropped: its GAP item is made when its trailer is there; else its later words are
discarded as they come. -/
def Hub.dropPiece (h : Hub) (l k reason : Nat) (p : Piece) : Hub :=
  let x := h.lane l
  let why := if x.rxDrop ≠ 0 && p.from_ ≠ 0 then x.rxDrop else reason
  let h := if p.from_ ≠ 0 then h.releaseCells k x.rxCells else h
  if p.ends then
    (h.setLane l { x with rx := [], rxSkip := 0, rxDrop := 0, rxCells := 0 }).dropRecord k why (some p.hd) p.trailer
  else h.setLane l { x with rx := [p.hd], rxSkip := p.len - (p.from_ + p.ws.length), rxDrop := why, rxCells := 0 }

/-- A malformed frame (R340): counted and logged, and every record it carried words of is dropped. A word at a record start
that is no header counts as a record whose header was not received. -/
def Hub.malformed (h : Hub) (l k : Nat) (ps : List Piece) (stray : Bool) : Hub :=
  let h := (h.bump F.HEN_MALF_COUNT k).violation pvMalformed l 0
  let h := h.setChild k { h.child k with malf := (h.child k).malf + 1 }
  let h := each ps h fun p h => h.dropPiece l k rMalformed p
  if stray then h.dropRecord k rMalformed none none else h

/-- A record of a child is complete (R338, R382). -/
def Hub.childRecord (h : Hub) (l k : Nat) (ws : List W64) (again : Bool) (cells : Nat) : Hub :=
  let hd := (ws[0]?).getD 0
  let key : BitVec 16 × W32 := (BitVec.ofNat 16 (hdrHub hd), loWord (ws.getLast?.getD 0))
  let x := h.child k
  let recent := x.recent.filter fun e => decide (slotsFrom e.2.2 h.slot ≤ 1024)
  if again && recent.any fun e => e.1 == key.1 && e.2.1 == key.2 then
    ((h.setChild k { x with recent := recent }).bump F.LN_DUPDROP_COUNT l).releaseCells k cells
  else
    let r : Whole := { ws := ws, cls := clsOfType (hdrType hd), enter := h.slot, port := some k, cells := cells }
    h.setChild k { x with recs := x.recs ++ [r], recent := (key.1, key.2, h.slot) :: recent }

/-- One piece of a good cell; `again` is the REPLAY bit of the frame. The cell itself, when it counts, belongs to the record
of its last piece. -/
def Hub.takePiece (h : Hub) (l k : Nat) (again counted : Bool) (p : Piece) : Hub :=
  let x := h.lane l
  if x.rxDrop ≠ 0 && p.from_ ≠ 0 then h.dropPiece l k x.rxDrop p
  else
    let ws := if p.from_ = 0 then p.ws else x.rx ++ p.ws
    let was := if p.from_ = 0 then again else x.rxAgain
    let cells := (if p.from_ = 0 then 0 else x.rxCells) + b2n counted
    let h := if counted then h.setFld F.HEN_PSTAT_HELD k (h.fld F.HEN_PSTAT_HELD k + 1) else h
    if p.ends then
      (h.setLane l { x with rx := [], rxSkip := 0, rxDrop := 0, rxCells := 0 }).childRecord l k ws was cells
    else h.setLane l { x with rx := ws, rxAgain := was, rxSkip := 0, rxDrop := 0, rxCells := cells }

/-- A cell counts on port k (R338, R377). -/
def Hub.countCell (h : Hub) (l k : Nat) (seq : W8) (new : Bool) : Hub :=
  let beyond := new && decide (h.outstanding k ≤ 0)
  let h := if beyond then (h.violation pvOverspend l 0).bump F.HEN_PVIOL_COUNT k else h
  let x := h.lane l
  let n := if new then x.cells + 1#32 else x.cells
  let h := h.setLane l { x with cells := n, cellHist := (seq, n) :: x.cellHist.take 255 }
  if new then (h.setFld F.HEN_PRECV_RECEIVED k ((h.fld F.HEN_PRECV_RECEIVED k + 1) % 2 ^ 32)).refreshPort k else h

/-- A DATA cell is handed to the Hen on a CHILD lane (R338-R340, R367, R368, R377). -/
def Hub.cellArrives (h : Hub) (l k : Nat) (seq : W8) (new again bad : Bool) (cell : List W64) : Hub :=
  let (ps, stray) := (h.lane l).readCell false cell
  if bad || stray || (!new && !again) then
    let x := h.lane l
    (h.setLane l { x with cellHist := (seq, x.cells) :: x.cellHist.take 255 }).malformed l k ps stray
  else
    let h := h.countCell l k seq new
    let live := ps.filter fun p => !((h.lane l).rxDrop ≠ 0 && p.from_ ≠ 0)
    if new && !live.isEmpty && 1040 ≤ h.fld F.HEN_PSTAT_HELD k then each ps h fun p h => h.dropPiece l k rOverflow p
    else
      let n := ps.length
      each ((upto n).zip ps) h fun e h => h.takePiece l k again (new && e.1 + 1 == n) e.2

/-- Child port k has lost its last CHILD lane (R341); `lost` are the headers of the records in progress there. -/
def Hub.portLost (h : Hub) (k : Nat) (lost : List W64) : Hub :=
  let h := each lost h fun w h => h.dropRecord k rPortLost (some w) none
  let h := ((h.setFld F.HEN_PGRANT_GRANTED k 0).setFld F.HEN_PRECV_RECEIVED k 0).setFld F.HEN_PRET_RETURNED k 0
  let h := h.setChild k { h.child k with gHist := [], malf := 0, resync := true }
  (h.refreshPort k).refreshHen

/-- Child port k has no CHILD lane, and nothing that one received waits for delivery (R341, R507). -/
def Hub.portEmpty (h : Hub) (k : Nat) : Bool :=
  !h.childActive k && !((upto 24).any fun l => (h.lane l).hold.any fun e => e.up && e.port == k)

/-- What a CHILD lane of port k has in progress goes: the record is discarded, and one that was being dropped is counted, with its GAP
item (R339, R342). Answers the header of a discarded record. -/
def Hub.rxEnds (h : Hub) (l k : Nat) : Hub × List W64 :=
  let x := h.lane l
  let h := (h.releaseCells k x.rxCells).setLane l { x with
    rx := [], rxAgain := false, rxSkip := 0, rxDrop := 0, rxCells := 0, cells := 0, cellHist := [] }
  if x.rxDrop ≠ 0 then (h.dropRecord k x.rxDrop x.rx.head? none, []) else (h, x.rx.take 1)

/-! ### Audits (R345, R346) -/

/-- G_p through the frame of a slot with tag `q`. -/
def Child.grantedAt (x : Child) (q : Nat) (now : W32) : W32 :=
  match x.gHist.find? fun e => decide (circ 24 e.1.toNat q ≤ 0) with
  | some e => e.2
  | none => match x.gHist.getLast? with
    | some _ => 0
    | none => now

/-- Cells received on a lane through frame `s`. -/
def Lane.cellsAt (x : Lane) (s : W8) : W32 :=
  match x.cellHist.find? fun e => e.1 == s with
  | some e => e.2
  | none => if x.cellHist.isEmpty then 0 else x.cells

/-- Lanes of a child port, those fenced included, ascending: lane j of the audit frame (R344). -/
def Hub.portLanes (h : Hub) (k : Nat) : List Nat := (upto 24).filter fun l =>
  (h.role l == roleChild || (h.flag F.LN_STAT_FENCED l && h.fld F.LANE_ROLE_ROLE l == roleChild)) && h.fld F.LANE_ROLE_ACT_PORT l == k

/-- An audit frame of a child (R345, R346). -/
def Hub.audited (h : Hub) (k : Nat) (ws : List W64) : Hub :=
  let w (i : Nat) : Nat := ((ws[i]?).getD 0).toNat
  let ret := bits (w 2) 15 0
  let lost := bits (w 2) 31 16
  let mask := bits (w 5) 11 0
  let x := h.child k
  let h := (h.setFld F.HEN_PRET_RETURNED k ((h.fld F.HEN_PRET_RETURNED k + ret) % 2 ^ 32)).bump F.HEN_AUDCNT_COUNT 0
  let lanes := h.portLanes k
  let seqOf (j : Nat) : W8 := BitVec.ofNat 8 (w (3 + j / 6) / 2 ^ (8 * (j % 6)))
  let counted := (upto lanes.length).filter fun j => bit mask j
  let up := counted.foldl (fun (a : W32) j => a + (h.lane ((lanes[j]?).getD 0)).cellsAt (seqOf j)) 0
  let dg := circ 32 (bits (w 0) 31 0) (x.grantedAt (bits (w 0) 63 40) (BitVec.ofNat 32 (h.fld F.HEN_PGRANT_GRANTED k))).toNat
  let du := circ 32 (bits (w 1) 31 0) up.toNat
  let dr := circ 32 (bits (w 1) 63 32) (h.fld F.HEN_PRET_RETURNED k)
  let add (f : Fld) (d : Int) (h : Hub) : Hub := h.setFld f k (field 32 ((h.fld f k : Int) + d))
  let h := add F.HEN_PRET_RETURNED dr (add F.HEN_PRECV_RECEIVED du (add F.HEN_PGRANT_GRANTED dg h))
  let h := match counted.head? with
    | some j =>
      let l := (lanes[j]?).getD 0
      let y := h.lane l
      let d := BitVec.ofInt 32 du
      h.setLane l { y with cells := y.cells + d, cellHist := y.cellHist.map fun (e : W8 × W32) => (e.1, e.2 + d) }
    | none => h
  let h := (h.setS F.HEN_PAUD_DG k (satS 16 dg)).setS F.HEN_PAUD_DU k (satS 16 du)
  let y := h.child k
  let h := h.setChild k { y with gHist := y.gHist.map fun (e : W48 × W32) => (e.1, e.2 + BitVec.ofInt 32 dg), malf := 0, resync := false }
  let h := h.refreshPort k
  if !x.resync && (dr ≠ 0 || du ≠ (x.malf : Int) || (dg ≠ 0 && lost = 0)) then
    ((h.bump F.HEN_AUDERR_COUNT k).attn aAudit).report (mkReport 0x41 (unitOf 9 k))
  else h

/-! ### Claims (R347-R350) -/

/-- One claim is higher than another (R347). -/
def claimHigher (a b : Nat) : Bool :=
  let ra := bits a 15 12
  let rb := bits b 15 12
  let d := (bits a 11 0 + 4096 - bits b 11 0) % 4096
  decide (rb < ra) || (ra == rb && decide (1 ≤ d) && decide (d ≤ 2047))

/-- The last claim of a parent port, and whether it is valid at this boundary (R348). -/
def Hub.claimOf (h : Hub) (p : Nat) : Nat := if p = 0 then h.fld F.HEN_CLAIM_CLAIM0 0 else h.fld F.HEN_CLAIM_CLAIM1 0
def Hub.claimValid (h : Hub) (p : Nat) : Bool :=
  match (if p = 0 then h.hen.claimAt0 else h.hen.claimAt1) with
  | some s => decide (slotsFrom s h.slot ≤ 8)
  | none => false

/-- A frame with a claim has arrived on a parent port. -/
def Hub.claimSeen (h : Hub) (p : Nat) (c : BitVec 16) : Hub :=
  if p = 0 then { (h.setFld F.HEN_CLAIM_CLAIM0 0 c.toNat) with hen := { h.hen with claimAt0 := some h.slot } }
  else { (h.setFld F.HEN_CLAIM_CLAIM1 0 c.toNat) with hen := { h.hen with claimAt1 := some h.slot } }

/-- The port that comes into force at this boundary (R348, R350). -/
def Hub.nextPort (h : Hub) : Nat :=
  let p := h.portInForce
  let v0 := h.claimValid 0
  let v1 := h.claimValid 1
  if v0 && v1 then (if claimHigher (h.claimOf 1) (h.claimOf 0) then 1 else 0)
  else if !v0 && !v1 then (if (h.parentsOf p).any fun l => h.framed l then 0 else p)
  else
    let q := if v0 then 0 else 1
    if q ≠ p && claimHigher (h.claimOf q) (h.claimOf p) then q else p

/-- The lanes of the new port take over what the lanes of the old one were to send; packets in progress on the old port are
discarded (R349, R363). Records that the old port had acknowledged have left the buffer of their child port already. -/
def Hub.switchPort (h : Hub) (q : Nat) : Hub :=
  let old := h.bundle (1 - q)
  let new := h.bundle q
  let held := (h.parentsOf (1 - q)).flatMap fun l => (h.lane l).records
  let h := (h.setFld F.HEN_UPSTAT_PORT 0 q)
  let h := { h with hen := { h.hen with audit := true } }
  let mend (k : Kept) : Kept := { k with recs := k.recs.map fun r => if r ∈ held then r else { r with cells := 0 } }
  let h := each (old.zip new) h fun e h =>
    let a := h.lane e.1
    let b := h.lane e.2
    let (kept, copies) := if b.led then (b.kept, b.copies) else (b.kept.map mend, b.copies.map mend)
    (h.setLane e.1 { a with tx := [], led := false }).setLane e.2 { b with
      tx := b.tx ++ a.tx, kept := kept, copies := copies, led := false }
  let h := each (new.drop old.length) h fun l h => h.setLane l { h.lane l with led := false }
  let now := (h.parentsOf q).flatMap fun l => (h.lane l).records
  let h := each (held.filter fun r => !(r ∈ now)).dedup h fun r h => match r.port with
    | some k => h.releaseCells k r.cells
    | none => h
  (each (h.parentsOf (1 - q)) h fun l h => h.pktLost l).refreshAges

/-- Framing has come back on the port in force: what the lanes of the other port had been given meanwhile, and have not had
acknowledged, returns to the head of assignment (R350; notes/assumptions/71.md). -/
def Hub.leadBack (h : Hub) : Hub :=
  if h.sendPort ≠ h.portInForce then h
  else
    each ((upto 24).filter fun l => (h.lane l).led && h.lanePort l != h.portInForce) h fun l h =>
      let x := h.lane l
      let freed := x.tx.foldl (fun n a => n + a.reserved) 0
      let h := h.setLane l { x with tx := [], led := false }
      { h with hen := { h.hen with front := h.hen.front ++ x.records, reserved := h.hen.reserved - freed } }

/-- The claims at a boundary: the port in force, and a change of master (R54, R348). -/
def Hub.claims (h : Hub) : Hub :=
  let q := h.nextPort
  let h := if q = h.portInForce then h else h.switchPort q
  let c : BitVec 16 := BitVec.ofNat 16 (h.claimOf h.portInForce)
  if c = h.rooster.claim then h
  else
    let h := { h with rooster := { h.rooster with claim := c, newMaster := !h.onCrystal } }
    if h.onCrystal then h else h.attn aTime

/-! ### Delivery of accepted frames (R334, R338, R507) -/

/-- A grant on the port in force joins the balance, which holds at most FFFFh (R334, R351). -/
def Hub.takeGrant (h : Hub) (n : Nat) (q : W48) : Hub :=
  let h := (h.setFld F.HEN_UPSTAT_BAL 0 (min 0xFFFF (h.fld F.HEN_UPSTAT_BAL 0 + n))).ledAdd 0xD n
  { h with hen := { h.hen with granted := h.hen.granted + BitVec.ofNat 32 n, grantSlot := q } }

/-- What a decoded downlink frame of a PARENT lane of port `p`, launched in slot `q`, brings to the Hen and to the packet buffers. -/
def Hub.deliverDown (h : Hub) (l : Fin 24) (p : Nat) (d : Down) (q : W48) : Hub :=
  let h := if d.claimP then h.claimSeen p d.claim else h
  if p ≠ h.portInForce then h
  else (h.takeGrant d.grant.toNat q).laneBytes l d.pstart d.plen d.pbytes

/-- What an accepted uplink frame of a CHILD lane of port `k` brings to the Hen. -/
def Hub.deliverUp (h : Hub) (l k : Nat) (u : Up) : Hub :=
  let bad := u.low != 0
  if u.kind = kAudit then
    let x := h.lane l
    let h := h.setLane l { x with cellHist := (u.seq, x.cells) :: x.cellHist.take 255 }
    if bad || (u.cell[6]?).getD 0 != 0 then h.malformed l k [] false else h.audited k u.cell
  else if u.kind = kData then h.cellArrives l k u.seq u.new u.again bad u.cell
  else h

/-! ### Commands -/

/-- HEN_SEND_RECORD. The Hen sends its next record, when it may (R327, R332, R378). -/
def execHenSendRecord (s : State) : Host.Outcome State Fault Refusal := .next { s with hub := s.hub.henSends }

/-- AUDIT_FRAME_RECEIVE. An audit frame of child port k (R345, R346). -/
def execAuditFrameReceive (k : Fin 4) (words : List W64) (s : State) : Host.Outcome State Fault Refusal :=
  goesOn s (s.hub.awake (s.hub.audited k.val words))

/-- AUDNOW. Writing 1 to HEN_UP.AUDNOW asks for an audit frame (R343). -/
def execAudnow (s : State) : Host.Outcome State Fault Refusal :=
  .next { s with hub := s.hub.awake ({ s.hub with hen := { s.hub.hen with audit := true } }) }

end Sys2Proof.Machine
end

