-- ==== Sys2Proof/Machine/Copy.lean ====
section
/-! DEFINITION. The state block of a twin unit: what the COPY records of R523 carry, as words at addresses, and back. The spec names the
parts of the state and leaves their layout open (notes/assumptions/40.md). -/

namespace Sys2Proof.Machine

/-- How values are written as words, and read back: what is read, and the words after it. -/
structure Codec (α : Type) where
  enc : α → List W32
  dec : List W32 → α × List W32

/-! ### Words, numbers, lists -/

def cWord : Codec W32 := { enc := fun w => [w], dec := fun ws => (ws.headD 0, ws.drop 1) }

/-- A codec through another type. -/
def Codec.via {α β : Type} (c : Codec β) (there : α → β) (back : β → α) : Codec α :=
  { enc := fun x => c.enc (there x), dec := fun ws => (back (c.dec ws).1, (c.dec ws).2) }

/-- One value, then another. -/
def Codec.next {α β : Type} (a : Codec α) (b : Codec β) : Codec (α × β) :=
  { enc := fun x => a.enc x.1 ++ b.enc x.2
    dec := fun ws =>
      let (x, ws) := a.dec ws
      let (y, ws) := b.dec ws
      ((x, y), ws) }

/-- A number below 2^64. -/
def cNat : Codec Nat :=
  { enc := fun n => [BitVec.ofNat 32 (n / 2 ^ 32), BitVec.ofNat 32 n]
    dec := fun ws => ((ws.headD 0).toNat * 2 ^ 32 + ((ws.drop 1).headD 0).toNat, ws.drop 2) }

def cBits (w : Nat) : Codec (BitVec w) := cNat.via BitVec.toNat (BitVec.ofNat w)
def cBool : Codec Bool := cWord.via (fun b => BitVec.ofNat 32 (b2n b)) (fun w => w != 0)

/-- `n` values. -/
def decMany {α : Type} (c : Codec α) (n : Nat) (ws : List W32) : List α × List W32 :=
  match n with
  | 0 => ([], ws)
  | k + 1 =>
    let (x, ws) := c.dec ws
    let (xs, ws) := decMany c k ws
    (x :: xs, ws)

/-- A list: its length, then its values. -/
def cList {α : Type} (c : Codec α) : Codec (List α) :=
  { enc := fun l => BitVec.ofNat 32 l.length :: l.flatMap c.enc
    dec := fun ws => decMany c (min (ws.headD 0).toNat ws.length) (ws.drop 1) }

def cOpt {α : Type} (c : Codec α) : Codec (Option α) := (cList c).via Option.toList List.head?
def cStore {α : Type} (c : Codec α) : Codec (Store α) := cList (cNat.next c)

/-! ### The parts of the state -/

def cCls : Codec Cls := cWord.via
  (fun c => match c with | .hit => 0 | .acq => 1 | .ctrl => 2 | .ledger => 3)
  (fun w => if w = 0 then .hit else if w = 1 then .acq else if w = 2 then .ctrl else .ledger)

def cQWord : Codec QWord := ((cBits 64).next (cBool.next (cBool.next (cBool.next ((cBits 48).next cNat))))).via
  (fun x => (x.data, x.last, x.gap, x.hit, x.slot, x.cyc))
  (fun (data, last, gap, hit, slot, cyc) => { data := data, last := last, gap := gap, hit := hit, slot := slot, cyc := cyc })

def cQueue : Codec Queue := ((cList cQWord).next (cBool.next cBool)).via
  (fun x => (x.ws, x.openItem, x.taken)) (fun y => ⟨y.1, y.2.1, y.2.2⟩)

def cRec : Codec Rec := ((cList (cBits 64)).next (cCls.next ((cOpt cNat).next cNat))).via
  (fun x => (x.ws, x.cls, x.ann, x.samples)) (fun y => ⟨y.1, y.2.1, y.2.2.1, y.2.2.2⟩)

def cWhole : Codec Whole := ((cList (cBits 64)).next (cCls.next ((cBits 48).next (cBool.next ((cOpt cNat).next cNat))))).via
  (fun x => (x.ws, x.cls, x.enter, x.again, x.port, x.cells)) (fun y => ⟨y.1, y.2.1, y.2.2.1, y.2.2.2.1, y.2.2.2.2.1, y.2.2.2.2.2⟩)

def cJob : Codec Job :=
  (cWhole.next (cNat.next (cBool.next (cBool.next (cBool.next (cBool.next ((cBits 16).next ((cBits 16).next
    ((cList (cBits 64)).next (cNat.next ((cList (cBits 64)).next ((cList (cNat.next cNat)).next (cNat.next (cNat.next
      cBool)))))))))))))).via
    (fun x => (x.src, x.ctx, x.fmt, x.reset, x.raw, x.vfail, x.p, x.p0, x.rest, x.zrun, x.lit, x.code, x.nbits, x.blocks, x.ended))
    (fun (s, ctx, fmt, reset, raw, vfail, p, p0, rest, zrun, lit, code, nbits, blocks, ended) =>
      { src := s, ctx := ctx, fmt := fmt, reset := reset, raw := raw, vfail := vfail, p := p, p0 := p0, rest := rest, zrun := zrun,
        lit := lit, code := code, nbits := nbits, blocks := blocks, ended := ended })

def cTask : Codec Task := (cNat.next (cWord.next cNat)).via (fun x => (x.entry, x.arg, x.slot)) (fun y => ⟨y.1, y.2.1, y.2.2⟩)

def cChild : Codec Child :=
  ((cList cWhole).next ((cList ((cBits 48).next cWord)).next (cNat.next (cBool.next ((cList ((cList (cBits 8)).next cBool)).next
    ((cOpt cNat).next (cList ((cBits 16).next (cWord.next (cBits 48)))))))))).via
    (fun x => (x.recs, x.gHist, x.malf, x.resync, x.fwd, x.fwdLane, x.recent))
    (fun (recs, gHist, malf, resync, fwd, fwdLane, recent) =>
      { recs := recs, gHist := gHist, malf := malf, resync := resync, fwd := fwd, fwdLane := fwdLane, recent := recent })

def cAssigned : Codec Assigned := (cWhole.next (cNat.next cNat)).via (fun x => (x.r, x.sent, x.reserved)) (fun y => ⟨y.1, y.2.1, y.2.2⟩)

def cSource : Codec Source := cWord.via
  (fun s => match s with | .lane l => BitVec.ofNat 32 l.val | .tether => 24)
  (fun w => if h : w.toNat < 24 then .lane ⟨w.toNat, h⟩ else .tether)

def cPkt : Codec Pkt :=
  (cSource.next ((cBits 16).next ((cBits 12).next (cBool.next (cBool.next (cBool.next (cBool.next ((cList cWord).next ((cBits 48).next
    (cBool.next (cBits 16))))))))))).via
    (fun x => (x.src, x.dest, x.seq, x.broadcast, x.noReply, x.forward, x.atomic, x.code, x.arrived, x.late, x.hub))
    (fun (src, dest, seq, broadcast, noReply, forward, atomic, code, arrived, late, hub) =>
      { src := src, dest := dest, seq := seq, broadcast := broadcast, noReply := noReply, forward := forward, atomic := atomic,
        code := code, arrived := arrived, late := late, hub := hub })

def cReply : Codec Reply := ((cBits 12).next ((cBits 48).next (cList cWord))).via
  (fun x => (x.seq, x.slot, x.ws)) (fun y => ⟨y.1, y.2.1, y.2.2⟩)

/-! ### What the lanes of the pair hold alike (R521, R523) -/

/-- The part of a lane that the two units hold alike: the records assigned to it, those that have been sent whole and wait for
acknowledgement among them; the uplink record and the packet in progress. -/
structure LaneShare where
  tx : List Assigned
  rx : List W64
  rxAgain : Bool
  rxSkip : Nat
  rxDrop : Nat
  rxCells : Nat
  pkt : Option (List W8)
  ignore : Bool
  pktSkip : List Nat

def Lane.share (x : Lane) : LaneShare :=
  let open_ := x.tx.map fun a => a.r
  let sent := ((x.kept.flatMap fun k => k.recs).filter fun r => !(r ∈ open_)).dedup
  { tx := (sent.map fun r => { r := r, sent := r.ws.length, reserved := 0 }) ++ x.tx
    rx := x.rx, rxAgain := x.rxAgain, rxSkip := x.rxSkip, rxDrop := x.rxDrop, rxCells := x.rxCells
    pkt := x.pkt, ignore := x.ignore, pktSkip := x.pktSkip }

def Lane.takeShare (x : Lane) (y : LaneShare) : Lane := { x with
  tx := y.tx, rx := y.rx, rxAgain := y.rxAgain, rxSkip := y.rxSkip, rxDrop := y.rxDrop, rxCells := y.rxCells
  pkt := y.pkt, ignore := y.ignore, pktSkip := y.pktSkip }

def cLaneShare : Codec LaneShare :=
  ((cList cAssigned).next ((cList (cBits 64)).next (cBool.next (cNat.next (cNat.next (cNat.next ((cOpt (cList (cBits 8))).next
    (cBool.next (cList cNat))))))))).via
    (fun x => (x.tx, x.rx, x.rxAgain, x.rxSkip, x.rxDrop, x.rxCells, x.pkt, x.ignore, x.pktSkip))
    (fun (tx, rx, rxAgain, rxSkip, rxDrop, rxCells, pkt, ignore, pktSkip) =>
      { tx := tx, rx := rx, rxAgain := rxAgain, rxSkip := rxSkip, rxDrop := rxDrop, rxCells := rxCells, pkt := pkt, ignore := ignore,
        pktSkip := pktSkip })

/-- The shares of the lanes but the TWIN lane. -/
def Hub.shares (h : Hub) : List (Nat × LaneShare) :=
  ((upto 24).filter fun l => h.role l == roleParent || h.role l == roleChild).map fun l => (l, (h.lane l).share)

/-- A part of the block: its words, and the hub with the part taken from words. -/
structure CopyPart where
  words : Hub → List W32
  take : Hub → List W32 → Hub

def copyPart {α : Type} (c : Codec α) (get : Hub → α) (put : Hub → α → Hub) : CopyPart :=
  { words := fun h => c.enc (get h), take := fun h ws => put h (c.dec ws).1 }

/-- The parts of R523 beside the words that have addresses of their own: Bull's registers and tasks; queues, Mule and compression; the
Hen and its children, the lanes; packets and replies that wait; snapshot copies and pending shadows. -/
def copyParts : List CopyPart :=
  [ copyPart (cStore cWord) (fun h => h.snap) (fun h x => { h with snap := x }),
    copyPart (cStore cWord) (fun h => h.shadow) (fun h x => { h with shadow := x }),
    copyPart ((cStore cWord).next ((cStore cWord).next (cWord.next cWord)))
      (fun h => (h.bull.fg.g, h.bull.bg.g, h.bull.fg.cs, h.bull.bg.cs))
      (fun h x => { h with bull := { h.bull with
        fg := { h.bull.fg with g := x.1, cs := x.2.2.1 }, bg := { h.bull.bg with g := x.2.1, cs := x.2.2.2 } } }),
    copyPart ((cList cTask).next ((cOpt cTask).next (cStore (cBits 12)))) (fun h => (h.bull.tasks, h.bull.task, h.bull.tags))
      (fun h x => { h with bull := { h.bull with tasks := x.1, task := x.2.1, tags := x.2.2 } }),
    copyPart (cStore cQueue) (fun h => h.queues) (fun h x => { h with queues := x }),
    copyPart ((cList cRec).next (cStore (cList cQWord))) (fun h => (h.mule.recs, h.mule.items))
      (fun h x => { h with mule := { h.mule with recs := x.1, items := x.2 } }),
    copyPart ((cOpt cNat).next ((cBits 48).next ((cOpt (cList (cBits 64))).next (cBool.next ((cBits 18).next (cOpt (cBits 48)))))))
      (fun h => (h.mule.drain, h.mule.stop, h.mule.ledger, h.mule.firstLedger, h.mule.wraps, h.mule.lastLedger))
      (fun h (drain, stop, ledger, first, wraps, last) => { h with mule := { h.mule with
        drain := drain, stop := stop, ledger := ledger, firstLedger := first, wraps := wraps, lastLedger := last } }),
    copyPart ((cOpt (cBits 48)).next (cNat.next ((cOpt (cList (cBits 64))).next (cNat.next cNat))))
      (fun h => (h.mule.span, h.mule.turn, h.mule.closing, h.mule.beforeA, h.mule.beforeT))
      (fun h (span, turn, closing, a, t) => { h with mule := { h.mule with
        span := span, turn := turn, closing := closing, beforeA := a, beforeT := t } }),
    copyPart ((cList cWhole).next (cOpt cJob)) (fun h => (h.cmp.waiting, h.cmp.job))
      (fun h x => { h with cmp := { waiting := x.1, job := x.2 } }),
    copyPart (cList cWhole) (fun h => h.hen.pool) (fun h x => { h with hen := { h.hen with pool := x } }),
    copyPart (cStore cChild) (fun h => h.hen.child) (fun h x => { h with hen := { h.hen with child := x } }),
    copyPart (cList cWhole) (fun h => h.hen.front) (fun h x => { h with hen := { h.hen with front := x } }),
    copyPart ((cOpt (cBits 24)).next (cNat.next ((cOpt (cBits 48)).next ((cOpt (cBits 48)).next (cBits 16)))))
      (fun h => (h.hen.lastTag, h.hen.reserved, h.hen.claimAt0, h.hen.claimAt1, h.hen.lostDl))
      (fun h (tag, reserved, c0, c1, lost) => { h with hen := { h.hen with
        lastTag := tag, reserved := reserved, claimAt0 := c0, claimAt1 := c1, lostDl := lost } }),
    copyPart (cWord.next (cWord.next ((cBits 48).next (cList ((cBits 8).next ((cBits 24).next (cBits 48)))))))
      (fun h => (h.hen.granted, h.hen.returned, h.hen.grantSlot, h.hen.fc))
      (fun h (granted, returned, slot, fc) => { h with hen := { h.hen with
        granted := granted, returned := returned, grantSlot := slot, fc := fc } }),
    copyPart (cList (cNat.next cLaneShare)) (fun h => h.shares) (fun h x => each x h fun e h =>
      if h.role e.1 = roleTwin then h else h.setLane e.1 ((h.lane e.1).takeShare e.2)),
    copyPart ((cList cPkt).next ((cOpt cReply).next (cList cReply))) (fun h => (h.pk.waiting, h.pk.laneReply, h.pk.out))
      (fun h (waiting, laneReply, out) => { h with pk := { h.pk with waiting := waiting, laneReply := laneReply, out := out } }) ]

/-! ### The block -/

/-- The TWIN region. -/
def twinRegion (a : Nat) : Bool := 0x62200 ≤ a && a < 0x62300

/-- Regions whose registers hold the state of one unit (R510). -/
def twinPrivate (a : Nat) : Bool := (0x800 ≤ a && a < 0x4000) || (0x60000 ≤ a && a < 0x64000 && !twinRegion a)

/-- Words with addresses of their own: the parameter space, the tables of the time digitisers, and Bull's data memory. The TWIN region
is each unit's own too. -/
def copyShared (k : Nat) : Bool := (k < 0x1000000 && !twinPrivate k && !twinRegion k) || (0x1000000 ≤ k && k < 0x2000000)
abbrev copyDmem : Nat := 0xA000000

/-- Address of the first word of part `i`. -/
def partBase (i : Nat) : Nat := (16 + i) * 0x1000000

/-- The state block (R523): the shared words that do not hold their load value, and the words of the parts, in rising order of
address. -/
def Hub.copyImage (h : Hub) : Store W32 :=
  (h.regs.filter fun e => copyShared e.1) ++ (h.bank.filter fun e => copyShared e.1) ++
    (h.bull.dmem.map fun e => (copyDmem + e.1, e.2)) ++
    copyParts.zipIdx.flatMap fun p => (p.1.words h).zipIdx.map fun w => (partBase p.2 + w.2, w.1)

/-- What an address holds that is not listed. -/
def copyLoad (k : Nat) : W32 := if k < 0x1000000 then loadWord k else bankLoad k

/-- Words at addresses that differ from what has been sent (R523): the writes made since. -/
def copyWrites (now sent : Store W32) : List (Nat × W32) :=
  (now.filter fun e => Store.get copyLoad sent e.1 != e.2) ++
    (sent.filter fun e => !(now.any fun x => x.1 == e.1)).filterMap fun e => if copyLoad e.1 = e.2 then none else some (e.1, copyLoad e.1)

/-- The joining unit takes the block that it has received. -/
def Hub.takeImage (h : Hub) : Hub :=
  let im := h.twin.image
  let put (d : Nat → W32) (st : Store W32) (e : Nat × W32) : Store W32 := Store.set d st e.1 e.2
  let h := { h with
    regs := (im.filter fun e => decide (e.1 < 0x1000000) && copyShared e.1).foldl (put loadWord) (h.regs.filter fun e => !copyShared e.1)
    bank := (im.filter fun e => decide (0x1000000 ≤ e.1) && copyShared e.1).foldl (put bankLoad) (h.bank.filter fun e => !copyShared e.1)
    bull := { h.bull with
      dmem := (im.filter fun e => decide (copyDmem ≤ e.1 ∧ e.1 < copyDmem + 0x1000000)).foldl
        (fun st e => Store.set (fun _ => 0) st (e.1 - copyDmem) e.2) [] } }
  let h := each copyParts.zipIdx h fun p h =>
    p.1.take h ((im.filter fun e => decide (e.1 / 0x1000000 = 16 + p.2)).map fun e => e.2)
  { h with twin := { h.twin with image := [] } }

end Sys2Proof.Machine
end

