-- ==== Sys2Proof/Machine/Twin.lean ====
section
/-! DEFINITION. Twin operation: states, TWIN SYNC, COPY and JOIN records, delivery in step, takeover, the state copy and the
health items (18_twin_operation.md). The commands are at the end. -/

namespace Sys2Proof.Machine

/-! ### States (R516) -/

abbrev tOff : Nat := 0
abbrev tSolo : Nat := 1
abbrev tActive : Nat := 2
abbrev tJoining : Nat := 3
abbrev tStandby : Nat := 4
abbrev tIncomplete : Nat := 5
abbrev tDiverged : Nat := 6

/-- State of this unit. -/
def Hub.twinState (h : Hub) : Nat := h.fld F.TW_STAT_STATE 0

/-- Number of this unit, as a truth value: unit 1 or unit 0. -/
def Hub.twinUnit (h : Hub) : Bool := h.flag F.TW_CFG_UNIT 0

/-- ALIGN. -/
def Hub.twinAlign (h : Hub) : Nat := h.fld F.TW_CFG_ALIGN 0

/-- The TWIN lane. -/
def Hub.twinLane (h : Hub) : Option Nat := (upto 24).find? fun l => h.role l == roleTwin

/-- The partner is lost (R517). -/
def Hub.peerLost (h : Hub) : Bool :=
  h.twinLane.isNone || (match h.twin.lastSeen with
    | some s => decide (8 < slotsFrom s h.slot)
    | none => true)

/-- The unit is healthy (R518). -/
def Hub.twinHealthy (h : Hub) : Bool := h.mode != mHold && h.parents.any (fun l => h.framed l) && !h.twin.diverge

/-- PEER and HEALTHY of TW_STAT. -/
def Hub.refreshTwin (h : Hub) : Hub :=
  (h.setFlag F.TW_STAT_PEER 0 (h.parked && !h.peerLost && !h.twin.peerFatal)).setFlag F.TW_STAT_HEALTHY 0
    (h.parked && h.twinHealthy)

/-- A change that TW_USTAT shows ALIGN slots later. -/
def Hub.noteUstat (h : Hub) (u : Bool) (st : Nat) (c : BitVec 16) : Hub :=
  { h with twin := { h.twin with ustat := h.twin.ustat ++ [(h.slot + BitVec.ofNat 48 h.twinAlign, u, st, c)] } }

/-- The partner is in a state, as its last record or a boundary that both units share shows (R515, R516). -/
def Hub.peerIs (h : Hub) (st : Nat) (c : BitVec 16) : Hub :=
  let changed := st != h.twin.peerState || c != h.twin.peerClaim
  let h := { h with twin := { h.twin with peerState := st, peerClaim := c } }
  if changed then h.noteUstat (!h.twinUnit) st c else h

/-- The claim driven changes; an audit frame follows (R520). -/
def Hub.driveClaim (h : Hub) (c : Nat) : Hub :=
  if h.fld F.TW_CLAIM_CUR 0 = c then h
  else { (h.setFld F.TW_CLAIM_CUR 0 c) with hen := { h.hen with audit := true } }

/-- A unit-local event acts: STATUS bits, or an item for Q30. -/
def Hub.twinEvent (h : Hub) (e : W48 × Bool × BitVec 13 × List W64) : Hub :=
  let h := forN 13 h fun k h => if bit e.2.2.1.toNat k then h.attnNow (k + 2) else h
  if e.2.2.2.isEmpty then h else h.pushOwn e.2.2.2

/-- A unit that leaves step applies at once what it had still to apply of its own, an item that has been announced in part as a whole. -/
def Hub.flushLocal (h : Hub) : Hub :=
  let t := h.twin
  let own := t.events.filter fun e => e.2.1 == h.twinUnit
  let items := match t.items with
    | [] => []
    | ws :: rest => (t.ownItem ++ ws) :: rest
  let h := { h with twin := { t with events := [], local_ := 0, items := [], ownItem := [], peerItem := [] } }
  let h := (each own h fun e h => h.twinEvent e).twinEvent (h.slot, false, t.local_, [])
  each items h fun ws h => h.pushOwn ws

/-- The state changes (R516). A unit that begins or ceases to drive its claim sends an audit frame (R520); R514 has applied to a unit
that it has taken to DIVERGED. -/
def Hub.setTwin (h : Hub) (st : Nat) : Hub :=
  if h.twinState = st then h
  else
    let drove := h.twinDrives
    let h := (h.setFld F.TW_STAT_STATE 0 st).attnNow aTwin
    let h := { h with
      twin := { h.twin with
        since := h.slot, orbits := 0, take := false, diverge := h.twin.diverge && st == tDiverged, wantJoin := false, joinSent := false }
      hen := { h.hen with audit := h.hen.audit || drove != h.twinDrives } }
    let h := if h.twinDrives then h else h.driveClaim 0
    let h := if h.twinLocal then h else h.flushLocal
    h.noteUstat h.twinUnit st (BitVec.ofNat 16 (h.fld F.TW_CLAIM_CUR 0))

/-- The next audit of every child resynchronises its figures, without being a mismatch: the children take this unit's port (R349). -/
def Hub.childrenResync (h : Hub) : Hub := forN 4 h fun k h => h.setChild k { h.child k with resync := true }

/-- Takeover (R519). -/
def Hub.takeover (h : Hub) : Hub :=
  let h := h.childrenResync
  let last := h.fld F.TW_STAT_PCLAIM 0
  let c := last / 4096 * 4096 + (last % 4096 + 1) % 4096
  ((h.driveClaim c).bump F.TW_TAKES_COUNT 0).setTwin tSolo

/-- A STANDBY unit takes over at this boundary (R518). -/
def Hub.takesOver (h : Hub) : Bool :=
  h.twinState == tStandby && h.twinHealthy
    && (((h.peerLost || h.twin.peerFatal) && h.flag F.TW_CFG_AUTO 0) || h.twin.take)

/-- A unit in JOINING ends in INCOMPLETE (R516, R525). -/
def Hub.copyFails (h : Hub) : Hub := (h.setTwin tIncomplete).bump F.TW_COPYFAIL_COUNT 0

/-- A partner lost or failed (R517, R516, R525). -/
def Hub.partnerGone (h : Hub) : Hub :=
  if h.peerLost || h.twin.peerFatal then
    let h := if h.twinState = tJoining then h.copyFails
      else if h.twinState = tActive && h.peerLost then h.setTwin tSolo else h
    h.refreshTwin
  else h

/-! ### The state copy (R523, R524) -/

/-- A data word of a COPY record: an address of the state block and the word there. -/
def copyWord (e : Nat × W32) : W64 := BitVec.ofNat 64 (e.1 * 2 ^ 32 + e.2.toNat)

/-- The partner in SOLO starts the copy (R523). -/
def Hub.copyStarts (h : Hub) : Hub :=
  let im := h.copyImage
  let h := { h with twin := { h.twin with
    joinAt := some h.slot, copyWords := im.map copyWord, copied := im, copyAddr := 0, peerJoin := false, stepAt := none } }
  ((h.setFld F.TW_COPY_WORDS 0 0).setFld F.TW_COPY_ORBITS 0 0).peerIs tJoining 0

/-- The first orbit boundary at least `n` slots after this slot. -/
def Hub.orbitAfter (h : Hub) (n : Nat) : W48 :=
  let len := max 1 (h.fld F.RT_ORBIT_LEN 0)
  let left := len - h.fld F.RT_ORBIT_POS 0
  h.slot + BitVec.ofNat 48 (if n ≤ left then left else left + ceilDiv (n - left) len * len)

/-- A record of the twin lane, with its trailer; the number in it is an open value. -/
def Hub.twinRecord (h : Hub) (body : List W64) (slot : W48) : Whole × Hub :=
  let ws := header tTwinSync h.address 16 slot.toNat (body.length + 2) :: body
  let seq : W32 := BitVec.ofNat 32 h.openValue.toNat
  ({ ws := withTrailer ws seq, cls := .ctrl }, h.tookOpen)

/-- HOLD for a fatal fault, by HCAUSE (R526). -/
def Hub.heldFatal (h : Hub) : Bool :=
  h.mode == mHold && h.fld F.MODE_STAT_HCAUSE 0 == 1

/-- The writes that the partner has made to the state since it last looked are to be sent too (R523). -/
def Hub.copyTracks (h : Hub) : Hub :=
  if h.twinState = tSolo && h.twin.joinAt.isSome then
    let im := h.copyImage
    { h with twin := { h.twin with copyWords := h.twin.copyWords ++ (copyWrites im h.twin.copied).map copyWord, copied := im } }
  else h

/-- Slots until a record of `n` words has left on the twin lane behind what waits there. -/
def Hub.twinQueue (h : Hub) (n : Nat) : Nat :=
  match h.twinLane with
  | some l => ceilDiv ((h.lane l).words + n) 7 * h.framePeriod l
  | none => 0

/-- The next COPY record: up to 62 words; the one with which nothing remains to be sent names the step boundary, the first orbit
boundary at least 2 slots after the record has left (R515, R524). Writes made after it follow in further records. -/
def Hub.copyRecord (h : Hub) : Option Whole × Hub :=
  if h.twinState = tSolo && h.twin.joinAt.isSome && !(h.twin.stepAt.isSome && h.twin.copyWords.isEmpty) && !h.heldFatal then
    let ws := h.twin.copyWords.take 62
    let rest := h.twin.copyWords.drop 62
    let last := rest.isEmpty && h.twin.stepAt.isNone
    let step : W24 := BitVec.ofNat 24 (h.orbitAfter (2 + h.twinQueue (ws.length + 3))).toNat
    let w1 := 1 * 2 ^ 60 + b2n last * 2 ^ 59 + (if last then step.toNat * 2 ^ 24 else 0) + h.twin.copyAddr % 2 ^ 24
    let (r, h) := h.twinRecord (BitVec.ofNat 64 w1 :: ws) h.slot
    let h := { h with twin := { h.twin with
      copyWords := rest, copyAddr := h.twin.copyAddr + ws.length, stepAt := if last then some step else h.twin.stepAt } }
    (some r, h.setFld F.TW_COPY_WORDS 0 (min 0xFFFFF h.twin.copyAddr))
  else (none, h)

/-- A COPY record reaches the joining unit (R523). -/
def Hub.copyReceived (h : Hub) (ws : List W64) : Hub :=
  if h.twinState = tJoining then
    let w1 := ((ws[1]?).getD 0).toNat
    let data := (ws.drop 2).take (hdrLength ((ws[0]?).getD 0) - 3)
    let image := data.foldl (fun (st : Store W32) w => Store.ins (Store.del st (hiWord w).toNat) (hiWord w).toNat (loWord w)) h.twin.image
    let h := { h with twin := { h.twin with
      image := image, stepAt := if bit w1 59 then some (BitVec.ofNat 24 (bits w1 47 24)) else h.twin.stepAt } }
    h.setFld F.TW_COPY_WORDS 0 (min 0xFFFFF (h.fld F.TW_COPY_WORDS 0 + data.length))
  else h

/-- Frames that the joining unit has accepted and that its partner delivers at the step boundary or later: no DMASK names them, and each
unit delivers its own (R507, R523). -/
def Hub.namesHeld (h : Hub) : Hub :=
  forN 24 h fun l h =>
    let x := h.lane l
    if x.hold.isEmpty then h else h.setLane l { x with hold := x.hold.map fun (e : Held) => { e with named := true } }

/-- The step boundary (R524): both units enter step. -/
def Hub.stepNow (h : Hub) : Hub :=
  if h.twin.stepAt = some h.tag then
    let st := h.twinState
    let orbits := match h.twin.joinAt with
      | some j => slotsFrom j h.slot / max 1 (h.fld F.RT_ORBIT_LEN 0)
      | none => 0
    let h := if st = tJoining then h.takeImage else h
    let h := { h with twin := { h.twin with stepAt := none, joinAt := none, copied := [], copyWords := [] } }
    let h := h.setFld F.TW_COPY_ORBITS 0 (min 255 orbits)
    if st = tJoining then
      -- the slots before step are not compared (R514)
      let h := { h with twin := { h.twin with hashes := [], masks := [], peerItem := [] } }
      ((h.namesHeld.childrenResync.driveClaim 0).setTwin tStandby).peerIs tActive h.twin.peerClaim
    else if st = tSolo then (({ h with twin := { h.twin with peerItem := [] } }).setTwin tActive).peerIs tStandby 0
    else h
  else h

/-! ### Joining (R516) -/

/-- The unit waits to join and sends JOIN records. -/
def Hub.wantsJoin (h : Hub) : Bool :=
  let st := h.twinState
  h.parked && h.taking && (st == tOff || st == tDiverged || st == tIncomplete)
    && (h.twin.wantJoin || (st == tDiverged && h.flag F.TW_CFG_AUTOJOIN 0))

/-- At an orbit boundary a unit that waits enters JOINING, and its partner starts the copy (R516, R523). A JOIN counts as
received once it has been sent. -/
def Hub.joinStarts (h : Hub) : Hub :=
  if !h.atOrbit then h
  else if h.wantsJoin && h.twin.joinSent && h.twin.peerState = tSolo && !h.peerLost then
    let h := h.setTwin tJoining
    let h := { h with twin := { h.twin with joinAt := some h.slot, image := [], stepAt := none } }
    (h.setFld F.TW_COPY_WORDS 0 0).setFld F.TW_COPY_ORBITS 0 0
  else if h.twinState = tSolo && h.twin.peerJoin && h.twin.joinAt.isNone && !h.peerLost then h.copyStarts
  else h

/-! ### TWIN SYNC (R508, R512-R515) -/

/-- The contribution of a delivered frame to ICRC (R513): of an uplink frame SEQ, byte 1 without REPLAY, the cell; of a
downlink frame GRANT, byte 5 without NAK, bytes 6-10 and 15-57. `b` are the bytes of the lane after correction: 0-57, or 3-57. -/
def icrcBytes (child : Bool) (b : List W8) : List W8 :=
  if child then b.take 1 ++ [((b[1]?).getD 0) &&& 0xFB#8] ++ b.drop 2
  else [(b[1]?).getD 0, ((b[2]?).getD 0) &&& 0xBF#8] ++ (b.drop 3).take 5 ++ b.drop 12

/-- ICRC of frames, by ascending lane. -/
def icrc (l : List Held) : W32 := if l.isEmpty then 0 else crc32c (l.flatMap fun e => icrcBytes e.up e.bytes)

/-- The unit names an entry in the DMASK of slot `a` (R507). -/
def Held.namedIn (e : Held) (a : W48) : Bool := e.slot == a && e.named && !e.bytes.isEmpty

/-- The frames that the unit names in slot `a`, lanes ascending. -/
def Hub.heldOf (h : Hub) (a : W48) : List Held := (upto 24).flatMap fun l => (h.lane l).hold.filter fun e => e.namedIn a

/-- OHASH of the slot that ends (R512). -/
def Hub.outHash (h : Hub) : W32 :=
  crc32c ((sortBy (fun e => e.1) h.twin.hashBytes).flatMap fun e => e.2)

/-- DMASK of slot `a` (R507). -/
def Hub.ownMask (h : Hub) (a : W48) : Nat := maskOf ((upto 24).filter fun l => (h.lane l).hold.any fun e => e.namedIn a)

/-- Puts a record on the twin lane. SYNC and JOIN records that have not begun to leave give way to the newer one, and so do COPY records
of a unit in HOLD for a fatal fault (R526). -/
def Hub.onTwinLane (h : Hub) (r : Whole) (keep : Bool) : Hub :=
  match h.twinLane with
  | none => h
  | some l =>
    let x := h.lane l
    let stays (a : Assigned) : Bool := a.sent != 0 || (bits ((a.r.ws[1]?).getD 0).toNat 63 60 == 1 && !h.heldFatal)
    let tx := if keep then x.tx else x.tx.filter stays
    h.setLane l { x with tx := tx ++ [({ r := r, sent := 0, reserved := 0 } : Assigned)] }

/-- The unit sends TWIN SYNC records: in every state but OFF, unless it waits to join or copies (R515, R524-R526). -/
def Hub.sendsSync (h : Hub) : Bool :=
  h.parked && h.twinState != tOff && !h.wantsJoin && !(h.twinState == tJoining)
    && !(h.twinState == tSolo && h.twin.joinAt.isSome && !h.heldFatal)

/-- The slot `a` has ended: its hash, its unit-local events, and the record of the twin lane for it. -/
def Hub.twinSlotEnds (h : Hub) (a : W48) : Hub :=
  if !h.parked then h
  else
    let t := h.twin
    let before := match t.hashes.find? fun e => e.1 == a - 1#48 with
      | some e => e.2
      | none => 0
    let h := { h with twin := { t with hashes := (a, h.outHash) :: t.hashes.take 127, hashBytes := [] } }
    let item := (t.items[0]?).getD []
    let two := item.take 2
    let left := item.drop 2
    let done := !item.isEmpty && left.isEmpty
    let whole := t.ownItem ++ two
    let local_ := if h.twinLocal then t.local_ else 0
    let evs : List (W48 × Bool × BitVec 13 × List W64) :=
      (if local_ = 0 then [] else [(a, h.twinUnit, local_, [])]) ++ (if done then [(a, h.twinUnit, 0, whole)] else [])
    let h := if !h.twinLocal then h else { h with twin := { h.twin with
      local_ := 0
      items := if item.isEmpty then t.items else if done then t.items.drop 1 else left :: t.items.drop 1
      ownItem := if done then [] else whole
      events := h.twin.events ++ evs } }
    if h.wantsJoin then
      let (r, h) := h.twinRecord [BitVec.ofNat 64 (2 * 2 ^ 60 + b2n h.twinUnit * 2 ^ 56)] a
      { (h.onTwinLane r false) with twin := { h.twin with joinSent := true } }
    else if h.sendsSync then
      let fatal := h.mode == mHold && (h.fld F.MODE_STAT_HCAUSE 0 == 1 || h.fld F.MODE_STAT_HCAUSE 0 == 2)
      let w1 := h.twinState * 2 ^ 57 + b2n h.twinUnit * 2 ^ 56 + b2n fatal * 2 ^ 55 + two.length * 2 ^ 53 + b2n done * 2 ^ 52
        + (if h.twinState = tStandby then 0 else h.ownMask a) * 2 ^ 16 + h.fld F.TW_CLAIM_CUR 0
      let ic := if h.twinState = tStandby then 0 else icrc (h.heldOf a)
      let (r, h) := h.twinRecord [BitVec.ofNat 64 w1, pair before ic, BitVec.ofNat 64 local_.toNat, (two[0]?).getD 0, (two[1]?).getD 0] a
      h.onTwinLane r false
    else
      let room := match h.twinLane with
        | some l => decide ((h.lane l).words < 70)
        | none => false
      if room then
        match h.copyTracks.copyRecord with
        | (some r, h) => h.onTwinLane r true
        | (none, h) => h
      else h

/-- The slot that a tag names, near the slot in progress. -/
def Hub.slotOfTag (h : Hub) (t : Nat) : W48 := BitVec.ofInt 48 ((h.slot.toNat : Int) + circ 24 t h.tag.toNat)

/-- A TWIN SYNC, COPY or JOIN record of the partner (R515). -/
def Hub.twinReceived (h : Hub) (ws : List W64) : Hub :=
  let w (i : Nat) : Nat := ((ws[i]?).getD 0).toNat
  let h := { h with twin := { h.twin with lastSeen := some h.slot } }
  if !h.parked then h
  else if bits (w 1) 63 60 = 1 then h.copyReceived ws
  else if bits (w 1) 63 60 = 2 then { h with twin := { h.twin with peerJoin := true } }
  else if bits (w 1) 63 60 = 0 then
    let s := h.slotOfTag (hdrSlot ((ws[0]?).getD 0))
    let st := bits (w 1) 59 57
    let claim := bits (w 1) 15 0
    let n := min 2 (bits (w 1) 54 53)
    let item := h.twin.peerItem ++ (([4, 5].take n).map fun i => (ws[i]?).getD 0)
    let done := bit (w 1) 52 && n != 0
    let other := !h.twinUnit
    let evs : List (W48 × Bool × BitVec 13 × List W64) :=
      (if bits (w 3) 12 0 = 0 then [] else [(s, other, BitVec.ofNat 13 (w 3), [])]) ++ (if done then [(s, other, 0, item)] else [])
    let inStep := h.twinState == tActive || h.twinState == tStandby
    let h := if st = tSolo || st = tActive then h.setFld F.TW_STAT_PCLAIM 0 claim else h
    let mine := h.twin.hashes.find? fun e => e.1 == s - 1#48
    let differ := h.twinState == tStandby && (match mine with
      | some e => e.2.toNat != bits (w 2) 63 32
      | none => false)
    let h := if differ then h.bump F.TW_HASHERR_COUNT 0 else h
    let h := { h with twin := { h.twin with
      peerFatal := bit (w 1) 55
      peerItem := if done then [] else item
      events := if inStep then h.twin.events ++ evs else h.twin.events
      masks := (s, BitVec.ofNat 24 (w 1 / 65536), BitVec.ofNat 32 (w 2)) :: h.twin.masks.take 127
      diverge := h.twin.diverge || differ
      errs := h.twin.errs + b2n differ } }
    (h.peerIs st (BitVec.ofNat 16 claim)).refreshTwin
  else h

/-! ### Delivery in step (R507, R508, R514) -/

/-- An entry of a lane's held frames acts. -/
def Hub.deliverHeld (h : Hub) (l : Fin 24) (e : Held) : Hub :=
  if e.up then
    if e.bytes.isEmpty then
      let (h, lost) := h.rxEnds l.val e.port
      if h.portEmpty e.port then h.portLost e.port lost else h
    else h.deliverUp l.val e.port (Up.read e.bytes)
  else if e.bytes.isEmpty then h.pktLost l.val
  else h.deliverDown l e.port (Down.read e.bytes) e.q

/-- The oldest entries of a lane act, by fuel, as long as they are of slot `a` or before and `p` holds of them. -/
def Hub.heldRun (fuel : Nat) (h : Hub) (l : Fin 24) (a : W48) (p : Held → Bool) : Hub :=
  match fuel with
  | 0 => h
  | k + 1 =>
    let x := h.lane l.val
    match x.hold with
    | [] => h
    | e :: rest => if reached a e.slot && p e then Hub.heldRun k ((h.setLane l.val { x with hold := rest }).deliverHeld l e) l a p else h

/-- All entries of a lane up to slot `a` that `p` holds of, as far as none before them is left. -/
def Hub.heldTo (h : Hub) (l : Fin 24) (a : W48) (p : Held → Bool) : Hub := Hub.heldRun (h.lane l.val).hold.length h l a p

/-- Entries of a lane go without effect. -/
def Hub.heldDrop (h : Hub) (l : Fin 24) (p : Held → Bool) : Hub :=
  let x := h.lane l.val
  if x.hold.any p then h.setLane l.val { x with hold := x.hold.filter fun e => !p e } else h

/-- Takes the oldest held frame of a lane. -/
def Hub.takeHeld (h : Hub) (l : Fin 24) : Option Held × Hub :=
  let h := h.heldTo l h.slot fun e => e.bytes.isEmpty
  let x := h.lane l.val
  match x.hold with
  | [] => (none, h)
  | e :: rest => (some e, h.setLane l.val { x with hold := rest })

/-- In STANDBY: on each lane of the partner's mask of a slot the oldest held frame (R507), compared with the partner's ICRC (R514). -/
def Hub.maskDelivers (h : Hub) (mask : BitVec 24) (ic : W32) : Hub :=
  let named := (List.finRange 24).filter fun l => bit mask.toNat l.val
  let (h, got, missed) := named.foldl (fun (acc : Hub × List Held × Bool) l =>
    match acc.1.takeHeld l with
    | (some e, h) => (h.deliverHeld l e, acc.2.1 ++ [e], acc.2.2)
    | (none, h) => (h, acc.2.1, true)) (h, [], false)
  if missed || icrc got ≠ ic then
    let h := h.bump F.TW_MISSED_COUNT 0
    { h with twin := { h.twin with diverge := true, errs := h.twin.errs + 1 } }
  else h

/-- The frames of slot `a` are delivered in STANDBY. Those of a slot of which the partner has sent no mask, and which the unit has named
itself, are delivered by its own; frames that the partner has not named within a further ALIGN slots are discarded (R507;
notes/assumptions/40.md). -/
def Hub.standbyDelivers (h : Hub) (a : W48) : Hub :=
  let lanes : List (Fin 24) := List.finRange 24
  let h := match h.twin.masks.find? fun e => e.1 == a with
    | none => each lanes h fun l h => h.heldTo l a fun e => e.named
    | some (_, mask, ic) =>
      ({ h with twin := { h.twin with masks := h.twin.masks.filter fun e => e.1 != a } }).maskDelivers mask ic
  let old := a - BitVec.ofNat 48 h.twinAlign
  each lanes h fun l h => (h.heldDrop l fun e => reached old e.slot && !e.bytes.isEmpty).heldTo l a fun e => e.bytes.isEmpty

/-- Delivery at slot a + ALIGN, once for each slot. What a JOINING unit holds its partner has delivered by then, and the writes of the
state copy place it (R523). -/
def Hub.twinDelivers (h : Hub) : Hub :=
  if !h.parked then h
  else
    let a := h.slot - BitVec.ofNat 48 h.twinAlign
    let h := if h.twinState = tStandby then h.standbyDelivers a
      else each (List.finRange 24) h fun l h =>
        (if h.twinState = tJoining then h.heldDrop l fun e => reached a e.slot && !e.named else h).heldTo l a fun _ => true
    if !h.twinLocal then h
    else
      let due := h.twin.events.filter fun e => reached a e.1
      let h := { h with twin := { h.twin with events := h.twin.events.filter fun e => !(reached a e.1) } }
      each ((due.filter fun e => !e.2.1) ++ due.filter fun e => e.2.1) h fun e h => h.twinEvent e

/-- Whether what a lane accepts now waits for delivery (R507, R523): in step, in SOLO and while joining, and behind frames that still
wait. -/
def Hub.holdsFrames (h : Hub) (l : Nat) : Bool := h.twinLocal || h.twinState == tJoining || !(h.lane l).hold.isEmpty

/-- An entry joins those that a lane holds. A unit that drives, or follows nobody, names what it accepts. -/
def Hub.holdFrame (h : Hub) (l : Nat) (up : Bool) (port : Nat) (q : W48) (bytes : List W8) : Hub :=
  let x := h.lane l
  let named := bytes.isEmpty || !(h.twinState == tStandby || h.twinState == tJoining)
  h.setLane l { x with hold := x.hold ++ [{ slot := h.slot, up := up, port := port, q := q, bytes := bytes, named := named }] }

/-- TW_USTAT shows the changes whose ALIGN slots have passed. -/
def Hub.showUstat (h : Hub) : Hub :=
  let due := h.twin.ustat.filter fun e => reached h.slot e.1
  each due { h with twin := { h.twin with ustat := h.twin.ustat.filter fun e => !(reached h.slot e.1) } } fun e h =>
    (h.setFld F.TW_USTAT_STATE (b2n e.2.1) e.2.2.1).setFld F.TW_USTAT_CLAIM (b2n e.2.1) e.2.2.2.toNat

/-! ### The boundary (R516-R519) -/

/-- The partner drives a claim higher than that of this unit (R516, R519). -/
def Hub.peerHigher (h : Hub) : Bool :=
  (h.twin.peerState == tSolo || h.twin.peerState == tActive) && claimHigher h.twin.peerClaim.toNat (h.fld F.TW_CLAIM_CUR 0)

/-- The transitions of a boundary that depend on the partner. A TWIN_TAKE with which the unit does not take over is counted and ignored
(R518). -/
def Hub.twinMoves (h : Hub) : Hub :=
  if h.takesOver then h.takeover
  else
    let h := if h.twin.take then ({ h with twin := { h.twin with take := false } }).bump F.TW_TAKEIGN_COUNT 0 else h
    let st := h.twinState
    if st = tStandby && h.twin.diverge then h.setTwin tDiverged
    else if st = tActive && h.peerHigher then h.setTwin tStandby
    else if st = tActive && (h.peerLost || h.twin.peerState ≠ tStandby) then h.setTwin tSolo
    else if st = tSolo && h.peerHigher then h.setTwin tDiverged
    else if st = tJoining && (h.peerLost || h.twin.peerFatal) then h.copyFails
    else if st = tSolo && h.twin.joinAt.isSome && (h.peerLost || h.heldFatal) then
      { h with twin := { h.twin with joinAt := none, copyWords := [], copied := [], stepAt := none } }
    else h

/-- One orbit boundary of a twin unit: a copy whose LAST record has not come within COPYMAX orbits fails, and health items fall due
(R516, R524, R527). -/
def Hub.twinOrbit (h : Hub) : Hub :=
  if !h.parked then h
  else
    let h := if h.twin.since = h.slot then h else { h with twin := { h.twin with orbits := h.twin.orbits + 1 } }
    let h := if h.twinLocal && ((h.twin.orbits % 256 == 0 && h.twin.since != h.slot) || h.twin.hreq) then
        { h with twin := { h.twin with healthDue := true, hreq := false } }
      else h
    if h.twinState = tJoining && h.fld F.TW_CFG_COPYMAX 0 ≤ h.twin.orbits && h.twin.stepAt.isNone then h.copyFails else h

/-- The twin unit at a boundary: what R514 finds at this delivery acts at the next one. -/
def Hub.twinBoundary (h : Hub) : Hub :=
  if !h.parked then h
  else
    let h := h.refreshTwin.twinMoves.stepNow
    let h := if h.atOrbit then h.twinOrbit.joinStarts else h
    h.twinDelivers.showUstat.refreshTwin

/-- Entry to a mode (R516): `cause` is HCAUSE on entry to HOLD; the HOLD command and MODE HOLD keep the pair in step. -/
def Hub.twinMode (h : Hub) (mode cause : Nat) : Hub :=
  if !h.parked then (if h.twinState = tOff then h else h.setTwin tOff)
  else if mode = mSetup then h.setTwin tOff
  else if (mode = mRun || mode = mDegraded) && h.twinState = tOff then
    if h.flag F.TW_CFG_LEAD 0 then
      (h.childrenResync.driveClaim (h.fld F.TW_CLAIM_RANK 0 * 4096 + h.fld F.TW_CLAIM_EPOCH 0)).setTwin tSolo
    else { h with twin := { h.twin with wantJoin := true } }
  else if mode = mHold && (h.twinState = tStandby || h.twinState = tActive) && (cause = 1 || cause = 2) then h.setTwin tDiverged
  else h

/-! ### Health (R527) -/

/-- The twin health item, when one is due. `bist` and `scrub` are passes since the last one, `drift` the largest drift at the
last self check. -/
def Hub.twinHealthItem (h : Hub) (bist scrub : W8) (drift : BitVec 18) : Hub :=
  if h.twin.healthDue && h.twinLocal then
    let t := h.twin
    let dose := forN 8 0 fun i m => max m (h.fld F.RS_DOSE_SHIFT i)
    let w1 := 0x10 * 2 ^ 56 + b2n h.twinUnit * 2 ^ 55 + h.twinState * 2 ^ 52 + h.fld F.TW_CLAIM_CUR 0 * 2 ^ 32
      + min 0xFFFFFFFF (slotsFrom t.since h.slot)
    let w2 := min 0xFFFF t.cor * 2 ^ 48 + min 0xFFFF t.cont * 2 ^ 32 + h.fld F.GS_STAT_FENCED 0 * 2 ^ 24
      + h.fld F.GS_STAT_RECOV 0 * 2 ^ 16 + min 0xFFFF t.errs
    let w3 := bist.toNat * 2 ^ 56 + scrub.toNat * 2 ^ 48 + h.fld F.CAL_QLANE_EYEW 0 % 256 * 2 ^ 40
      + h.fld F.CAL_QLANE_EYEH 0 % 1024 * 2 ^ 30 + min 0xFFF dose * 2 ^ 18 + drift.toNat
    let h := { h with twin := { t with healthDue := false, cor := 0, cont := 0, errs := 0 } }
    h.localItem [header tHealth 0 0 h.tag.toNat 0, BitVec.ofNat 64 w1, BitVec.ofNat 64 w2, BitVec.ofNat 64 w3]
  else h

/-! ### Commands -/

/-- TWIN_DELIVERY. At slot a + ALIGN the frames and events of slot a are delivered (R507, R508). -/
def execTwinDelivery (s : State) : Host.Outcome State Fault Refusal := goesOn s (s.hub.twinDelivers)

/-- TWIN_SYNC_RECEIVE. A record of the partner has come (R515). -/
def execTwinSyncReceive (words : List W64) (s : State) : Host.Outcome State Fault Refusal :=
  .next { s with hub := s.hub.awake (s.hub.twinReceived words) }

/-- PARTNER_LOST. No frame of the twin lane has decoded for 8 slots, or the lane is fenced (R517). -/
def execPartnerLost (s : State) : Host.Outcome State Fault Refusal := .next { s with hub := s.hub.partnerGone }

/-- TAKEOVER. A healthy STANDBY unit takes over, where R518 lets it (R519). -/
def execTakeover (s : State) : Host.Outcome State Fault Refusal :=
  .next { s with hub := if s.hub.takesOver then s.hub.takeover.refreshTwin else s.hub }

/-- JOIN_START. At an orbit boundary a unit enters JOINING, or its partner starts the copy (R516, R523). -/
def execJoinStart (s : State) : Host.Outcome State Fault Refusal := .next { s with hub := s.hub.joinStarts }

/-- COPY_RECORD_RECEIVE. A COPY record reaches the joining unit (R523). -/
def execCopyRecordReceive (words : List W64) (s : State) : Host.Outcome State Fault Refusal :=
  .next { s with hub := s.hub.copyReceived words }

/-- STEP_BOUNDARY. The boundary that STEPAT names (R524). -/
def execStepBoundary (s : State) : Host.Outcome State Fault Refusal := .next { s with hub := s.hub.stepNow }

/-- TWIN_HEALTH. A due twin health item is pushed (R527). -/
def execTwinHealth (bist scrub : W8) (drift : BitVec 18) (s : State) : Host.Outcome State Fault Refusal :=
  .next { s with hub := s.hub.twinHealthItem bist scrub drift }

/-- REJOIN. Writing 1 to TW_CTL.REJOIN asks to join (R516). -/
def execRejoin (s : State) : Host.Outcome State Fault Refusal :=
  .next { s with hub := s.hub.awake ({ s.hub with twin := { s.hub.twin with wantJoin := true } }) }

/-- HREQ. Writing 1 to TW_CTL.HREQ asks for health items at the next orbit boundary (R527). -/
def execHreq (s : State) : Host.Outcome State Fault Refusal :=
  .next { s with hub := s.hub.awake ({ s.hub with twin := { s.hub.twin with hreq := true } }) }

end Sys2Proof.Machine
end

