-- ==== Sys2Proof/Machine/Lanes.lean ====
section
/-! DEFINITION. Serial lanes: frames in both directions, acknowledgement and replay, detectors, training, fences, test patterns
and error injection (12_serial_lanes.md). The commands are at the end. -/

namespace Sys2Proof.Machine

/-- LN_STAT follows what the lane keeps. -/
def Hub.refreshLane (h : Hub) (l : Nat) : Hub :=
  let x := h.lane l
  let h := (h.setFld F.LN_STAT_UNACK l (min 255 x.kept.length)).setFlag F.LN_STAT_REPLAYING l (x.again.any fun k => k.again)
  if x.kept.length < 255 then h.setFld F.LN_STAT_WINFULL l 0 else h

/-- A receiver shows neither LOS nor LOL. -/
def Hub.signal (h : Hub) (l : Nat) : Bool := h.flag F.LN_STAT_SIG l && h.flag F.LN_STAT_LOCK l

/-- A frame that starts now on a lane, and has not been sent yet (R352). -/
def Hub.frameDue (h : Hub) (l : Nat) : Bool :=
  !h.start.held && h.slot.toNat % h.framePeriod l == 0 && (h.lane l).sentAt != some h.slot

/-! ### Error injection (R386) -/

/-- Inverts bits of a frame, counted in sending order: bit 7 of a byte first. -/
def flipBits (bs : List W8) (from_ n : Nat) : List W8 :=
  (List.range n).foldl (fun (b : List W8) k =>
    let i := (from_ + k) / 8
    b.set i (((b[i]?).getD 0) ^^^ BitVec.ofNat 8 (2 ^ (7 - (from_ + k) % 8)))) bs

/-- The frame as it leaves the transmitter of a lane, with the errors to be injected. -/
def Hub.inject (h : Hub) (l : Nat) (bs : List W8) : Hub :=
  let x := h.lane l
  let sent (x : Lane) (b : List W8) : Lane := { x with out := b, sentAt := some h.slot }
  if x.injLeft = 0 then h.setLane l (sent x bs)
  else if x.injMode = 3 then
    let n := min x.injLen (64 - x.injPos)
    let h := h.setLane l { sent x (flipBits bs (8 * x.injPos) (8 * n)) with injLeft := x.injLeft - 1 }
    if x.injLeft = 1 then h.setFld F.LN_STAT_INJ_BUSY l 0 else h
  else
    let n := min x.injLeft (512 - x.injPos)
    let h := h.setLane l { sent x (flipBits bs x.injPos n) with injLeft := x.injLeft - n, injPos := 0 }
    if x.injLeft = n then h.setFld F.LN_STAT_INJ_BUSY l 0 else h

/-- Writing 1 to GO (R386). On a lane that sends a pattern the bits are inverted from its next bit on; where MODE counts in frames,
each frame period of the pattern counts as one (notes/assumptions/72.md). -/
def Hub.startInjection (h : Hub) (l : Nat) : Hub :=
  let mode := h.fld F.LN_INJ_MODE l
  if h.flag F.LN_STAT_INJ_BUSY l || mode = 0 then h
  else
    let x := h.lane l
    let pattern := h.patternLane l && h.flag F.LN_PRBS_GEN_EN l
    let left := if mode = 1 then 1 else if mode = 2 then h.fld F.LN_INJ_LEN l else h.fld F.LN_INJ_COUNT l
    let pos := if mode = 3 then h.fld F.LN_INJPOS_BYTE l else if pattern then 0 else h.fld F.LN_INJPOS_POS l
    (h.setLane l { x with injMode := mode, injLeft := left, injPos := pos, injLen := h.fld F.LN_INJPOS_NBYTE l }).setFld
      F.LN_STAT_INJ_BUSY l 1

/-! ### The pattern generator (R384) -/

/-- Degree and second tap of a pattern (the PRBS table). -/
def prbsPoly (pat : Nat) : Nat × Nat :=
  if pat = 0 then (7, 6) else if pat = 1 then (15, 14) else if pat = 2 then (23, 18) else (31, 28)

/-- The bit of a pattern that follows the bits in a register, newest lowest. -/
def prbsNext (pat : Nat) (r : BitVec 31) : Bool :=
  let (n, m) := prbsPoly pat
  r.getLsbD (n - 1) != r.getLsbD (m - 1)

/-- A register that takes one more bit. -/
def takeBit (r : BitVec 31) (b : Bool) : BitVec 31 := (r <<< 1) ||| (if b then 1#31 else 0#31)

/-- The bits of a register that its pattern depends on are not all 0. -/
def prbsAlive (pat : Nat) (r : BitVec 31) : Bool := r.toNat % 2 ^ (prbsPoly pat).1 != 0

/-- `n` bits of a pattern, the first as the highest bit of the number, and the register after them. -/
def prbsRunBits (pat n : Nat) (r : BitVec 31) (acc : Nat) : Nat × BitVec 31 :=
  match n with
  | 0 => (acc, r)
  | k + 1 =>
    let b := prbsNext pat r
    prbsRunBits pat k (takeBit r b) (2 * acc + b2n b)

/-- A frame period of the pattern in place of a frame. -/
def Hub.sendPattern (h : Hub) (l : Nat) : Hub :=
  let x := h.lane l
  let (v, r) := prbsRunBits (h.fld F.LN_PRBS_PAT l) 512 x.genReg 0
  let v := if h.flag F.LN_PRBS_INV l then 2 ^ 512 - 1 - v else v
  (h.setLane l { x with genReg := r }).inject l (bytesOf 64 v)

/-- The lane sends a pattern in place of frames that start now. -/
def Hub.sendsPattern (h : Hub) (l : Nat) : Bool := h.frameDue l && h.patternLane l && h.flag F.LN_PRBS_GEN_EN l

/-! ### Uplink frames sent (R330-R335, R343, R344, R360, R370, R371) -/

/-- The next SEQ of a lane. -/
def Hub.txSeq (h : Hub) (l : Nat) : W8 := BitVec.ofNat 8 (h.fld F.LN_STAT_TXSEQ l)

/-- An uplink frame leaves. -/
def Hub.sendUp (h : Hub) (l : Nat) (u : Up) : Hub :=
  let x := h.lane l
  let h := h.setLane l { x with launches := ((u.seq, h.slot) :: x.launches).take 1024 }
  (h.inject l u.bytes).refreshLane l

/-- The lane of the other parent port that repeats the frames of this one (R22). -/
def Hub.mirror (h : Hub) (l : Nat) : Option Nat := (upto 24).find? fun m => h.twinOf m == some l

/-- A frame is kept under the next SEQ of its lane, which it takes (R370). -/
def Hub.keep (h : Hub) (l : Nat) (k : Kept) : Hub :=
  let x := h.lane l
  let h := h.setLane l { x with
    kept := x.kept ++ [{ k with seq := h.txSeq l }], ackSlot := if x.kept.isEmpty then h.slot else x.ackSlot }
  (h.setFld F.LN_STAT_TXSEQ l ((h.fld F.LN_STAT_TXSEQ l + 1) % 256)).refreshLane l

/-- A frame to be kept leaves for the first time on a lane. -/
def Hub.sendFirst (h : Hub) (l : Nat) (k : Kept) : Hub :=
  let seq := h.txSeq l
  (h.keep l k).sendUp l { seq := seq, kind := k.kind, new := k.new, again := k.again, low := 0, cell := k.cell }

/-- A frame to be kept leaves for the first time. A trained lane that repeats this one takes a copy, which it numbers and keeps when
it sends it (R22, R370). -/
def Hub.sendKept (h : Hub) (l : Nat) (kind : Nat) (new again : Bool) (cell : List W64) (recs : List Whole) : Hub :=
  let k : Kept := { seq := 0, kind := kind, new := new, again := again, cell := cell, recs := recs }
  let h := h.sendFirst l k
  match h.mirror l with
  | some m => if h.flag F.LN_STAT_TRAINED m then h.setLane m { h.lane m with copies := (h.lane m).copies ++ [k] } else h
  | none => h

/-- The next words of a lane: of each record whether it is sent for the first time, and the word. -/
def Lane.next7 (x : Lane) : List (W64 × Bool) :=
  (x.tx.flatMap fun a => (a.r.ws.drop a.sent).map fun w => (w, !a.r.again)).take 7

/-- `n` words of the assigned records have been sent: records sent whole leave the list. -/
def sentWords (n : Nat) (l : List Assigned) : List Assigned :=
  match l with
  | [] => []
  | a :: rest =>
    if a.left ≤ n then sentWords (n - a.left) rest else { a with sent := a.sent + n } :: rest

/-- Records that the next `n` words belong to. -/
def recordsOf (n : Nat) (l : List Assigned) : List Whole :=
  match l with
  | [] => []
  | a :: rest => if n = 0 then [] else if a.left ≤ n then a.r :: recordsOf (n - a.left) rest else [a.r]

/-- One reserved cell of the first record that has one is spent. -/
def spendOne (l : List Assigned) : List Assigned :=
  match l with
  | [] => []
  | a :: rest => if a.reserved = 0 then a :: spendOne rest else { a with reserved := a.reserved - 1 } :: rest

/-- A new DATA cell of a PARENT lane (R330, R331, R380). -/
def Hub.sendCell (h : Hub) (l : Nat) : Hub :=
  let x := h.lane l
  let ws := x.next7
  let n := ws.length
  let new := ws.any fun w => w.2
  let again := ws.any fun w => !w.2
  let recs := recordsOf n x.tx
  let tx := if new then spendOne x.tx else x.tx
  let h := h.setLane l { x with tx := sentWords n tx }
  let h := if new then
      let h := (h.setFld F.HEN_UPSTAT_BAL 0 (h.fld F.HEN_UPSTAT_BAL 0 - 1)).ledAdd 0xE 1
      { h with hen := { h.hen with reserved := h.hen.reserved - 1 } }
    else h
  h.sendKept l kData new again (ws.map fun w => w.1) recs

/-- PARENT lanes of a port as audit frames number them: in use, or fenced there (R344). -/
def Hub.auditLanes (h : Hub) (p : Nat) : List Nat := (upto 24).filter fun l =>
  (h.role l == roleParent ||
    (h.flag F.LN_STAT_FENCED l && (h.fld F.LANE_ROLE_ROLE l == roleParent || h.fld F.LANE_ROLE_ROLE l == roleAuto)))
    && h.fld F.LANE_ROLE_ACT_PORT l % 2 == p

/-- The audit frame (R335, R343, R344, R520). -/
def Hub.sendAudit (h : Hub) (l : Nat) : Hub :=
  let bal := h.fld F.HEN_UPSTAT_BAL 0
  let keep := h.fld F.HEN_UP_KEEP 0
  let ret := min (bal - keep) (min (bal - h.hen.reserved) 0xFFFF)
  let h := (h.setFld F.HEN_UPSTAT_BAL 0 (bal - ret)).ledAdd 0xF ret
  let h := { h with hen := { h.hen with returned := h.hen.returned + BitVec.ofNat 32 ret, audit := false } }
  let lost := h.hen.lostDl.toNat
  let h := { h.setFld F.HEN_UPSTAT_LOSTDL 0 0 with hen := { h.hen with lostDl := 0 } }
  let lanes := (h.auditLanes h.sendPort).take 12
  let live (j : Nat) : Bool := h.role ((lanes[j]?).getD 24) == roleParent
  let counted := (upto lanes.length).filter live
  let used := counted.foldl (fun (a : W32) j => a + (h.lane ((lanes[j]?).getD 0)).cells) 0
  let seqs (from_ : Nat) : Nat := (upto 6).foldl (fun a j =>
    match lanes[from_ + j]? with
    | some m => a + h.fld F.LN_STAT_ACKSEQ m * 2 ^ (8 * j)
    | none => a) 0
  let claim := if h.parked then h.fld F.TW_CLAIM_CUR 0 * 2 ^ 32 + b2n h.twinDrives * 2 ^ 48 else 0
  let q := h.hen.grantSlot.toNat % 2 ^ 24
  h.sendKept l kAudit false false [BitVec.ofNat 64 (q * 2 ^ 40 + h.hen.granted.toNat), pair h.hen.returned used,
    BitVec.ofNat 64 (ret + lost * 65536), BitVec.ofNat 64 (seqs 0), BitVec.ofNat 64 (seqs 6),
    BitVec.ofNat 64 (maskOf counted + claim), 0] []

/-- A lane that sends uplink frames: PARENT in use, or a spare that comes in as one (R27, R360, R383). -/
def Hub.upLane (h : Hub) (l : Nat) : Bool := (h.role l == roleParent && !h.standby l) || h.comesAs l roleParent

/-- Training ends (R360). -/
def Hub.trainingEnds (h : Hub) (l : Nat) : Hub :=
  if h.upLane l && h.flag F.LN_STAT_ALIGNED l && !h.flag F.LN_STAT_TRAINED l && (h.lane l).train = 0 then
    (h.setFld F.LN_STAT_TRAINED l 1).setLane l { h.lane l with trainedAt := h.slot }
  else h

/-- A TRAIN frame; a mark carries SEQ 00h (R360). It counts among the frames launched (R366). -/
def Hub.sendTrain (h : Hub) (l : Nat) : Hub :=
  let x := h.lane l
  let mark := h.slot.toNat % (1024 * h.framePeriod l) == 0
  let seq : W8 := if mark then 0 else 1
  let h := h.setLane l { x with
    train := x.train - 1, mark := if mark then some h.slot else x.mark, launches := ((seq, h.slot) :: x.launches).take 1024 }
  (h.inject l ({ seq := seq, kind := kTrain, new := false, again := false, low := 0, cell := [] } : Up).bytes)

/-- A TWIN lane sends its records; nothing is kept (18_twin_operation.md, "The twin lane"). -/
def Hub.sendTwin (h : Hub) (l : Nat) : Hub :=
  let x := h.lane l
  let ws := x.next7
  if ws.isEmpty then h.sendUp l { seq := h.txSeq l, kind := kIdle, new := false, again := false, low := 0, cell := [] }
  else
    let seq := h.txSeq l
    let h := h.setLane l { x with tx := sentWords ws.length x.tx }
    (h.setFld F.LN_STAT_TXSEQ l ((seq.toNat + 1) % 256)).sendUp l
      { seq := seq, kind := kData, new := true, again := false, low := 0, cell := ws.map fun w => w.1 }

/-- The lane's uplink frame of this frame period. -/
def Hub.uplinkSends (h : Hub) (l : Nat) : Hub :=
  if !h.frameDue l then h
  else if h.sendsPattern l then h.sendPattern l
  else if h.role l = roleTwin then h.sendTwin l
  else if !(h.upLane l && h.flag F.LN_STAT_ALIGNED l) then h
  else
    let h := h.trainingEnds l
    if !h.flag F.LN_STAT_TRAINED l then h.sendTrain l
    else
      let x := h.lane l
      let idle (h : Hub) : Hub := h.sendUp l { seq := h.txSeq l, kind := kIdle, new := false, again := false, low := 0, cell := [] }
      match x.again with
      | k :: rest =>
        let h := (h.setLane l { x with again := rest })
        let h := h.sendUp l { seq := k.seq, kind := k.kind, new := k.new, again := k.again, low := 0, cell := k.cell }
        let x := h.lane l
        if rest.isEmpty && x.rep = 2 then (h.setLane l { x with rep := 0 }).report (mkReport 0x43 (unitOf 8 l)) else h
      | [] =>
        let inForce := (h.bundle h.sendPort).contains l
        let first := (h.bundle h.sendPort).head? == some l
        if !inForce then
          match x.copies with
          | [] => idle h
          | k :: rest =>
            if 255 ≤ x.kept.length then (idle h).setFld F.LN_STAT_WINFULL l 1
            else (h.setLane l { x with copies := rest }).sendFirst l k
        else if 255 ≤ x.kept.length && ((h.hen.audit && first) || x.words != 0) then (idle h).setFld F.LN_STAT_WINFULL l 1
        else if h.hen.audit && first then h.sendAudit l
        else if x.words = 0 then idle h
        else h.sendCell l

/-! ### Downlink frames sent (R34, R337, R354, R365, R379) -/

/-- The fast command of a frame that starts now on a lane: the first that falls into it, and how many others do (R354). -/
def Hub.fcOfFrame (h : Hub) (l : Nat) : W8 × W24 × Nat :=
  let fit := h.hen.fc.filter fun x => reached h.slot x.2.2 && decide (slotsFrom x.2.2 h.slot < h.framePeriod l)
  match fit with
  | [] => (Fc.nop.code, 0, 0)
  | x :: rest => (x.1, x.2.1, rest.length)

/-- Packet bytes of a frame on a lane of child port k: only the lowest-numbered lane carries any (R379). The rest of a packet goes on
the lane on which it began; when that is no lane of the port any more, the rest is discarded (R362; notes/assumptions/73.md). -/
def Hub.packetBytes (h : Hub) (k l : Nat) : Bool × List W8 × Hub :=
  let x := h.child k
  let lanes := h.childLanes k
  let dead := x.fwdLane.any fun m => !lanes.contains m
  let x := if dead then { x with fwd := x.fwd.drop 1, fwdLane := none } else x
  let h := if dead then h.setChild k x else h
  if x.fwdLane.orElse (fun _ => lanes.head?) ≠ some l then (false, [], h)
  else
    match x.fwd with
    | [] => (false, [], h)
    | (b, first) :: rest =>
      let now := b.take 40
      let left := b.drop 40
      let h := h.setChild k (if left.isEmpty then { x with fwd := rest, fwdLane := none }
        else { x with fwd := (left, false) :: rest, fwdLane := some l })
      (first, now, h.hashed (25 + k) now)

/-- EDLY in a frame that starts now: both times at the balls (R365, R460). -/
def Hub.echoDelay (h : Hub) (l : Nat) : W24 :=
  let x := h.lane l
  match x.upTime with
  | some (s, arr) =>
    if 8 < slotsFrom s h.slot then 0xFFFFFF
    else
      let t : Int := roundDiv ((slotsFrom s h.slot * h.slotLen18 : Nat) : Int) 256 + h.txDelay l - ((arr : Int) - h.rxDelay l)
      BitVec.ofInt 24 t
  | none => 0xFFFFFF

/-- The downlink frame of a CHILD lane, or of a spare that comes in as one, which grants nothing and carries no packet (R383). -/
def Hub.downlinkSends (h : Hub) (l : Nat) : Hub :=
  let spare := h.comesAs l roleChild
  if h.sendsPattern l then h.sendPattern l
  else if !(h.frameDue l && (h.role l = roleChild || spare)) then h
  else
    let k := match h.spareEntry l with
      | some p => h.fld F.RS_LANE_PORT p.spare
      | none => h.lanePort l
    let (code, num, dropped) := h.fcOfFrame l
    let h := h.bumpN F.LN_FCDROP_COUNT l dropped
    let g := if spare then 0 else h.grantOf k
    let h := if spare then h else (h.granted k g).hashed (1 + l) [BitVec.ofNat 8 g]
    let (start, bs, h) := if spare then (false, [], h) else h.packetBytes k l
    let x := h.lane l
    let drives := h.parked && h.twinDrives
    let claim := if drives then h.fld F.TW_CLAIM_CUR 0 else 0
    let d : Down := {
      ack := BitVec.ofNat 8 (h.fld F.LN_STAT_ACKSEQ l), grant := BitVec.ofNat 8 g, claimP := drives, nak := x.nak, kind := 0
      trig := num, claim := BitVec.ofNat 16 claim, eseq := x.upSeq, edly := h.echoDelay l, pstart := start, plen := bs.length
      pbytes := bs }
    h.inject l (d.bytes code)

/-! ### Downlink frames received (R334, R355, R361, R363, R366, R373, R374) -/

/-- A frame of a lane failed to decode: framing is lost until one decodes again (R359, R383). -/
def Hub.frameFailed (h : Hub) (l : Nat) : Hub :=
  let x := h.lane l
  (h.setLane l { x with lastOk := false, fails := x.fails + 1, trainedAt := h.slot }).bump F.LN_FECUNC_COUNT l

/-- A frame of a lane decoded, with `n` bytes corrected. -/
def Hub.frameDecoded (h : Hub) (l n : Nat) : Hub :=
  let x := h.lane l
  let h := h.setLane l { x with lastOk := true, fails := 0 }
  if n = 0 then h else (h.bump F.LN_FECCOR_COUNT l).report (mkReport 0x42 (unitOf 8 l))

/-- LOSTDL counts a frame of the port in force that was not decoded, or was of another KIND (R334, R361). -/
def Hub.lostDown (h : Hub) (l : Nat) : Hub :=
  if h.role l = roleParent && h.lanePort l = h.portInForce then
    let h := h.setFld F.HEN_UPSTAT_LOSTDL 0 (min 0x7FFF (h.fld F.HEN_UPSTAT_LOSTDL 0 + 1))
    { h with hen := { h.hen with lostDl := BitVec.ofNat 16 (min 0xFFFF (h.hen.lostDl.toNat + 1)) } }
  else h

/-- An echo gives the round trip `rtt` of a lane (R366), which joins the average of a PARENT lane. -/
def Hub.echoed (h : Hub) (l : Nat) (rtt ac : Int) : Hub :=
  let h := h.setLane l { h.lane l with echoed := true, prevRtt := rtt.toNat }
  if h.role l = roleParent then h.sample l rtt ac else h

/-- The echo in a downlink frame whose first bit came `arr` into the slot: during training that of the mark, later that of the
frame with SEQ equal to ESEQ launched nearest to where the previous round trip puts it (R366). Times are referred to the balls
with the path delays of the lane (R460). -/
def Hub.echo (h : Hub) (l arr : Nat) (d : Down) : Hub :=
  if d.edly = 0xFFFFFF then h
  else
    let x := h.lane l
    let ac := (arr : Int) - h.rxDelay l
    let at_ (s : W48) : Int := (slotsFrom s h.slot * h.slotLen18 / 256 : Nat) + ac - h.txDelay l - (d.edly.toNat : Int)
    if !h.flag F.LN_STAT_TRAINED l then
      match x.mark with
      | some s => if d.eseq = 0 && 0 ≤ at_ s then h.echoed l (at_ s) ac else h
      | none => h
    else
      let far (s : W48) : Nat := (at_ s - (x.prevRtt : Int)).natAbs
      let best := (x.launches.filter fun e => e.1 == d.eseq && decide (0 ≤ at_ e.2)).foldl (fun (b : Option W48) e => match b with
        | none => some e.2
        | some s => if far e.2 < far s then some e.2 else some s) none
      match best with
      | some s => if x.echoed then h.echoed l (at_ s) ac else h
      | none => h

/-- The same record, whether it is being sent again or not. -/
def Whole.same (a b : Whole) : Bool := { a with again := b.again } == b

/-- Records that a lane has had acknowledged whole leave record memory and the buffers of the child ports (R376), when the lane
sends for the port in force and no other lane and no return to assignment holds them. -/
def Hub.recordsGone (h : Hub) (l : Nat) (before : List Whole) : Hub :=
  if h.lanePort l ≠ h.portInForce && !(h.lane l).led then h
  else
    let leading := h.parents.filter fun m => h.lanePort m == h.portInForce || (h.lane m).led
    let now := h.hen.front ++ leading.flatMap fun m => (h.lane m).records
    (each (before.filter fun r => !(now.any fun y => r.same y)) h fun r h => match r.port with
      | some k => h.releaseCells k r.cells
      | none => h).refreshMule

/-- Records that the partner had sent whole before step began count as acknowledged with the next ACK (R521, R523). -/
def Hub.sentBefore (h : Hub) (l : Nat) : Hub :=
  let x := h.lane l
  if x.tx.any fun a => a.left == 0 then (h.setLane l { x with tx := x.tx.filter fun a => a.left != 0 }).recordsGone l x.records else h

/-- An ACK (R373, R375). -/
def Hub.acked (h : Hub) (l : Nat) (a : W8) : Hub :=
  let h := (h.sentBefore l).setFld F.LN_STAT_ACKSEQ l a.toNat
  let x := h.lane l
  match x.kept.findIdx? fun k => k.seq == a with
  | none => h
  | some i =>
    let gone := x.kept.take (i + 1)
    let kept := x.kept.drop (i + 1)
    let new := gone.foldl (fun (n : W32) k => if k.new then n + 1#32 else n) 0
    let again := x.again.filter fun k => kept.any fun y => y.seq == k.seq
    let before := x.records
    let done := again.isEmpty && x.rep != 0
    let h := h.setLane l { x with
      kept := kept, again := again, cells := x.cells + new, ackSlot := h.slot
      rep := if x.rep = 0 || done then 0 else 2 }
    let h := (h.recordsGone l before).refreshLane l
    if done then h.report (mkReport 0x43 (unitOf 8 l)) else h

/-- A NAK starts a replay (R374): not when one has started within the last ⌈RTT / 25 ns⌉ + 8
slots, where 25 ns is a slot (R11). -/
def Hub.naked (h : Hub) (l : Nat) : Hub :=
  let x := h.lane l
  let wait := ceilDiv (h.fld F.RT_RTT_RTT l * h.fld F.RT_BCFREQ_FREQ 0) (1024 * 10 ^ 9) + 8
  let free := match x.lastReplay with
    | some s => decide (wait ≤ slotsFrom s h.slot)
    | none => true
  if free then
    let h := h.setLane l { x with
      again := x.kept.map fun (k : Kept) => { k with again := true }, lastReplay := some h.slot, rep := 1 }
    (h.bump F.LN_REPLAY_COUNT l).refreshLane l
  else h

/-- Launch slot of a frame that came `arr` into the slot in progress, on a lane with delay D (R56, R460). -/
def Hub.launchSlot (h : Hub) (l arr : Nat) : W48 :=
  let off := roundDiv (((arr : Int) - h.rxDelay l - (h.fld F.RT_LANE_D l : Int)) * 256) (max 1 h.slotLen18)
  BitVec.ofInt 48 ((h.slot.toNat : Int) + off)

/-- A downlink frame arrives, its first bit `arr` into the slot, in 2^-10 ns. Of a frame of another KIND only the FC bytes are used,
so the number of an L1A in it is inferred (R361, R63). -/
def Hub.downlinkArrives (h : Hub) (l : Fin 24) (bytes : List W8) (arr : Nat) : Hub :=
  let r := h.role l.val
  if h.start.held || !h.flag F.LN_STAT_ALIGNED l.val || !h.signal l.val || !h.powered l.val || r = roleChild || r = roleTwin
    || h.comesAs l.val roleChild then h
  else
    let q := h.launchSlot l.val arr
    let timing := h.timingLane == some l.val
    match downRaw bytes with
    | none =>
      let h := (h.frameFailed l.val).lostDown l.val
      let h := if r ≠ roleParent then h
        else if h.holdsFrames l.val then h.holdFrame l.val false (h.lanePort l.val) q []
        else h.pktLost l.val
      if timing then h.fcByte (vote bytes) q 0 false else h
    | some (raw, n) =>
      let d := Down.read raw
      let h := h.frameDecoded l.val n
      let h := if timing then h.fcByte (vote bytes) q d.trig (d.kind == 0) else h
      if r ≠ roleParent && r ≠ roleSpare then h
      else if d.kind ≠ 0 then (h.bump F.LN_BADKIND_COUNT l.val).lostDown l.val
      else
        let h := (h.echo l.val arr d).acked l.val d.ack
        let h := if d.nak then h.naked l.val else h
        if r ≠ roleParent then h
        else if h.holdsFrames l.val then h.holdFrame l.val false (h.lanePort l.val) q (raw.take 55)
        else h.deliverDown l (h.lanePort l.val) d q

/-! ### Uplink frames received (R365, R368, R372, R377) -/

/-- A frame is discarded with NAK set (R372). -/
def Hub.nakFrame (h : Hub) (l : Nat) : Hub := (h.setLane l { h.lane l with nak := true }).bump F.LN_NAKTX_COUNT l

/-- Reads a frame of the TWIN lane: TWIN SYNC records in its cell (R515). -/
def Hub.twinCell (h : Hub) (l : Nat) (cell : List W64) : Hub :=
  let (ps, _) := (h.lane l).readCell true cell
  each ps h fun p h =>
    let x := h.lane l
    let ws := if p.from_ = 0 then p.ws else x.rx ++ p.ws
    if p.ends then
      let h := h.setLane l { x with rx := [] }
      if hdrType p.hd = tTwinSync then h.twinReceived ws else h
    else h.setLane l { x with rx := ws }

/-- An accepted frame of a CHILD lane: at once, or ALIGN slots later in a twin unit (R507). -/
def Hub.acceptUp (h : Hub) (l : Nat) (u : Up) : Hub :=
  let x := h.lane l
  let h := (h.setLane l { x with exp := some (u.seq + 1#8), nak := false }).setFld F.LN_STAT_ACKSEQ l u.seq.toNat
  if h.holdsFrames l then h.holdFrame l true (h.lanePort l) 0 u.data else h.deliverUp l (h.lanePort l) u

/-- EXP of a lane, set by the first frame but TRAIN after each alignment (R372). -/
def Hub.setsExp (h : Hub) (l : Nat) (u : Up) : Hub :=
  let x := h.lane l
  if x.exp.isSome then h
  else (h.setLane l { x with exp := some u.seq }).setFld F.LN_STAT_ACKSEQ l (u.seq - 1#8).toNat

/-- A frame by its SEQ (R372). One with a KIND without a meaning, and an IDLE frame with FLAGS[1:0] set, are malformed whatever
their SEQ, and move no EXP (R340, R368). -/
def Hub.upBySeq (h : Hub) (l : Nat) (u : Up) : Hub :=
  let h := h.setsExp l u
  let e := (h.lane l).exp.getD u.seq
  if 4 ≤ u.kind || (u.kind = kIdle && u.low ≠ 0) then h.malformed l (h.lanePort l) [] false
  else if u.kind = kIdle then (if u.seq = e then h else h.setLane l { h.lane l with nak := true })
  else if u.seq = e then h.acceptUp l u
  else if (u.seq - e).toNat < 128 then h.nakFrame l
  else h

/-- A frame on a spare that comes in as a CHILD lane (R383): a frame but TRAIN shows that the child has trained; nothing is accepted
before the lane is in service. -/
def Hub.spareFrame (h : Hub) (l : Nat) (u : Up) : Hub :=
  if u.kind = kTrain then h
  else
    let h := h.setsExp l u
    let h := h.setLane l { h.lane l with upSeen := true }
    if u.kind = kIdle then h else h.nakFrame l

/-- An uplink frame arrives, its first bit `arr` into the slot, in 2^-10 ns. -/
def Hub.uplinkArrives (h : Hub) (l : Nat) (bytes : List W8) (arr : Nat) : Hub :=
  let r := h.role l
  let spare := h.comesAs l roleChild
  if h.start.held || !h.flag F.LN_STAT_ALIGNED l || !h.signal l || !(r = roleChild || r = roleTwin || spare) then h
  else
    match upOf bytes with
    | none => if r = roleTwin then h.frameFailed l else (h.frameFailed l).nakFrame l
    | some (u, n) =>
      let h := h.frameDecoded l n
      let h := h.setLane l { h.lane l with upSeq := u.seq, upTime := some (h.slot, arr) }
      if r = roleTwin then
        let h := { h with twin := { h.twin with lastSeen := some h.slot } }
        if u.kind = kData then h.twinCell l u.cell else h
      else if spare then h.spareFrame l u
      else if u.kind = kTrain then (if u.low ≠ 0 then h.malformed l (h.lanePort l) [] false else h)
      else h.upBySeq l u

/-! ### Detectors, alignment and fences (R357-R360, R375, R380) -/

/-- A receiver loses its alignment; a packet in progress is discarded (R363). -/
def Hub.unaligned (h : Hub) (l : Nat) : Hub :=
  let x := h.lane l
  let h := (h.setFld F.LN_STAT_ALIGNED l 0).setLane l { x with lastOk := false, exp := none, trainedAt := h.slot }
  if h.role l ≠ roleParent then h
  else if h.holdsFrames l then h.holdFrame l false (h.lanePort l) 0 [] else h.pktLost l

/-- LOS (R357). -/
def Hub.los (h : Hub) (l : Nat) : Hub := ((h.setFld F.LN_STAT_SIG l 0).unaligned l).laneCause l 1

/-- LOL (R357). -/
def Hub.lol (h : Hub) (l : Nat) : Hub := ((h.setFld F.LN_STAT_LOCK l 0).unaligned l).laneCause l 2

/-- Loss of alignment (R357): the frames that failed cover 4 consecutive slots and are at least 2. -/
def Hub.alignmentLost (h : Hub) (l : Nat) : Hub :=
  let n := (h.lane l).fails
  if h.flag F.LN_STAT_ALIGNED l && 2 ≤ n && 4 ≤ n * h.framePeriod l then (h.unaligned l).laneCause l 3 else h

/-- Training begins (R360). -/
def Hub.startTraining (h : Hub) (l : Nat) : Hub :=
  let x := h.lane l
  (((h.setFld F.LN_STAT_TRAINED l 0).setLane l { x with train := 2048, mark := none, echoed := false, launches := [] }).setFld
    F.RT_LANE_VALID l 0).refreshAges

/-- A powered receiver finds its frame start (R27, R358). -/
def Hub.aligned (h : Hub) (l : Nat) : Hub :=
  if h.flag F.LN_STAT_ALIGNED l || !h.signal l || !h.powered l then h
  else
    let x := h.lane l
    let h := (h.setFld F.LN_STAT_ALIGNED l 1).setLane l { x with lastOk := true, fails := 0, exp := none }
    if h.upLane l then h.startTraining l else h

/-- The transmitter of a lane stops and what it held goes: of a PARENT lane that sends for the port in force the records return to
the head of assignment, of a CHILD lane the record in progress is discarded, and one that was being dropped is counted, with
the GAP item of a record whose trailer was not received (R339, R340, R342, R380). Packet bytes of a packet in progress are
ignored to their end (R363). Frames that the lane has accepted are still delivered in their slots (R507), and what the lane has received
ends behind them. Answers the header of a record discarded now. -/
def Hub.laneEmpties (h : Hub) (l : Nat) : Hub × List W64 :=
  let x := h.lane l
  let r := h.role l
  let k := h.lanePort l
  let back := if r = roleParent && (k = h.portInForce || x.led) then x.records else []
  let freed := x.tx.foldl (fun n a => n + a.reserved) 0
  let later := !x.hold.isEmpty
  let y : Lane := { ({} : Lane) with
    lastOk := x.lastOk, out := x.out, sentAt := x.sentAt, trainedAt := x.trainedAt
    genReg := x.genReg, chkReg := x.chkReg, prbsRun := x.prbsRun, prbsWin := x.prbsWin, lostRole := x.lostRole, lostPort := x.lostPort
    hold := x.hold, pkt := if later then x.pkt else none, ignore := x.ignore || (x.pkt.isSome && !later)
    pktSkip := if later then x.pktSkip else [] }
  let h := h.setLane l (if r = roleChild then { y with
    rx := x.rx, rxAgain := x.rxAgain, rxSkip := x.rxSkip, rxDrop := x.rxDrop, rxCells := x.rxCells, cells := x.cells, cellHist := x.cellHist }
    else y)
  let (h, lost) := if later then (h.holdFrame l (r == roleChild) k 0 [], []) else if r = roleChild then h.rxEnds l k else (h, [])
  let h := { h with hen := { h.hen with front := h.hen.front ++ back, reserved := h.hen.reserved - freed } }
  ((h.setFld F.LN_STAT_TRAINED l 0).setFld F.LN_STAT_INJ_BUSY l 0 |>.setFld F.RT_LANE_VALID l 0 |>.refreshLane l, lost)

/-- A lane goes into standby: its receiver is off (R22, R27). -/
def Hub.standDown (h : Hub) (l : Nat) : Hub :=
  let h := (h.laneEmpties l).1
  (h.setFld F.LN_STAT_ALIGNED l 0).setLane l { h.lane l with lastOk := false }

/-- Every lane whose receiver is not powered is in standby (R22, R27, R383). -/
def Hub.standbys (h : Hub) : Hub :=
  let l := (upto 24).filter fun l => h.flag F.LN_STAT_ALIGNED l && !h.powered l
  if l.isEmpty then h else (each l h fun l h => h.standDown l).refreshAges

/-- A lane is fenced for a cause (R380). A fence by the Goose follows a report, which is not made again. -/
def Hub.fenceLane (h : Hub) (l cause : Nat) : Hub :=
  let r := h.role l
  let k := h.lanePort l
  let h := if cause = 5 then h else h.report (mkReport 0x40 (unitOf 8 l))
  let (h, lost) := h.laneEmpties l
  let h := (h.setFld F.LN_STAT_ALIGNED l 0).setLane l { h.lane l with lastOk := false, lostRole := r, lostPort := k }
  let h := (h.setFld F.LANE_ROLE_ACT_ROLE l roleOff).setFld F.LN_STAT_FENCED l 1
  let h := ((h.setFld F.LN_CAUSE_CAUSE l cause).attn aLink).listFence (unitOf 8 l) false
  let h := if r = roleParent then { h with hen := { h.hen with audit := true } }
    else if r = roleChild && h.portEmpty k then h.portLost k lost
    else h
  ((h.needSpare kLane l).refreshAges.refreshHen).refreshDegr

/-- A lane with a cause is fenced. -/
def Hub.laneFences (h : Hub) (l : Nat) : Hub :=
  let x := h.lane l
  let r := h.role l
  if x.cause ≠ 0 && (r = roleParent || r = roleChild || r = roleTwin) then h.fenceLane l x.cause else h

/-- Every lane with a cause is fenced, at a boundary. -/
def Hub.allLaneFences (h : Hub) : Hub := (forN 24 h fun l h => h.laneFences l).standbys

/-- A PARENT lane whose ACK has not advanced for 512 slots (R375). -/
def Hub.ackTimeout (h : Hub) (l : Nat) : Hub :=
  let x := h.lane l
  if h.role l = roleParent && !x.kept.isEmpty && 512 ≤ slotsFrom x.ackSlot h.slot then h.laneCause l 4 else h

/-! ### Test patterns (R384, R385) -/

/-- A write to LN_PRBS that is not rejected. Where in its pattern the generator starts the spec leaves open. -/
def Hub.prbsWrite (h : Hub) (l : Nat) (v : W32) : Hub :=
  let was := h.flag F.LN_PRBS_CHK_EN l
  let gen := h.flag F.LN_PRBS_GEN_EN l
  let h := h.codeWrite (F.LN_PRBS_PAT.addr l) v
  let h :=
    if h.flag F.LN_PRBS_GEN_EN l && !gen then
      let r := BitVec.ofNat 31 h.openValue.toNat
      h.tookOpen.setLane l { h.lane l with genReg := if prbsAlive (h.fld F.LN_PRBS_PAT l) r then r else BitVec.allOnes 31 }
    else h
  let on := h.flag F.LN_PRBS_CHK_EN l
  let h := if on != was then
      (h.setFld F.LN_PRBS_CHK_LOCK l 0).setLane l { h.lane l with chkReg := 0, prbsRun := 0, prbsWin := [] }
    else h
  if on && !was then ((h.setFld F.LN_BERR_ERRORS l 0).setFld F.LN_BITS_LO_V l 0).setFld F.LN_BITS_HI_V l 0 else h

/-- One received bit at the checker (R385). Unlocked, it finds the newest run of bits that follows the pattern: one that does not
leaves a run of as many bits as the degree of the polynomial, which always follow it. Locked, it compares with the pattern as it
goes on from the bits at which it locked. -/
def Hub.prbsBit (h : Hub) (l : Nat) (bit_ : Bool) : Hub :=
  let x := h.lane l
  let pat := h.fld F.LN_PRBS_PAT l
  let b := bit_ != h.flag F.LN_PRBS_INV l
  let want := prbsNext pat x.chkReg
  if h.flag F.LN_PRBS_CHK_LOCK l then
    let n := h.fld F.LN_BITS_LO_V l + h.fld F.LN_BITS_HI_V l * 2 ^ 32 + 1
    let h := (h.setFld F.LN_BITS_LO_V l (n % 2 ^ 32)).setFld F.LN_BITS_HI_V l (n / 2 ^ 32 % 65536)
    let h := if b = want then h else h.setFld F.LN_BERR_ERRORS l (min 0xFFFFFFFF (h.fld F.LN_BERR_ERRORS l + 1))
    let win := ((b == want) :: x.prbsWin).take 64
    if 16 < (win.filter fun ok => !ok).length then
      (h.setFld F.LN_PRBS_CHK_LOCK l 0).setLane l { x with chkReg := 0, prbsRun := 0, prbsWin := [] }
    else h.setLane l { x with chkReg := takeBit x.chkReg want, prbsWin := win }
  else
    let deg := (prbsPoly pat).1
    let r := takeBit x.chkReg b
    let run := if x.prbsRun < deg || b = want then x.prbsRun + 1 else deg
    if 64 ≤ run && prbsAlive pat r then
      (h.setFld F.LN_PRBS_CHK_LOCK l 1).setLane l { x with chkReg := r, prbsRun := 0, prbsWin := [] }
    else h.setLane l { x with chkReg := r, prbsRun := run }

/-- Bits at the checker, while it runs (R384). -/
def Hub.prbsBits (h : Hub) (l : Nat) (bs : List Bool) : Hub :=
  if h.patternLane l && h.flag F.LN_PRBS_CHK_EN l && h.signal l then each bs h fun b h => h.prbsBit l b else h

/-! ### Commands -/

/-- UPLINK_FRAME_SEND (R370). -/
def execUplinkFrameSend (l : Fin 24) (s : State) : Host.Outcome State Fault Refusal :=
  .next { s with hub := s.hub.settled (s.hub.uplinkSends l.val) }

/-- DOWNLINK_FRAME_SEND (R337). -/
def execDownlinkFrameSend (l : Fin 24) (s : State) : Host.Outcome State Fault Refusal :=
  .next { s with hub := s.hub.downlinkSends l.val }

/-- UPLINK_FRAME_RECEIVE (R372). -/
def execUplinkFrameReceive (l : Fin 24) (bytes : List W8) (arrival : Nat) (s : State) : Host.Outcome State Fault Refusal :=
  .next { s with hub := s.hub.settled (s.hub.uplinkArrives l.val bytes arrival) }

/-- DOWNLINK_FRAME_RECEIVE (R361). -/
def execDownlinkFrameReceive (l : Fin 24) (bytes : List W8) (arrival : Nat) (s : State) : Host.Outcome State Fault Refusal :=
  .next { s with hub := s.hub.settled (s.hub.downlinkArrives l bytes arrival) }

/-- LANE_LOS (R357). -/
def execLaneLos (l : Fin 24) (s : State) : Host.Outcome State Fault Refusal := .next { s with hub := s.hub.los l.val }

/-- LANE_LOS_CLEAR (R357). -/
def execLaneLosClear (l : Fin 24) (s : State) : Host.Outcome State Fault Refusal :=
  .next { s with hub := s.hub.awake (s.hub.setFld F.LN_STAT_SIG l.val 1) }

/-- LANE_LOL (R357). -/
def execLaneLol (l : Fin 24) (s : State) : Host.Outcome State Fault Refusal := .next { s with hub := s.hub.lol l.val }

/-- LANE_LOL_CLEAR (R357). -/
def execLaneLolClear (l : Fin 24) (s : State) : Host.Outcome State Fault Refusal :=
  .next { s with hub := s.hub.awake (s.hub.setFld F.LN_STAT_LOCK l.val 1) }

/-- LOSS_OF_ALIGNMENT (R357). -/
def execLossOfAlignment (l : Fin 24) (s : State) : Host.Outcome State Fault Refusal := .next { s with hub := s.hub.alignmentLost l.val }

/-- ALIGNMENT_FOUND (R358, R360). -/
def execAlignmentFound (l : Fin 24) (s : State) : Host.Outcome State Fault Refusal := .next { s with hub := s.hub.aligned l.val }

/-- TRAINING_END (R360). -/
def execTrainingEnd (l : Fin 24) (s : State) : Host.Outcome State Fault Refusal := .next { s with hub := s.hub.trainingEnds l.val }

/-- ACK_TIMEOUT (R375). -/
def execAckTimeout (l : Fin 24) (s : State) : Host.Outcome State Fault Refusal := .next { s with hub := s.hub.ackTimeout l.val }

/-- LANE_FENCE. The boundary after a cause of R380. -/
def execLaneFence (l : Fin 24) (s : State) : Host.Outcome State Fault Refusal :=
  .next { s with hub := s.hub.settled (s.hub.laneFences l.val).standbys }

/-- A write to LN_PRBS: rejected unless the lane is OFF or SPARE and not fenced (R384). -/
def Hub.prbsAsked (h : Hub) (l : Nat) (v : W32) : Hub :=
  if h.rejects (F.LN_PRBS_PAT.addr l) v = 0 then h.prbsWrite l v else h

/-- PRBS_GENERATOR. A write to LN_PRBS for the generator (R384). -/
def execPrbsGenerator (l : Fin 24) (v : W32) (s : State) : Host.Outcome State Fault Refusal :=
  .next { s with hub := s.hub.awake (s.hub.prbsAsked l.val v) }

/-- PRBS_CHECKER. A write to LN_PRBS for the checker (R384, R385). -/
def execPrbsChecker (l : Fin 24) (v : W32) (s : State) : Host.Outcome State Fault Refusal :=
  .next { s with hub := s.hub.awake (s.hub.prbsAsked l.val v) }

/-- PRBS_LOCK. Bits received at the checker, in their order (R385). -/
def execPrbsLock (l : Fin 24) (bits : List Bool) (s : State) : Host.Outcome State Fault Refusal :=
  .next { s with hub := s.hub.prbsBits l.val bits }

/-- ERROR_INJECTION. Writing 1 to LN_INJ.GO (R386). -/
def execErrorInjection (l : Fin 24) (s : State) : Host.Outcome State Fault Refusal :=
  .next { s with hub := s.hub.awake (s.hub.startInjection l.val) }

end Sys2Proof.Machine
end

