-- ==== Sys2Proof/Machine/BringIn.lean ====
section
/-! DEFINITION. Bringing a spare in: what takes effect at a boundary, and in which order (17_reserve_and_wear.md, "Bringing a spare in").
The commands are at the end. -/

namespace Sys2Proof.Machine

/-- A digitiser slot is retired (R487, R491). -/
def Hub.retireDslot (h : Hub) (p : Nat) : Hub :=
  let h := (((h.setFld F.RS_DSLOT_STATE p 3).setFld F.RS_DSLOT_RETIRED p 1).setFld F.RS_DSLOT_DREP p 1).listAdds 8
  ({ h with goose := { h.goose with retired := BitVec.ofNat 16 (unitOf 5 p) :: h.goose.retired } }).bump F.RS_RETIRE_COUNT 0

/-- A channel moves to spare digitiser slot `s` of its group (R497). A slot that still serves it is retired (R487). An OFFSET, TDC or PHASE
that uses the spare loses it (R97), and the outputs of the slot take their positions from the new serving slot (R146). -/
def Hub.moveChannel (h : Hub) (c s : Nat) (reactive : Bool) : Hub :=
  let old := h.servingSlot c
  let h := (h.setFld F.RS_CHMAP_SHADOW c 0x3F).serve c s
  let h := h.setFld F.RS_DSLOT_STATE (34 * (c / 32) + s) 1
  let p := 34 * (c / 32) + s
  let h := { h with
    rsv := { h.rsv with moved := (c / 32) :: h.rsv.moved }
    cal := { h.cal with lost := if h.feeds p then p :: h.cal.lost else h.cal.lost } }
  let h := match old with
    | none => h
    | some p => h.retireDslot p
  (h.broughtIn reactive).refix c

/-- The spare engine takes over group `e` (R264): banks, seals and data memory of the engine it replaces, and registers of
its own. When the copy found an uncorrectable word, or the engine holds one that is known, it waits for its program with both
banks unsealed (R265, R498). An engine that was replaced for its wear alone is retired when the spare serves (R487). DESIGN CHOICE: trigger
notices held for the engine pass to the spare, of which R264 says nothing (notes/assumptions/102.md). -/
def Hub.oxBringIn (h : Hub) (e : Nat) (copyBad reactive : Bool) : Hub :=
  let x := h.oxOf e
  let sp := h.oxOf 16
  let copyBad := copyBad || !x.bad.isEmpty
  let h := if x.done then h else h.fallback e
  let x := h.oxOf e
  let h := (h.setFld F.RS_STAT_OXG 0 e).setFld F.OX_STAT_PHYS e 16
  if copyBad then
    let h := h.report (mkReport 0x26 (unitOf 4 e))
    let h := h.setOx e { x with
      act := sp.act, stby := sp.stby, dmem := sp.dmem, bad := sp.bad, slot := sp.slot, bg := sp.bg, loadWait := true, done := true }
    ((h.setFld F.OX_STAT_ACT_SEALED e 0).setFld F.OX_STAT_STBY_SEALED e 0).setFld F.RS_STAT_LOADWAIT 0 1
  else
    let h := if reactive then h else
      { (h.bump F.RS_RETIRE_COUNT 0) with goose := { h.goose with retired := BitVec.ofNat 16 (unitOf 4 e) :: h.goose.retired } }
    let h := h.setOx e { x with slot := sp.slot, bg := sp.bg }
    (h.oxRestart e).broughtIn reactive

/-- A prepared lane takes the role and port of the lane it replaces (R383). A lane that is retired stops first: what it held goes, and it
is OFF (R501). -/
def Hub.laneBringIn (h : Hub) (l j : Nat) (reactive : Bool) : Hub :=
  let sp := h.fld F.RS_LANE_LANE j
  let job := h.laneJob l
  let h := (h.setFld F.LANE_ROLE_ACT_ROLE sp job.1).setFld F.LANE_ROLE_ACT_PORT sp job.2
  let h := (h.setFld F.RS_LANE_SERVES j l).setLane sp { h.lane sp with upSeen := false }
  let h := if h.role sp = roleParent then { h with hen := { h.hen with audit := true } } else h
  let h := if reactive then h else
    let h := h.standDown l
    let h := { h with goose := { h.goose with retired := BitVec.ofNat 16 (unitOf 8 l) :: h.goose.retired } }
    (h.setFld F.LANE_ROLE_ACT_ROLE l roleOff).bump F.RS_RETIRE_COUNT 0
  h.broughtIn reactive

/-- Slots that 3,072 output periods take (R152): an output period is INC × 2^-19 stage D input periods, and a slot
holds two of those with stage C in and four without. -/
def Hub.bankSlots (h : Hub) : Nat :=
  ceilDiv (3072 * h.fld F.CHN_RATE_INC 0) ((if h.flag F.CHN_RATE_C_EN 0 then 2 else 4) * 2 ^ 19)

/-- Whether a prepared replacement may take effect at this boundary (R495). -/
def Hub.prepReady (h : Hub) (p : Prep) : Bool :=
  let calm := h.mode == mUnloaded || h.mode == mSetup
  if calm then p.reactive
  else
    p.left == 0 &&
      (if p.kind = kRow && p.unit / 65536 < 16 then h.bankSlots ≤ slotsFrom p.since h.slot
       else if p.kind = kRow && p.unit / 65536 = 0x10 then h.rsv.rowFree
       else if p.kind = kLane then
         let sp := h.fld F.RS_LANE_LANE p.spare
         let x := h.lane sp
         let trained := if h.fld F.RS_LANE_ROLE p.spare = roleChild then x.upSeen
           else h.flag F.LN_STAT_TRAINED sp && h.framed sp && decide (256 * h.framePeriod sp ≤ slotsFrom x.trainedAt h.slot)
         trained && p.passed && (p.reactive || (h.lane p.unit).kept.isEmpty)
       else if p.kind = kDslot then p.reactive || p.passed
       else true)

/-- RS_VETO forbids a bring-in, as it stands at its boundary (R487, R490). -/
def Hub.prepVetoed (h : Hub) (p : Prep) : Bool := h.vetoed p.kind || (!p.reactive && bit (h.word A.RS_VETO).toNat 8)

/-- A prepared spare enters service, or is given up to a veto (R490). A row mapped for its wear is retired (R487). -/
def Hub.bringIn (h : Hub) (p : Prep) (copyBad : Bool) : Hub :=
  if h.prepVetoed p then
    let h := h.dropPrep p
    if p.reactive then h.holdBack p.kind p.unit else h.bump F.RS_VETOED_COUNT 0
  else
    let h := { h with rsv := { h.rsv with preps := h.rsv.preps.filter fun q => !(q == p) } }
    let h :=
      if p.kind = kRow then
        let h := h.setRow (p.unit / 65536) p.spare (p.unit % 65536) 2
        (if p.reactive then h else h.bump F.RS_RETIRE_COUNT 0).broughtIn p.reactive
      else if p.kind = kLine then
        let slot := p.unit / 2
        let old := p.unit % 2 == 1
        let h := (h.setFlag F.RS_DSLOT_LINE slot (!old)).broughtIn p.reactive
        match h.channelOf slot with
        | some c => h.refreshTdc c
        | none => h
      else if p.kind = kDslot then (h.endRoll (p.unit / 32)).moveChannel p.unit p.spare p.reactive
      else if p.kind = kOx then h.oxBringIn p.unit copyBad p.reactive
      else h.laneBringIn p.unit p.spare p.reactive
    h.refreshPrep

/-- Applies every ready preparation of one kind; of digitiser slots one channel for each group at a boundary (R496). -/
def Hub.bringInKind (h : Hub) (kind : Nat) (copyBad : Bool) : Hub :=
  let ready := h.rsv.preps.filter fun p => p.kind == kind && h.prepReady p
  let chosen := if kind = kDslot then
      ready.filter fun p => !(h.rsv.moved.contains (p.unit / 32))
        && (ready.find? fun q => q.unit / 32 == p.unit / 32) == some p
    else ready
  each chosen h fun p h => h.bringIn p copyBad

/-- An engine that waits for its program enters service at the first orbit boundary after its active bank was sealed
(R498). -/
def Hub.loadWaitEnds (h : Hub) : Hub :=
  if h.flag F.RS_STAT_LOADWAIT 0 then
    let e := h.fld F.RS_STAT_OXG 0
    if h.flag F.OX_STAT_ACT_SEALED e then
      let h := (h.setOx e { h.oxOf e with loadWait := false }).setFld F.RS_STAT_LOADWAIT 0 0
      (h.oxRestart e).broughtIn true
    else h
  else h

/-- Whether bring-ins may take effect at this boundary (R495). -/
def Hub.bringInTime (h : Hub) : Bool :=
  if h.mode = mHold then false else if h.mode = mUnloaded || h.mode = mSetup then true else h.atOrbit

/-- Digitiser slots whose fence has been lifted serve their channels again (R93), one channel for each group at a boundary (R496). -/
def Hub.slotsReturn (h : Hub) : Hub :=
  let l := h.rsv.returns
  each l { h with rsv := { h.rsv with returns := [] } } fun x h =>
    if (h.servingSlot x.2).isNone && h.fld F.RS_DSLOT_STATE x.1 = 0 && !h.flag F.RS_DSLOT_FENCED x.1 then
      if h.rsv.moved.contains (x.1 / 34) then { h with rsv := { h.rsv with returns := h.rsv.returns ++ [x] } }
      else (({ h with rsv := { h.rsv with moved := (x.1 / 34) :: h.rsv.moved } }).setFld F.RS_DSLOT_STATE x.1 1).serve x.2 (x.1 % 34)
    else h

/-- The changes of the reserve manager at a boundary, in the order of R496; none in HOLD (R495; notes/assumptions/91.md). `copyBad` says
that the copy of an engine that ends at this boundary found an uncorrectable word. -/
def Hub.bringIns (h : Hub) (copyBad : Bool) : Hub :=
  if h.bringInTime then
    ((((((h.bringInKind kRow false).bringInKind kLine false).slotsReturn).bringInKind kDslot false).bringInKind kOx
      copyBad).loadWaitEnds).bringInKind kLane false
  else h

/-! ### Commands -/

/-- UNIT_FENCE. A unit whose reaction is Fence is fenced at the boundary that its rule gives: the first slot boundary after its
report (R473), for a TDC line in a running mode an orbit boundary, at which its other line takes over (R118, R120). -/
def execUnitFence (u : BitVec 16) (s : State) : Host.Outcome State Fault Refusal :=
  .next { s with hub := s.hub.settled <|
    if u ∈ s.hub.goose.due && s.hub.fenceNow u.toNat then
      let h := ({ s.hub with goose := { s.hub.goose with due := s.hub.goose.due.filter fun x => !(x == u) } }).fenceUnit u.toNat
      (if h.bringInTime && (bits u.toNat 15 10 = 6 || bits u.toNat 15 10 = 7) then h.bringInKind kLine false else h).refreshDegr
    else s.hub }

/-- SPARE_BRING_IN. Prepared spares take over in the order of R496; the engine's copy found an uncorrectable word or not
(R265, R495). -/
def execSpareBringIn (copyBad : Bool) (s : State) : Host.Outcome State Fault Refusal :=
  .next { s with hub := s.hub.settled (s.hub.bringIns copyBad).refreshDegr }

end Sys2Proof.Machine
end

