-- ==== Sys2Proof/Machine/Cal.lean ====
section
/-! DEFINITION. Calibration (15_calibration.md): starting and ending a procedure, what it computes from its measurements, the
quality window, rolling recalibration, the crystal figure and the path delays. -/

namespace Sys2Proof.Machine

/-! ### The quality window (R453) -/

/-- Publishes a word of the quality window, with the slot tag in word 39. -/
def Hub.publish (h : Hub) (kind ix w v : Nat) : Hub :=
  (h.setBank (qualKey kind ix w) (BitVec.ofNat 32 v)).setBank (qualKey kind ix 39) (BitVec.ofNat 32 h.tag.toNat)

/-- Publishes one half of a word of the quality window. -/
def Hub.publishHalf (h : Hub) (kind ix w : Nat) (upper : Bool) (v : Nat) : Hub :=
  let old := h.qual kind ix w
  h.publish kind ix w (if upper then old % 65536 + v % 65536 * 65536 else old / 65536 * 65536 + v % 65536)

/-! ### What the procedures compute -/

/-- TDC_LUT entries from the counts of the code-density run: (C_f + n_f / 2) × 400 / N with N = 25,600, rounded under R5. -/
def lutOf (counts : List Nat) : List Nat :=
  ((counts.take 128).foldl (fun (acc : Nat × List Nat) n =>
    (acc.1 + n, (roundDiv ((2 * acc.1 + n : Nat) : Int) 128).toNat :: acc.2)) (0, [])).2.reverse

/-- TDC_LINEOFS that brings the mean time of the reference pulses to their launch time. -/
def lineOfsOf (meanErr : Int) : Nat := field 10 (satS 10 (-meanErr))

/-- Writes the table and the offset of a line. -/
def Hub.writeLine (h : Hub) (p : Nat) (line : Bool) (counts : List Nat) (meanErr : Int) : Hub :=
  let h := each (lutOf counts).zipIdx h fun e h => h.setBank (lutKey p line e.2) (BitVec.ofNat 32 (min 511 e.1))
  h.setBank (lineOfsKey p line) (BitVec.ofNat 32 (lineOfsOf meanErr))

/-- A lateness less the aperture offset, after the 6.25 ns grid: 0 to 6,399. -/
def Hub.lateness (h : Hub) (late : Int) : Nat := ((late - h.sfld F.CAL_APOFS_APOFS 0) % 6400).toNat

/-- TAP and FINE from the lateness at TAP 0 and at the TAP set. -/
def Hub.phaseOf (h : Hub) (late0 late1 : Int) : Nat × Int :=
  let tap := (roundDiv (6400 - (h.lateness late0 : Int)) 100).toNat % 64
  let l := h.lateness late1
  (tap, if l < 3200 then l else (l : Int) - 6400)

/-- ADC_PHASE from TAP and FINE. -/
def phaseWord (tap : Nat) (fine : Int) : W32 :=
  F.ADC_PHASE_FINE.put (F.ADC_PHASE_TAP.put 0 tap) (field 8 (satS 8 fine))

/-- A gain scaled by a ratio, kept in its 24 bits; a division by 0 has no stated result, so an open value stands for it. -/
def Hub.scaled (h : Hub) (gain num den : Nat) : Nat × Hub :=
  if den = 0 then ((h.openValue.toNat) % 2 ^ 24, h.tookOpen)
  else (satU 24 (roundDiv ((gain * num : Nat) : Int) den), h)

/-- Where the sweep at tap `t` puts its 50% point, and the tap's residual; `k` is the number of the tap's sweep, 0 to 2 (R455). -/
def Hub.tapResidual (h : Hub) (c : Nat) (g50 t : Int) (k : Nat) : Option (Int × Int) :=
  (crossAt (h.stepCounts c (128 + 16 * k) 16) (tapBase g50 t) 128 1).map fun g => (t, thrResidual (h.injg c) g)

/-- The tap that R455 keeps with its residual: the smallest magnitude among the taps that exist and whose sweep brackets half the
pulses; none when no tap's does. Where two tie, the spec names none: an open value chooses. -/
def Hub.trimKept (h : Hub) (c : Nat) (g50 : Int) : Option (Int × Int) × Hub :=
  let t := trimProposal (h.injg c) g50
  let near := (upto 3).filterMap fun (k : Nat) => h.tapResidual c g50 (t - 1 + (k : Int)) k
  let taps := near.filter fun x => decide (-32 ≤ x.1) && decide (x.1 ≤ 31)
  match taps with
  | [] => (none, h)
  | x :: rest =>
    let best := rest.foldl (fun m y => min m y.2.natAbs) x.2.natAbs
    match taps.filter fun y => y.2.natAbs == best with
    | [y] => (some y, h)
    | l => (some ((l[h.openValue.toNat % l.length]?).getD x), h.tookOpen)

/-- The noise figure |g84 - g16| / 128 fC of the first sweep, in 2^-10 fC (R455); where the sweep does not hold both points, an open
value. -/
def Hub.noiseFigure (h : Hub) (c : Nat) : Nat × Hub :=
  let l := h.stepCounts c 0 128
  match crossAt l (h.sweepBase c) (84 * 256) 100, crossAt l (h.sweepBase c) (16 * 256) 100 with
  | some a, some b => (satU 16 (roundDiv ((b - a).natAbs : Int) 32), h)
  | _, _ => (h.openValue.toNat % 65536, h.tookOpen)

/-- Mean of a sum over `n`; 0 over none. -/
def meanOf (sum : Int) (n : Nat) : Int := if n = 0 then 0 else roundDiv sum n

/-- `c` and `sign` times the mean over 64 pulses at each of the 64 values of DELAY of a time less the injection instant, rounded once. The
instant is 4.000 ns + 4 j × 97.65625 ps behind the boundary, in seconds at a bunch clock of 40 MHz (R11, R84, R456); `times` are the
sums of 64 times, by DELAY. -/
def Hub.delayMean (h : Hub) (c sign : Int) (times : List Int) : Int :=
  let f := max 1 (h.fld F.RT_BCFREQ_FREQ 0)
  let sum := times.zipIdx.foldl (fun (a : Int) x => a + x.1 * f - ((64 * (4096 + 400 * x.2) * 40000000 : Nat) : Int)) 0
  roundDiv (c * 4096 * f + sign * sum) (4096 * f)

/-- The mean point of a charge over the channels measured: AMP, crossing time (R457). -/
def walkPoint (chans : List (List (Nat × Int))) (j : Nat) : Nat × Int :=
  let l := chans.filterMap fun x => x[j]?
  let n := 256 * l.length
  ((meanOf ((l.foldl (fun (a : Nat) x => a + x.1) 0 : Nat) : Int) n).toNat, meanOf (l.foldl (fun a x => a + x.2) 0) n)

/-- The mean time at amplitude `amp`, interpolated between two measured points; none outside them. -/
def walkAt (points : List (Nat × Int)) (amp : Nat) : Option Int :=
  match points with
  | [] => none
  | [(a, t)] => if amp = a then some t else none
  | (a, t) :: (b, u) :: rest =>
    if a ≤ amp && amp ≤ b then
      some (if a = b then t else t + roundDiv ((u - t) * ((amp - a : Nat) : Int)) (b - a))
    else walkAt ((b, u) :: rest) amp

/-- The walk table (R457): entries 4-63 at AMP = 64 i relative to entry 63, the nearest to 32 fC; entries 0-3 are entry 4, the first
above the threshold (08_ox_engine_programming.md, "The walk table"). An entry outside the points has no stated value: an open one. -/
def Hub.walkTable (h : Hub) (points : List (Nat × Int)) : List Nat × Hub :=
  let base := walkAt points (64 * 63)
  let r := (upto 60).foldl (fun (acc : List Nat × Hub) i =>
    match walkAt points (64 * (i + 4)), base with
    | some t, some b => (acc.1 ++ [field 16 (satS 16 (t - b))], acc.2)
    | _, _ => (acc.1 ++ [acc.2.openValue.toNat % 65536], acc.2.tookOpen)) ([], h)
  (List.replicate 4 (r.1.headD 0) ++ r.1, r.2)

/-- Open points from the zero offset outwards: those without a disagreement, up to the first with one (R459). -/
def openRun (l : List Nat) : Nat := (l.takeWhile fun n => n == 0).length

/-- Eye width: the open phase steps at zero offset, in UI/64 (R459). -/
def eyeWidth (x : EyeScan) : Nat := (x.phases.filter fun p => p.1.head? == some 0).length

/-- Eye height: at the best phase, the span from the lowest to the highest open offset, in mV, in steps of 5 mV (R459). -/
def eyeHeight (x : EyeScan) : Nat :=
  x.phases.foldl (fun m p => max m (if openRun p.1 = 0 then 0 else 5 * (openRun p.1 - 1 + openRun p.2))) 0

/-- Product of eye width and height; the best CTLE is the lowest with the largest product (R458). -/
def bestEye (eyes : List (Nat × Nat)) : Nat :=
  (eyes.zipIdx.foldl (fun (b : Nat × Nat) e => if b.2 < e.1.1 * e.1.2 then (e.2, e.1.1 * e.1.2) else b) (0, 0)).1

/-- The nearest integer to the square root of `sum / n` (R5). -/
def rmsOf (sum n : Nat) : Nat := if n = 0 then 0 else (isqrt (4 * sum / n) + 1) / 2

/-! ### Starting and stopping (R448, R452, R458) -/

/-- Whether LANE_RX is accepted for a lane (R458). -/
def Hub.laneRxOk (h : Hub) (l : Nat) : Bool :=
  l < 24 &&
    ((!h.flag F.LN_STAT_FENCED l && (h.role l == roleOff || h.role l == roleSpare)) ||
      (h.mode == mSetup && (h.role l == roleParent || h.role l == roleChild) && !h.flag F.LN_STAT_FENCED l &&
        (upto l).any fun k => h.role k == h.role l && h.lanePort k == h.lanePort l && !h.flag F.LN_STAT_FENCED k))

/-- A write to CAL_CMD with a PROC other than 0 (R448). -/
def Hub.calStart (h : Hub) (proc : Nat) (apply : Bool) (gmask : BitVec 16) (lane : Nat) : Hub :=
  let fits :=
    if proc = 0xA then h.laneRxOk lane
    else if proc = 0xB then decide (lane < 24)
    else if proc ≤ 9 || proc = 15 then h.mode == mCalibrate
    else false
  if !h.flag F.CAL_STAT_BUSY 0 && fits then
    let part := if proc = 15 then 1 else proc
    let h := { h with cal := { h.cal with
      proc := proc, apply := apply, gmask := gmask, lane := lane, part := part, ticks := 0, fired := 0, counts := [], lost := []
      injg := [] } }
    let h := h.setWord A.CAL_STAT (F.CAL_STAT_PROC.put (F.CAL_STAT_REJ.put (F.CAL_STAT_BUSY.put 0 1) (h.fld F.CAL_STAT_REJ 0)) proc)
    -- channels that the engine feeds have no serving slot from here on (R451)
    if part ≤ 3 then forN 16 h fun g h => if gmask.getLsbD g then h.refixGroup g else h else h
  else h.setFld F.CAL_STAT_REJ 0 1

/-- The running procedure stops and writes nothing (R452). -/
def Hub.calStop (h : Hub) : Hub :=
  if h.flag F.CAL_STAT_BUSY 0 then (h.setFld F.CAL_STAT_BUSY 0 0).setFld F.CAL_STAT_ABORTED 0 1 else h

/-- The hub leaves CALIBRATE: the running procedure stops (R452). -/
def Hub.calLeaves (h : Hub) : Hub := h.calStop

/-- A write to CAL_CMD. ABORT acts before PROC. -/
def Hub.calCmd (h : Hub) (v : W32) : Hub :=
  let h := if F.CAL_CMD_ABORT.get v = 1 then h.calStop else h
  let proc := F.CAL_CMD_PROC.get v
  if proc = 0 then h
  else h.calStart proc (F.CAL_CMD_APPLY.get v == 1) (BitVec.ofNat 16 (F.CAL_CMD_GMASK.get v)) (F.CAL_CMD_LANE.get v)

/-! ### Results (R452, R453) -/

/-- One more failed unit. -/
def Hub.calFail (h : Hub) : Hub :=
  (h.setFld F.CAL_STAT_FAIL 0 1).setFld F.CAL_STAT_NFAIL 0 (min 0xFFFF (h.fld F.CAL_STAT_NFAIL 0 + 1))

/-- A digitiser slot that misses a limit is counted and reported. -/
def Hub.slotFails (h : Hub) (p : Nat) : Hub := h.calFail.report (mkReport 0x31 (unitOf 5 p))

/-- A line that misses a limit is counted and reported (R120). -/
def Hub.lineFails (h : Hub) (p : Nat) (line : Bool) : Hub := h.calFail.report (mkReport 0x30 (unitOf (if line then 7 else 6) p))

/-- Whether a line is within the limits of R123: 1.5 ps, and 0.90 bin. -/
def lineOk (inl dnl : W8) : Bool := decide (inl.toNat * 1000 ≤ 1536) && decide (dnl.toNat ≤ 90)

/-- Group and procedure of a result, when it belongs to a group. -/
def resultOf (r : CalResult) : Nat × Option Nat × Option Nat :=
  match r with
  | .offset p .. => (1, some (p.val / 34), none)
  | .tdc p .. => (2, some (p.val / 34), none)
  | .phase p .. => (3, some (p.val / 34), none)
  | .inj c .. => (4, some (c.val / 32), none)
  | .gain c .. => (5, some (c.val / 32), none)
  | .ratio c .. => (6, some (c.val / 32), none)
  | .thresh c .. => (7, some (c.val / 32), none)
  | .timeofs c .. => (8, some (c.val / 32), none)
  | .walk g .. => (9, some g.val, none)
  | .laneRx l .. => (10, none, some l.val)
  | .eye l .. => (11, none, some l.val)

/-- Whether a result belongs to the running procedure; it has none of a slot that it has lost (R97). -/
def Hub.resultFits (h : Hub) (r : CalResult) : Bool :=
  let x := resultOf r
  let lost := match r with
    | .offset p .. | .tdc p .. | .phase p .. => h.cal.lost.contains p.val
    | _ => false
  (x.1 == h.cal.proc || (h.cal.proc == 15 && decide (x.1 ≤ 9))) && !lost &&
    (match x.2.1 with
     | some g => h.cal.gmask.getLsbD g
     | none => x.2.2 == some h.cal.lane)

/-- Writes a field of a word under its access code, when results are applied. -/
def Hub.calWrite (h : Hub) (f : Fld) (i v : Nat) : Hub :=
  if h.cal.apply then h.codeWrite (f.addr i) (f.put (h.word (f.addr i)) v) else h

/-- The scans of LANE_RX: the best CTLE and its eye are published; whether the eye meets its limits (R458). -/
def Hub.ctleScan (h : Hub) (l : Nat) (scans : List EyeScan) : Hub × Bool :=
  let eyes := (scans.take 16).map fun x => (eyeWidth x, eyeHeight x)
  let best := bestEye eyes
  let (w, e) := (eyes[best]?).getD (0, 0)
  (h.publish 2 l 0 (min 255 w + min 1023 e * 256 + best * 2 ^ 20), decide (24 ≤ w) && decide (40 ≤ e))

/-- A lane of the reserve pool that is being prepared has run LANE_RX itself: it takes the best CTLE (R459). -/
def Hub.poolScans (h : Hub) (r : CalResult) : Hub :=
  match r with
  | .laneRx l scans =>
    if h.rsv.preps.any fun p => p.kind == kLane && h.fld F.RS_LANE_LANE p.spare == l.val then
      let h := (h.ctleScan l.val scans).1
      let h := h.setFld F.LN_RX_CTLE l.val (h.qual 2 l.val 0 / 2 ^ 20 % 16)
      { h with rsv := { h.rsv with preps := h.rsv.preps.map fun p =>
          if p.kind = kLane && h.fld F.RS_LANE_LANE p.spare == l.val then { p with passed := true } else p } }
    else h
  | _ => h

/-- Publishes and applies one result. -/
def Hub.calResult (h : Hub) (r : CalResult) : Hub :=
  match r with
  | .offset p hg lg a bigA ok =>
    let h := (h.publish 0 p.val 5 (hg.toNat + lg.toNat * 65536)).publish 0 p.val 3 (a.toNat + bigA.toNat * 65536)
    let h := { h with rsv := { h.rsv with firstA := match Store.get (fun _ => none) h.rsv.firstA p.val with
      | some _ => h.rsv.firstA
      | none => Store.set (fun _ => (none : Option (BitVec 16))) h.rsv.firstA p.val (some a) } }
    if ok then (h.calWrite F.ADC_OFS_OFS_HG p.val hg.toNat).calWrite F.ADC_OFS_OFS_LG p.val lg.toNat else h.slotFails p.val
  | .tdc p line counts meanErr trim inl dnl =>
    let ok := lineOk inl dnl
    let h := h.publish 0 p.val (b2n line) (inl.toNat + dnl.toNat * 256 + trim.toNat * 65536 + b2n ok * 2 ^ 24)
    if ok then (if h.cal.apply then h.writeLine p.val line counts meanErr else h) else h.lineFails p.val line
  | .phase p late0 late1 resid =>
    let (tap, fine) := h.phaseOf late0 late1
    let h := h.publish 0 p.val 2 (field 8 (satS 8 resid) + tap * 256 + field 8 (satS 8 fine) * 65536)
    if fine.natAbs ≤ 50 && resid.natAbs ≤ 24 then
      (h.calWrite F.ADC_PHASE_TAP p.val tap).calWrite F.ADC_PHASE_FINE p.val (field 8 (satS 8 fine))
    else h.slotFails p.val
  | .inj c own ref qref =>
    let (injg, h) : Nat × Hub :=
      if ref = 0 then (h.openValue.toNat % 65536, h.tookOpen)
      else (satU 16 (roundDiv ((own * qref.toNat * 16384 : Nat) : Int) (ref * 5120)), h)
    let h := (h.publishHalf 1 c.val 1 true injg).publish 3 (c.val / 32) 32 qref.toNat
    if 97 * 16384 ≤ 100 * injg && 100 * injg ≤ 103 * 16384 then h else h.calFail
  | .gain c peak =>
    match h.servingSlot c.val with
    | none => h
    | some p =>
      let (g, h) := h.scaled (h.fld F.ADC_GHG_GAIN p) (h.qual 3 (c.val / 32) 32 % 65536 * 128) peak
      (h.publish 0 p 6 g).calWrite F.ADC_GHG_GAIN p g
  | .ratio c hg lg resid =>
    match h.servingSlot c.val with
    | none => h
    | some p =>
      let (g, h) := h.scaled (h.fld F.ADC_GLG_GAIN p) hg lg
      let h := (h.publish 0 p 7 g).publish 1 c.val 3 (field 16 (satS 16 resid))
      if resid.natAbs ≤ 200 then h.calWrite F.ADC_GLG_GAIN p g else h.slotFails p
  | .thresh c =>
    let (noise, h) := h.noiseFigure c.val
    let (kept, h) := match h.firstG50 c.val with
      | some g => h.trimKept c.val g
      | none => (none, h)
    match kept with
    | none => (h.publishHalf 1 c.val 0 true noise).calFail
    | some (t, res) =>
      let h := h.publish 1 c.val 0 (field 16 (satS 16 (roundDiv res 16)) + noise * 65536)
      (h.publishHalf 1 c.val 1 false (field 6 t)).calWrite F.FE_THR_TRIM c.val (field 6 t)
  | .timeofs c times centroids =>
    let half : Int := (h.slotLen18 / 512 : Nat)
    let ofs := field 16 (clamp (-12800) 12799 (h.delayMean (h.sfld F.CAL_REF_TREF 0) (-1) times))
    let ph := field 16 (clamp (512 - half) (half - 513)
      (h.delayMean (-(Config.shaperCentroid + h.sfld F.CAL_REF_PREF 0)) 1 centroids))
    let h := h.publish 1 c.val 2 (ofs + ph * 65536)
    (h.calWrite F.TDC_OFS_OFS c.val ofs).calWrite F.CH_PHOFS_PHOFS c.val ph
  | .walk g chans =>
    let (t, h) := h.walkTable ((upto 16).map (walkPoint chans))
    forN 32 h fun w h => h.publish 3 g.val w ((t[2 * w]?).getD 0 + (t[2 * w + 1]?).getD 0 * 65536)
  | .laneRx l scans =>
    let (h, good) := h.ctleScan l.val scans
    if good then h.calWrite F.LN_RX_CTLE l.val (h.qual 2 l.val 0 / 2 ^ 20 % 16) else h.calFail
  | .eye l scan =>
    let h := h.publish 2 l.val 0 (min 255 (eyeWidth scan) + min 1023 (eyeHeight scan) * 256 + h.qual 2 l.val 0 / 2 ^ 20 * 2 ^ 20)
    if 24 ≤ eyeWidth scan && 40 ≤ eyeHeight scan then h else h.calFail

/-- The summaries over serving units (15_calibration.md, "Hub summaries"), of the kinds that this procedure measured. -/
def Hub.calSummaries (h : Hub) (results : List CalResult) : Hub :=
  let serves (p : Nat) : Bool := (h.channelOf p).isSome
  let tdc := results.filterMap fun r => match r with
    | .tdc p line _ _ _ inl dnl =>
      if serves p.val && h.flag F.RS_DSLOT_LINE p.val == line then some (inl.toNat, dnl.toNat) else none
    | _ => none
  let thr := results.filterMap fun r => match r with
    | .thresh c =>
      if (h.servingSlot c.val).isSome && (h.firstG50 c.val).isSome then some (signed 16 (h.qual 1 c.val 0)).natAbs else none
    | _ => none
  let ph := results.filterMap fun r => match r with
    | .phase p _ _ resid => if serves p.val then some resid.natAbs else none
    | _ => none
  let ratio := results.filterMap fun r => match r with
    | .ratio c _ _ resid => if (h.servingSlot c.val).isSome then some resid.natAbs else none
    | _ => none
  let top (l : List Nat) : Nat := l.foldl max 0
  let squares (l : List Nat) : Nat := l.foldl (fun (a x : Nat) => a + x * x) 0
  let h := if tdc.isEmpty then h else
    (h.setFld F.CAL_QTDC_INLMAX 0 (top (tdc.map (·.1)))).setFld F.CAL_QTDC_DNLMAX 0 (top (tdc.map (·.2)))
  let h := if thr.isEmpty then h else
    (h.setFld F.CAL_QTHR_RMS 0 (rmsOf (squares thr) thr.length)).setFld F.CAL_QTHR_MAXABS 0 (top thr)
  let h := if ph.isEmpty then h else h.setFld F.CAL_QPH_RMS 0 (min 255 (rmsOf (squares ph) ph.length))
  let h := if ratio.isEmpty then h else h.setFld F.CAL_QGAIN_MAX 0 (min 0xFFFF (top ratio))
  if h.cal.proc = 0xA || h.cal.proc = 0xB then
    let eyes := ((upto 24).filter fun l => h.role l == roleParent || h.role l == roleChild || h.role l == roleTwin).filterMap fun l =>
      if h.qual 2 l 0 = 0 then none else some (h.qual 2 l 0)
    match eyes with
    | [] => h
    | e :: rest =>
      (h.setFld F.CAL_QLANE_EYEW 0 (rest.foldl (fun (m x : Nat) => min m (bits x 7 0)) (bits e 7 0))).setFld F.CAL_QLANE_EYEH 0
        (rest.foldl (fun (m x : Nat) => min m (bits x 17 8)) (bits e 17 8))
  else h

/-- A procedure ends: it publishes its figures and, with APPLY, writes its results (R452, R453). Scans of a lane of the reserve pool are
the pool's own. -/
def Hub.calEnds (h : Hub) (results : List CalResult) : Hub :=
  let h := each results h fun r h => h.poolScans r
  if h.flag F.CAL_STAT_BUSY 0 then
    let l := results.filter h.resultFits
    let h := each l h fun r h => h.calResult r
    let h := h.calSummaries l
    (h.setFld F.CAL_STAT_BUSY 0 0).setFld F.CAL_STAT_DONE 0 1
  else h

/-! ### Rolling recalibration (R461-R464) -/

/-- The constants of digitiser slot `s` after a self phase, against those of slot `ref` that serves the channel when it holds
a and A, else its own (R461 step 1, R497). -/
def Hub.selfWrite (h : Hub) (s : Nat) (ref : Option Nat) (a bigA : BitVec 16) (c0 c1 : List Nat) (m0 m1 l0 l1 : Int) : Hub :=
  let held (p : Nat) : Bool := (Store.get (fun _ => none) h.rsv.firstA p).isSome
  let h := match ref with
    | none => h
    | some p =>
      if !held p then h
      else
        let ap := signed 16 (h.qual 0 p 3 % 65536)
        let bigP := h.qual 0 p 3 / 65536
        let d := signed 16 a.toNat - ap
        let h := h.setS F.ADC_OFS_OFS_HG s (satS 16 (h.sfld F.ADC_OFS_OFS_HG p + d))
        let h := h.setS F.ADC_OFS_OFS_LG s (satS 16 (h.sfld F.ADC_OFS_OFS_LG p + d))
        let (ghg, h) := h.scaled (h.fld F.ADC_GHG_GAIN p) bigP bigA.toNat
        let (glg, h) := h.scaled (h.fld F.ADC_GLG_GAIN p) bigP bigA.toNat
        ((h.setFld F.ADC_GHG_GAIN s ghg).setFld F.ADC_GLG_GAIN s glg)
  let h := (h.writeLine s false c0 m0).writeLine s true c1 m1
  let (tap, fine) := h.phaseOf l0 l1
  let h := h.setWord (F.ADC_PHASE_TAP.addr s) (phaseWord tap fine)
  let h := h.publish 0 s 3 (a.toNat + bigA.toNat * 65536)
  if held s then h
  else { h with rsv := { h.rsv with firstA := Store.set (fun _ => (none : Option (BitVec 16))) h.rsv.firstA s (some a) } }

/-- The rounded mean TOA difference is added to both line offsets of a slot (R461 step 2). -/
def Hub.addLineOfs (h : Hub) (s : Nat) (d : Int) : Hub :=
  let one (h : Hub) (line : Bool) : Hub :=
    h.setBank (lineOfsKey s line) (BitVec.ofNat 32 (field 10 (satS 10 (signed 10 (h.bankWord (lineOfsKey s line)).toNat + d))))
  one (one h false) true

/-- The channels of a group in ascending order from the one whose turn it is: the first that its home slot serves. -/
def Hub.rollChannel (h : Hub) (g : Nat) : Option Nat :=
  let k0 := Store.get (fun _ => 0) h.cal.rollNext g
  ((upto 32).map fun i => 32 * g + (k0 + i) % 32).find? fun c => h.servingSlot c == some (34 * g + c % 32)

/-- The conditions of R461 for a group. -/
def Hub.rollMay (h : Hub) (g : Nat) : Bool :=
  h.taking && bit (h.fld F.CAL_ROLL_GMASK 0) g &&
    !(h.channelOf (34 * g + 32)).isSome && !(h.channelOf (34 * g + 33)).isSome &&
    (upto 32).all (fun k => match h.servingSlot (32 * g + k) with
      | some p => (Store.get (fun _ => none) h.rsv.firstA p).isSome
      | none => true) &&
    !(h.rsv.preps.any fun p => p.kind == kDslot && p.unit / 32 == g)

/-- A round trip starts in a group where R461 holds and none runs. The spec lets the next channel take the same or the other
spare: an open value chooses among the free ones. -/
def Hub.rollStart (h : Hub) (g : Nat) : Hub :=
  if h.rollMay g && (h.rollOf g).isNone then
    let free := [32, 33].filter fun s =>
      let p := 34 * g + s
      h.fld F.RS_DSLOT_STATE p == 0 && !h.flag F.RS_DSLOT_FENCED p && !h.flag F.RS_DSLOT_RETIRED p
    match h.rollChannel g, free with
    | none, _ => h
    | some _, [] => h
    | some c, s :: rest =>
      let l := s :: rest
      let pick := (l[h.openValue.toNat % l.length]?).getD s
      let h := if rest.isEmpty then h else h.tookOpen
      (h.setRoll g (some { ch := c, home := c % 32, spare := pick, stage := 1 })).setFld F.RS_DSLOT_STATE (34 * g + pick) 2
  else h

/-- An orbit boundary of rolling recalibration: the stages in progress count it, and round trips start. -/
def Hub.rollOrbit (h : Hub) : Hub :=
  if h.taking then
    forN 16 h fun g h =>
      match h.rollOf g with
      | some r => h.setRoll g (some { r with orbits := r.orbits + 1 })
      | none => h.rollStart g
  else h

/-- A shadow phase has compared for one orbit more. -/
def Compared.more (x : Compared) (hits : Nat) (toa : Int) (samples : Nat) (amp : Int) : Compared :=
  { orbits := x.orbits + 1, hits := x.hits + hits, toa := x.toa + toa, samples := x.samples + samples, amp := x.amp + amp }

/-- The correction that a comparison asks for: the rounded mean TOA difference (R461). -/
def Compared.toaMean (x : Compared) : Int := meanOf x.toa x.hits

/-- The comparison is within the limits of R462: a correction of at most 16 units, and a mean stage A difference of at most 8 counts. -/
def Compared.within (x : Compared) : Bool := decide (x.toaMean.natAbs ≤ 16) && decide (x.amp.natAbs ≤ 8 * x.samples)

/-- A round trip fails (R462): its channel stays, and the slot under test is reported. -/
def Hub.rollFails (h : Hub) (g : Nat) (r : Roll) : Hub :=
  let p := 34 * g + r.tested
  (((h.endRoll g).setFld F.RS_DSLOT_STATE p 2).bump F.CAL_ROLLFAIL_COUNT 0).report (mkReport 0x31 (unitOf 5 p))

/-- Channel `c` moves to slot `s` of its group within a round trip; the slot it leaves is the one tested next (R461 steps 3
and 5). -/
def Hub.rollMove (h : Hub) (c s : Nat) (left : Nat) : Hub :=
  let g := c / 32
  let old := h.fld F.RS_CHMAP_SERVE c
  let h := (({ h with rsv := { h.rsv with moved := g :: h.rsv.moved } }).setFld F.RS_CHMAP_SHADOW c 0x3F).serve c s
  ((h.setFld F.RS_DSLOT_STATE (34 * g + s) 1).setFld F.RS_DSLOT_STATE (34 * g + old) left).refix c

/-- The stage of a round trip has its result. A self phase ends at an orbit boundary after SELFORB orbits, a shadow phase after the orbit
in which 64 hits have been compared and at most 8 orbits. A limit that the self phase missed fails the round trip in the shadow phase
(R462). -/
def Hub.rollStage (h : Hub) (g : Nat) (r : Roll) (res : RollResult) : Hub :=
  let p := 34 * g + r.tested
  let next (h : Hub) (n : Nat) (bad : Bool) : Hub := h.setRoll g (some { r with stage := n, orbits := 0, bad := bad, seen := {} })
  match res with
  | .selfPhase a bigA c0 c1 m0 m1 l0 l1 ok =>
    if r.stage = 2 || r.stage = 5 then h
    else if h.atOrbit && h.fld F.CAL_ROLL_SELFORB 0 ≤ r.orbits then
      let ref := if r.stage = 1 then 34 * g + r.home else 34 * g + r.spare
      let h := h.selfWrite p (some ref) a bigA c0 c1 m0 m1 l0 l1
      next (h.setFld F.RS_CHMAP_SHADOW r.ch r.tested) (r.stage + 1) (!ok)
    else h
  | .shadow hits toa samples amp =>
    let seen := r.seen.more hits toa samples amp
    if !(r.stage = 2 || r.stage = 5) then h
    else if r.bad then h.rollFails g r
    else if h.atOrbit && 1 ≤ r.orbits && (64 ≤ seen.hits || 8 ≤ r.orbits) then
      if !seen.within then h.rollFails g r
      else
        let h := h.addLineOfs p seen.toaMean
        if r.stage = 2 then next (h.rollMove r.ch r.spare 2) 4 false
        else
          let h := (h.rollMove r.ch r.home 0).setRoll g none
          let h := { h with cal := { h.cal with rollNext := Store.set (fun _ => 0) h.cal.rollNext g ((r.home + 1) % 32) } }
          (h.bump F.CAL_ROLLDONE_COUNT 0).rollStart g
    else h.setRoll g (some { r with seen := seen })

/-- The result of a stage of the reserve manager's preparation of a digitiser slot (R497): its self phase, and for a preventive
bring-in the shadow comparison. -/
def Hub.prepStage (h : Hub) (g : Nat) (p : Prep) (res : RollResult) : Hub :=
  let s := 34 * g + p.spare
  let fail : Hub := (if p.reactive then h else h.dropPrep p).report (mkReport 0x31 (unitOf 5 s))
  match res with
  | .selfPhase a bigA c0 c1 m0 m1 l0 l1 ok =>
    if !ok then fail
    else
      let ref := match h.servingSlot p.unit with
        | some q => some q
        | none => (h.goose.jobs.find? fun j => j.2 == p.unit).map fun j => j.1 % 1024
      let h := { h with rsv := { h.rsv with preps := h.rsv.preps.map fun q => if q == p then { q with selfDone := true } else q } }
      h.selfWrite s ref a bigA c0 c1 m0 m1 l0 l1
  | .shadow hits toa samples amp =>
    if p.reactive || p.passed then h
    else
      let seen := p.seen.more hits toa samples amp
      let enough := decide (64 ≤ seen.hits) || decide (8 ≤ seen.orbits)
      if enough && !seen.within then fail
      else
        let h := { h with rsv := { h.rsv with preps := h.rsv.preps.map fun q =>
          if q == p then { q with seen := seen, passed := enough } else q } }
        if enough then h.addLineOfs s seen.toaMean else h

/-- The preparation in group `g` whose stage a result is of (R497): a self phase that has run its orbits, or behind it a shadow phase. -/
def Hub.prepFor (h : Hub) (g : Nat) (res : RollResult) : Option Prep :=
  h.rsv.preps.find? fun p => p.kind == kDslot && p.unit / 32 == g && (match res with
    | .selfPhase .. => decide (p.left ≤ 1) && !p.selfDone
    | .shadow .. => p.left == 0 && p.selfDone)

/-- The result of a stage in group `g`: of its round trip, or of a preparation of one of its spares. A round trip in a group of which the
reserve manager has claimed a slot goes no further (R463). -/
def Hub.rolled (h : Hub) (g : Nat) (res : RollResult) : Hub :=
  match h.rollOf g with
  | some r =>
    if h.taking && !(h.rsv.preps.any fun p => p.kind == kDslot && p.unit / 32 == g) then h.rollStage g r res else h
  | none =>
    match h.prepFor g res with
    | some p => if h.mode = mHold then h else h.prepStage g p res
    | none => h

/-- The running modes end: round trips pause, and a shadow phase counts its comparisons from zero when it resumes (R464). -/
def Hub.rollRestart (h : Hub) : Hub :=
  forN 16 h fun g h =>
    match h.rollOf g with
    | some r => h.setRoll g (some { r with seen := {} })
    | none => h

/-! ### The crystal and the path delays (R446, R460) -/

/-- A crystal measurement ends: its figure is published while the root PLL is locked to the recovered clock. -/
def Hub.xoMeasured (h : Hub) (ppm : BitVec 16) : Hub :=
  if h.flag F.RT_CLK_LOCK 0 && !h.crystalRef then (h.setFld F.CAL_XO_PPM 0 ppm.toNat).setFld F.CAL_XO_VALID 0 1
  else h.setFld F.CAL_XO_VALID 0 0

/-- CAL_XO.VALID goes with the lock and the reference (R446). -/
def Hub.refreshXo (h : Hub) : Hub :=
  if h.flag F.RT_CLK_LOCK 0 && !h.crystalRef then h else h.setFld F.CAL_XO_VALID 0 0

/-- The path delays of a lane have been measured (R460). -/
def Hub.pathDelay (h : Hub) (l : Nat) (tx rx : BitVec 16) (deskew : W8) : Hub :=
  if h.role l = roleOff then h else (h.publish 2 l 1 (tx.toNat + rx.toNat * 65536)).publish 2 l 2 deskew.toNat

/-! ### Commands -/

/-- CAL_OFFSET. PROC 1h (R448). -/
def execCalOffset (gmask : BitVec 16) (apply : Bool) (s : State) : Host.Outcome State Fault Refusal :=
  .next { s with hub := s.hub.awake (s.hub.calStart 1 apply gmask 0) }

/-- CAL_TDC. PROC 2h (R448). -/
def execCalTdc (gmask : BitVec 16) (apply : Bool) (s : State) : Host.Outcome State Fault Refusal :=
  .next { s with hub := s.hub.awake (s.hub.calStart 2 apply gmask 0) }

/-- CAL_PHASE. PROC 3h (R448). -/
def execCalPhase (gmask : BitVec 16) (apply : Bool) (s : State) : Host.Outcome State Fault Refusal :=
  .next { s with hub := s.hub.awake (s.hub.calStart 3 apply gmask 0) }

/-- CAL_INJ. PROC 4h (R448). -/
def execCalInj (gmask : BitVec 16) (apply : Bool) (s : State) : Host.Outcome State Fault Refusal :=
  .next { s with hub := s.hub.awake (s.hub.calStart 4 apply gmask 0) }

/-- CAL_GAIN. PROC 5h (R448). -/
def execCalGain (gmask : BitVec 16) (apply : Bool) (s : State) : Host.Outcome State Fault Refusal :=
  .next { s with hub := s.hub.awake (s.hub.calStart 5 apply gmask 0) }

/-- CAL_RATIO. PROC 6h (R448). -/
def execCalRatio (gmask : BitVec 16) (apply : Bool) (s : State) : Host.Outcome State Fault Refusal :=
  .next { s with hub := s.hub.awake (s.hub.calStart 6 apply gmask 0) }

/-- CAL_THRESH. PROC 7h (R448, R454). -/
def execCalThresh (gmask : BitVec 16) (apply : Bool) (s : State) : Host.Outcome State Fault Refusal :=
  .next { s with hub := s.hub.awake (s.hub.calStart 7 apply gmask 0) }

/-- CAL_TIMEOFS. PROC 8h (R448, R456). -/
def execCalTimeofs (gmask : BitVec 16) (apply : Bool) (s : State) : Host.Outcome State Fault Refusal :=
  .next { s with hub := s.hub.awake (s.hub.calStart 8 apply gmask 0) }

/-- CAL_WALK. PROC 9h (R448, R457). -/
def execCalWalk (gmask : BitVec 16) (apply : Bool) (s : State) : Host.Outcome State Fault Refusal :=
  .next { s with hub := s.hub.awake (s.hub.calStart 9 apply gmask 0) }

/-- CAL_LANE_RX. PROC Ah on a lane (R458). -/
def execCalLaneRx (l : Fin 24) (apply : Bool) (s : State) : Host.Outcome State Fault Refusal :=
  .next { s with hub := s.hub.awake (s.hub.calStart 10 apply 0 l.val) }

/-- CAL_EYE. PROC Bh on a lane (R459). -/
def execCalEye (l : Fin 24) (apply : Bool) (s : State) : Host.Outcome State Fault Refusal :=
  .next { s with hub := s.hub.awake (s.hub.calStart 11 apply 0 l.val) }

/-- CAL_ALL. PROC Fh: procedures 1h-9h in order (R448). -/
def execCalAll (gmask : BitVec 16) (apply : Bool) (s : State) : Host.Outcome State Fault Refusal :=
  .next { s with hub := s.hub.awake (s.hub.calStart 15 apply gmask 0) }

/-- CAL_ABORT. Writing 1 to CAL_CMD.ABORT (R452). -/
def execCalAbort (s : State) : Host.Outcome State Fault Refusal := .next { s with hub := s.hub.calStop }

/-- CAL_APPLY. The running procedure ends with these results at one slot boundary (R452, R453). -/
def execCalApply (results : List CalResult) (s : State) : Host.Outcome State Fault Refusal :=
  goesOn s (s.hub.calEnds results)

/-- XO_MEASURE. A measurement of the crystal in use ends (R446). -/
def execXoMeasure (ppm : BitVec 16) (s : State) : Host.Outcome State Fault Refusal :=
  .next { s with hub := s.hub.awake (s.hub.xoMeasured ppm) }

/-- PATH_DELAY_MEASURE. The path delays of a lane are measured (R460). -/
def execPathDelayMeasure (l : Fin 24) (tx rx : BitVec 16) (deskew : W8) (s : State) : Host.Outcome State Fault Refusal :=
  .next { s with hub := s.hub.awake (s.hub.pathDelay l.val tx rx deskew) }

/-- ROLLING_RECAL. A stage of a round trip of a group ends (R461, R462). -/
def execRollingRecal (g : Fin 16) (r : RollResult) (s : State) : Host.Outcome State Fault Refusal :=
  goesOn s ((s.hub.rolled g.val r).refreshDegr)

end Sys2Proof.Machine
end

