-- ==== Sys2Proof/Machine/Wear.lean ====
section
/-! DEFINITION. The wear metrics of the reserve manager (17_reserve_and_wear.md, "Wear metrics"). -/

namespace Sys2Proof.Machine

/-- Metric `b` of a unit was evaluated (R487, R493): when it reaches its threshold anew it sets its bit, with RESERVE when
the bit becomes 1. Answers whether it was reached. -/
def Hub.metric (h : Hub) (b unit : Nat) (now : Bool) : Hub × Bool :=
  let was := decide ((b, unit) ∈ h.rsv.reached)
  if now && !was then
    let h := { h with rsv := { h.rsv with reached := (b, unit) :: h.rsv.reached } }
    let wear := h.fld F.RS_WEAR_WEAR 0
    (if bit wear b then h else (h.setFld F.RS_WEAR_WEAR 0 (wear + 2 ^ b)).attn aReserve, true)
  else if !now && was then
    ({ h with rsv := { h.rsv with reached := h.rsv.reached.filter fun x => !(x == (b, unit)) } }, false)
  else (h, false)

/-- The tracking entries of one memory after a corrected error in a row (R492): an entry expires after 2^24 slots without an
error, and with 8 rows tracked the oldest last error gives way. Answers the errors of the row. -/
def Hub.trackRow (h : Hub) (mem row : Nat) : Hub × Nat :=
  let live := h.rsv.rows.filter fun (e : Nat × Nat × Nat × W48) => slotsFrom e.2.2.2 h.slot < 2 ^ 24
  let (mine, others) := live.partition fun (e : Nat × Nat × Nat × W48) => e.1 == mem
  let n := match mine.find? fun (e : Nat × Nat × Nat × W48) => e.2.1 == row with
    | some e => e.2.2.1 + 1
    | none => 1
  let rest := mine.filter fun (e : Nat × Nat × Nat × W48) => !(e.2.1 == row)
  let oldest := rest.foldl (fun (m : Nat) (e : Nat × Nat × Nat × W48) => max m (slotsFrom e.2.2.2 h.slot)) 0
  let rest := if rest.length < 8 then rest
    else match rest.find? fun (e : Nat × Nat × Nat × W48) => slotsFrom e.2.2.2 h.slot == oldest with
      | some e => rest.erase e
      | none => rest
  ({ h with rsv := { h.rsv with rows := others ++ rest ++ [(mem, row, n, h.slot)] } }, n)

/-- DOSE: the frequency loss of an oscillator in 0.01%. A reference of 0 is replaced by the first measurement. -/
def Hub.wearDose (h : Hub) (i periods : Nat) : Hub :=
  let h := if h.fld F.RS_DOSEREF_REF i = 0 then h.setFld F.RS_DOSEREF_REF i periods else h
  let ref := h.fld F.RS_DOSEREF_REF i
  let h := if ref = 0 then h else
    h.setFld F.RS_DOSE_SHIFT i (satU 16 (roundDiv (((ref : Int) - periods) * 10000) ref))
  (h.metric 0 0 ((upto 8).any fun k => decide (h.fld F.RS_THR_DOSE 0 ≤ h.fld F.RS_DOSE_SHIFT k))).1

/-- LEAK: the current of a leakage monitor. -/
def Hub.wearLeak (h : Hub) (j curr : Nat) : Hub :=
  let h := h.setFld F.RS_LEAK_CURR j curr
  (h.metric 1 0 ((upto 4).any fun k => decide (h.fld F.RS_THR_LEAK 0 * 10 ≤ h.fld F.RS_LEAK_CURR k))).1

/-- FELEAK: the number of channels with FE_STAT.LEAK at 1. -/
def Hub.wearFeleak (h : Hub) : Hub :=
  let n := ((upto 512).filter fun c => h.flag F.FE_STAT_LEAK c).length
  (h.metric 2 0 (decide (h.fld F.RS_THR_FELEAK 0 ≤ n))).1

/-- ROW: a corrected error in a row of a memory. -/
def Hub.wearRow (h : Hub) (mem row : Nat) : Hub :=
  let (h, n) := h.trackRow mem row
  let (h, anew) := h.metric 3 (mem * 65536 + row) (decide (h.fld F.RS_POLICY_ROWCOR 0 ≤ n))
  if anew && h.preventive kRow && (h.rowEntry mem row).isNone then h.preventPrep kRow (mem * 65536 + row) else h

/-- TDC: a calibration of a line. At the second in a row that meets the condition the lines are exchanged under R120, when the
measured line is active and the standby line meets neither condition. -/
def Hub.wearTdc (h : Hub) (p : Nat) (line : Bool) (trim : Nat) (inlHigh : Bool) : Hub :=
  let near := trim ≤ 4 || 59 ≤ trim || inlHigh
  let was := decide ((p, line) ∈ h.rsv.tdcNear)
  let others := h.rsv.tdcNear.filter fun (x : Nat × Bool) => !(x == (p, line))
  let h := { h with rsv := { h.rsv with tdcNear := if near then (p, line) :: others else others } }
  let (h, anew) := h.metric 4 (2 * p + b2n line) (near && was)
  let standbyBad := decide ((p, !line) ∈ h.rsv.tdcNear) || (if line then h.flag F.RS_DSLOT_L0F p else h.flag F.RS_DSLOT_L1F p)
  if anew && h.preventive kLine && h.flag F.RS_DSLOT_LINE p == line && !standbyBad then
    h.report (mkReport 0x30 (unitOf (if line then 7 else 6) p))
  else h

/-- DSLOT: a(p) at a rolling self phase, against its first value since reset, in s16.4 codes. A slot that serves a channel gives way to
a spare that is prepared; a home slot under test in a round trip retires at once, its channel staying with the spare that serves it,
and a spare under test leaves the pool (R487). -/
def Hub.wearDslot (h : Hub) (p : Nat) (a : BitVec 16) : Hub :=
  let first := match Store.get (fun _ => none) h.rsv.firstA p with
    | some f => f
    | none => a
  let h := { h with rsv := { h.rsv with firstA := Store.set (fun _ => (none : Option (BitVec 16))) h.rsv.firstA p (some first) } }
  let drift := (a.toInt - first.toInt).natAbs
  let (h, anew) := h.metric 5 p (decide (h.fld F.RS_POLICY_ADRIFT 0 < drift))
  let g := p / 34
  if !(anew && h.preventive kDslot) then h
  else match h.channelOf p with
    | some c => if h.keepsSpares g then h.preventPrep kDslot c else h
    | none =>
      if (h.rollOf g).any (fun r => r.tested == p % 34) && decide (h.fld F.RS_POLICY_KEEPD 0 ≤ h.freeDslots g) then
        let h := (h.endRoll g).retireDslot p
        if p % 34 < 32 then h.broughtIn false else h
      else h

/-- EYE: the eye height of a lane in force, in mV. A lane to be retired gets no new record (R501). -/
def Hub.wearEye (h : Hub) (l height : Nat) : Hub :=
  let r := h.role l
  if r = roleParent || r = roleChild || r = roleTwin then
    let (h, anew) := h.metric 6 l (decide (height < 2 * h.fld F.RS_POLICY_EYEMIN 0))
    if anew && h.preventive kLane && r != roleTwin && (h.freeSpare kLane l).isSome then
      (h.preventPrep kLane l).setLane l { h.lane l with retiring := true }
    else h
  else h

/-- OXMEM: a corrected error in a memory of an engine. -/
def Hub.wearOxmem (h : Hub) (e : Nat) : Hub :=
  let live := (h.rsv.oxErrs.filter fun (x : Nat × W48) => slotsFrom x.2 h.slot < 2 ^ 24) ++ [(e, h.slot)]
  let h := { h with rsv := { h.rsv with oxErrs := live } }
  let n := (live.filter fun (x : Nat × W48) => x.1 == e).length
  let (h, anew) := h.metric 7 e (decide (16 ≤ n))
  if anew && h.preventive kOx && e < 16 then h.preventPrep kOx e else h

/-- One wear metric is evaluated, in every mode except HOLD (R492). -/
def Hub.wear (h : Hub) (m : WearInput) : Hub :=
  if h.mode = mHold then h
  else match m with
    | .dose i periods => h.wearDose i.val periods.toNat
    | .leak j curr => h.wearLeak j.val curr.toNat
    | .feleak => h.wearFeleak
    | .row mem row => h.wearRow mem.toNat row.toNat
    | .tdc p line trim inlHigh => h.wearTdc p.val line trim.toNat inlHigh
    | .dslot p a => h.wearDslot p.val a
    | .eye l height => h.wearEye l.val height
    | .oxmem e => h.wearOxmem e.val

/-- WEAR_EVALUATE. A wear metric is evaluated (R492). -/
def execWearEvaluate (m : WearInput) (s : State) : Host.Outcome State Fault Refusal := goesOn s (s.hub.awake (s.hub.wear m))

end Sys2Proof.Machine
end

