-- ==== Sys2Proof/Machine/Monitor.lean ====
section
/-! DEFINITION. The environmental monitor (19_environmental_monitor.md). An entry starts as the one before it ends; MON_STAT.PHASE
moves on at slot boundaries with the time since then (notes/assumptions/52.md). -/

namespace Sys2Proof.Machine

/-- An entry whose channel is a pin. -/
def monPin (w : W32) : Bool := decide (F.MON_SEQ_CHAN.get w < 0x18)

/-- A configuration error (R530): the pins lie beyond MON23, or CHAN or MODE is not assigned. -/
def monCfgErr (w : W32) : Bool :=
  let c := F.MON_SEQ_CHAN.get w
  let m := F.MON_SEQ_MODE.get w
  if monPin w then
    if m = 0 then false
    else if m = 1 then c % 2 == 1 || decide (0x17 < c + 1)
    else if m = 2 then decide (0x17 < c + 2)
    else if m = 3 then decide (0x17 < c + 3)
    else true
  else !(decide (0x20 ≤ c ∧ c ≤ 0x25) || decide (0x28 ≤ c ∧ c ≤ 0x2B) || decide (0x30 ≤ c ∧ c ≤ 0x38))

/-- Whether the switches of an entry make two conversions (R535): RES3 of a pin. -/
def monTwo (w : W32) : Bool := monPin w && F.MON_SEQ_MODE.get w == 2

/-- Whether R543 checks a current for an entry: REF is EXC, or MODE is RES3 or RES4. -/
def monCurrent (w : W32) : Bool := F.MON_SEQ_REF.get w == 0 || (monPin w && decide (2 ≤ F.MON_SEQ_MODE.get w))

/-- Puts the band state of an entry to IN (R542). -/
def Hub.bandIn (h : Hub) (e : Nat) : Hub := h.setFld F.MON_ESTAT_INBAND e 1

/-- The monitor is idle: no entry is in progress. -/
def Hub.monIdle (h : Hub) : Bool := h.fld F.MON_STAT_PHASE 0 == 0

/-- Looks for the next entry from `e` on, by fuel: entries that are not enabled are passed over and configuration errors
skipped (R528, R530). It starts the entry found; past the last one the pass is at its end. -/
def Hub.monSeek (fuel : Nat) (h : Hub) (e : Nat) : Hub :=
  match fuel with
  | 0 => h
  | k + 1 =>
    if h.mon.len ≤ e then { h.setFld F.MON_STAT_PHASE 0 0 with mon := { h.mon with due := true } }
    else
      let w := h.word (F.MON_SEQ_CHAN.addr e)
      if F.MON_SEQ_EN.get w = 0 then Hub.monSeek k h (e + 1)
      else if monCfgErr w then Hub.monSeek k ((h.setFld F.MON_ESTAT_CFGERR e 1).bandIn e) (e + 1)
      else
        let h := (h.setFld F.MON_ESTAT_CFGERR e 0).setFld F.MON_STAT_ENTRY 0 e
        { h.setFld F.MON_STAT_PHASE 0 1 with mon := { h.mon with entry := w, start := h.slot, excBad := false } }

/-- A pass starts at entry 0, with the LEN in force now. With no entry enabled in the range the monitor idles. -/
def Hub.monStart (h : Hub) : Hub :=
  let len := h.fld F.MON_CTL_LEN 0
  let h := { h with mon := { h.mon with len := len, due := false } }
  if (upto len).any fun e => h.flag F.MON_SEQ_EN e then Hub.monSeek 40 h 0 else h.setFld F.MON_STAT_PHASE 0 0

/-- Output rate that RATE names, in samples a second (R532); a RATE without a rate takes the slowest. -/
def monRate (rate : Nat) : Nat := ([10, 50, 60, 400, 2500][rate]?).getD 10

/-- Slots of one conversion: three output periods of 16 N slots, N = round(FREQ / (16 R)) (R532). -/
def Hub.monSlots (h : Hub) (w : W32) : Nat :=
  48 * (roundDiv (h.fld F.RT_BCFREQ_FREQ 0 : Nat) (16 * monRate (F.MON_SEQ_RATE.get w))).toNat

/-- Phase of an entry `n` slots after its start (R536): the times before the conversions are 40 slots a microsecond at every bunch clock
(R11). A conversion goes on until the entry ends. -/
def Hub.monPhase (h : Hub) (w : W32) (n : Nat) : Nat :=
  let discharged := 32 + 40 * (F.MON_SEQ_DIS.get w + 1)
  let pre := discharged + (if F.MON_SEQ_BRKCHK.get w = 1 && monPin w then 22000 else 2000)
  if n < 32 then 1
  else if n < discharged then 2
  else if n < pre then 3
  else if monTwo w && decide (pre + h.monSlots w ≤ n) then 5
  else 4

/-- The excitation does not deliver a current within the limits of R543: it is off, or draws less than 5 µA; it never draws more than
10 mA (R533). -/
def Hub.excOut (h : Hub) : Bool := !h.flag F.MON_EXC_EN 0 || decide (h.fld F.MON_EXC_CURR 0 < 5)

/-- From the pre-phase on the hub watches the excitation current (R543, R544). -/
def Hub.excWatch (h : Hub) : Hub :=
  if 3 ≤ h.fld F.MON_STAT_PHASE 0 && h.excOut then { h with mon := { h.mon with excBad := true } } else h

/-- The excitation current is measured continuously (R533): at each boundary the register shows an open value of at most 10 mA. -/
def Hub.excMeasure (h : Hub) : Hub :=
  if h.flag F.MON_EXC_EN 0 then (h.setFld F.MON_EXC_CURR 0 (h.openValue.toNat % 10001)).tookOpen else h

/-- The monitor at a slot boundary: MON_EXC.CURR, MON_STAT.PHASE, the watch on the excitation. -/
def Hub.monSlot (h : Hub) : Hub :=
  let h := h.excMeasure
  if h.monIdle then h else (h.setFld F.MON_STAT_PHASE 0 (h.monPhase h.mon.entry (slotsFrom h.mon.start h.slot))).excWatch

/-- An idle monitor that may run starts a pass. -/
def Hub.monWake (h : Hub) : Hub :=
  if h.flag F.MON_CTL_RUN 0 && h.monIdle && !h.mon.due then h.monStart else h

/-- V in 2^23 steps, before clamping (R531); a reference that is not positive has no stated result. -/
def monRaw (w : W32) (vin vref : Int) : Option Int :=
  let c := F.MON_SEQ_CHAN.get w
  let k : Nat := if 0x21 ≤ c && c ≤ 0x25 then 4 else 1
  if vref ≤ 0 then none else some (roundDiv (2 ^ 23 * 2 ^ F.MON_SEQ_GAIN.get w * vin) (k * vref.toNat))

/-- A conversion: clamped value, and whether it was clamped. -/
def Hub.monConvert (h : Hub) (w : W32) (vin vref : Int) : (Int × Bool) × Hub :=
  match monRaw w vin vref with
  | some x => ((clamp (-0x7FFFFF) 0x7FFFFE x, decide (0x7FFFFE < x) || decide (x < -0x7FFFFF)), h)
  | none => ((clamp (-0x7FFFFF) 0x7FFFFE (signed 24 h.openValue.toNat), h.openValue.getLsbD 24), h.tookOpen)

/-- A current that R543 checks for an entry has left its limits: the excitation 5 µA to 10.5 mA, and in RES3 and RES4 each compensation
current its compliance of 0 to 2.0 V. -/
def Hub.currentOut (h : Hub) (w : W32) (m : MonMeasure) : Bool :=
  monCurrent w && (h.mon.excBad || h.excOut || decide (m.excLow < 5) || decide (10500 < m.excHigh)
    || (monPin w && decide (2 ≤ F.MON_SEQ_MODE.get w) && (decide (m.compLow < 0) || decide (2000 < m.compHigh))))

/-- Cause of a BREAK (R543-R545): burn-out, a move of more than 25 mV; current; rail, for 16 modulator cycles. Where several hold the spec
names none of them: an open value chooses. -/
def Hub.monCause (h : Hub) (w : W32) (m : MonMeasure) : Nat × Hub :=
  let l := (if 25000 < m.moved && monPin w && F.MON_SEQ_BRKCHK.get w = 1 then [1] else [])
    ++ (if h.currentOut w m then [2] else []) ++ (if 16 ≤ m.railRun then [3] else [])
  match l with
  | [] => (0, h)
  | [c] => (c, h)
  | l => ((l[h.openValue.toNat % l.length]?).getD 1, h.tookOpen)

/-- An entry word of a MONITOR item (R547). -/
def Hub.monWord (h : Hub) (e : Nat) : W64 :=
  let r := h.word (F.MON_RES_VALUE.addr e)
  BitVec.ofNat 64 (e % 32 * 2 ^ 59 + F.MON_RES_BREAK.get r * 2 ^ 58 + F.MON_RES_OVR.get r * 2 ^ 57 + F.MON_RES_OUT.get r * 2 ^ 56
    + h.fld F.MON_ESTAT_CAUSE e * 2 ^ 48 + (Store.get (fun _ => 0) h.mon.tags e).toNat * 2 ^ 24 + F.MON_RES_VALUE.get r)

/-- A MONITOR item into Q30: header, word 1, entry words (R547). -/
def Hub.monItem (h : Hub) (kind : Nat) (es : List Nat) : Hub :=
  h.ownItem ([header tMonitor 0 0 h.tag.toNat 0,
    BitVec.ofNat 64 (kind * 2 ^ 56 + es.length * 2 ^ 48 + h.fld F.MON_STAT_PASSES 0)] ++ es.map h.monWord)

/-- Whether the words of Q30 hold a pass item that the Mule has not begun to take; `start` says that the next word opens an
item. -/
def passWaits (ws : List QWord) (start : Bool) : Bool :=
  match ws with
  | w :: x :: rest =>
    (start && !w.gap && hdrType w.data == tMonitor && bits x.data.toNat 63 56 == 1) || passWaits (x :: rest) (w.last || w.gap)
  | _ => false

/-- Whether an item is a pass item. -/
def isPass (ws : List W64) : Bool :=
  match ws with
  | w :: x :: _ => hdrType w == tMonitor && bits x.toNat 63 56 == 1
  | _ => false

/-- The previous pass item has not been taken from Q30, nor, in a twin unit, pushed yet. -/
def Hub.passHeld (h : Hub) : Bool :=
  passWaits (h.queue 30).ws (!(h.queue 30).taken) || h.twin.items.any isPass ||
    h.twin.events.any fun (e : W48 × Bool × BitVec 13 × List W64) => isPass e.2.2.2

/-- A result lies outside the band of its entry (R540). -/
def Hub.monOutside (h : Hub) (e : Nat) (v : Int) (broken : Bool) : Bool :=
  broken || decide (v < h.sfld F.MON_WLO_V e) || decide (h.sfld F.MON_WHI_V e < v)

/-- The band state after a result (R541); answers whether it left the band. -/
def Hub.monBand (h : Hub) (e : Nat) (out : Bool) : Hub × Bool :=
  if out && h.flag F.MON_ESTAT_INBAND e then
    let h := h.setFld F.MON_ESTAT_INBAND e 0
    let left := h.fld F.MON_WIN_LEFT 0
    let h := if bit left e then h else h.setFld F.MON_WIN_LEFT 0 (left + 2 ^ e)
    ((h.attn aWindow).bump F.MON_WINCNT_COUNT 0, true)
  else if !out then (h.setFld F.MON_ESTAT_INBAND e 1, false)
  else (h, false)

/-- The result of entry `e` with settings `w` (R538, R540-R546). -/
def Hub.monResult (h : Hub) (e : Nat) (w : W32) (m : MonMeasure) : Hub :=
  let ((a, oa), h) := h.monConvert w m.vinA m.vref
  let ((b, ob), h) : (Int × Bool) × Hub := if monTwo w then h.monConvert w m.vinB m.vref else ((a, false), h)
  let v := if monTwo w then roundDiv (a + b) 2 else a
  let (cause, h) := h.monCause w m
  let broken := cause != 0
  let over_ := !broken && (oa || ob)
  let wen := F.MON_SEQ_WEN.get w == 1
  let out := wen && h.monOutside e v broken
  let value := if broken then 0x7FFFFF else field 24 v
  let seq := (h.fld F.MON_RES_SEQ e + 1) % 16
  let h := h.setWord (F.MON_RES_VALUE.addr e) (BitVec.ofNat 32
    (value + b2n broken * 2 ^ 24 + b2n over_ * 2 ^ 25 + b2n out * 2 ^ 26 + 2 ^ 27 + seq * 2 ^ 28))
  let h := { h with mon := { h.mon with tags := Store.set (fun _ => 0) h.mon.tags e h.tag } }
  let h := if over_ then h.bump F.MON_OVRCNT_COUNT 0 else h
  let h := if broken then
      let brk := h.fld F.MON_BRK_BRK 0
      let h := if bit brk e then h else h.setFld F.MON_BRK_BRK 0 (brk + 2 ^ e)
      ((h.setFld F.MON_ESTAT_BRK e 1).setFld F.MON_ESTAT_CAUSE e cause).bump F.MON_BRKCNT_COUNT 0
    else h
  let (h, left) := if wen then h.monBand e out else (h, false)
  if h.flag F.HUB_ADDR_VALID 0 && ((left && h.flag F.MON_REC_ON_WIN 0) || (broken && h.flag F.MON_REC_ON_BRK 0)) then h.monItem 2 [e]
  else h

/-- The entry in progress ends, and the next one of the pass starts (R536, R538). -/
def Hub.monEntryEnds (h : Hub) (m : MonMeasure) : Hub :=
  let h := h.monWake
  if h.monIdle then h
  else
    let e := h.fld F.MON_STAT_ENTRY 0
    Hub.monSeek 40 (h.monResult e h.mon.entry m) (e + 1)

/-- A pass ends (R528, R539, R546), and the next one starts. -/
def Hub.monPassEnds (h : Hub) : Hub :=
  if h.mon.due then
    let h := h.setFld F.MON_STAT_PASSES 0 ((h.fld F.MON_STAT_PASSES 0 + 1) % 65536)
    let h := { h with mon := { h.mon with since := h.mon.since + 1 } }
    let h :=
      if h.flag F.HUB_ADDR_VALID 0 && h.flag F.MON_REC_PER_EN 0 && decide (h.fld F.MON_REC_PERIOD 0 ≤ h.mon.since) then
        let h := { h with mon := { h.mon with since := 0 } }
        if h.passHeld then h.bump F.MON_RECSKIP_COUNT 0
        else h.monItem 1 ((upto h.mon.len).filter fun e => h.flag F.MON_SEQ_EN e)
      else h
    let h := { h with mon := { h.mon with due := false } }
    if h.flag F.MON_CTL_RUN 0 then h.monStart else h
  else h

/-- A write of RUN (R539): 0 stops the monitor at once, a change from 0 to 1 starts a pass. -/
def Hub.monRun (h : Hub) (run : Bool) : Hub :=
  let was := h.flag F.MON_CTL_RUN 0
  let h := h.setFlag F.MON_CTL_RUN 0 run
  if !run then { h.setFld F.MON_STAT_PHASE 0 0 with mon := { h.mon with due := false } }
  else if was then h
  else h.monStart

/-- RESTART (R539, R542): the entry in progress is abandoned, every result and band state starts anew, and a pass starts. -/
def Hub.monRestart (h : Hub) : Hub :=
  let h := forN 32 h fun e h => (h.setWord (F.MON_RES_VALUE.addr e) 0x800000#32).bandIn e
  let h := { h.setFld F.MON_STAT_PHASE 0 0 with mon := { h.mon with due := false } }
  if h.flag F.MON_CTL_RUN 0 then h.monStart else h

/-- A write to MON_CTL (R539). -/
def Hub.monCtlWrite (h : Hub) (v : W32) : Hub :=
  let v := h.takenAs A.MON_CTL v
  let h := h.setFld F.MON_CTL_LEN 0 (F.MON_CTL_LEN.get v)
  let h := h.monRun (F.MON_CTL_RUN.get v == 1)
  (if F.MON_CTL_RESTART.get v = 1 then h.monRestart else h).monWake

/-- A write to word 0 of an entry: a change of WEN or EN sets its band state to IN (R542). -/
def Hub.monSeqWrite (h : Hub) (e : Nat) (v : W32) : Hub :=
  let old := h.word (F.MON_SEQ_CHAN.addr e)
  let h := h.codeWrite (F.MON_SEQ_CHAN.addr e) v
  let new := h.word (F.MON_SEQ_CHAN.addr e)
  let h := if F.MON_SEQ_WEN.get old = F.MON_SEQ_WEN.get new && F.MON_SEQ_EN.get old = F.MON_SEQ_EN.get new then h else h.bandIn e
  h.monWake

/-- A write to MON_EXC (R533). -/
def Hub.monExcWrite (h : Hub) (v : W32) : Hub :=
  let h := h.setFld F.MON_EXC_EN 0 (F.MON_EXC_EN.get v)
  (if F.MON_EXC_EN.get v = 1 then h.excMeasure else h.setFld F.MON_EXC_CURR 0 0).excWatch

/-- MONITOR_ENTRY_END. The entry in progress ends with what was measured (R538). -/
def execMonitorEntryEnd (m : MonMeasure) (s : State) : Host.Outcome State Fault Refusal :=
  .next { s with hub := s.hub.awake (s.hub.monEntryEnds m) }

/-- MONITOR_PASS_END. The pass ends (R528, R546). -/
def execMonitorPassEnd (s : State) : Host.Outcome State Fault Refusal :=
  .next { s with hub := s.hub.awake s.hub.monPassEnds }

/-- MONITOR_RUN. A write of MON_CTL.RUN (R539). -/
def execMonitorRun (run : Bool) (s : State) : Host.Outcome State Fault Refusal := .next { s with hub := s.hub.awake (s.hub.monRun run) }

/-- MONITOR_RESTART. Writing 1 to MON_CTL.RESTART (R539). -/
def execMonitorRestart (s : State) : Host.Outcome State Fault Refusal := .next { s with hub := s.hub.awake (s.hub.monRestart) }

end Sys2Proof.Machine
end

