-- ==== Sys2Proof/Machine/Interlock.lean ====
section
/-! DEFINITION. The bias interlock (20_bias_interlock.md). It works in every mode and during every reset (R569); the ticks of
its own time base have no command: what takes effect at the next tick takes effect at once, and its times are counted in slots while
slots pass (notes/assumptions/53.md). -/

namespace Sys2Proof.Machine

/-- A bit of ILK_STAT at an offset `f`, for channel or output `n`. -/
def Hub.ilkBit (h : Hub) (f : Fld) (n : Nat) : Bool := bit (h.fld f 0) n

/-- Sets one bit of a field. -/
def Hub.ilkSet (h : Hub) (f : Fld) (n : Nat) (b : Bool) : Hub :=
  let v := h.fld f 0
  h.setFld f 0 (if bit v n == b then v else if b then v + 2 ^ n else v - 2 ^ n)

/-- Latched strap code of channel `n` (R551). -/
def Hub.strapCode (h : Hub) (n : Nat) : Nat := h.fld F.ILK_STRAP_LATCHED 0 / 8 ^ n % 8

/-- Modes START and BOTH ask for the start-up test; DISC and BOTH watch for disagreement. -/
def Hub.strapTests (h : Hub) (n : Nat) : Bool := h.strapCode n == 1 || decide (6 ≤ h.strapCode n)
def Hub.strapWatches (h : Hub) (n : Nat) : Bool := decide (2 ≤ h.strapCode n)

/-- Both contacts of a channel closed, or both open, as far as their levels have been taken. -/
def Hub.bothClosed (h : Hub) (n : Nat) : Bool := bits (h.fld F.ILK_STAT_CONTACTS 0) (2 * n + 1) (2 * n) == 3
def Hub.bothKnown (h : Hub) (n : Nat) : Bool := h.ilk.known.getLsbD (2 * n) && h.ilk.known.getLsbD (2 * n + 1)
def Hub.bothOpen (h : Hub) (n : Nat) : Bool :=
  h.bothKnown n && bits (h.fld F.ILK_STAT_CONTACTS 0) (2 * n + 1) (2 * n) == 0

/-- The contacts of a channel disagree (R554). -/
def Hub.disagree (h : Hub) (n : Nat) : Bool := h.bothKnown n && !h.bothClosed n && !h.bothOpen n

/-- A fault of the interlock is counted and reported, and sets INTERLOCK (R407, R567). -/
def Hub.ilkReports (h : Hub) (n : Nat) : Hub := ((h.bump F.ILK_FLTCNT_COUNT 0).attn aInterlock).report (mkReport 0x50 (unitOf 0xB n))

/-- A fault of the interlock: its cause, its count, and its report (R567). While the hub is held in reset only the cause, which
is in the retention domain, is kept, and the rest follows as the start begins. -/
def Hub.ilkFault (h : Hub) (cause n : Nat) : Hub :=
  let h := h.setFld F.ILK_CAUSE_CAUSE 0 cause
  if h.start.held then { h with ilk := { h.ilk with owed := h.ilk.owed ++ [n] } } else h.ilkReports n

/-- The faults found while the hub was held in reset are counted and reported. -/
def Hub.ilkOwed (h : Hub) : Hub := each h.ilk.owed { h with ilk := { h.ilk with owed := [] } } fun n h => h.ilkReports n

/-- Output `n` goes low and its grant is withdrawn. -/
def Hub.outputOff (h : Hub) (n : Nat) : Hub :=
  let h := h.ilkSet F.ILK_STAT_EN n false
  { h with ilk := { h.ilk with grant := h.ilk.grant &&& ~~~(BitVec.ofNat 2 (2 ^ n)) } }

/-- A demand begins (R558). -/
def Hub.demandBegins (h : Hub) : Hub :=
  let h := (h.outputOff 0).outputOff 1
  let h := { h with ilk := { h.ilk with demand := true } }
  if h.start.held then h
  else
    let h := (h.bump F.ILK_DEMCNT_COUNT 0).attn aInterlock
    if h.mode = mUnloaded then h else { h with goose := { h.goose with demand := true } }

/-- The chain, the demand and ILK_OK (R557, R558). The quiet period counts from the end of a demand. -/
def Hub.ilkChain (h : Hub) : Hub :=
  let ok (n : Nat) : Bool :=
    h.bothClosed n && !h.ilkBit F.ILK_STAT_DISC n && (!h.strapTests n || h.ilkBit F.ILK_STAT_SUT n)
  let chain := ok 0 && ok 1 && !h.flag F.ILK_STRAP_STRAPF 0 && !h.flag F.ILK_STAT_INTF 0
  let was := h.flag F.ILK_STAT_CHAIN 0
  let h := (h.setFld F.ILK_STAT_OK 0 (b2n (ok 0) + 2 * b2n (ok 1))).setFlag F.ILK_STAT_CHAIN 0 chain
  let h := if was && !chain then h.demandBegins
    else if !was && chain && h.ilk.demand then
      { h with
        ilk := { h.ilk with demand := false }
        goose := { h.goose with quietFrom := h.slot } }
    else h
  h.setFlag F.ILK_STAT_ILKOK 0 (chain && h.fld F.ILK_STAT_LOCK 0 == 0)

/-- The strap fault (R552): judged over the pins whose level has been taken. -/
def Hub.ilkStraps (h : Hub) : Hub :=
  let seen := h.ilk.known.toNat / 16
  let differ := (h.fld F.ILK_STRAP_LATCHED 0 ^^^ h.fld F.ILK_STRAP_NOW 0) &&& seen != 0
  if !h.flag F.ILK_STRAP_STRAPF 0 && (differ || h.strapCode 0 == 0 || h.strapCode 1 == 0) then
    (h.setFld F.ILK_STRAP_STRAPF 0 1).ilkFault 7 0
  else h

/-- Start-up test and discrepancy fault of channel `n` after a change of its contacts (R555, R556). -/
def Hub.ilkTests (h : Hub) (n : Nat) : Hub :=
  let m : BitVec 2 := BitVec.ofNat 2 (2 ^ n)
  let h := if h.bothOpen n then
      { h with ilk := { h.ilk with
          sutOpen := h.ilk.sutOpen ||| m
          discOpen := if h.ilkBit F.ILK_STAT_DISC n then h.ilk.discOpen ||| m else h.ilk.discOpen } }
    else h
  if h.bothClosed n then
    let h := if h.strapTests n && h.ilk.sutOpen.getLsbD n then h.ilkSet F.ILK_STAT_SUT n true else h
    if h.ilk.discOpen.getLsbD n then
      { h.ilkSet F.ILK_STAT_DISC n false with ilk := { h.ilk with discOpen := h.ilk.discOpen &&& ~~~m } }
    else h
  else h

/-- What follows from the inputs as they stand, in the order of R568. -/
def Hub.ilkSettle (h : Hub) : Hub := (((h.ilkStraps).ilkTests 0).ilkTests 1).ilkChain

/-- Feedback `n` differs from output `n`. -/
def Hub.fbDiffers (h : Hub) (n : Nat) : Bool := h.ilkBit F.ILK_STAT_FB n != h.ilkBit F.ILK_STAT_EN n

/-- What bit `k` of `Ilk.gap` names has ended. -/
def Hub.gapOver (h : Hub) (k : Nat) : Hub := { h with ilk := { h.ilk with gap := h.ilk.gap &&& ~~~(BitVec.ofNat 4 (2 ^ k)) } }

/-- An input pin has held a new level for 100 ticks (R549). -/
def Hub.ilkInput (h : Hub) (pin : IlkPin) (level : Bool) : Hub :=
  match pin with
  | .contact i =>
    let h := { h with ilk := { h.ilk with known := h.ilk.known ||| BitVec.ofNat 10 (2 ^ i.val) } }
    (h.ilkSet F.ILK_STAT_CONTACTS i.val level).ilkSettle
  | .strap i =>
    let h := { h with ilk := { h.ilk with known := h.ilk.known ||| BitVec.ofNat 10 (2 ^ (4 + i.val)) } }
    (h.ilkSet F.ILK_STRAP_NOW i.val level).ilkSettle
  | .feedback n =>
    let h := h.ilkSet F.ILK_STAT_FB n.val level
    let h := if n.val = 0 then { h with ilk := { h.ilk with fbLow0 := 0 } } else { h with ilk := { h.ilk with fbLow1 := 0 } }
    if h.fbDiffers n.val then h else h.gapOver (2 + n.val)

/-- Output `n` locks out (R563, R565). -/
def Hub.lockout (h : Hub) (n cause : Nat) : Hub :=
  if h.ilkBit F.ILK_STAT_LOCK n then h
  else (((h.outputOff n).ilkSet F.ILK_STAT_LOCK n true).ilkFault cause n).ilkSettle

/-- A disagreement has lasted T_disc (R554). -/
def Hub.discrepancy (h : Hub) (n : Nat) : Hub :=
  if h.strapWatches n && h.disagree n && !h.ilkBit F.ILK_STAT_DISC n then
    ((h.ilkSet F.ILK_STAT_DISC n true).ilkFault (1 + n) n).ilkSettle
  else h

/-- Discrepancy time of a channel in ms (R551). -/
def Hub.discTime (h : Hub) (n : Nat) : Nat := ([0, 0, 20, 50, 100, 200, 100, 200][h.strapCode n]?).getD 0

/-- The contacts of channel `n` have disagreed, and feedback `n` has differed from its output, for so many ns. -/
def Hub.apartNs (h : Hub) (n : Nat) : Nat := (if n = 0 then h.ilk.apart0 else h.ilk.apart1) * h.slotLen / 1024
def Hub.offNs (h : Hub) (n : Nat) : Nat := (if n = 0 then h.ilk.off0 else h.ilk.off1) * h.slotLen / 1024

/-- Held in reset or without the root clock no slots pass that could be counted: the interlock's own time base counts alone (R569). -/
def Hub.untimed (h : Hub) : Bool := h.start.held || !h.flag F.RT_CLK_LOCK 0

/-- A discrepancy fault may be: the disagreement has lasted at least 0.95 of its time, as far as slots have measured it; and it must be:
more than 1.05 of it (R554). -/
def Hub.discMay (h : Hub) (n : Nat) : Bool := h.untimed || h.ilk.gap.getLsbD n || decide (950000 * h.discTime n ≤ h.apartNs n)
def Hub.discMust (h : Hub) (n : Nat) : Bool := !h.untimed && decide (1050000 * h.discTime n < h.apartNs n)

/-- A lockout by the feedback may be, and must be: the difference has lasted 95 ms, and more than 105 ms (R563). -/
def Hub.offMay (h : Hub) (n : Nat) : Bool :=
  h.fbDiffers n && (h.untimed || h.ilk.gap.getLsbD (2 + n) || decide (95000000 ≤ h.offNs n))
def Hub.offMust (h : Hub) (n : Nat) : Bool := h.fbDiffers n && !h.untimed && decide (105000000 < h.offNs n)

/-- A test pulse has ended: for 10 ms the feedback need not follow (R563). -/
def Hub.pulsePause (h : Hub) (n : Nat) : Hub :=
  let slots := 10000000 * 1024 / (h.slotLen + 1) + 1
  if n = 0 then { h with ilk := { h.ilk with pause0 := slots } } else { h with ilk := { h.ilk with pause1 := slots } }

/-- One more slot of a time, while what it counts lasts and is not paused. -/
def oneMore (lasts : Bool) (pause n : Nat) : Nat := if !lasts then 0 else if pause = 0 then n + 1 else n

/-- The times of the interlock at a slot boundary: feedbacks low (R564), disagreements (R554), feedbacks that differ (R563). -/
def Hub.ilkCounts (h : Hub) : Hub :=
  let h := forN 2 h fun n h => if h.bothKnown n && !h.disagree n && h.ilk.gap.getLsbD n then h.gapOver n else h
  let x := h.ilk
  { h with ilk := { x with
      fbLow0 := oneMore (!h.ilkBit F.ILK_STAT_FB 0) 0 x.fbLow0
      fbLow1 := oneMore (!h.ilkBit F.ILK_STAT_FB 1) 0 x.fbLow1
      apart0 := oneMore (h.disagree 0) 0 x.apart0
      apart1 := oneMore (h.disagree 1) 0 x.apart1
      off0 := oneMore (h.fbDiffers 0) x.pause0 x.off0
      off1 := oneMore (h.fbDiffers 1) x.pause1 x.off1
      pause0 := x.pause0 - 1
      pause1 := x.pause1 - 1 } }

/-- The interlock at a slot boundary: its times, and the faults and lockouts that they bring whatever its time base (R554, R563,
R568). -/
def Hub.ilkSlot (h : Hub) : Hub :=
  let h := forN 2 h.ilkCounts fun n h => if h.discMust n then h.discrepancy n else h
  forN 2 h fun n h => if h.offMust n then h.lockout n (3 + n) else h

/-- A measured tick of the time base, in CK640 cycles of 1 / (16 FREQ) (R550). Without the root clock there is no RC fault. -/
def Hub.rcTick (h : Hub) (tick : Nat) : Hub :=
  if h.start.held then h
  else
    let h := h.setFld F.ILK_RC_TICK 0 tick
    let f := 16 * h.fld F.RT_BCFREQ_FREQ 0
    if h.flag F.RT_CLK_LOCK 0 && (tick * 1000000 < 9 * f || 11 * f < tick * 1000000) then h.ilkFault 8 0 else h

/-- The second word of an enable sequence (R559-R561). -/
def Hub.enable (h : Hub) (mask : BitVec 2) : Hub :=
  if h.flag F.ILK_STAT_CHAIN 0 && h.flag F.ILK_STAT_S09OK 0 && BitVec.ofNat 2 (h.fld F.ILK_STAT_LOCK 0) &&& mask = 0 then
    let h := { h with ilk := { h.ilk with grant := h.ilk.grant ||| mask } }
    h.setFld F.ILK_STAT_EN 0 (h.fld F.ILK_STAT_EN 0 ||| mask.toNat)
  else h.bump F.ILK_REFCNT_COUNT 0

/-- A write to ILK_REQ of the packet that executes (R559): any write but the second word after its first cancels a first word
that waits. Outside a packet it does nothing. -/
def Hub.ilkReq (h : Hub) (v : W32) : Hub :=
  match h.pk.cur with
  | none => h
  | some x =>
    let key := F.ILK_REQ_KEY.get v
    let mask := BitVec.ofNat 2 (F.ILK_REQ_MASK.get v)
    let put (k : Option (BitVec 2)) : Hub := { h with pk := { h.pk with cur := some { x with ilkKey := k } } }
    if key = 0x6B6B then put (some mask)
    else if key = 0x9494 && x.ilkKey = some mask then (put none).enable mask
    else put none

/-- A write to ILK_REQ outside the packet that executes cancels a first word of it that waits (R559). -/
def Hub.ilkCancel (h : Hub) : Hub :=
  { h with pk := { h.pk with cur := h.pk.cur.map fun (x : Exec) => { x with ilkKey := none } } }

/-- A write to ILK_OFF (R562). -/
def Hub.ilkOff (h : Hub) (v : W32) : Hub :=
  each (setBitsOf 2 (F.ILK_OFF_MASK.get v)) h fun n h => h.outputOff n

/-- Whether feedback `n` has been low for the feedback time of 95-105 ms (R563, R564). Between the bounds the spec allows either
answer: an open value gives it. -/
def Hub.fbQuiet (h : Hub) (n : Nat) : Bool × Hub :=
  let ns := (if n = 0 then h.ilk.fbLow0 else h.ilk.fbLow1) * h.slotLen / 1024
  if bit (h.fld F.ILK_STAT_FB 0) n || ns < 95000000 then (false, h)
  else if 105000000 ≤ ns then (true, h)
  else (h.openValue.getLsbD 0, h.tookOpen)

/-- A write to ILK_CLR (R564). -/
def Hub.ilkClr (h : Hub) (v : W32) : Hub :=
  each (setBitsOf 2 (F.ILK_CLR_MASK.get v)) h fun n h =>
    if h.ilkBit F.ILK_STAT_LOCK n && !h.ilkBit F.ILK_STAT_EN n then
      let (quiet, h) := h.fbQuiet n
      if quiet then (h.ilkSet F.ILK_STAT_LOCK n false).ilkChain else h
    else h

/-- What a reset does to the interlock (R562): grants go and inputs are taken anew, while what is in the retention domain
stays; what has lasted until then may go on, and its time is not known (R569). -/
def Ilk.reset (x : Ilk) : Ilk :=
  { sutOpen := x.sutOpen, discOpen := x.discOpen, pause0 := x.pause0, pause1 := x.pause1, gap := 15, owed := x.owed }

/-- ILK_INPUT_CHANGE. A pin has held a new level for 100 ticks (R549). -/
def execIlkInputChange (pin : IlkPin) (level : Bool) (s : State) : Host.Outcome State Fault Refusal :=
  goesOn s (s.hub.ilkInput pin level)

/-- DISCREPANCY_FAULT. The contacts of a channel have disagreed for its discrepancy time, as the interlock's own time base counts it
(R554). -/
def execDiscrepancyFault (n : Fin 2) (s : State) : Host.Outcome State Fault Refusal :=
  goesOn s (if s.hub.discMay n.val then s.hub.discrepancy n.val else s.hub)

/-- FEEDBACK_LOCKOUT. A feedback has differed from its output for the feedback time, as the interlock's own time base counts it
(R563). -/
def execFeedbackLockout (n : Fin 2) (s : State) : Host.Outcome State Fault Refusal :=
  goesOn s (if s.hub.offMay n.val then s.hub.lockout n.val (3 + n.val) else s.hub)

/-- TEST_PULSE. A test pulse of a high output, as its readback saw it (R565). -/
def execTestPulse (n : Fin 2) (ok : Bool) (s : State) : Host.Outcome State Fault Refusal :=
  let h := s.hub
  goesOn s (if !h.ilkBit F.ILK_STAT_EN n.val then h else if ok then h.pulsePause n.val else h.lockout n.val (5 + n.val))

/-- RC_CHECK. The time base has been measured (R550). -/
def execRcCheck (tick : BitVec 16) (s : State) : Host.Outcome State Fault Refusal := goesOn s (s.hub.rcTick tick.toNat)

/-- ILK_INTERNAL_FAULT. The three copies of the interlock's state disagree (R566). -/
def execIlkInternalFault (threeWay : Bool) (s : State) : Host.Outcome State Fault Refusal :=
  let h := s.hub
  goesOn s (
    if !threeWay then (if h.start.held then h else h.bump F.ILK_VOTEFIX_COUNT 0)
    else if h.flag F.ILK_STAT_INTF 0 then h
    else ((h.setFld F.ILK_STAT_INTF 0 1).ilkFault 9 0).ilkSettle)

/-- ILK_REQ_WRITE. A write to ILK_REQ within the command packet that executes (R559). -/
def execIlkReqWrite (v : W32) (s : State) : Host.Outcome State Fault Refusal := .next { s with hub := s.hub.ilkReq v }

/-- ILK_OFF. A write to ILK_OFF (R562). -/
def execIlkOff (v : W32) (s : State) : Host.Outcome State Fault Refusal := .next { s with hub := s.hub.awake (s.hub.ilkOff v) }

/-- ILK_CLR. A write to ILK_CLR (R564). -/
def execIlkClr (v : W32) (s : State) : Host.Outcome State Fault Refusal := .next { s with hub := s.hub.awake (s.hub.ilkClr v) }

end Sys2Proof.Machine
end

