-- ==== Sys2Proof/Machine/Ports.lean ====
section
/-! DEFINITION. The Tether port, the peripheral ports and the GPIO pins (21_tether_and_peripheral_ports.md). -/

namespace Sys2Proof.Machine

/-! ### Tether (R571-R578) -/

/-- Bytes that a frame carries beside its control word. -/
def Hub.tetherRoom (h : Hub) : Nat := h.tether.len / 8 - 4

/-- Bytes still missing of the packet in progress, once its header is there. -/
def pktMissing (b : List W8) : Option Nat :=
  if b.length < 8 then none else some (pkLength (pkHeader b) - b.length)

/-- PLEN reaches beyond the end of the packet that the frame's bytes belong to (R576). -/
def beyondEnd (before : List W8) (bytes : List W8) : Bool :=
  let got := before ++ bytes
  decide (8 ≤ got.length) && !pkUnreadable (pkHeader got) && decide (pkLength (pkHeader got) < got.length)

/-- The reject code of a frame (R576); 0 when it is accepted. -/
def Hub.tetherReject (h : Hub) (edges : Nat) (ctl : W32) (bytes : List W8) (notReady : Bool) : Nat :=
  let pstart := ctl.getLsbD 31
  let plen := bits ctl.toNat 12 0
  let before := if pstart then [] else h.tether.pkt.getD []
  let running := pstart || h.tether.pkt.isSome
  if edges % 32 != 0 then 1
  else if edges < h.tether.len then 2
  else if h.tether.len < edges then 3
  else if notReady then 4
  else if bits ctl.toNat 30 13 != 0 || h.tetherRoom < plen || (running && beyondEnd before (bytes.take plen)) then 5
  else if plen != 0 && !pstart && h.tether.pkt.isNone then 6
  else 0

/-- The packet bytes of an accepted frame (R574). -/
def Hub.tetherBytes (h : Hub) (pstart : Bool) (bytes : List W8) : Hub :=
  let h := if pstart then
      match h.tether.pkt with
      | some b => h.violation pvTruncated 0x40 (partialSeq b)
      | none => h
    else h
  let go : Option (List W8) := if pstart then some bytes else h.tether.pkt.map fun b => b ++ bytes
  match go with
  | none => h
  | some got =>
    let put (p : Option (List W8)) : Hub := { h with tether := { h.tether with pkt := p } }
    if got.length < 8 then put (some got)
    else
      let hd := pkHeader got
      if pkUnreadable hd then (put none).violation pvUnreadable 0x40 (pkSeq hd)
      else if got.length < pkLength hd then put (some got)
      else
        let h := put none
        if h.pkMine hd then h.accept .tether got else h.violation pvUnroutable 0x40 (pkSeq hd)

/-- The frame length in force as a frame begins (R573). The command of a frame comes at its end, so whether the first frame to end after
the end of the packet that wrote TT_LEN began before that end is an open value; the next one did not (notes/assumptions/104.md). -/
def Hub.tetherLength (h : Hub) : Hub :=
  match h.tether.lenNext with
  | none => h
  | some n =>
    let late := !h.tether.lenLate && h.openValue.getLsbD 0
    let h := if h.tether.lenLate then h else h.tookOpen
    if late then { h with tether := { h.tether with lenLate := true } }
    else { h with tether := { h.tether with len := n, lenNext := none, lenLate := false } }

/-- Whether a frame carries bytes of the first reply held: of one that was held when the last frame ended it does; of one built since it
does if it began after that, which is an open value (notes/assumptions/104.md). -/
def Hub.tetherCarries (h : Hub) : Bool × Hub :=
  if h.tether.out.isEmpty then (false, h)
  else if 0 < h.tether.ready then (true, h)
  else (h.openValue.getLsbD 0, h.tookOpen)

/-- TRSP, word 0 from the hub (R573): RSTART, REND, REJCNT, LASTREJ, RLEN. -/
def Hub.trsp (h : Hub) (first last : Bool) (rlen : Nat) : W32 :=
  BitVec.ofNat 32 (b2n first * 2 ^ 31 + b2n last * 2 ^ 30 + h.fld F.TT_STAT_REJCNT 0 % 16 * 2 ^ 24
    + h.fld F.TT_STAT_LASTREJ 0 % 256 * 2 ^ 16 + rlen % 8192)

/-- The words that the hub shifts out in a frame: TRSP, then of the first reply that is not fully sent as many bytes as fit, then zeros
(R573, R575). -/
def Hub.tetherShifts (h : Hub) (carries : Bool) : Hub :=
  let room := h.tetherRoom
  let ws : List W32 := match carries, h.tether.out with
    | true, (b, first) :: _ =>
      let now := b.take room
      h.trsp first (decide (b.length ≤ room)) now.length :: words32 128 (now ++ List.replicate (room - now.length) 0)
    | _, _ => h.trsp false false 0 :: List.replicate (room / 4) 0
  { h with tether := { h.tether with resp := ws } }

/-- The reply bytes that an accepted frame has carried have been sent (R575). -/
def Hub.tetherSent (h : Hub) (carries : Bool) : Hub :=
  match carries, h.tether.out with
  | true, (b, _) :: rest =>
    let left := b.drop h.tetherRoom
    if left.isEmpty then
      { h with
        tether := { h.tether with out := rest }
        pk := { h.pk with awaitTether := h.pk.awaitTether - 1 } }
    else { h with tether := { h.tether with out := (left, false) :: rest } }
  | _, _ => h

/-- A Tether frame ends: it is accepted whole or rejected whole, and the hub has shifted its own words out in it. Until S02 has ended the
port is deaf (R571). A frame whose words are not all given is none. -/
def Hub.tetherFrame (h : Hub) (edges : Nat) (words : List W32) (notReady : Bool) : Hub :=
  if h.start.held || !h.pastS02 || words.length < edges / 32 then h
  else
    let (carries, h) := h.tetherLength.tetherCarries
    let h := h.tetherShifts carries
    let ctl := words.headD 0
    let bytes := ((words.take (h.tether.len / 32)).drop 1).flatMap bytes32
    let code := h.tetherReject edges ctl bytes notReady
    let h :=
      if code = 0 then
        let h := (h.bump F.TT_FRAMES_COUNT 0).tetherSent carries
        (h.tetherBytes (ctl.getLsbD 31) (bytes.take (bits ctl.toNat 12 0))).refreshTether
      else
        let h := (h.bump F.TT_REJCNT_COUNT 0).setFld F.TT_STAT_LASTREJ 0 code
        let h := h.setFld F.TT_STAT_REJCNT 0 (h.fld F.TT_REJCNT_COUNT 0 % 16)
        { h.violation pvTether 0x40 0 with tether := { h.tether with trej := BitVec.ofNat 8 code } }
    { h with tether := { h.tether with ready := h.tether.out.length } }

/-- A new frame length waits for the next frame to begin (R573). -/
def Hub.nextLength (h : Hub) (n : Nat) : Hub := { h with tether := { h.tether with lenNext := some n, lenLate := false } }

/-- A write to TT_LEN: in a packet it waits for the packet's end; otherwise it is in force from the next frame (R573). -/
def Hub.ttLenWrite (h : Hub) (fg : Bool) (v : W32) : Hub :=
  let h := h.codeWrite A.TT_LEN v
  let n := h.fld F.TT_LEN_LEN 0
  match fg, h.pk.cur with
  | true, some x => { h with pk := { h.pk with cur := some { x with ttLen := some n } } }
  | _, _ => h.nextLength n

/-! ### Peripheral ports (R579-R583) -/

/-- Puts received bits into the buffer of port `n`: bit k is bit 31 - k mod 32 of word k / 32. -/
def Hub.portBits (h : Hub) (n : Nat) (rx : List Bool) : Hub :=
  each rx.zipIdx h fun b h =>
    let k := portKey n (b.2 / 32)
    let m : W32 := BitVec.ofNat 32 (2 ^ (31 - b.2 % 32))
    h.setBank k (if b.1 then h.bankWord k ||| m else h.bankWord k &&& ~~~m)

/-- A transfer starts, or GOERR is set while one runs (R580, R583). -/
def Hub.portGo (h : Hub) (n : Nat) : Hub :=
  if h.flag F.PN_STAT_BUSY n then h.setFld F.PN_STAT_GOERR n 1
  else ((((h.setFld F.PN_STAT_BUSY n 1).setFld F.PN_STAT_DONE n 0).setFld F.PN_STAT_ABORTED n 0).setFld F.PN_STAT_TIMEOUT n 0).setFld
    F.PN_STAT_BITS n 0

/-- A transfer ends with the bits received, at most as many as it has (R580-R582). -/
def Hub.portEnds (h : Hub) (n : Nat) (rx : List Bool) : Hub :=
  let rx := rx.take (h.fld F.PN_LEN_BITS n)
  (((h.portBits n rx).setFld F.PN_STAT_BITS n rx.length).setFld F.PN_STAT_BUSY n 0).setFld F.PN_STAT_DONE n 1

/-- Open bits, for what a pin outside showed. -/
def Hub.openBits (h : Hub) (count : Nat) : List Bool × Hub :=
  ((upto count).map fun k => (Config.free (h.free + k)).getLsbD 0, { h with free := h.free + count })

/-- A transfer shifts all its bits (R580). Bits that are not given are open values. -/
def Hub.portDone (h : Hub) (n : Nat) (rx : List Bool) : Hub :=
  if h.flag F.PN_STAT_BUSY n then
    let (more, h) := h.openBits (h.fld F.PN_LEN_BITS n - rx.length)
    h.portEnds n (rx ++ more)
  else h

/-- ABORT (R582). -/
def Hub.portAbort (h : Hub) (n : Nat) (rx : List Bool) : Hub :=
  if h.flag F.PN_STAT_BUSY n then (h.portEnds n rx).setFld F.PN_STAT_ABORTED n 1 else h

/-- Pn_RDY has been low for more than TMO (R581). -/
def Hub.portTimeout (h : Hub) (n : Nat) (rx : List Bool) : Hub :=
  if h.flag F.PN_STAT_BUSY n && h.flag F.PN_CFG_RDY_EN n then (h.portEnds n rx).setFld F.PN_STAT_TIMEOUT n 1 else h

/-- A write to Pn_CTL: GO as BUSY was at the write (R583), and ABORT. How many bits a transfer has moved when software ends it, and which
bits came, are open values. -/
def Hub.portCtl (h : Hub) (n : Nat) (v : W32) : Hub :=
  let busy := h.flag F.PN_STAT_BUSY n
  let h := if F.PN_CTL_GO.get v = 1 then h.portGo n else h
  if F.PN_CTL_ABORT.get v = 1 && busy then
    let k := h.openValue.toNat % (h.fld F.PN_LEN_BITS n + 1)
    let (rx, h) := h.tookOpen.openBits k
    h.portAbort n rx
  else h

/-! ### GPIO (R584) -/

/-- Sets bits of GPIO_OUT. -/
def Hub.gpioSet (h : Hub) (v : W32) : Hub := h.setFld F.GPIO_OUT_OUT 0 (h.fld F.GPIO_OUT_OUT 0 ||| F.GPIO_SET_SET.get v)

/-- Clears bits of GPIO_OUT. -/
def Hub.gpioClr (h : Hub) (v : W32) : Hub :=
  h.setFld F.GPIO_OUT_OUT 0 (h.fld F.GPIO_OUT_OUT 0 &&& (255 - F.GPIO_CLR_CLR.get v))

/-- The pin levels that GPIO_IN shows: what the hub drives on outputs, and open values on inputs. -/
def Hub.sampleGpio (h : Hub) : Hub :=
  let dir := h.fld F.GPIO_DIR_DIR 0
  let level := (h.fld F.GPIO_OUT_OUT 0 &&& dir) ||| (h.openValue.toNat % 256 &&& (255 - dir))
  (h.setFld F.GPIO_IN_IN 0 level).tookOpen

/-! ### Commands -/

/-- TETHER_FRAME. A frame ends: the rising edges seen, the words sampled, and whether an edge came while TETHER_RDY was low
(R576). -/
def execTetherFrame (edges : Nat) (words : List W32) (notReady : Bool) (s : State) : Host.Outcome State Fault Refusal :=
  .next { s with hub := s.hub.tetherFrame edges words notReady }

/-- TT_LEN_WRITE. A write to TT_LEN (R573). -/
def execTtLenWrite (v : W32) (s : State) : Host.Outcome State Fault Refusal :=
  .next { s with hub := s.hub.awake (s.hub.ttLenWrite s.hub.pk.cur.isSome v) }

/-- PORT_GO. A write of 1 to Pn_CTL.GO (R580). -/
def execPortGo (n : Fin 2) (s : State) : Host.Outcome State Fault Refusal := .next { s with hub := s.hub.awake (s.hub.portGo n.val) }

/-- PORT_ABORT. A write of 1 to Pn_CTL.ABORT ends the transfer, with the bits received up to then (R582). -/
def execPortAbort (n : Fin 2) (rx : List Bool) (s : State) : Host.Outcome State Fault Refusal :=
  .next { s with hub := s.hub.portAbort n.val rx }

/-- PORT_TRANSFER_END. The transfer has shifted its bits (R580). -/
def execPortTransferEnd (n : Fin 2) (rx : List Bool) (s : State) : Host.Outcome State Fault Refusal :=
  .next { s with hub := s.hub.portDone n.val rx }

/-- PORT_RDY_TIMEOUT. Pn_RDY stays low for more than TMO (R581). -/
def execPortRdyTimeout (n : Fin 2) (rx : List Bool) (s : State) : Host.Outcome State Fault Refusal :=
  .next { s with hub := s.hub.portTimeout n.val rx }

/-- GPIO_SET. A write to GPIO_SET (R584). -/
def execGpioSet (v : W32) (s : State) : Host.Outcome State Fault Refusal := .next { s with hub := s.hub.awake (s.hub.gpioSet v) }

/-- GPIO_CLR. A write to GPIO_CLR (R584). -/
def execGpioClr (v : W32) (s : State) : Host.Outcome State Fault Refusal := .next { s with hub := s.hub.awake (s.hub.gpioClr v) }

end Sys2Proof.Machine
end

