-- ==== Sys2Proof/Machine/Access.lean ====
section
/-! DEFINITION. A write of a value to an address of the parameter space, with everything that follows from it (R6-R10, R16-R30,
and the registers of every chapter). `Hub.rejects` of Machine/Write.lean says first whether it is rejected. -/

namespace Sys2Proof.Machine

/-! ### Lane roles (R20-R24, R381) -/

/-- Role, port and rate that a lane would have with these LANE_ROLE writes in force (R24): a lane whose ROLE is AUTO counts
by its ACT_ROLE, and so by its ACT_PORT. -/
def Hub.roleAfter (h : Hub) (ws : List (Nat × W32)) (l : Nat) : Nat × Nat × Nat :=
  match (ws.filter fun w => w.1 == l).getLast? with
  | some (_, v) =>
    let r := F.LANE_ROLE_ROLE.get v
    let rate := rateOf (F.LANE_ROLE_RATE.get v)
    if r = roleAuto then (h.role l, h.lanePort l, rate)
    else (r, if r = roleParent then F.LANE_ROLE_PORT.get v % 2 else F.LANE_ROLE_PORT.get v, rate)
  | none => (h.role l, h.lanePort l, h.laneRate l)

/-- All of a list are equal. -/
def allSame (l : List Nat) : Bool :=
  match l with
  | [] => true
  | x :: rest => rest.all fun y => y == x

/-- Whether the roles, ports and rates keep R20 and R21. -/
def Hub.rolesOk (h : Hub) (ws : List (Nat × W32)) : Bool :=
  let all := (upto 24).map fun l => h.roleAfter ws l
  let parents := all.filter fun x => x.1 == roleParent
  let children := all.filter fun x => x.1 == roleChild
  decide (parents.length ≤ 12) && decide (children.length ≤ 8) && decide ((all.filter fun x => x.1 == roleTwin).length ≤ 1) &&
    allSame (parents.map fun x => x.2.2) && children.all (fun x => x.2.2 != 2) &&
    (upto 4).all fun k =>
      let mine := children.filter fun x => x.2.1 == k
      decide (mine.length ≤ 2) && allSame (mine.map fun x => x.2.2)

/-- The fence of a lane is lifted (R381). -/
def Hub.unfenceLane (h : Hub) (l : Nat) : Hub :=
  let b : BitVec 16 := BitVec.ofNat 16 (unitOf 8 l)
  let h := { h with goose := { h.goose with
    fenced := h.goose.fenced.filter fun x => !(x == b)
    idle := h.goose.idle.filter fun x => !(x == b)
    retired := h.goose.retired.filter fun x => !(x == b) } }
  let preps := h.rsv.preps.filter fun p => p.kind == kLane && p.unit == l
  ((each preps h fun p h => h.dropPrep p).setFld F.LN_STAT_FENCED l 0).refreshFenced

/-- A lane takes a role and a port: what it held goes, and a PARENT lane that is aligned trains (R360, R376, R381). A lane that is OFF
or SPARE goes into standby (R27). -/
def Hub.takeRole (h : Hub) (l role port : Nat) : Hub :=
  let was := h.role l
  let k := h.lanePort l
  let (h, lost) := h.laneEmpties l
  let h := h.unfenceLane l
  let h := forN 8 h fun j h => if h.fld F.RS_LANE_LANE j = l then h.setFld F.RS_LANE_SERVES j 0x1F else h
  let h := (h.setFld F.LANE_ROLE_ACT_ROLE l role).setFld F.LANE_ROLE_ACT_PORT l port
  let h := if was = roleChild && h.portEmpty k then h.portLost k lost
    else if was = roleParent || role = roleParent then { h with hen := { h.hen with audit := true } }
    else h
  let h := if role = roleOff || role = roleSpare then (h.setFld F.LN_STAT_ALIGNED l 0).setLane l { h.lane l with lastOk := false } else h
  let h := if role = roleParent && h.flag F.LN_STAT_ALIGNED l then h.startTraining l else h
  ((h.refreshAges).refreshHen).refreshDegr

/-- A LANE_ROLE write takes effect (R23): AUTO is PARENT on port 0 for a lane on which S03 found framing, and OFF otherwise
(LANE_ROLE.ROLE, R25). Writing what is in force on an unfenced lane changes nothing else. -/
def Hub.applyRole (h : Hub) (l : Nat) (v : W32) : Hub :=
  let role := F.LANE_ROLE_ROLE.get v
  let act := if role = roleAuto then (if l ∈ h.start.found then roleParent else roleOff) else role
  let port := if role = roleAuto then 0 else F.LANE_ROLE_PORT.get v
  let newRate := rateOf (F.LANE_ROLE_RATE.get v) != h.laneRate l
  let same := act == h.role l && (port == h.fld F.LANE_ROLE_ACT_PORT l || act == roleOff || act == roleSpare) && !newRate
    && !h.flag F.LN_STAT_FENCED l
  let h := ((h.setFld F.LANE_ROLE_ROLE l role).setFld F.LANE_ROLE_PORT l (F.LANE_ROLE_PORT.get v)).setFld F.LANE_ROLE_RATE l
    (F.LANE_ROLE_RATE.get v)
  let h := { h with start := { h.start with atRate := h.start.atRate.filter fun m => m != l } }
  if same then h else (if newRate then h.unaligned l else h).takeRole l act port

/-- A write to LANE_ROLE: in a packet it waits for the packet's end (R23); a background task has none, and its write is checked
and applied at once. -/
def Hub.laneRoleWrite (h : Hub) (fg : Bool) (l : Nat) (v : W32) : Hub :=
  let v := h.takenAs (F.LANE_ROLE_ROLE.addr l) v
  match fg, h.pk.cur with
  | true, some x => { h with pk := { h.pk with cur := some { x with roles := x.roles ++ [(l, v)], roleAt := x.ix } } }
  | _, _ => if h.rolesOk [(l, v)] then (h.applyRole l v).standbys.refreshAcq else h

/-- The LANE_ROLE writes of the packet that ended take effect, in their order (R23); PARENT lanes go into standby under R22 by
what they are then, and the trigger age follows (R157). -/
def Hub.rolesApply (h : Hub) : Hub :=
  let l := h.pk.roles
  if l.isEmpty then h
  else (each l { h with pk := { h.pk with roles := [] } } fun w h => h.applyRole w.1 w.2).standbys.refreshAcq

/-! ### Single registers -/

/-- A write to HUB_ADDR: the address at once, VALID at the end of the packet (R30). -/
def Hub.addrWrite (h : Hub) (fg : Bool) (v : W32) : Hub :=
  let h := h.codeWrite A.HUB_ADDR v
  match fg, h.pk.cur with
  | true, some x => { h with pk := { h.pk with cur := some { x with addrSet := true } } }
  | _, _ => h.setFld F.HUB_ADDR_VALID 0 1

/-- A write to WRESET (R421): the key words of one packet in their order; any other write cancels the request. -/
def Hub.wreset (h : Hub) (fg : Bool) (v : W32) : Hub :=
  match fg, h.pk.cur with
  | true, some x =>
    let k := if v = 0x5A5A#32 then 1 else if v = 0xA5A5#32 && x.wkey = 1 then 2 else 0
    { h with pk := { h.pk with cur := some { x with wkey := k } } }
  | _, _ => { h with pk := { h.pk with cur := h.pk.cur.map fun (x : Exec) => { x with wkey := 0 } } }

/-- A write to RT_CLK: SRC, and REGRID (R49, R607). -/
def Hub.clkWrite (h : Hub) (v : W32) : Hub :=
  let src := F.RT_CLK_SRC.get v
  let h := if src = h.fld F.RT_CLK_SRC 0 then h else h.clockSource src
  if F.RT_CLK_REGRID.get v = 1 then h.regrid else h

/-- A write to TW_CTL (R516, R527). -/
def Hub.twinCtl (h : Hub) (v : W32) : Hub :=
  { h with twin := { h.twin with
      wantJoin := h.twin.wantJoin || F.TW_CTL_REJOIN.get v == 1
      hreq := h.twin.hreq || F.TW_CTL_HREQ.get v == 1 } }

/-- A write to Pn_CFG, Pn_LEN or the window of a port: ignored while the port is busy (R583). -/
def Hub.portWrite (h : Hub) (n a : Nat) (v : W32) : Hub :=
  if h.flag F.PN_STAT_BUSY n then h.setFld F.PN_STAT_WERR n 1
  else match h.window a with
    | some (some k) => h.windowWrite a k v
    | _ => h.codeWrite a v

/-- Whether an address is a CNTCLR register: it has only WO fields that name counters. -/
def isCntclr (a : Nat) : Bool :=
  a ∈ [A.RT_CNTCLR, A.FE_CNTCLR, A.TDC_CNTCLR, A.CHN_CNTCLR, A.ACQ_CNTCLR, A.MULE_CNTCLR, A.CMP_CNTCLR, A.HEN_CNTCLR, A.CP_CNTCLR,
    A.GS_CNTCLR, A.CAL_CNTCLR, A.RS_CNTCLR, A.TW_CNTCLR, A.MON_CNTCLR, A.ILK_CNTCLR, A.TT_CNTCLR] ||
    (instOf a (F.OX_CNTCLR_CLR.addr 0) 8192 17).isSome || (instOf a (F.Q_CNTCLR_CLR.addr 0) 64 32).isSome ||
    (instOf a (F.LN_CNTCLR_CLR.addr 0) 256 24).isSome

/-- The packet that executes has written a CNTCLR register. -/
def Hub.ownClear (h : Hub) (a : Nat) (v : W32) : Hub :=
  { h with pk := { h.pk with cur := h.pk.cur.map fun (x : Exec) => { x with clears := x.clears ++ [(a, v)] } } }

/-! ### The write -/

/-- Registers that have one instance and rules of their own. -/
def Hub.singleWrite (h : Hub) (fg : Bool) (a : Nat) (v : W32) : Hub :=
  if a = A.HUB_ADDR then h.addrWrite fg v
  else if a = A.WRESET then h.wreset fg v
  else if a = A.RT_CLK then h.clkWrite v
  else if a = A.RT_FCCFG then h.fccfgWrite v
  else if a = A.ATTN_STAT then h.clearAttn v.toNat
  else if a = A.ACQ_MASKCTL then
    let h := h.codeWrite a v
    if F.ACQ_MASKCTL_REARM.get v = 1 then h.setFld F.ACQ_MASKCTL_STOPPED 0 0 else h
  else if a = A.CMP_CTXRST then h.markContexts fun k => bit v.toNat k
  else if a = A.HEN_UP then
    let h := h.codeWrite a v
    if F.HEN_UP_AUDNOW.get v = 1 then { h with hen := { h.hen with audit := true } } else h
  else if a = A.CAL_CMD then h.calCmd v
  else if a = A.GS_CTL then
    let h := if F.GS_CTL_FECLR.get v = 1 then h.setWords A.FE_W [0, 0, 0, 0] else h
    if F.GS_CTL_RINGCLR.get v = 1 then h.clearRing else h
  else if a = A.GS_UNFENCE then h.unfence (F.GS_UNFENCE_UNIT.get v)
  else if a = A.RS_VETO then h.vetoWrite v
  else if a = A.TW_CTL then h.twinCtl v
  else if a = A.TW_CFG then (h.codeWrite a v).fePowerAll
  else if a = A.MON_CTL then h.monCtlWrite v
  else if a = A.MON_EXC then h.monExcWrite v
  else if a = A.ILK_REQ then (if fg then h.ilkReq v else h.ilkCancel)
  else if a = A.ILK_OFF then h.ilkOff v
  else if a = A.ILK_CLR then h.ilkClr v
  else if a = A.TT_LEN then h.ttLenWrite fg v
  else if a = A.GPIO_SET then h.gpioSet v
  else if a = A.GPIO_CLR then h.gpioClr v
  else h.codeWrite a v

/-- A write of a word that is not rejected. `fg` says that a packet makes it. -/
def Hub.regWrite (h : Hub) (fg : Bool) (a : Nat) (v : W32) : Hub :=
  match memWord a with
  | some m => h.writeMem m v
  | none =>
    if isCntclr a then (if fg then h.ownClear a v else h).clearLater a v
    else match instOf a (F.LANE_ROLE_ROLE.addr 0) 256 24, instOf a (F.LN_PRBS_PAT.addr 0) 256 24,
        instOf a (F.LN_INJ_MODE.addr 0) 256 24 with
      | some l, _, _ => h.laneRoleWrite fg l v
      | _, some l, _ => h.prbsWrite l v
      | _, _, some l =>
        let h := h.codeWrite a v
        if F.LN_INJ_GO.get v = 1 then h.startInjection l else h
      | none, none, none =>
        if (instOf a A.MON_SEQ 4 32).isSome then h.monSeqWrite ((a - A.MON_SEQ) / 4) v
        else if A.PN_BUF ≤ a && a < A.PN_BUF + 128 then h.portWrite ((a - A.PN_BUF) / 64) a v
        else if a = A.PN_CFG || a = A.PN_LEN then h.portWrite 0 a v
        else if a = A.PN_CFG + 16 || a = A.PN_LEN + 16 then h.portWrite 1 a v
        else if a = A.PN_CTL then h.portCtl 0 v
        else if a = A.PN_CTL + 16 then h.portCtl 1 v
        else match h.window a with
          | some (some k) => h.windowWrite a k v
          | some none => h
          | none => h.singleWrite fg a v

/-- A write that is made unless it is rejected. -/
def Hub.tryWrite (h : Hub) (a : Nat) (v : W32) : Hub :=
  if h.rejects a v = 0 && !h.start.held then h.regWrite h.pk.cur.isSome a v else h

/-! ### Commands -/

/-- REGISTER_WRITE. A write to a word of the parameter space, of the packet that executes or of the background (R7-R10). A write
that is rejected changes nothing (R9). -/
def execRegisterWrite (addr : W24) (v : W32) (s : State) : Host.Outcome State Fault Refusal :=
  goesOn s (s.hub.tryWrite addr.toNat v)

/-- WRESET_WRITE. A write to WRESET (R421). -/
def execWresetWrite (v : W32) (s : State) : Host.Outcome State Fault Refusal :=
  .next { s with hub := s.hub.wreset true v }

/-- LANE_ROLE_WRITE. A write to LANE_ROLE, in SETUP (R9, R23). -/
def execLaneRoleWrite (l : Fin 24) (v : W32) (s : State) : Host.Outcome State Fault Refusal :=
  goesOn s (s.hub.tryWrite (F.LANE_ROLE_ROLE.addr l.val) v)

end Sys2Proof.Machine
end

