-- ==== Sys2Proof/Machine/Packets.lean ====
section
/-! DEFINITION. Command packets from their start to their reply, ATOMIC packets, result slots and background tasks
(07_belouz_instruction_set.md "Stored procedures and result slots", 13_command_packets_and_replies.md). -/

namespace Sys2Proof.Machine

/-! ### Result slots (R221-R226, R411) -/

/-- State of result slot `n`: 0 EMPTY, 1 BUSY, 2 DONE. -/
def Hub.slotState (h : Hub) (n : Nat) : Nat := h.fld F.RSLOT_DESC_STATE n

/-- The value words of a result slot from word `w` on. -/
def Hub.setValues (h : Hub) (n : Nat) (ws : List W32) : Hub :=
  forN 32 h fun w h => h.setFld F.RSLOT_VAL_VALUE (32 * n + w) ((ws[w]?).getD 0).toNat

/-- The slot becomes DONE with values, the tag of its task and an exception code (R222, R224). -/
def Hub.slotDone (h : Hub) (n : Nat) (ws : List W32) (exc : Nat) : Hub :=
  let tag := if h.slotState n = 1 then (Store.get (fun _ => (0 : BitVec 12)) h.bull.tags n).toNat else h.fld F.RSLOT_DESC_TAG n
  let h := (h.setFld F.RSLOT_DESC_TAG n tag).setFld F.RSLOT_DESC_STATE n 2
  ((h.setFld F.RSLOT_DESC_WCOUNT n ws.length).setFld F.RSLOT_DESC_EXC n exc).setValues n ws

/-- The slot becomes BUSY with a new tag, and keeps showing what it held (R223, R224). DESIGN CHOICE: the previous tag is the one last
given, also after RFREE, since the spec does not say that RFREE ends the count (notes/assumptions/83.md). -/
def Hub.slotBusy (h : Hub) (n : Nat) : Hub × Nat :=
  let old := Store.get (fun _ => (0 : BitVec 12)) h.bull.tags n
  let tag := if old = 0xFFF#12 then 1#12 else old + 1#12
  let h := { h with bull := { h.bull with tags := Store.set (fun _ => (0 : BitVec 12)) h.bull.tags n tag } }
  (h.setFld F.RSLOT_DESC_STATE n 1, tag.toNat)

/-- The slot becomes EMPTY (RFREE). -/
def Hub.slotFree (h : Hub) (n : Nat) : Hub :=
  (h.setWord (F.RSLOT_DESC_TAG.addr n) 0).setValues n []

/-! ### Background tasks (R221, R222, R226) -/

/-- The Bull foreground is idle or waiting (R221). -/
def Hub.fgYields (h : Hub) : Bool :=
  match h.pk.cur with
  | none => true
  | some x => x.stop.isSome || h.bull.fg.wait != .run

/-- The oldest queued task starts, while the foreground is idle or waiting and no task runs (R221, R222). -/
def Hub.taskStarts (h : Hub) : Hub :=
  match h.bull.task, h.bull.tasks with
  | none, t :: rest =>
    if h.fgYields then
      let g : Store W32 := each [(1, t.arg), (2, BitVec.ofNat 32 t.slot), (31, 0x4400#32)] [] fun e g =>
        Store.set (fun _ => (0 : W32)) g e.1 e.2
      { h with bull := { h.bull with tasks := rest, task := some t, bg := { g := g, pc := t.entry } } }
    else h
  | _, _ => h

/-- The task ends: a slot still BUSY becomes DONE with count 0 (R226). DESIGN CHOICE: where the task has posted and a later CALL has made its
slot BUSY again, the spec does not say whether that slot is still BUSY for the task that ends; it counts as such, and becomes DONE with
the later task's tag (notes/assumptions/98.md). -/
def Hub.taskOver (h : Hub) (exc : Nat) : Hub :=
  match h.bull.task with
  | none => h
  | some t =>
    let h := { h with bull := { h.bull with task := none, bg := { h.bull.bg with half := none, wait := .run } } }
    if h.slotState t.slot = 1 then h.slotDone t.slot [] exc
    else if exc = 0 then h
    else if h.slotState t.slot = 2 then h.setFld F.RSLOT_DESC_EXC t.slot exc
    else h.slotDone t.slot [] exc

/-- A task that has reached address 4400h ends (R193). -/
def Hub.taskEnds (h : Hub) : Hub :=
  if h.bull.task.isSome && h.bull.bg.pc == 0x4400 && h.bull.bg.wait == .run then h.taskOver 0 else h

/-- A background instruction raised an exception (R207): the task ends, and the hub reports it. -/
def Hub.taskFails (h : Hub) (code : Nat) : Hub :=
  (h.taskOver code).report (mkReport 0x22 (unitOf 3 h.bull.pairA.val))

/-- CS with a code in EXC (R204). -/
def withExc (cs : W32) (code : Nat) : W32 := (cs &&& 0x00FFFFFF#32) ||| BitVec.ofNat 32 (code % 256 * 2 ^ 24)

/-- An instruction of the foreground raised an exception (R204-R206): the packet stops at its index, or at that of the CALL that
led into a procedure. -/
def Hub.fgException (h : Hub) (code : Nat) : Hub :=
  match h.pk.cur with
  | none => h
  | some x =>
    let c := h.bull.fg
    let inPacket := decide (0x4000 ≤ c.pc)
    let ix := if inPacket then c.pc - 0x4000 else x.ix
    let h := { h with
      bull := { h.bull with fg := { c with cs := withExc c.cs code, wait := .run } }
      pk := { h.pk with cur := some { x with stop := some (code, ix) } } }
    if code = 1 && inPacket then h.violation pvIllegal (srcPlace x.pkt.src) x.pkt.seq.toNat else h

/-- An instruction of a background task raised an exception (R204, R207). -/
def Hub.bgTaskException (h : Hub) (code : Nat) : Hub :=
  ({ h with bull := { h.bull with bg := { h.bull.bg with cs := withExc h.bull.bg.cs code } } }).taskFails code

/-! ### Start (R396, R433) -/

/-- A packet may start: the foreground was free at the boundary that opened this slot, and the last byte of the oldest packet
had arrived before it. -/
def Hub.mayStart (h : Hub) (p : Pkt) : Bool :=
  h.pk.cur.isNone && h.pk.apply.isNone && !h.pk.reset && !h.start.held && p.arrived != h.slot && h.pk.freed != some h.slot &&
    !(p.late && !h.flag F.JNL_STAT_DONE 0) && (p.src != .tether || decide (h.tether.out.length < 4))

/-- The oldest packet that waits starts, with the consistent view of R443. -/
def Hub.packetStarts (h : Hub) : Hub :=
  match h.pk.waiting with
  | [] => h
  | p :: rest =>
    if h.mayStart p then
      let h := h.sampleGpio
      let x : Exec := { pkt := p, start := h.slot, mode := h.mode, view := h.regs, viewBank := h.bank }
      let h := { h with
        pk := { h.pk with waiting := rest, cur := some x }
        bull := { h.bull with fg := { h.bull.fg with pc := 0x4000, wait := .run, half := none } } }
      ((h.setFld F.CP_STAT_EXEC 0 1).bump F.CP_EXEC_COUNT 0).refreshCp
    else h

/-! ### End and reply (R193, R205, R397, R403-R408) -/

/-- Whether execution of the packet has ended: it stopped, or it has reached its end address. -/
def Hub.packetOver (h : Hub) (x : Exec) : Bool :=
  x.stop.isSome || (h.bull.fg.wait == .run && h.bull.fg.pc == 0x4000 + x.pkt.code.length)

/-- The packet is over with its effects: the LANE_ROLE check of R24, the reply, and what takes effect after it (R23, R30, R421,
R573). `stop` is the tail code and index of a stop, `adisc` whether held writes were discarded. -/
def Hub.finish (h : Hub) (x : Exec) (stop : Option (Nat × Nat)) (adisc : Bool) : Hub :=
  let rdisc := !x.roles.isEmpty && !h.rolesOk (h.pk.roles ++ x.roles)
  let (trej, h') := h.takeTrej x.pkt.src
  let h := if x.pkt.noReply then h else h'
  let (code, ix) := stop.getD (if rdisc then (0x84, x.roleAt) else (0, 0))
  let tail := stop.isSome || adisc || rdisc || trej != 0
  let rs := if tail then x.reply ++ [tailWord code trej rdisc adisc ix] else x.reply
  let r := h.mkReply x.pkt.hub x.pkt.seq x.start tail (h.status x.stale x.range) rs
  let h := match x.pkt.src with
    | .lane _ => { h with pk := { h.pk with laneReply := some r } }
    | .tether => { h with pk := { h.pk with tetherReply := some r } }
  let h := if x.pkt.noReply then h else h.sendReply x.pkt.src r
  let waits := !x.pkt.noReply && ((!x.roles.isEmpty && !rdisc) || x.wkey == 2)
  let h := { h with pk := { h.pk with
    cur := none, apply := none
    roles := if rdisc then h.pk.roles else h.pk.roles ++ x.roles
    reset := h.pk.reset || x.wkey == 2
    awaitLane := if waits && x.pkt.src != Source.tether then h.pk.awaitLane ++ [r] else h.pk.awaitLane
    awaitTether := if waits && x.pkt.src == Source.tether then h.tether.out.length else h.pk.awaitTether } }
  let h := match x.ttLen with
    | some n => h.nextLength n
    | none => h
  let h := if x.addrSet then h.setFld F.HUB_ADDR_VALID 0 1 else h
  (h.setFld F.CP_STAT_EXEC 0 0).refreshCp

/-- Held writes of an ATOMIC packet are discarded (R400, R613). -/
def Hub.discards (h : Hub) (x : Exec) (stop : Nat × Nat) : Hub :=
  (if x.held.isEmpty then h else h.bump F.CP_ADISC_COUNT 0).finish { x with held := [] } (some stop) true

/-- Execution of the packet has ended (PACKET_END): an ATOMIC packet with held words waits for its apply boundary. -/
def Hub.packetEnds (h : Hub) : Hub :=
  match h.pk.cur with
  | none => h
  | some x =>
    if h.packetOver x then
      let h := { h with pk := { h.pk with freed := some h.slot } }
      match x.stop with
      | some s => if x.pkt.atomic then h.discards x s else h.finish x x.stop false
      | none =>
        if x.held.isEmpty then h.finish x none false
        else { h with pk := { h.pk with cur := none, apply := some x } }
    else h

/-- A packet that has executed for LIMIT slots stops at this instruction boundary (R397). Inside a procedure the index is that of
the CALL (R205). -/
def Hub.packetTimesOut (h : Hub) : Hub :=
  match h.pk.cur with
  | none => h
  | some x =>
    if h.fld F.CP_CFG_LIMIT 0 ≤ x.slots && h.bull.fg.wait == .run && !h.packetOver x then
      let ix := if 0x4000 ≤ h.bull.fg.pc then h.bull.fg.pc - 0x4000 else x.ix
      ({ h with pk := { h.pk with cur := some { x with stop := some (0x82, ix) } } }.bump F.CP_TIMEOUT_COUNT 0).packetEnds
    else h

/-! ### Apply of an ATOMIC packet (R398, R400, R613) -/

/-- The first held word that would be rejected now: its code, and the index of its instruction. -/
def Hub.heldRejected (h : Hub) (x : Exec) : Option (Nat × Nat) :=
  (x.held.find? fun w => h.rejects w.1 w.2.1 != 0).map fun w => (h.rejects w.1 w.2.1, w.2.2)

/-- The held words take effect, in the order they were written, as writes of the packet. -/
def Hub.applyHeld (h : Hub) (x : Exec) : Hub :=
  each x.held { h with pk := { h.pk with cur := some { x with held := [] } } } fun w h =>
    ({ h with pk := { h.pk with cur := h.pk.cur.map fun (y : Exec) => { y with ix := w.2.2 } } }).regWrite true w.1 w.2.1

/-- The apply boundary of an ATOMIC packet (ATOMIC_APPLY). Attention bits that events of the boundary have set, `new`, are not cleared by
its writes (R407), and its reply states the bits as they then stand (R408). -/
def Hub.atomicActs (h : Hub) (new : Nat) : Hub :=
  match h.pk.apply with
  | none => h
  | some x =>
    if h.mode ≠ x.mode then h.discards x (0x83, 0)
    else match h.heldRejected x with
      | some s => h.discards x s
      | none =>
        let h := ({ h with pk := { h.pk with apply := none } }).applyHeld x
        let h := if new = 0 then h else (h.setFld F.ATTN_STAT_STICKY 0 (h.fld F.ATTN_STAT_STICKY 0 ||| new)).refreshAttn
        h.finish (h.pk.cur.getD x) none false

/-! ### Replies that have left (R23) -/

/-- A record is the REPLY record of a reply: its slot and its body. The address in its header is that of its time. -/
def Hub.carriesReply (h : Hub) (r : Reply) (ws : List W64) : Bool :=
  let body := (h.replyRecord r).drop 1
  let hd := ws.headD 0
  hdrType hd == tReply && hdrSlot hd == r.slot.toNat % 2 ^ 24 && (ws.drop 1).take body.length == body

/-- A reply of this hub that goes out as a REPLY record is still inside it. -/
def Hub.replyInside (h : Hub) (r : Reply) : Bool :=
  decide (r ∈ h.pk.out) || (h.mule.recs.any fun x => h.carriesReply r x.ws) ||
    (h.cmp.waiting.any fun x => h.carriesReply r x.ws) || (h.cmp.job.any fun j => h.carriesReply r j.src.ws) ||
    (h.hen.pool.any fun x => h.carriesReply r x.ws) || (h.hen.front.any fun x => h.carriesReply r x.ws) ||
    (upto 24).any fun l => (h.lane l).tx.any fun a => h.carriesReply r a.r.ws

/-- The replies of the packets whose LANE_ROLE writes or warm reset wait have left (R23, R421). -/
def Hub.repliesLeft (h : Hub) : Bool := h.pk.awaitTether == 0 && h.pk.awaitLane.all fun r => !h.replyInside r

/-- The LANE_ROLE writes of a packet whose reply has left take effect (R23). -/
def Hub.rolesGo (h : Hub) : Hub :=
  if !h.pk.roles.isEmpty && h.repliesLeft then
    ({ h with pk := { h.pk with awaitLane := if h.pk.reset then h.pk.awaitLane else [] } }).rolesApply
  else h

/-! ### Commands -/

/-- PACKET_EXECUTE_START. The oldest packet starts, if it may at the boundary that opened this slot (R396). -/
def execPacketExecuteStart (s : State) : Host.Outcome State Fault Refusal := .next { s with hub := s.hub.packetStarts }

/-- PACKET_END. Execution of the packet has ended (R193, R205). -/
def execPacketEnd (s : State) : Host.Outcome State Fault Refusal := .next { s with hub := s.hub.packetEnds }

/-- PACKET_TIMEOUT (R397). -/
def execPacketTimeout (s : State) : Host.Outcome State Fault Refusal := .next { s with hub := s.hub.packetTimesOut }

/-- ATOMIC_APPLY. The apply boundary of an ATOMIC packet (R398, R400, R613). -/
def execAtomicApply (s : State) : Host.Outcome State Fault Refusal := goesOn s (s.hub.atomicActs 0)

/-- LANE_ROLE_APPLY. The LANE_ROLE writes of the packet that ended take effect, once its reply has been sent (R23). -/
def execLaneRoleApply (s : State) : Host.Outcome State Fault Refusal := goesOn s s.hub.rolesGo

/-- BG_TASK_START. The oldest queued background task starts (R221, R222). -/
def execBgTaskStart (s : State) : Host.Outcome State Fault Refusal := .next { s with hub := s.hub.taskStarts }

/-- BG_TASK_END. A background task that has reached 4400h ends (R193, R226). -/
def execBgTaskEnd (s : State) : Host.Outcome State Fault Refusal := .next { s with hub := s.hub.taskEnds }

end Sys2Proof.Machine
end

