-- ==== Sys2Proof/Machine/Modes.lean ====
section
/-! DEFINITION. The modes of the hub: which changes are allowed, what a change does, the order of requests at a boundary, and
HOLD with its quiet period (14_modes_start_and_consistency.md, 16_fault_collection.md "Quiet period and recovery"). -/

namespace Sys2Proof.Machine

/-! ### What a change of mode does -/

/-- The data path stops as the hub leaves CALIBRATE, RUN and DEGRADED (R145, R185, R244, R298). -/
def Hub.leaveRun (h : Hub) : Hub :=
  let h := (h.closeTrigs).chainStop
  let h := forN 17 h fun e h => h.oxStop e
  { h.drainStarts.rollRestart with rooster := { h.rooster with runTo := some h.slot } }

/-- A drain that has not ended yet ends before the data path starts again (R298, R299). -/
def Hub.drainForced (h : Hub) : Hub :=
  let h := h.drainEnds
  if h.mule.drain.isSome then h.drainCloses else h

/-- Words that an earlier run of the engines has pushed are in no HIT BLOCK of the new one (R615): the hit queues are flushed and
what the fallback buffers hold is dropped (notes/assumptions/79.md). -/
def Hub.oldWordsGo (h : Hub) : Hub := forN 16 h fun g h =>
  let h := if (h.queue g).ws.isEmpty then h else h.flush g
  let n := (h.oxOf g).fb.length
  if n = 0 then h else ((h.setOx g { h.oxOf g with fb := [] }).ledAdd 3 n).ledSub 0x10 n

/-- The data path starts at a boundary that enters CALIBRATE, RUN or DEGRADED (R145, R244, R615). `ran` says that it ran
before. DESIGN CHOICE: words already taken into HIT BLOCKs that are still open at a change from CALIBRATE to RUN go with those blocks,
of which the spec says nothing (notes/assumptions/79.md). -/
def Hub.enterRun (h : Hub) (ran : Bool) : Hub :=
  let h := if ran then h.closeTrigs else h.drainForced
  let h := if h.parked then h else h.chainStart (h.rooster.syncedAt == some h.slot)
  let h := forN 17 h fun e h => h.oxRestart e
  let h := if ran then h.oldWordsGo else { h with rooster := { h.rooster with runFrom := some h.slot, runTo := none } }
  let h := h.markContexts fun _ => true
  { h with mule := { h.mule with span := if h.parked then none else some (h.spanOf h.slot), blocks := [] } }

/-- Entry to SETUP: pending shadows go, every bank is unsealed, the compression engine is fenced no longer (R319), and the causes that
stand until SETUP end (R233, R439, R481). -/
def Hub.entersSetup (h : Hub) : Hub :=
  let h := forN 17 h.dropShadows fun e h => (h.setFld F.OX_STAT_ACT_SEALED e 0).setFld F.OX_STAT_STBY_SEALED e 0
  let h := each (h.goose.fenced.filter fun u => bits u.toNat 15 10 == 0xA) (h.setFld F.CMP_STAT_FENCED 0 0) fun u h => h.unfence u.toNat
  { h with goose := { h.goose with standing := h.goose.standing.filter fun c => !(c == 0x12 || c == 0x51) } }

/-- Whether a mode is one in which the data path runs. -/
def runs (m : Nat) : Bool := m == mCalibrate || m == mRun || m == mDegraded

/-- Between RUN and DEGRADED nothing restarts (R145, R244). -/
def takesHits (m : Nat) : Bool := m == mRun || m == mDegraded

/-- The mode changes to `m`; `cause` is HCAUSE on entry to HOLD (R415, R420). -/
def Hub.modeTo (h : Hub) (m cause : Nat) : Hub :=
  let was := h.mode
  let h := if was = mCalibrate then h.calLeaves else h
  let h := if was = mSetup then h.setFld F.RT_TSARM_ARM 0 0 else h
  let h := if runs was && !runs m then h.leaveRun else h
  let h := if m = mHold then
      let h := (h.setFld F.MODE_STAT_LEFT 0 was).setFld F.MODE_STAT_HCAUSE 0 cause
      { h with goose := { h.goose with quietFrom := h.slot } }
    else h
  let h := h.setFld F.MODE_STAT_MODE 0 m
  let h := if m = mSetup then h.entersSetup else h
  let h := if runs m && !(takesHits was && takesHits m) then h.enterRun (runs was) else h
  let h := if was = mUnloaded || m = mUnloaded then h.fePowerAll else h
  let h := if was = mHold && runs m then h.prepRestart else h.refreshPrep
  (h.refreshTrigs).twinMode m cause

/-! ### Which changes MODE may ask for (R416) -/

/-- The active bank of every engine that runs programs is sealed. -/
def Hub.banksSealed (h : Hub) : Bool := (upto 16).all fun g => !h.flag F.OX_CFG_EN g || h.flag F.OX_STAT_ACT_SEALED g

/-- A request that changes nothing: the mode in force, or RUN in DEGRADED. -/
def Hub.modeSame (h : Hub) (m : Nat) : Bool := m == h.mode || (m == mRun && h.mode == mDegraded)

/-- Whether MODE may ask for mode `m` (R416). -/
def Hub.modeAllowed (h : Hub) (m : Nat) : Bool :=
  let f := h.mode
  if h.modeSame m then true
  else if m = mSetup then (if f = mUnloaded then h.flag F.JNL_STAT_DONE 0 else true)
  else if m = mCalibrate then f == mSetup && !h.flag F.JNL_STAT_FATAL 0
  else if m = mRun then (f == mSetup || f == mCalibrate) && !h.flag F.JNL_STAT_FATAL 0 && h.banksSealed
  else if m = mHold then f != mUnloaded
  else false

/-! ### The quiet period and the way out of HOLD (R419, R480-R483) -/

/-- The quiet period in slots. -/
def Hub.quietSlots (h : Hub) : Nat := (roundDiv ((h.fld F.GS_QUIET_MS 0 * h.fld F.RT_BCFREQ_FREQ 0 : Nat) : Int) 1000).toNat

/-- The quiet period has passed, and no demand stands. -/
def Hub.quiet (h : Hub) : Bool := !h.ilk.demand && decide (h.quietSlots ≤ slotsFrom h.goose.quietFrom h.slot)

/-- The causes that still stand (R481). -/
def Hub.stillStanding (h : Hub) : List Nat :=
  h.goose.standing.filter fun c =>
    if c = 0x08 then h.noCrystal && !((h.parentsOf h.portInForce).any fun l => h.framed l)
    else if c = 0x21 then decide (2 ≤ ((upto 3).filter fun k => h.fenced (unitOf 3 k)).length)
    else true

/-- The hub was ordered into HOLD by MODE, and leaves it only by MODE. -/
def Hub.holdOrdered (h : Hub) : Bool := h.fld F.MODE_STAT_HCAUSE 0 == 4

/-- GS_STAT.STUCK, STANDING and QUIET. -/
def Hub.refreshHold (h : Hub) : Hub :=
  let h := { h with goose := { h.goose with standing := h.stillStanding } }
  let auto := h.mode == mHold && !h.holdOrdered
  let h := if auto && h.fld F.GS_STAT_RECOV 0 == h.fld F.GS_CFG_RLIMIT 0 then h.setFld F.GS_STAT_STUCK 0 1 else h
  (h.setFlag F.GS_STAT_QUIET 0 (auto && !h.quiet)).setFlag F.GS_STAT_STANDING 0 (auto && !h.goose.standing.isEmpty)

/-- Whether the hub leaves HOLD on its own at this boundary (R419). -/
def Hub.mayLeaveHold (h : Hub) : Bool :=
  h.mode == mHold && !h.holdOrdered && h.quiet && h.stillStanding.isEmpty &&
    decide (h.fld F.GS_STAT_RECOV 0 < h.fld F.GS_CFG_RLIMIT 0) && !h.flag F.GS_STAT_STUCK 0

/-- The hub leaves HOLD on its own (R419, R483). -/
def Hub.holdExits (h : Hub) : Hub :=
  if h.mayLeaveHold then
    let left := h.fld F.MODE_STAT_LEFT 0
    let h := h.setFld F.GS_STAT_RECOV 0 (h.fld F.GS_STAT_RECOV 0 + 1)
    h.modeTo (if left = mRun && h.degraded then mDegraded else left) 0
  else h

/-! ### Requests at a boundary (R417, R418) -/


/-- A change that MODE asked for (R416, R420). -/
def Hub.modeAsked (h : Hub) (m : Nat) : Hub :=
  if m = mHold then h.modeTo mHold 4
  else if m = mSetup then ((h.modeTo mSetup 0).setFld F.GS_STAT_RECOV 0 0).setFld F.GS_STAT_STUCK 0 0
  else h.modeTo (if m = mRun && h.degraded then mDegraded else m) 0

/-- The automatic changes: between RUN and DEGRADED, and out of HOLD. -/
def Hub.modeAuto (h : Hub) : Hub :=
  if h.mode = mRun && h.degraded then h.modeTo mDegraded 0
  else if h.mode = mDegraded && !h.degraded then h.modeTo mRun 0
  else h.holdExits

/-- HCAUSE of the first request for HOLD that is pending, if there is one (R417). -/
def Goose.holdCause (g : Goose) : Option Nat :=
  if g.fatal then some 1 else if g.demand then some 2 else if g.holdFc then some 3 else none

/-- The first change that applies at this boundary is made; every request is then done with (R417). In UNLOADED and HOLD a cause of
HOLD changes no mode; in HOLD it restarts the quiet period (R418). -/
def Hub.modeActs (h : Hub) : Hub :=
  let g := h.goose
  let h := { h with goose := { g with fatal := false, demand := false, holdFc := false, modeReq := none } }
  let hold := g.holdCause
  let h := if hold.isSome && h.mode = mHold then { h with goose := { h.goose with quietFrom := h.slot } } else h
  let h := match hold.filter fun _ => h.mode != mUnloaded && h.mode != mHold with
    | some c => h.modeTo mHold c
    | none => match g.modeReq.filter fun m => h.modeAllowed m && !h.modeSame m with
      | some m => h.modeAsked m
      | none => h.modeAuto
  h.refreshHold

/-- A HOLD request is pending. -/
def Hub.holdAsked (h : Hub) : Bool :=
  h.goose.fatal || h.goose.demand || h.goose.holdFc || h.goose.modeReq == some mHold

/-- A context that waits for a mode request goes on with the mode in force (R229, R417). -/
def Ctx.modeDone (c : Ctx) (m : Nat) : Ctx :=
  match c.wait with
  | .mode rd => { c with wait := .run, g := if rd = 0 then c.g else Store.set (fun _ => (0 : W32)) c.g rd (BitVec.ofNat 32 m) }
  | _ => c

/-- The MODE instructions that wait end (R417). -/
def Hub.modeWaits (h : Hub) : Hub :=
  { h with bull := { h.bull with fg := h.bull.fg.modeDone h.mode, bg := h.bull.bg.modeDone h.mode } }

/-- The change of mode by a command of its own, behind the boundary: outputs of a chain that starts take their positions now (R138). -/
def Hub.modeNow (h : Hub) (f : Hub → Hub) : Hub :=
  let h := f h
  if h.flag F.CHN_STAT_RUNNING 0 && h.chainSlots == 0 then h.fixAll else h

/-! ### Commands -/

/-- MODE_CHANGE. The change of mode due at this boundary (R415-R417). -/
def execModeChange (s : State) : Host.Outcome State Fault Refusal := .next { s with hub := s.hub.modeNow fun h => h.modeActs.modeWaits }

/-- HOLD_ENTRY. A pending request for HOLD is met (R417). -/
def execHoldEntry (s : State) : Host.Outcome State Fault Refusal :=
  .next { s with hub := if s.hub.holdAsked then s.hub.modeActs.modeWaits else s.hub }

/-- HOLD_EXIT. The hub leaves HOLD on its own, when no request stands before it (R417, R419). -/
def execHoldExit (s : State) : Host.Outcome State Fault Refusal :=
  .next { s with hub := if s.hub.holdAsked || s.hub.goose.modeReq.isSome then s.hub else s.hub.modeNow fun h => h.holdExits.refreshHold }

end Sys2Proof.Machine
end

