-- ==== Sys2Proof/Machine/Start.lean ====
section
/-! DEFINITION. Resets, the reset pin, the start steps and their journal, the repeated lane search, the recovery of the Bull pair,
and the test port (14_modes_start_and_consistency.md, 16_fault_collection.md R475, 22_electrical_package_radiation.md). -/

namespace Sys2Proof.Machine

/-! ### Resets (R7, R189, R421-R425, R589, R605, R610) -/

/-- The registers after a reset: Load values, but for the fields of the retention domain (R7). -/
def resetRegs (regs : Store W32) : Store W32 :=
  each regs [] fun e st =>
    let k := keepMask e.1
    Store.set loadWord st e.1 ((loadWord e.1 &&& ~~~k) ||| (e.2 &&& k))

/-- The row map after a reset: ROW and REP stay (R7, R491). -/
def resetBank (bank : Store W32) : Store W32 :=
  each bank [] fun e st =>
    if 0x3000000 ≤ e.1 && e.1 < 0x4000000 then Store.set bankLoad st e.1 (e.2 &&& 0x47FF#32) else st

/-- Every field at its Load value but the retention domain, and every store empty. A pin that is masked stays masked (R425). -/
def Hub.resetAll (h : Hub) : Hub :=
  let masked := h.flag F.RSTPIN_MASKED 0
  let h : Hub := { regs := resetRegs h.regs, bank := resetBank h.bank, ilk := h.ilk.reset, tap := h.tap, free := h.free
                   start := { held := true, off := h.start.off, pin := h.start.pin, added := h.start.added } }
  if masked then (h.setFld F.RSTPIN_MASKED 0 1).attnNow aResetStuck else h

/-- The test port holds the hub in reset while one of these instructions is in force (R596). -/
def Tap.holds (t : Tap) : Bool := t.ir == 0x00#8 || t.ir == 0x04#8 || t.ir == 0x05#8 || t.ir == 0x10#8 || t.ir == 0x11#8

/-- Something holds the hub in reset. -/
def Hub.holds (h : Hub) : Bool := h.start.off || (h.start.pin && !h.flag F.RSTPIN_MASKED 0) || h.tap.holds

/-- The start steps begin (R424, R426): CAUSE is recorded and the start counted. -/
def Hub.startBegins (h : Hub) (cause : Nat) : Hub :=
  let h := { h with start := { h.start with held := false } }
  ((h.setFld F.JNL_STAT_CAUSE 0 cause).setFld F.JNL_STAT_STARTS 0 (min 0xFFFF (h.fld F.JNL_STAT_STARTS 0 + 1))).ilkOwed

/-- A hub without power: nothing is kept but the level of RST_N, and the test port is reset (R589, R590). A masked pin that is high
again holds nothing once power has cleared MASKED. -/
def Hub.powerless (h : Hub) : Hub :=
  let low := h.start.pin && !(h.flag F.RSTPIN_MASKED 0 && h.flag F.RSTPIN_LEVEL 0)
  { regs := [], free := h.free, start := { held := true, off := true, pin := low } }

/-- Power-on: the straps are latched (R551), and the start steps begin unless something else holds the hub. A strap fault is counted and
reported as they begin (R567). -/
def Hub.powerOn (h : Hub) (straps : BitVec 6) : Hub :=
  let h := h.powerless
  let h := { h with start := { held := true, pin := h.start.pin } }
  let h := (h.setFld F.ILK_STRAP_LATCHED 0 straps.toNat).ilkSettle
  if h.holds then h else h.startBegins 0

/-- RST_N has been low for 2 ms (R423, R424); a masked pin is ignored. -/
def Hub.pinAsserts (h : Hub) : Hub :=
  if h.start.pin then h
  else
    let h := { h with start := { h.start with pin := true } }
    if h.start.off then h else h.resetAll.setFld F.JNL_STAT_CAUSE 0 2

/-- RST_N is released. The level of a masked pin shows, and nothing else follows (R424, R425). -/
def Hub.pinReleases (h : Hub) : Hub :=
  if h.flag F.RSTPIN_MASKED 0 then h.setFld F.RSTPIN_LEVEL 0 1
  else if h.start.pin then
    let h := { h with start := { h.start with pin := false } }
    if h.holds then h else h.startBegins 2
  else h

/-- RST_N has been asserted for 1 s: it is masked and the start steps begin (R425). Not while the test port holds the hub
(R596). -/
def Hub.pinMasks (h : Hub) : Hub :=
  if h.start.pin && !h.start.off && !h.tap.holds && !h.flag F.RSTPIN_MASKED 0 then
    ((h.setFld F.RSTPIN_MASKED 0 1).attnNow aResetStuck).startBegins 3
  else h

/-- A masked pin has been high for 100 ms: it is re-armed (R425). -/
def Hub.pinRearms (h : Hub) : Hub :=
  if h.flag F.RSTPIN_MASKED 0 then
    { (h.setFld F.RSTPIN_MASKED 0 0).setFld F.RSTPIN_LEVEL 0 1 with start := { h.start with pin := false } }
  else h

/-- A warm reset, once the packet that asked for it has ended and its reply has been handed upward (R421). -/
def Hub.warmReset (h : Hub) : Hub := if h.pk.reset && h.repliesLeft then h.resetAll.startBegins 1 else h

/-! ### The journal (R426-R434) -/

abbrev oPass : Nat := 0
abbrev oFail : Nat := 1
abbrev oAlternate : Nat := 2
abbrev oSkipped : Nat := 3

/-- Step `s` is in progress. -/
def Hub.atStep (h : Hub) (s : Nat) : Bool :=
  !h.start.held && !h.flag F.JNL_STAT_DONE 0 && !h.start.failed && h.fld F.JNL_STAT_STEP 0 == s

/-- Step `s` ends: its entry is written, with its duration of `dur` µs in whole 100 µs. -/
def Hub.stepEnds (h : Hub) (s outcome detail dur : Nat) : Hub :=
  let h := ((h.setFld F.JNL_STEP_OUTCOME s outcome).setFld F.JNL_STEP_RUN s 1).setFld F.JNL_STEP_DETAIL s (min 0xFF detail)
  let h := if outcome = oAlternate || outcome = oFail then h.setFld F.JNL_STEP_MARK s 1 else h
  h.setFld F.JNL_STEP_DUR s (min 0xFFFF (dur / 100))

/-- The start goes on with step `s`. -/
def Hub.goStep (h : Hub) (s : Nat) : Hub := h.setFld F.JNL_STAT_STEP 0 s

/-- S00: every power-good has held for 1 ms; the level of RST_N is known. -/
def Hub.s00 (h : Hub) (dur : Nat) : Hub :=
  if h.atStep 0 then (((h.setFlag F.RSTPIN_LEVEL 0 (!h.start.pin)).stepEnds 0 oPass 0 dur).goStep 1).monWake else h

/-- The start waits for its rerun. -/
def Hub.startFails (h : Hub) : Hub := { h with start := { h.start with failed := true } }

/-- S01: a crystal is chosen. With the mark set only XO_B is tried. -/
def Hub.s01 (h : Hub) (okA okB : Bool) (dur : Nat) : Hub :=
  if h.atStep 1 then
    let marked := h.flag F.JNL_STEP_MARK 1
    if okA && !marked then ((h.setFld F.RT_CLK_XO_SEL 0 0).stepEnds 1 oPass 0 dur).goStep 2
    else if okB then ((h.setFld F.RT_CLK_XO_SEL 0 1).stepEnds 1 oAlternate 1 dur).goStep 2
    else (h.stepEnds 1 oFail 1 dur).startFails
  else h

/-- S02: the root PLL locks, and the counters run (R605). With the mark set only band B is tried. -/
def Hub.s02 (h : Hub) (okA okB : Bool) (dur : Nat) : Hub :=
  if h.atStep 2 then
    let marked := h.flag F.JNL_STEP_MARK 2
    if okA && !marked || okB then
      let b := !(okA && !marked)
      let h := (h.setFlag F.RT_CLK_BAND 0 b).setFld F.RT_CLK_LOCK 0 1
      (({ h with rooster := { h.rooster with counting := true } }).stepEnds 2 (if b then oAlternate else oPass) (b2n b) dur).goStep 3
    else (h.stepEnds 2 oFail 1 dur).startFails
  else h

/-- The rerun of R427. -/
def Hub.startRerun (h : Hub) : Hub :=
  if h.start.failed then
    let h := forN 10 h fun s h => h.setFld F.JNL_STEP_RUN s 0
    ({ h with start := { h.start with failed := false } }).goStep 1
  else h

/-- Lanes whose ROLE is AUTO. -/
def Hub.autoLanes (h : Hub) : List Nat := (upto 24).filter fun l => h.fld F.LANE_ROLE_ROLE l == roleAuto

/-- A receiver that S03 has left on framing. -/
def Hub.frames (h : Hub) (l : Nat) : Hub :=
  let h := ((h.setFld F.LN_STAT_SIG l 1).setFld F.LN_STAT_LOCK l 1).setFld F.LN_STAT_ALIGNED l 1
  h.setLane l { h.lane l with lastOk := true, fails := 0, exp := none }

/-- S03: what the search found (R25, R428, R429). The rate is that of lane `first`, which found framing first: its RATE is written, and
the others run at it. Of the lanes that framed the 12 lowest become PARENT lanes of port 0 and begin training; the others stay OFF.
DESIGN CHOICE: in a repeated search, where lanes written PARENT are in force already, R25's 12 count the AUTO lanes alone and the
rate is still the one found; the spec says neither (notes/assumptions/74.md). -/
def Hub.s03 (h : Hub) (framed failed : BitVec 24) (rate : BitVec 2) (first : Nat) (dur : Nat) : Hub :=
  let auto := h.autoLanes
  let skip := h.fld F.JNL_LANES_SKIP 0
  let found := auto.filter fun l => framed.getLsbD l && !bit skip l
  let bad := auto.filter fun l => failed.getLsbD l && !framed.getLsbD l && !bit skip l
  if found.isEmpty || !(h.atStep 3 || h.start.again == 3) then h
  else
    let h := if first ∈ found then h.setFld F.LANE_ROLE_RATE first rate.toNat else h
    let h := { h with start := { h.start with found := found.take 12, foundRate := rate, atRate := found }
                      rooster := { h.rooster with noParent := 0 } }
    let h := (each (found.take 12) h fun l h => (h.frames l).takeRole l roleParent 0).standbys
    let plain := bad.isEmpty && !(auto.any fun l => bit skip l)
    let h := h.setFld F.JNL_LANES_SKIP 0 (skip ||| maskOf bad)
    let h := h.stepEnds 3 (if plain then oPass else oAlternate) found.length dur
    if h.start.again = 3 then { h with start := { h.start with again := 4 } } else h.goStep 4

/-- S04: the hub runs from the recovered clock and its grid is placed by the grid error of the timing lane (R39, R49); on the crystal
it takes its own slot boundaries (R607). -/
def Hub.s04 (h : Hub) (dur : Nat) : Hub :=
  if h.atStep 4 || h.start.again == 4 then
    if h.flag F.RT_CLK_GRID 0 || h.onCrystal || h.timingLane.isSome then
      let h := if h.flag F.RT_CLK_GRID 0 then h else h.stepGrid (if h.onCrystal then 0 else (h.timingLane.map h.thetaOf).getD 0)
      let h := h.stepEnds 4 oPass 0 dur
      if h.start.again = 4 then
        let h := { h with start := { h.start with again := 0 } }
        if h.flag F.JNL_STAT_DONE 0 && h.fld F.JNL_STEP_OUTCOME 3 != oPass then h.attn aJournal else h
      else h.goStep 5
    else h
  else h

/-- S05: the hub has its address (R30). -/
def Hub.s05 (h : Hub) (dur : Nat) : Hub :=
  if h.atStep 5 && h.flag F.HUB_ADDR_VALID 0 then (h.stepEnds 5 oPass 0 dur).goStep 6 else h

/-- S06 to S08 are SKIPPED in this start (R431). -/
def Hub.quick (h : Hub) : Bool := h.flag F.JNL_CTL_QUICK 0 && h.fld F.JNL_STAT_CAUSE 0 != 0

/-- A row of the repair list: memory, entry, row. -/
def Hub.listedRows (h : Hub) : List (Nat × Nat × Nat) :=
  h.bank.filterMap fun (e : Nat × W32) =>
    if 0x3000000 ≤ e.1 && e.1 < 0x4000000 && e.2.getLsbD 14 then
      some ((e.1 - 0x3000000) / 128, (e.1 - 0x3000000) % 128, bits e.2.toNat 10 0)
    else none

/-- A step of S06 to S08 applies its repair list before its test: its mark is set, it is skipped (R431), or the reserve manager has
added to the list since it last ran (R491). -/
def Hub.preMaps (h : Hub) (s : Nat) : Bool := h.quick || h.flag F.JNL_STEP_MARK s || decide (s ∈ h.start.added)

/-- The step has run: what the reserve manager had added is known to it. -/
def Hub.listRead (h : Hub) (s : Nat) : Hub := { h with start := { h.start with added := h.start.added.filter fun k => k != s } }

/-- The rows of the repair list are mapped. Of several entries for one row the last was the one that served it. -/
def Hub.mapListed (h : Hub) : Hub :=
  let l := h.listedRows
  each l h fun e h =>
    let later := l.any fun f => f.1 == e.1 && f.2.2 == e.2.2 && decide (e.2.1 < f.2.1)
    h.setRow e.1 e.2.1 e.2.2 (if later then 3 else 2)

/-- Rows mapped in all memories. -/
def Hub.rowsMapped (h : Hub) : Nat :=
  (h.bank.filter fun (e : Nat × W32) => 0x3000000 ≤ e.1 && e.1 < 0x4000000 && bits e.2.toNat 13 12 == 2).length

/-- A failing row is mapped to a spare row; `none` in the second place when it was, else the memory that has no spare left. -/
def Hub.mapRow (h : Hub) (mem row : Nat) : Hub × Option Nat :=
  if spareRows mem = 0 || (h.rowEntry mem row).isSome then (h, none)
  else
    let own := (upto (spareRows mem)).find? fun r => bits (h.bankWord (rowKey mem r)).toNat 14 10 == 16 &&
      bits (h.bankWord (rowKey mem r)).toNat 10 0 == row
    let unlisted := (upto (spareRows mem)).find? fun r => bits (h.bankWord (rowKey mem r)).toNat 14 12 == 0
    match own <|> unlisted <|> h.freeRow mem with
    | some r => (h.setRow mem r row 2, none)
    | none => (h, some mem)

/-- A memory that could not be repaired for want of a spare for `row` (R430): a latency bank or record memory is fatal, with the
first word of that row (R468); any other unit is fenced. -/
def Hub.memoryLost (h : Hub) (mem row : Nat) : Hub :=
  if mem ≤ 0x10 then
    (h.report { mkReport 0x51 (unitOf 2 mem) with addr := BitVec.ofNat 24 (row * rowWords mem) }).setFld F.JNL_STAT_FATAL 0 1
  else (h.listFence (unitOf 2 mem) false).refreshDegr

/-- S06: the memories (R426, R429-R431). -/
def Hub.s06 (h : Hub) (rows : List (Nat × Nat)) (dur : Nat) : Hub :=
  if h.atStep 6 then
    let h := (if h.preMaps 6 then h.mapListed else h).listRead 6
    if h.quick then (h.stepEnds 6 oSkipped h.rowsMapped dur).goStep 7
    else
      let (h, lost) := rows.foldl (fun (a : Hub × List (Nat × Nat)) r =>
        let (h, m) := a.1.mapRow r.1 r.2
        (h, if m.isSome && !(a.2.any fun x => x.1 == r.1) then a.2 ++ [r] else a.2)) (h, [])
      let n := h.rowsMapped
      let h := each lost h fun m h => h.memoryLost m.1 m.2
      (h.stepEnds 6 (if !lost.isEmpty then oFail else if n = 0 then oPass else oAlternate) n dur).goStep 7
  else h

/-- A line that failed S07 while the other line of its TDC is good is fenced (R430, R604). -/
def Hub.lineLost (h : Hub) (p : Nat) (line : Bool) : Hub :=
  (if line then h.setFld F.RS_DSLOT_L1F p 1 else h.setFld F.RS_DSLOT_L0F p 1).listFence (unitOf (if line then 7 else 6) p)
    (h.flag F.RS_DSLOT_LINE p != line)

/-- S07: the delay lines. `bad` holds the lines that failed; a TDC of the repair list starts on its standby line, line 1. A TDC runs on
the line that did not fail, and the failing line is fenced; with both lines bad the digitiser slot is fenced too, and line 0 of a slot in
service counts as not replaced (R430, R604). -/
def Hub.s07 (h : Hub) (bad : List (Nat × Bool)) (dur : Nat) : Hub :=
  if h.atStep 7 then
    let bad := if h.quick then [] else bad
    let pre := h.preMaps 7
    let fails (p : Nat) (line : Bool) : Bool := bad.any fun b => b.1 == p && b.2 == line
    let dead (p : Nat) : Bool := fails p false && fails p true
    let off (p : Nat) : Bool := fails p false || (pre && h.flag F.RS_DSLOT_TREP p && !fails p true)
    let moved := (upto 544).filter fun p => off p && !dead p
    let lost := (upto 544).filter dead
    let one := (upto 544).filter fun p => fails p false != fails p true
    let unserved := lost.any fun p => (h.channelOf p).isSome
    let h := each moved (h.listRead 7) fun p h => (h.setFld F.RS_DSLOT_LINE p 1).setFld F.RS_DSLOT_TREP p 1
    let h := each one h fun p h => h.lineLost p (fails p true)
    let h := each ((upto 544).filter fun p => p ∈ moved || p ∈ one) h fun p h =>
      match h.channelOf p with
      | some c => h.refreshTdc c
      | none => h
    let h := if (moved.isEmpty && lost.isEmpty) then h else each one h fun p h => h.setFld F.RS_DSLOT_TREP p 1
    let h := each lost h fun p h =>
      let h := ((h.setFld F.RS_DSLOT_L0F p 1).setFld F.RS_DSLOT_L1F p 1).setFld F.RS_DSLOT_TREP p 1
      (((h.listFence (unitOf 6 p) (h.channelOf p).isNone).listFence (unitOf 7 p) true).fenceDslot p).refreshDegr
    let outcome := if h.quick then oSkipped else if unserved then oFail else if moved.isEmpty then oPass else oAlternate
    (h.stepEnds 7 outcome moved.length dur).goStep 8
  else h

/-- The slot of a channel is swapped to a free spare of its group that is good; whether one was found. -/
def Hub.preSwap (h : Hub) (bad : List Nat) (p : Nat) : Hub × Bool :=
  let g := p / 34
  match h.channelOf p with
  | none => (h.setFld F.RS_DSLOT_STATE p 3, true)
  | some c =>
    match [32, 33].find? fun s => h.fld F.RS_DSLOT_STATE (34 * g + s) == 0 && !h.flag F.RS_DSLOT_FENCED (34 * g + s)
        && !h.flag F.RS_DSLOT_DREP (34 * g + s) && !(34 * g + s ∈ bad) with
    | some s =>
      let h := (h.setFld F.RS_DSLOT_STATE p 3).setFld F.RS_DSLOT_DREP p 1
      ((h.setFld F.RS_DSLOT_STATE (34 * g + s) 1).serve c s, true)
    | none => (h, false)

/-- S08: the digitisers. Slots of the repair list are swapped to spares before the test (R91); a failing one that no spare can
replace is reported and fenced (R430). -/
def Hub.s08 (h : Hub) (bad : List Nat) (dur : Nat) : Hub :=
  if h.atStep 8 then
    let bad := if h.quick then [] else bad
    let pre := h.preMaps 8
    let h := h.listRead 8
    let todo := (upto 544).filter fun p => (pre && h.flag F.RS_DSLOT_DREP p) || p ∈ bad
    let homes := todo.filter fun p => decide (p % 34 < 32)
    let spares := todo.filter fun p => decide (32 ≤ p % 34)
    let h := each spares h fun p h => (h.setFld F.RS_DSLOT_STATE p 3).setFld F.RS_DSLOT_DREP p 1
    let (h, lost, n) := homes.foldl (fun (a : Hub × List Nat × Nat) p =>
      let (h, ok) := a.1.preSwap bad p
      if ok then (h, a.2.1, a.2.2 + 1) else (h, a.2.1 ++ [p], a.2.2)) (h, [], 0)
    let h := each lost h fun p h => h.report (mkReport 0x31 (unitOf 5 p))
    let h := each (spares.filter fun p => p ∈ bad) h fun p h => h.report (mkReport 0x31 (unitOf 5 p))
    let outcome := if h.quick then oSkipped else if !lost.isEmpty then oFail else if n = 0 then oPass else oAlternate
    (h.stepEnds 8 outcome n dur).goStep 9
  else h

/-- S09: the straps, and the end of the start (R434). -/
def Hub.s09 (h : Hub) (read1 read2 : BitVec 6) (dur : Nat) : Hub :=
  if h.atStep 9 then
    let own := BitVec.ofNat 6 (h.fld F.ILK_STRAP_LATCHED 0)
    let ok := read1 == own && read2 == own
    let h := (h.stepEnds 9 (if ok then oPass else oFail) read2.toNat dur).setFlag F.ILK_STAT_S09OK 0 ok
    let h := (h.setFld F.JNL_STAT_DONE 0 1).goStep 0xF
    if (upto 10).any fun s => h.fld F.JNL_STEP_OUTCOME s != oPass then h.attn aJournal else h
  else h

/-! ### The repeated lane search (R26, R432) -/

/-- R26 applies: no PARENT lane has had framing for 1,024 slots. DESIGN CHOICE: S03 ends only once an AUTO lane has framing (R428), so a
repeated search that no AUTO lane ends goes on, also after a lane written PARENT has framing again, and R26 is not due again
meanwhile; the spec does not say when such a search ends (notes/assumptions/74.md). -/
def Hub.searchDue (h : Hub) : Bool :=
  (h.mode == mUnloaded || h.mode == mSetup) && !h.start.held && h.pastS03 && h.start.again != 3 && !h.start.failed &&
    decide (1024 ≤ h.rooster.noParent) && !(h.parents.any fun l => h.framed l)

/-- The lanes take their roles anew, and S03 and S04 are repeated. DESIGN CHOICE: an AUTO lane, which becomes OFF, keeps its old
ACT_PORT, since R26 names ACT_ROLE alone (notes/assumptions/74.md). -/
def Hub.searchAgain (h : Hub) : Hub :=
  if h.searchDue then
    let h := { h with rooster := { h.rooster with noParent := 0 }, start := { h.start with found := [], atRate := [] } }
    let h := forN 24 h fun l h =>
      let role := h.fld F.LANE_ROLE_ROLE l
      let (r, p) := if role = roleAuto then (roleOff, h.fld F.LANE_ROLE_ACT_PORT l) else (role, h.fld F.LANE_ROLE_PORT l)
      if h.role l = r && h.fld F.LANE_ROLE_ACT_PORT l = p && !h.flag F.LN_STAT_FENCED l then h else h.takeRole l r p
    let h := h.standbys
    if h.atStep 4 then h.goStep 3 else { h with start := { h.start with again := 3 } }
  else h

/-! ### The Bull pair (R475) -/

/-- The packet or task in progress ends as if its instruction had raised UNCORR. -/
def Hub.pairStops (h : Hub) : Hub :=
  match h.bull.task with
  | some _ => if h.fgYields then h.bgTaskException 5 else h.fgException 5
  | none =>
    match h.pk.cur with
    | some x => if x.stop.isSome then h else h.fgException 5
    | none => h

/-- A lockstep mismatch, or the self-check after a report of one, with the outcome of the self-check of the first and second
core of the pair: the failing core is fenced, or the first when neither fails, and the spare core takes its place; without a
free one the report is fatal. -/
def Hub.lockstep (h : Hub) (badA badB : Bool) : Hub :=
  let a := h.bull.pairA.val
  let b := h.bull.pairB.val
  let gone := if badB && !badA then b else a
  let stay := if gone = a then b else a
  let spare := (upto 3).find? fun k => k != a && k != b && !h.fenced (unitOf 3 k)
  let told := h.bull.stopped
  let h := { h with bull := { h.bull with stopped := false } }
  let h := match spare with
    | some k =>
      let h := (if told then h else h.report (mkReport 0x20 (unitOf 3 gone))).listFence (unitOf 3 gone) false
      let lo := min stay k
      let hi := max stay k
      ({ h with bull := { h.bull with pairA := Fin.ofNat 3 lo, pairB := Fin.ofNat 3 hi } }).setFld F.RS_STAT_BCFREE 0 0
    | none =>
      let h := (h.report (mkReport 0x21 (unitOf 3 gone))).listFence (unitOf 3 gone) false
      { h with bull := { h.bull with pairA := Fin.ofNat 3 stay, pairB := Fin.ofNat 3 gone } }
  h.pairStops.refreshDegr

/-! ### The test port (R595, R596) -/

/-- The cells of BIAS0_EN, BIAS1_EN and ILK_OK, which only capture. -/
def ilkCells : BitVec 136 := BitVec.ofNat 136 (63 * 2 ^ 87)

/-- An instruction takes force at the test port. Entering one that holds the hub resets it; leaving those lets the start steps
run. -/
def Hub.tapTo (h : Hub) (t : Tap) : Hub :=
  let was := h.tap.holds
  let h := { h with tap := t }
  if t.holds && !was then
    if h.start.off then h else h.resetAll.setFld F.JNL_STAT_CAUSE 0 2
  else if was && !t.holds && !h.holds then h.startBegins 2
  else h

/-- The boundary register captures the balls and is loaded with what was shifted in. -/
def Tap.scan (t : Tap) (ir : W8) (balls shifted : BitVec 136) : Tap :=
  { t with ir := ir, captured := balls, cells := (shifted &&& ~~~ilkCells) ||| (balls &&& ilkCells) }

/-! ### Commands -/

/-- POWER_ON (R589). -/
def execPowerOn (straps : BitVec 6) (s : State) : Host.Outcome State Fault Refusal := goesOn s (s.hub.powerOn straps)

/-- SUPPLY_BELOW_FALLING_THRESHOLD (R589, R590). -/
def execSupplyBelowFallingThreshold (s : State) : Host.Outcome State Fault Refusal := .next { s with hub := s.hub.powerless }

/-- RST_N_ASSERT (R423, R424). -/
def execRstNAssert (s : State) : Host.Outcome State Fault Refusal := .next { s with hub := s.hub.pinAsserts }

/-- RST_N_RELEASE (R424). -/
def execRstNRelease (s : State) : Host.Outcome State Fault Refusal := goesOn s s.hub.pinReleases

/-- RST_N_MASK (R425). -/
def execRstNMask (s : State) : Host.Outcome State Fault Refusal := goesOn s s.hub.pinMasks

/-- RST_N_REARM (R425). -/
def execRstNRearm (s : State) : Host.Outcome State Fault Refusal := .next { s with hub := s.hub.pinRearms }

/-- WARM_RESET (R421). -/
def execWarmReset (s : State) : Host.Outcome State Fault Refusal := goesOn s s.hub.warmReset

/-- S00_POWER_GOOD (R426). -/
def execS00PowerGood (dur : Nat) (s : State) : Host.Outcome State Fault Refusal := .next { s with hub := s.hub.s00 dur }

/-- S01_CRYSTAL_CHECK (R426). -/
def execS01CrystalCheck (okA okB : Bool) (dur : Nat) (s : State) : Host.Outcome State Fault Refusal :=
  .next { s with hub := s.hub.s01 okA okB dur }

/-- S02_PLL_LOCK (R426, R605). -/
def execS02PllLock (okA okB : Bool) (dur : Nat) (s : State) : Host.Outcome State Fault Refusal :=
  .next { s with hub := s.hub.s02 okA okB dur }

/-- START_RERUN (R427). -/
def execStartRerun (s : State) : Host.Outcome State Fault Refusal := .next { s with hub := s.hub.startRerun }

/-- S03_LANE_SEARCH (R428). -/
def execS03LaneSearch (framed failed : BitVec 24) (found : Found) (dur : Nat) (s : State) :
    Host.Outcome State Fault Refusal :=
  .next { s with hub := s.hub.s03 framed failed found.rate found.first.val dur }

/-- S04_GRID_PLACE (R426). -/
def execS04GridPlace (dur : Nat) (s : State) : Host.Outcome State Fault Refusal := .next { s with hub := s.hub.s04 dur }

/-- S05_ADDRESS (R30). -/
def execS05Address (dur : Nat) (s : State) : Host.Outcome State Fault Refusal := .next { s with hub := s.hub.s05 dur }

/-- S06_MEMORY_TEST: the failing rows, as memory and row (R426, R430). -/
def execS06MemoryTest (rows : List (BitVec 10 × BitVec 11)) (dur : Nat) (s : State) : Host.Outcome State Fault Refusal :=
  goesOn s (s.hub.s06 (rows.map fun r => (r.1.toNat, r.2.toNat)) dur)

/-- S07_TDC_CHECK: the lines that failed (R426, R430). -/
def execS07TdcCheck (bad : List (Fin 544 × Bool)) (dur : Nat) (s : State) : Host.Outcome State Fault Refusal :=
  .next { s with hub := s.hub.s07 (bad.map fun b => (b.1.val, b.2)) dur }

/-- S08_DIGITISER_TEST: the digitiser slots that failed (R426, R430). -/
def execS08DigitiserTest (bad : List (Fin 544)) (dur : Nat) (s : State) : Host.Outcome State Fault Refusal :=
  goesOn s (s.hub.s08 (bad.map fun p => p.val) dur)

/-- S09_STRAP_CHECK (R426, R434). -/
def execS09StrapCheck (read1 read2 : BitVec 6) (dur : Nat) (s : State) : Host.Outcome State Fault Refusal :=
  .next { s with hub := s.hub.s09 read1 read2 dur }

/-- LANE_SEARCH_REPEAT (R26, R432). -/
def execLaneSearchRepeat (s : State) : Host.Outcome State Fault Refusal := .next { s with hub := s.hub.searchAgain }

/-- LOCKSTEP_RECOVERY (R475). -/
def execLockstepRecovery (badA badB : Bool) (s : State) : Host.Outcome State Fault Refusal :=
  goesOn s (s.hub.awake (s.hub.lockstep badA badB))

/-- TAP_RESET: the TAP returns to IDCODE (R595). -/
def execTapReset (s : State) : Host.Outcome State Fault Refusal :=
  goesOn s (s.hub.tapTo { s.hub.tap with ir := 0x01, dr := 0x1512455F })

/-- EXTEST (R596). -/
def execExtest (balls shifted : BitVec 136) (s : State) : Host.Outcome State Fault Refusal :=
  goesOn s (s.hub.tapTo (s.hub.tap.scan 0x00 balls shifted))

/-- IDCODE (R595). -/
def execIdcode (s : State) : Host.Outcome State Fault Refusal :=
  goesOn s (s.hub.tapTo { s.hub.tap with ir := 0x01, dr := 0x1512455F })

/-- SAMPLE_PRELOAD (R595). -/
def execSamplePreload (balls shifted : BitVec 136) (s : State) : Host.Outcome State Fault Refusal :=
  goesOn s (s.hub.tapTo (s.hub.tap.scan 0x02 balls shifted))

/-- CLAMP: the outputs are held from the boundary register, and BYPASS is selected (R596). -/
def execClamp (s : State) : Host.Outcome State Fault Refusal :=
  goesOn s (s.hub.tapTo { s.hub.tap with ir := 0x04, dr := 0 })

/-- HIGHZ (R596). -/
def execHighz (s : State) : Host.Outcome State Fault Refusal :=
  goesOn s (s.hub.tapTo { s.hub.tap with ir := 0x05, dr := 0 })

/-- EXTEST_PULSE (R596). -/
def execExtestPulse (balls shifted : BitVec 136) (s : State) : Host.Outcome State Fault Refusal :=
  goesOn s (s.hub.tapTo (s.hub.tap.scan 0x10 balls shifted))

/-- EXTEST_TRAIN (R596). -/
def execExtestTrain (balls shifted : BitVec 136) (s : State) : Host.Outcome State Fault Refusal :=
  goesOn s (s.hub.tapTo (s.hub.tap.scan 0x11 balls shifted))

/-- BYPASS (R595). -/
def execBypass (s : State) : Host.Outcome State Fault Refusal :=
  goesOn s (s.hub.tapTo { s.hub.tap with ir := 0xFF, dr := 0 })

end Sys2Proof.Machine
end

