-- ==== Sys2Proof/Machine/Operands.lean ====
section
/-! DEFINITION. The operands of Belouz instructions: registers, immediates, lanes of vectors, words of data memory and
their addresses (07_belouz_instruction_set.md, "Cores, registers and memories", "Address spaces", "Encoding"). -/

namespace Sys2Proof.Machine

/-! ### Contexts -/

/-- The Bull pair executes it. -/
def onBull (w : Who) : Bool :=
  match w with
  | .bullFg => true
  | .bullBg => true
  | .oxSlot _ => false
  | .oxBg _ => false

/-- It is a background context. -/
def inBackground (w : Who) : Bool :=
  match w with
  | .bullFg => false
  | .bullBg => true
  | .oxSlot _ => false
  | .oxBg _ => true

/-- Logical number of the engine; 0 on Bull. -/
def engineOf (w : Who) : Nat :=
  match w with
  | .bullFg => 0
  | .bullBg => 0
  | .oxSlot e => e.val
  | .oxBg e => e.val

/-- Code of a context as producer or consumer of queues (R267). -/
def programCode (w : Who) : Nat :=
  match w with
  | .bullFg => 0x30
  | .bullBg => 0x31
  | .oxSlot e => 0x10 + e.val
  | .oxBg e => 0x20 + e.val

/-- What an instruction sees: the hub, and its context as it was before the bundle (R201). -/
structure Env where
  hub : Hub
  who : Who
  ctx : Ctx
  deriving DecidableEq, Repr

/-! ### Registers (R188, R190) -/

/-- What a general register reads as. -/
def Ctx.gr (c : Ctx) (r : Nat) : W32 := if r = 0 then 0 else Store.get (fun _ => (0 : W32)) c.g r

/-- A write of a vector register. -/
def Ctx.setV (c : Ctx) (r : Nat) (w : Vec) : Ctx := { c with v := Store.set (fun _ => (0 : Vec)) c.v r w }

/-- A write of a mask register. -/
def Ctx.setM (c : Ctx) (r : Nat) (w : W32) : Ctx := { c with m := Store.set (fun _ => (0 : W32)) c.m r w }

/-- Registers as an instruction reads them. -/
def Env.g (n : Env) (r : BitVec 5) : W32 := n.ctx.gr r.toNat
def Env.v (n : Env) (r : Nat) : Vec := Store.get (fun _ => (0 : Vec)) n.ctx.v r
def Env.m (n : Env) (r : Nat) : W32 := Store.get (fun _ => (0 : W32)) n.ctx.m r

/-- Lane `c` of a vector. -/
def lane16 (v : Vec) (c : Nat) : Nat := (v.extractLsb' (16 * c) 16).toNat

/-- The vector whose lane `c` holds `f c` modulo 2^16. -/
def vecOf (f : Nat → Nat) : Vec := BitVec.ofNat 512 ((upto 32).foldl (fun a c => a + f c % 65536 * 2 ^ (16 * c)) 0)

/-- The mask whose bit `c` is `f c`. -/
def mask32 (f : Nat → Bool) : W32 := BitVec.ofNat 32 (maskOf ((upto 32).filter f))

/-- imm10 sign-extended to 32 bits, and zero-extended (R198). -/
def sx10 (imm : BitVec 10) : W32 := imm.signExtend 32
def zx10 (imm : BitVec 10) : W32 := imm.setWidth 32

/-! ### Data memory (R195) -/

/-- Words of the core's data memory. -/
def Env.dataWords (n : Env) : Nat := if onBull n.who then 16384 else 2048

/-- A word of the core's data memory. -/
def Env.data (n : Env) (w : Nat) : W32 :=
  if onBull n.who then Store.get (fun _ => (0 : W32)) n.hub.bull.dmem w
  else Store.get (fun _ => (0 : W32)) (n.hub.oxOf (engineOf n.who)).dmem w

/-- Address of a load or store: g[rs1] + sext(imm10) × size, in 32 bits. -/
def Env.addr (n : Env) (rs1 : BitVec 5) (imm : BitVec 10) (size : Nat) : Nat :=
  (n.g rs1 + sx10 imm * BitVec.ofNat 32 size).toNat

/-- The exception of an access of `len` bytes that needs a multiple of `size` (R195): 0 none. -/
def Env.badAddr (n : Env) (a size len : Nat) : Nat :=
  if 4 * n.dataWords < a + len then 4 else if a % size ≠ 0 then 3 else 0

/-- The bytes of a word from byte `b` on, `size` of them, as a number. -/
def partOf (w : W32) (b size : Nat) : Nat := bits w.toNat (8 * b + 8 * size - 1) (8 * b)

/-- A word with `size` bytes from byte `b` on replaced. -/
def withPart (w : W32) (b size v : Nat) : W32 :=
  BitVec.ofNat 32 (w.toNat % 2 ^ (8 * b) + v % 2 ^ (8 * size) * 2 ^ (8 * b)
    + w.toNat / 2 ^ (8 * b + 8 * size) * 2 ^ (8 * b + 8 * size))

/-! ### What an instruction does -/

/-- It raises an exception and does nothing else. -/
def Act.fails (code : Nat) : Act := { exc := code }

/-- It writes one general register. -/
def Act.toG (rd : BitVec 5) (w : W32) : Act := { g := [(rd.toNat, w)] }

/-- It writes a pair of general registers: the lower half of a 64-bit word in the first (R209). -/
def Act.toPair (rd : BitVec 5) (w : W64) : Act := { g := [(rd.toNat, loWord w), (rd.toNat + 1, hiWord w)] }

/-- A register that names a pair: even, from g2 to g28 (R209). -/
def pairReg (rd : BitVec 5) : Bool := decide (2 ≤ rd.toNat) && decide (rd.toNat ≤ 28) && rd.toNat % 2 == 0

/-- A check of an instruction's fields ahead of its effect: ILLEGAL where it fails (R197). -/
def Act.legal (ok : Bool) (a : Act) : Act := if ok then a else Act.fails 1

end Sys2Proof.Machine
end

