-- ==== Sys2Proof/Machine/Flags.lean ====
section
/-! DEFINITION. The results of Belouz operations and the bits of CS that they set: register ALU, saturation, vector lanes,
compares, reductions (07_belouz_instruction_set.md, "The core status word", "Scalar instructions", "Vector instructions"). -/

namespace Sys2Proof.Machine

/-! ### CS -/

abbrev csVSAT : W32 := 1#32
abbrev csASAT : W32 := 2#32
abbrev csQE : W32 := 4#32
abbrev csQL : W32 := 8#32
abbrev csQD : W32 := 16#32

/-- CS as an instruction reads it (R204). -/
def Env.cs (n : Env) : W32 :=
  csShown n.ctx.cs (inBackground n.who) (if onBull n.who then 0x20 else n.hub.oxId (engineOf n.who))

/-- CS after an instruction: the bits it clears, then the bits it sets. -/
def Ctx.flags (c : Ctx) (clr set : W32) : Ctx := { c with cs := (c.cs &&& ~~~clr) ||| set }

/-! ### Scalar results -/

/-- 1 for true, as a register value. -/
def truth (b : Bool) : W32 := if b then 1#32 else 0#32

/-- A sum or difference of signed values saturated to s32, and whether it saturated. -/
def sat32 (x : Int) : W32 × Bool := (BitVec.ofInt 32 (satS 32 x), satS 32 x != x)

/-- High 32 bits of the signed product, and of the unsigned product. -/
def highSigned (a b : W32) : W32 := BitVec.ofInt 32 (a.toInt * b.toInt / (2 ^ 32 : Nat))
def highUnsigned (a b : W32) : W32 := BitVec.ofNat 32 (a.toNat * b.toNat / 2 ^ 32)

/-- Leading zeros of a word. -/
def leadingZeros (a : W32) : Nat := (((upto 32).filter fun k => a.toNat / 2 ^ (31 - k) == 0).length)

/-- Set bits of a word. -/
def setBits (a : W32) : Nat := ((upto 32).filter fun k => bit a.toNat k).length

/-- Lowest set bit of a word, or 32. -/
def lowestBit (a : W32) : Nat := ((upto 32).find? fun k => bit a.toNat k).getD 32

/-- The field of `w` bits from bit `p` on; bits above bit 31 are not taken. -/
def fieldOf (a : W32) (p w : Nat) : Nat := a.toNat / 2 ^ p % 2 ^ w

/-- The field sign-extended from its top bit, or from bit 31 where it reaches beyond. -/
def fieldSigned (a : W32) (p w : Nat) : W32 := BitVec.ofInt 32 (signed (min w (32 - p)) (fieldOf a p w))

/-- A register with the field of `w` bits from bit `p` on replaced. -/
def withField (old new : W32) (p w : Nat) : W32 :=
  let m : W32 := BitVec.ofNat 32 ((2 ^ w - 1) * 2 ^ p)
  (old &&& ~~~m) ||| (BitVec.ofNat 32 (new.toNat * 2 ^ p) &&& m)

/-! ### Vector results -/

/-- A lane as a signed number. -/
def lane16s (v : Vec) (c : Nat) : Int := signed 16 (lane16 v c)

/-- A lane operation: its result, and whether it saturated (R236, R237). -/
abbrev LaneOp := Nat → Nat → Nat × Bool

/-- A lane operation that never saturates. -/
def plainOp (f : Nat → Nat → Nat) : LaneOp := fun a b => (f a b % 65536, false)

/-- A lane operation on signed values, saturated to s16. -/
def satOpS (f : Int → Int → Int) : LaneOp := fun a b =>
  let x := f (signed 16 a) (signed 16 b)
  (field 16 (satS 16 x), satS 16 x != x)

/-- A lane operation on unsigned values, saturated to u16. -/
def satOpU (f : Int → Int → Int) : LaneOp := fun a b =>
  let x := f a b
  (satU 16 x, (satU 16 x : Int) != x)

/-- The relation of VCMP that fn[2:0] names. -/
def relation (k a b : Nat) : Bool :=
  match k with
  | 0 => a == b
  | 1 => a != b
  | 2 => decide (signed 16 a < signed 16 b)
  | 3 => decide (a < b)
  | 4 => decide (signed 16 b ≤ signed 16 a)
  | 5 => decide (b ≤ a)
  | 6 => decide (signed 16 b < signed 16 a)
  | _ => decide (b < a)

/-- The lanes that a predicate leaves in (R236): fn[9] is `pr` bit 2, the mask is `pr` bits 1-0. -/
def Env.takes (n : Env) (pr : BitVec 3) (c : Nat) : Bool := !pr.getLsbD 2 || bit (n.m (pr.toNat % 4)).toNat c

/-- fn[8:7] is zero when fn[9] is 0 (R236). -/
def predOk (pr : BitVec 3) : Bool := pr.getLsbD 2 || pr == 0#3

/-- A vector or mask register field: the bits above it are zero. -/
def vReg (r : BitVec 5) : Bool := decide (r.toNat < 8)
def mReg (r : BitVec 5) : Bool := decide (r.toNat < 4)

end Sys2Proof.Machine
end

