-- ==== Sys2Proof/Machine/Belouz.lean ====
section
/-! DEFINITION. How a Belouz instruction runs: when its context can run, what its fetch and its loads find, the checks that come
before its effect, how its effect is entered, and how an exception is taken (07_belouz_instruction_set.md "Execution",
08_ox_engine_programming.md). The meanings of the instructions are in Scalar, Control, Params, System, Vector and Assist.

The instruction of a command is the one that its context has fetched: the words of the memories are not compared with it
(notes/assumptions/4.md). -/

namespace Sys2Proof.Machine

/-! ### Check bits (R191) -/

/-- UNIT index of a core's instruction or data memory, and the initiator number of the core (R465). -/
def Hub.memIndex (h : Hub) (w : Who) (code : Bool) : Nat :=
  if onBull w then (if code then 0x20 else 0x21) else 0x40 + h.oxId (engineOf w)

/-- The initiator number of the core that executes (R465). -/
def Hub.masterOf (h : Hub) (w : Who) : Nat := if onBull w then 1 + h.bull.pairA.val else 0x10 + h.oxId (engineOf w)

/-- Whether a word of a core's memory holds an uncorrectable error. `i` is its index in the memory, or in the engine's block. -/
def Hub.isBad (h : Hub) (w : Who) (code : Bool) (i : Nat) : Bool :=
  if onBull w then (if code then decide (i ∈ h.bull.badI) else decide (i ∈ h.bull.badD))
  else decide (i ∈ (h.oxOf (engineOf w)).bad)

/-- A number added to a list of numbers without repeats. -/
def addOnce (l : List Nat) (i : Nat) : List Nat := if i ∈ l then l else i :: l

/-- A word keeps an uncorrectable error until a whole-word write replaces it. -/
def Hub.markBad (h : Hub) (w : Who) (code : Bool) (i : Nat) : Hub :=
  if onBull w then
    if code then { h with bull := { h.bull with badI := addOnce h.bull.badI i } }
    else { h with bull := { h.bull with badD := addOnce h.bull.badD i } }
  else
    let x := h.oxOf (engineOf w)
    h.setOx (engineOf w) { x with bad := addOnce x.bad i }

/-- The report of an error in a word of a core's memory. -/
def Hub.wordError (h : Hub) (w : Who) (code : Bool) (access i : Nat) (corrected : Bool) : Hub :=
  h.report {
    code := if corrected then 0x10 else 0x14
    unit := BitVec.ofNat 16 (unitOf 2 (h.memIndex w code))
    master := BitVec.ofNat 6 (h.masterOf w)
    access := BitVec.ofNat 3 access
    addr := BitVec.ofNat 24 i }

/-- What a check found in word `i`: whether the instruction raises UNCORR, and what follows. -/
def Hub.checked (h : Hub) (w : Who) (code : Bool) (access i : Nat) (e : Ecc) : Bool × Hub :=
  if h.isBad w code i then (true, h.wordError w code access i false)
  else match e with
    | .ok => (false, h)
    | .corrected => (false, h.wordError w code access i true)
    | .uncorrectable => (true, (h.markBad w code i).wordError w code access i false)

/-- The fetch of an instruction. Words of a packet have no check bits. -/
def Hub.fetches (h : Hub) (w : Who) (vec : Bool) (pc : Nat) (f : Fetch) : Bool × Hub :=
  let e := match f with
    | .corrected => Ecc.corrected
    | .uncorrectable => .uncorrectable
    | .ok | .unassigned => .ok
  if onBull w then (if pc < 0x4000 then h.checked w true 3 pc e else (false, h))
  else h.checked w true 3 (2 * pc + b2n vec) e

/-- The word of data memory in which a check of several words found an error: which of them is open
(notes/assumptions/2.md). -/
def Hub.whichWord (h : Hub) (w : Who) (first n : Nat) : Nat × Hub :=
  let base := if onBull w then 0 else 0x1000
  match (upto n).find? fun k => h.isBad w false (base + first + k) with
  | some k => (base + first + k, h)
  | none => if n ≤ 1 then (base + first, h) else (base + first + h.openValue.toNat % n, h.tookOpen)

/-- The words of data memory that an instruction reads are checked: an uncorrectable one makes it raise UNCORR. The registers that it
names still count for R202, which comes first (R611). DESIGN CHOICE: where another exception is found, PBWR's WRONG_MODE included, the
spec does not say which comes first; that other one is raised, and the words are not checked (notes/assumptions/28.md). -/
def Hub.dataChecked (h : Hub) (w : Who) (a : Act) (e : Ecc) : Act × Hub :=
  let base := if onBull w then 0 else 0x1000
  let bad := (upto a.reads.2).any fun k => h.isBad w false (base + a.reads.1 + k)
  if a.exc ≠ 0 || a.reads.2 = 0 || (e == .ok && !bad) then (a, h)
  else
    let (i, h) := h.whichWord w a.reads.1 a.reads.2
    let (unc, h) := h.checked w false 1 i e
    (if unc then { exc := 5, late := true, g := a.g, pushes := a.pushes, cyc := a.cyc, uses := a.uses } else a, h)

/-! ### Effects -/

/-- The registers and CS that an instruction writes. -/
def Ctx.writes (c : Ctx) (a : Act) : Ctx :=
  let c := each a.g c fun e c => c.setG e.1 e.2
  let c := each a.v c fun e c => c.setV e.1 e.2
  let c := each a.m c fun e c => c.setM e.1 e.2
  c.flags a.csClr a.csSet

/-- Whole words of data memory are written (R191). -/
def Hub.stores (h : Hub) (w : Who) (l : List (Nat × W32)) : Hub :=
  if onBull w then each l h fun e h => h.writeMem (.dmem e.1) e.2
  else each l h fun e h => h.writeMem (.ox (engineOf w) (0x1000 + e.1)) e.2

/-- A hit that HEMIT has pushed has left its group (R241-R243). -/
def Hub.hitLeft (h : Hub) (e ch : Nat) (sec : Bool) : Hub :=
  let x := h.oxOf e
  let mark (y : Hit) : Hit := if y.ch == ch then { y with gone := true } else y
  h.setOx e (if sec then { x with sec := x.sec.map mark } else { x with prim := x.prim.map mark })

/-- One push; answers whether the queue did not accept it (R211, R271). -/
def Hub.pushWord (h : Hub) (w : Who) (cyc before : Nat) (p : Push) : Bool × Hub :=
  let (h, r) := h.pushFrom p.q cyc before p.data p.last p.hit.isSome
  let h := match p.hit with
    | some (ch, sec) => h.hitLeft (engineOf w) ch sec
    | none => h
  (r != .accepted, h)

/-- The CK640 cycle of the slot in which a program of an engine is (R248). -/
def Hub.cycleOf (h : Hub) (w : Who) : Nat :=
  match w with
  | .oxSlot e => (h.oxOf e).cyc + 1
  | .oxBg e => (h.oxOf e).cyc + (h.oxOf e).bgCyc + 1
  | _ => 0

/-- Pushes in their order, one a cycle: that of a QPUSH in the first cycle of its bundle, those of HEMIT from the second on (R250). In the
cycle of a push into a hit queue the Mule has taken its word first (R269, R290). Answers QD of the last, if there is one. -/
def Hub.pushWords (h : Hub) (w : Who) (l : List Push) : Option Bool × Hub :=
  let r := l.foldl (fun (s : Nat × Option Bool × Hub) p =>
    let t := s.2.2.cycleOf w + s.1 + b2n p.hit.isSome
    let h := if p.q < 16 then s.2.2.muleBy (t - 1) else s.2.2
    let before := (h.queue p.q).ws.length
    let h := if p.q < 16 then h.muleBy t else h
    let r : Bool × Hub := h.pushWord w t before p
    (s.1 + 1, some r.1, r.2)) (0, none, h)
  (r.2.1, r.2.2)

/-- CS with QD as the last push left it. -/
def Ctx.pushed (c : Ctx) (qd : Option Bool) : Ctx :=
  match qd with
  | none => c
  | some b => c.flags csQD (if b then csQD else 0)

/-- The queue effects of an instruction: its pop, its flush, its pushes. -/
def Hub.queueActs (h : Hub) (w : Who) (a : Act) : Option Bool × Hub :=
  let h := match a.pop with
    | some q => ((h.pop q).map fun (r : QWord × Hub) => r.2).getD h
    | none => h
  let h := match a.flush with
    | some q => h.flush q
    | none => h
  h.pushWords w a.pushes

/-! ### Bull (R192, R193, R199, R204-R207) -/

/-- What limits an instruction on Bull beside its own checks. -/
structure Limits where
  /-- R29 lets it run while the hub has no address, or the instruction applies R29 itself. -/
  unaddr : Bool := false
  /-- It only reads, for R511: it changes Bull registers, the point of execution and the reply, and nothing else. -/
  reads : Bool := false
  /-- R401 keeps it out of an ATOMIC packet. -/
  noAtomic : Bool := false
  deriving DecidableEq, Repr

/-- The context of Bull. -/
def Hub.bullCtx (h : Hub) (bg : Bool) : Ctx := if bg then h.bull.bg else h.bull.fg

/-- Puts the context of Bull. -/
def Hub.setBullCtx (h : Hub) (bg : Bool) (c : Ctx) : Hub :=
  if bg then { h with bull := { h.bull with bg := c } } else { h with bull := { h.bull with fg := c } }

/-- The context of Bull can execute an instruction now: nothing does while the pair is stopped for its self-check (R475). A
background task runs while the foreground is idle or waits (R221). -/
def Hub.bullReady (h : Hub) (bg : Bool) : Bool :=
  !h.start.held && !h.bull.stopped &&
  if bg then h.bull.task.isSome && h.bull.bg.wait == .run && h.bull.bg.pc != 0x4400 && h.fgYields
  else match h.pk.cur with
    | none => false
    | some x => !h.packetOver x && h.bull.fg.wait == .run

/-- An address that the context may go to (R193). -/
def Hub.bullTarget (h : Hub) (bg : Bool) (t : Nat) : Bool :=
  decide (t < 0x4000) ||
  if bg then t == 0x4400
  else match h.pk.cur with
    | none => false
    | some x => decide (0x4000 ≤ t) && decide (t ≤ 0x4000 + x.pkt.code.length)

/-- An instruction of Bull raises an exception. -/
def Hub.bullFails (h : Hub) (bg : Bool) (code : Nat) : Hub := if bg then h.bgTaskException code else h.fgException code

/-- A lane packet or a Tether packet executes in a twin unit that is in step (R510, R511). -/
def Hub.inStep (h : Hub) : Bool := h.fld F.TW_STAT_STATE 0 == 2 || h.fld F.TW_STAT_STATE 0 == 4

/-- The checks that come before those of the instruction (R29, R401, R511): 0 when they let it run. -/
def Hub.bullGate (h : Hub) (bg : Bool) (lim : Limits) : Nat :=
  if !h.flag F.HUB_ADDR_VALID 0 && !lim.unaddr then 2
  else if bg then 0
  else match h.pk.cur with
    | none => 0
    | some x =>
      if x.pkt.src == .tether && h.inStep && !lim.reads then 2
      else if x.pkt.atomic && lim.noAtomic then 0x0B
      else 0

/-- The index of the packet instruction that executes is kept for the procedures it calls (R205). -/
def Hub.notesIndex (h : Hub) : Hub :=
  if 0x4000 ≤ h.bull.fg.pc then
    { h with pk := { h.pk with cur := h.pk.cur.map fun (x : Exec) => { x with ix := h.bull.fg.pc - 0x4000 } } }
  else h

/-- The effect of an instruction that raised nothing is entered. -/
def Hub.bullRetires (h : Hub) (w : Who) (a : Act) : Hub :=
  let bg := inBackground w
  let next := a.target.getD ((h.bullCtx bg).pc + 1)
  if !h.bullTarget bg next then h.bullFails bg 4
  else
    let h := h.stores w a.mem
    let (qd, h) := h.queueActs w a
    h.setBullCtx bg { ((h.bullCtx bg).writes a).pushed qd with pc := next, wait := a.wait }

/-- An instruction on Bull that nothing stands against ahead of its own checks: `f` gives its act, and what it does to the rest of
the hub. Where its act raises an exception, the registers that the act names and that effect stand all the same: the cases that
a row states (R204). -/
def Hub.bullIssues (h : Hub) (w : Who) (ecc : Ecc) (f : Env → Act × (Hub → Hub)) : Hub :=
  let bg := inBackground w
  let c := h.bullCtx bg
  let (a, eff) := f { hub := h, who := w, ctx := c }
  let (b, h) := h.dataChecked w a ecc
  if b.exc = 0 then
    if h.bullTarget bg (b.target.getD (c.pc + 1)) then (eff h).bullRetires w b else h.bullFails bg 4
  else if b.late then h.bullFails bg b.exc
  else
    let h := eff h
    (h.setBullCtx bg ((h.bullCtx bg).writes { g := b.g })).bullFails bg b.exc

/-- An instruction on Bull. A word that is no instruction raises ILLEGAL (R197). -/
def Hub.runBull (h : Hub) (w : Who) (fetch : Fetch) (lim : Limits) (ecc : Ecc) (f : Env → Act × (Hub → Hub)) : Hub :=
  let bg := inBackground w
  if !h.bullReady bg then h
  else
    let h := if bg then h else h.notesIndex
    let (unc, h) := h.fetches w false (h.bullCtx bg).pc fetch
    let gate := h.bullGate bg lim
    if unc then h.bullFails bg 5
    else if fetch = .unassigned then h.bullFails bg 1
    else if gate ≠ 0 then h.bullFails bg gate
    else h.bullIssues w ecc f

/-! ### Ox (R200-R203, R244-R258, R611) -/

/-- The context of an engine. -/
def Ox.ctxOf (x : Ox) (bg : Bool) : Ctx := if bg then x.bg else x.slot

/-- Puts the context of an engine. -/
def Ox.setCtx (x : Ox) (bg : Bool) (c : Ctx) : Ox := if bg then { x with bg := c } else { x with slot := c }

/-- The context of the engine can issue a bundle now. The slot program takes the cycles from the first on, one bundle behind the
other; the background issues in the cycles that it leaves, so once it has ended or fallen back (R248). -/
def Hub.oxReady (h : Hub) (bg : Bool) (e : Nat) : Bool :=
  let x := h.oxOf e
  !h.start.held && decide (e < 16) && h.live &&
  if bg then h.flag F.OX_CFG_EN e && !h.oxDown e && !h.flag F.OX_STAT_BG_HALT e && x.bg.wait == .run && x.done
    && decide (x.cyc + x.bgCyc < 16)
  else !h.oxFalls e && !x.done && x.slot.wait == .run

/-- The registers g that an instruction writes, those of a wait included, which are written when it ends. -/
def Act.dests (a : Act) : List Nat :=
  a.g.map (fun x => x.1) ++ match a.wait with
    | .trig rd _ => (noticeRegs rd (0, 0)).map fun x => x.1
    | .mode rd => [rd]
    | _ => []

/-- Both instructions of a bundle write one register other than g0 (R202). -/
def clashes (s v : Act) : Bool := s.dests.any fun a => a != 0 && v.dests.contains a

/-- The exception of a bundle (R202, R204, R611): what is found before it pushes anything comes first, the scalar slot's before the
vector slot's (notes/assumptions/60.md). -/
def bundleExc (s v : Act) (next : Nat) : Nat × Bool :=
  if s.exc ≠ 0 && !s.late then (s.exc, false)
  else if v.exc ≠ 0 && !v.late then (v.exc, false)
  else if clashes s v then (1, false)
  else if 0x3FF < next then (4, false)
  else if s.exc ≠ 0 then (s.exc, true)
  else (v.exc, v.exc != 0)

/-- Cycles of a bundle (R201). -/
def bundleCycles (s v : Act) : Nat :=
  max s.cyc v.cyc + b2n (s.uses && v.uses) + b2n (!s.pushes.isEmpty && !v.pushes.isEmpty)

/-- A context of an engine raises an exception. The item that it has left open is discarded (R256, R258, R611). -/
def Hub.oxFails (h : Hub) (w : Who) (code : Nat) : Hub :=
  let e := engineOf w
  if inBackground w then
    each ((upto 32).filter fun q => h.fld F.Q_CFG_PROD q == programCode w && (h.queue q).openItem) (h.bgException e code)
      fun q h => h.discardOpen q
  else h.slotException e code

/-- What a bundle does to the context and to the hub, when nothing stands against it. -/
def Hub.bundleActs (h : Hub) (w : Who) (s v : Act) (next : Nat) : Hub :=
  let e := engineOf w
  let bg := inBackground w
  let h := (h.stores w s.mem).stores w v.mem
  let (q1, h) := h.queueActs w s
  let (q2, h) := h.queueActs w v
  let x := h.oxOf e
  let c := ((x.ctxOf bg).writes s).writes v
  let c := { (c.pushed q1).pushed q2 with pc := next, half := none, wait := s.wait }
  let x := { x.setCtx bg c with
    fetched := x.fetched || v.fetch
    notices := if s.notice then x.notices.drop 1 else x.notices }
  h.setOx e x

/-- A background bundle completes by cycle 16 of the slot (R248). -/
def Ox.bgFits (x : Ox) (s v : Act) : Bool := decide (x.cyc + x.bgCyc + bundleCycles s v ≤ 16)

/-- The background has used the cycles of a bundle. -/
def Hub.bgCycles (h : Hub) (e n : Nat) : Hub :=
  let x := h.oxOf e
  h.setOx e { x with bgCyc := x.bgCyc + n }

/-- The slot program has used the cycles of a bundle: it ends at its WSLOT, or overruns at the end of cycle 12 (R249, R251). -/
def Hub.slotCycles (h : Hub) (e n : Nat) (ends : Bool) : Hub :=
  let x := h.oxOf e
  let h := h.setOx e { x with cyc := x.cyc + n }
  if ends then h.slotProgramEnds e else if 12 ≤ x.cyc + n then h.overrun e else h

/-- A bundle of the slot context that does not complete by cycle 12: what its instructions have pushed by then stands (R250,
R251). -/
def Hub.bundleCut (h : Hub) (w : Who) (s v : Act) : Hub :=
  let e := engineOf w
  let left := 11 - (h.oxOf e).cyc
  let (_, h) := h.pushWords w s.pushes
  let (_, h) := h.pushWords w (v.pushes.take left)
  h.overrun e

/-- The bundle ends. -/
def Hub.bundleEnds (h : Hub) (w : Who) (s v : Act) : Hub :=
  let e := engineOf w
  let bg := inBackground w
  let x := h.oxOf e
  let h := h.setOx e (x.setCtx bg { x.ctxOf bg with half := none })
  let next := s.target.getD ((x.ctxOf bg).pc + 1)
  let (code, late) := bundleExc s v next
  let at_ := x.cyc + (if late then (if s.exc ≠ 0 then s.cyc else v.cyc) else 1)
  if code ≠ 0 && (bg || at_ ≤ 12) then
    -- UNCORR comes at the end of the access: a push of the scalar slot in an earlier cycle stands (R611)
    let h := if late && s.exc = 0 && 1 < v.cyc then (h.pushWords w s.pushes).2 else h
    let h := h.setOx e (if bg then { h.oxOf e with bgCyc := x.bgCyc + (at_ - x.cyc) } else { h.oxOf e with cyc := at_ })
    h.oxFails w code
  else if !bg && 12 < x.cyc + bundleCycles s v then h.bundleCut w s v
  else
    let h := h.bundleActs w s v next
    if bg then h.bgCycles e (bundleCycles s v) else h.slotCycles e (bundleCycles s v) s.ends

/-- An instruction of an engine, standing in the slot of its bundle that the place says; `vec` is the slot that the instruction
takes. The first of two instructions of a bundle is kept until the second comes; a slot for which no instruction comes holds
NOP. A background bundle that does not complete by cycle 16 waits: it has no effect, and comes again in a later slot (R248). -/
def Hub.runOx (h : Hub) (p : Place) (vec : Bool) (ecc : Ecc) (f : Env → Act) : Hub :=
  let w := p.who
  let e := engineOf w
  let bg := inBackground w
  if !h.oxReady bg e then h
  else
    let c := (h.oxOf e).ctxOf bg
    if (c.half.map fun k => k.vec == p.vec).getD false then h
    else
      let before := h
      let (unc, h) := h.fetches w p.vec c.pc p.fetch
      let a :=
        if unc then Act.fails 5
        else if p.fetch = .unassigned || p.vec != vec then Act.fails 1
        else f { hub := h, who := w, ctx := c }
      let (a, h) := h.dataChecked w a ecc
      if p.ends then
        let other := (c.half.map fun k => k.act).getD {}
        let (s, v) := if p.vec then (other, a) else (a, other)
        if bg && !(before.oxOf e).bgFits s v then before.setOx e ((before.oxOf e).setCtx bg { c with half := none })
        else h.bundleEnds w s v
      else
        let x := h.oxOf e
        h.setOx e (x.setCtx bg { c with half := some { vec := p.vec, act := a } })

/-! ### The three kinds of instruction -/

/-- An instruction of both cores, in the scalar slot on Ox. NOP stands in either slot. -/
def Hub.runBoth (h : Hub) (p : Place) (lim : Limits) (ecc : Ecc) (f : Env → Act) : Hub :=
  if onBull p.who then h.runBull p.who p.fetch lim ecc fun n => (f n, fun h => h) else h.runOx p false ecc f

/-- An instruction of Bull only: ILLEGAL on Ox. -/
def Hub.runOnBull (h : Hub) (p : Place) (lim : Limits) (ecc : Ecc) (f : Env → Act × (Hub → Hub)) : Hub :=
  if onBull p.who then h.runBull p.who p.fetch lim ecc f else h.runOx p p.vec ecc fun _ => Act.fails 1

/-- An instruction of Ox only, in the vector slot: ILLEGAL on Bull. -/
def Hub.runVector (h : Hub) (p : Place) (ecc : Ecc) (f : Env → Act) : Hub :=
  if onBull p.who then h.runBull p.who p.fetch {} .ok fun _ => (Act.fails 1, fun h => h) else h.runOx p true ecc f

end Sys2Proof.Machine
end

