-- ==== Sys2Proof/Machine/Scalar.lean ====
section
/-! DEFINITION. Meanings of the scalar instructions that only compute, and of loads and stores (07_belouz_instruction_set.md,
"Scalar instructions"). Every one runs on both cores, in the scalar slot on Ox. -/

namespace Sys2Proof.Machine

/-- Instructions that R29 lists and R511 lets read. -/
abbrev limPlain : Limits := { unaddr := true, reads := true }

/-- Instructions that only change registers, beside those of R29. -/
abbrev limReads : Limits := { reads := true }

/-! ### NOP and the register ALU -/

/-- NOP does nothing. -/
def Hub.nops (h : Hub) (p : Place) : Hub :=
  if onBull p.who then h.runBull p.who p.fetch limPlain .ok fun _ => ({}, fun h => h) else h.runOx p p.vec .ok fun _ => {}

/-- A register ALU instruction of two sources. -/
def Hub.alu (h : Hub) (p : Place) (rd rs1 rs2 : BitVec 5) (cyc : Nat) (f : W32 → W32 → W32) : Hub :=
  h.runBoth p limPlain .ok fun n => { Act.toG rd (f (n.g rs1) (n.g rs2)) with cyc := cyc }

/-- A register ALU instruction of one source, with rs2 zero (R197). -/
def Hub.alu1 (h : Hub) (p : Place) (rd rs1 rs2 : BitVec 5) (f : W32 → Nat) : Hub :=
  h.runBoth p limPlain .ok fun n => Act.legal (rs2 == 0) (Act.toG rd (BitVec.ofNat 32 (f (n.g rs1))))

/-- ADDS and SUBS: the result saturated to s32, ASAT set on saturation. -/
def Hub.aluSat (h : Hub) (p : Place) (rd rs1 rs2 : BitVec 5) (f : Int → Int → Int) : Hub :=
  h.runBoth p limPlain .ok fun n =>
    let r := sat32 (f (n.g rs1).toInt (n.g rs2).toInt)
    { Act.toG rd r.1 with csSet := if r.2 then csASAT else 0 }

/-- NOP (R199). -/
def execNop (p : Place) (s : State) : Host.Outcome State Fault Refusal := goesOn s (s.hub.nops p)

/-- ADD (R199). g[rd] gets g[rs1] + g[rs2] modulo 2^32. -/
def execAdd (p : Place) (rd rs1 rs2 : BitVec 5) (s : State) : Host.Outcome State Fault Refusal :=
  goesOn s (s.hub.alu p rd rs1 rs2 1 (fun a b => a + b))

/-- SUB (R199). g[rd] gets g[rs1] − g[rs2] modulo 2^32. -/
def execSub (p : Place) (rd rs1 rs2 : BitVec 5) (s : State) : Host.Outcome State Fault Refusal :=
  goesOn s (s.hub.alu p rd rs1 rs2 1 (fun a b => a - b))

/-- AND (R199). The bitwise AND. -/
def execAnd (p : Place) (rd rs1 rs2 : BitVec 5) (s : State) : Host.Outcome State Fault Refusal :=
  goesOn s (s.hub.alu p rd rs1 rs2 1 (fun a b => a &&& b))

/-- OR (R199). The bitwise OR. -/
def execOr (p : Place) (rd rs1 rs2 : BitVec 5) (s : State) : Host.Outcome State Fault Refusal :=
  goesOn s (s.hub.alu p rd rs1 rs2 1 (fun a b => a ||| b))

/-- XOR (R199). The bitwise exclusive OR. -/
def execXor (p : Place) (rd rs1 rs2 : BitVec 5) (s : State) : Host.Outcome State Fault Refusal :=
  goesOn s (s.hub.alu p rd rs1 rs2 1 (fun a b => a ^^^ b))

/-- ANDN (R199). g[rs1] AND NOT g[rs2]. -/
def execAndn (p : Place) (rd rs1 rs2 : BitVec 5) (s : State) : Host.Outcome State Fault Refusal :=
  goesOn s (s.hub.alu p rd rs1 rs2 1 (fun a b => a &&& ~~~b))

/-- SLL (R199). g[rs1] shifted left by g[rs2][4:0]. -/
def execSll (p : Place) (rd rs1 rs2 : BitVec 5) (s : State) : Host.Outcome State Fault Refusal :=
  goesOn s (s.hub.alu p rd rs1 rs2 1 (fun a b => a <<< (b.toNat % 32)))

/-- SRL (R199). g[rs1] shifted right, zero-filled. -/
def execSrl (p : Place) (rd rs1 rs2 : BitVec 5) (s : State) : Host.Outcome State Fault Refusal :=
  goesOn s (s.hub.alu p rd rs1 rs2 1 (fun a b => a >>> (b.toNat % 32)))

/-- SRA (R199). g[rs1] shifted right, sign-filled. -/
def execSra (p : Place) (rd rs1 rs2 : BitVec 5) (s : State) : Host.Outcome State Fault Refusal :=
  goesOn s (s.hub.alu p rd rs1 rs2 1 (fun a b => a.sshiftRight (b.toNat % 32)))

/-- ROR (R199). g[rs1] rotated right. -/
def execRor (p : Place) (rd rs1 rs2 : BitVec 5) (s : State) : Host.Outcome State Fault Refusal :=
  goesOn s (s.hub.alu p rd rs1 rs2 1 (fun a b => a.rotateRight (b.toNat % 32)))

/-- SLT (R199). 1 when g[rs1] < g[rs2], signed. -/
def execSlt (p : Place) (rd rs1 rs2 : BitVec 5) (s : State) : Host.Outcome State Fault Refusal :=
  goesOn s (s.hub.alu p rd rs1 rs2 1 (fun a b => truth (a.slt b)))

/-- SLTU (R199). 1 when g[rs1] < g[rs2], unsigned. -/
def execSltu (p : Place) (rd rs1 rs2 : BitVec 5) (s : State) : Host.Outcome State Fault Refusal :=
  goesOn s (s.hub.alu p rd rs1 rs2 1 (fun a b => truth (a.ult b)))

/-- MIN (R199). The smaller, signed. -/
def execMin (p : Place) (rd rs1 rs2 : BitVec 5) (s : State) : Host.Outcome State Fault Refusal :=
  goesOn s (s.hub.alu p rd rs1 rs2 1 (fun a b => if a.slt b then a else b))

/-- MAX (R199). The larger, signed. -/
def execMax (p : Place) (rd rs1 rs2 : BitVec 5) (s : State) : Host.Outcome State Fault Refusal :=
  goesOn s (s.hub.alu p rd rs1 rs2 1 (fun a b => if a.slt b then b else a))

/-- MINU (R199). The smaller, unsigned. -/
def execMinu (p : Place) (rd rs1 rs2 : BitVec 5) (s : State) : Host.Outcome State Fault Refusal :=
  goesOn s (s.hub.alu p rd rs1 rs2 1 (fun a b => if a.ult b then a else b))

/-- MAXU (R199). The larger, unsigned. -/
def execMaxu (p : Place) (rd rs1 rs2 : BitVec 5) (s : State) : Host.Outcome State Fault Refusal :=
  goesOn s (s.hub.alu p rd rs1 rs2 1 (fun a b => if a.ult b then b else a))

/-- MUL (R199). Low 32 bits of the product. -/
def execMul (p : Place) (rd rs1 rs2 : BitVec 5) (s : State) : Host.Outcome State Fault Refusal :=
  goesOn s (s.hub.alu p rd rs1 rs2 2 (fun a b => a * b))

/-- MULH (R199). High 32 bits of the signed product. -/
def execMulh (p : Place) (rd rs1 rs2 : BitVec 5) (s : State) : Host.Outcome State Fault Refusal :=
  goesOn s (s.hub.alu p rd rs1 rs2 2 highSigned)

/-- MULHU (R199). High 32 bits of the unsigned product. -/
def execMulhu (p : Place) (rd rs1 rs2 : BitVec 5) (s : State) : Host.Outcome State Fault Refusal :=
  goesOn s (s.hub.alu p rd rs1 rs2 2 highUnsigned)

/-- ADDS (R199). The signed sum, saturated to s32. -/
def execAdds (p : Place) (rd rs1 rs2 : BitVec 5) (s : State) : Host.Outcome State Fault Refusal :=
  goesOn s (s.hub.aluSat p rd rs1 rs2 fun a b => a + b)

/-- SUBS (R199). The signed difference, saturated to s32. -/
def execSubs (p : Place) (rd rs1 rs2 : BitVec 5) (s : State) : Host.Outcome State Fault Refusal :=
  goesOn s (s.hub.aluSat p rd rs1 rs2 fun a b => a - b)

/-- CLZ (R199). Leading zeros of g[rs1]. -/
def execClz (p : Place) (rd rs1 rs2 : BitVec 5) (s : State) : Host.Outcome State Fault Refusal :=
  goesOn s (s.hub.alu1 p rd rs1 rs2 leadingZeros)

/-- POPC (R199). Set bits of g[rs1]. -/
def execPopc (p : Place) (rd rs1 rs2 : BitVec 5) (s : State) : Host.Outcome State Fault Refusal :=
  goesOn s (s.hub.alu1 p rd rs1 rs2 setBits)

/-! ### Immediates and moves -/

/-- An instruction of one source and imm10, with rs2 zero (R197). -/
def Hub.immediate (h : Hub) (p : Place) (rd rs1 rs2 : BitVec 5) (f : W32 → W32) : Hub :=
  h.runBoth p limPlain .ok fun n => Act.legal (rs2 == 0) (Act.toG rd (f (n.g rs1)))

/-- A shift by an immediate, with rs2 and imm[9:5] zero. -/
def Hub.shift (h : Hub) (p : Place) (rd rs1 rs2 : BitVec 5) (imm : BitVec 10) (f : W32 → Nat → W32) : Hub :=
  h.runBoth p limPlain .ok fun n =>
    Act.legal (rs2 == 0 && imm.toNat / 32 == 0) (Act.toG rd (f (n.g rs1) (imm.toNat % 32)))

/-- A field instruction: position rs2 as a number, width imm[4:0] + 1, with imm[9:5] zero. -/
def Hub.bitField (h : Hub) (p : Place) (rd rs1 rs2 : BitVec 5) (imm : BitVec 10) (f : W32 → W32 → Nat → Nat → W32) : Hub :=
  h.runBoth p limPlain .ok fun n =>
    Act.legal (imm.toNat / 32 == 0) (Act.toG rd (f (n.g rd) (n.g rs1) rs2.toNat (imm.toNat % 32 + 1)))

/-- MOVL and MOVH, with bits [19:16] zero. -/
def Hub.moves (h : Hub) (p : Place) (rd : BitVec 5) (hi : BitVec 4) (f : W32 → W32) : Hub :=
  h.runBoth p limPlain .ok fun n => Act.legal (hi == 0) (Act.toG rd (f (n.g rd)))

/-- ADDI (R198). g[rs1] + sext(imm10). -/
def execAddi (p : Place) (rd rs1 rs2 : BitVec 5) (imm : BitVec 10) (s : State) : Host.Outcome State Fault Refusal :=
  goesOn s (s.hub.immediate p rd rs1 rs2 fun a => a + sx10 imm)

/-- ANDI (R198). g[rs1] AND zext(imm10). -/
def execAndi (p : Place) (rd rs1 rs2 : BitVec 5) (imm : BitVec 10) (s : State) : Host.Outcome State Fault Refusal :=
  goesOn s (s.hub.immediate p rd rs1 rs2 fun a => a &&& zx10 imm)

/-- ORI (R198). g[rs1] OR zext(imm10). -/
def execOri (p : Place) (rd rs1 rs2 : BitVec 5) (imm : BitVec 10) (s : State) : Host.Outcome State Fault Refusal :=
  goesOn s (s.hub.immediate p rd rs1 rs2 fun a => a ||| zx10 imm)

/-- XORI (R198). g[rs1] XOR zext(imm10). -/
def execXori (p : Place) (rd rs1 rs2 : BitVec 5) (imm : BitVec 10) (s : State) : Host.Outcome State Fault Refusal :=
  goesOn s (s.hub.immediate p rd rs1 rs2 fun a => a ^^^ zx10 imm)

/-- SLLI (R198). g[rs1] shifted left by imm[4:0]. -/
def execSlli (p : Place) (rd rs1 rs2 : BitVec 5) (imm : BitVec 10) (s : State) : Host.Outcome State Fault Refusal :=
  goesOn s (s.hub.shift p rd rs1 rs2 imm fun a k => a <<< k)

/-- SRLI (R198). g[rs1] shifted right, zero-filled. -/
def execSrli (p : Place) (rd rs1 rs2 : BitVec 5) (imm : BitVec 10) (s : State) : Host.Outcome State Fault Refusal :=
  goesOn s (s.hub.shift p rd rs1 rs2 imm fun a k => a >>> k)

/-- SRAI (R198). g[rs1] shifted right, sign-filled. -/
def execSrai (p : Place) (rd rs1 rs2 : BitVec 5) (imm : BitVec 10) (s : State) : Host.Outcome State Fault Refusal :=
  goesOn s (s.hub.shift p rd rs1 rs2 imm fun a k => a.sshiftRight k)

/-- SLTI (R198). 1 when g[rs1] < sext(imm10), signed. -/
def execSlti (p : Place) (rd rs1 rs2 : BitVec 5) (imm : BitVec 10) (s : State) : Host.Outcome State Fault Refusal :=
  goesOn s (s.hub.immediate p rd rs1 rs2 fun a => truth (a.slt (sx10 imm)))

/-- SLTIU (R198). 1 when g[rs1] < sext(imm10), both unsigned. -/
def execSltiu (p : Place) (rd rs1 rs2 : BitVec 5) (imm : BitVec 10) (s : State) : Host.Outcome State Fault Refusal :=
  goesOn s (s.hub.immediate p rd rs1 rs2 fun a => truth (a.ult (sx10 imm)))

/-- MOVL (R198). zext(imm16). -/
def execMovl (p : Place) (rd : BitVec 5) (hi : BitVec 4) (imm : BitVec 16) (s : State) : Host.Outcome State Fault Refusal :=
  goesOn s (s.hub.moves p rd hi fun _ => imm.setWidth 32)

/-- MOVH (R198). Bits [31:16] get imm16; bits [15:0] stay. -/
def execMovh (p : Place) (rd : BitVec 5) (hi : BitVec 4) (imm : BitVec 16) (s : State) : Host.Outcome State Fault Refusal :=
  goesOn s (s.hub.moves p rd hi fun old => imm ++ old.extractLsb' 0 16)

/-- EXTU (R198). The field of g[rs1], zero-extended. -/
def execExtu (p : Place) (rd rs1 rs2 : BitVec 5) (imm : BitVec 10) (s : State) : Host.Outcome State Fault Refusal :=
  goesOn s (s.hub.bitField p rd rs1 rs2 imm fun _ a k w => BitVec.ofNat 32 (fieldOf a k w))

/-- EXTS (R198). The field of g[rs1], sign-extended. -/
def execExts (p : Place) (rd rs1 rs2 : BitVec 5) (imm : BitVec 10) (s : State) : Host.Outcome State Fault Refusal :=
  goesOn s (s.hub.bitField p rd rs1 rs2 imm fun _ a k w => fieldSigned a k w)

/-- INS (R198). The field of g[rd] gets the low bits of g[rs1]. -/
def execIns (p : Place) (rd rs1 rs2 : BitVec 5) (imm : BitVec 10) (s : State) : Host.Outcome State Fault Refusal :=
  goesOn s (s.hub.bitField p rd rs1 rs2 imm withField)

/-! ### Loads and stores (R191, R195) -/

/-- A load of `size` bytes; the word it lies in is read whole. -/
def Env.load (n : Env) (rd rs1 : BitVec 5) (imm : BitVec 10) (size : Nat) (sign : Bool) : Act :=
  let a := n.addr rs1 imm size
  if n.badAddr a size size ≠ 0 then Act.fails (n.badAddr a size size)
  else
    let v := partOf (n.data (a / 4)) (a % 4) size
    { g := [(rd.toNat, if sign then BitVec.ofInt 32 (signed (8 * size) v) else BitVec.ofNat 32 v)]
      cyc := 2, uses := true, reads := (a / 4, 1) }

/-- A store of `size` bytes. One that is shorter than a word reads the word first. -/
def Env.store (n : Env) (rs1 rs2 : BitVec 5) (imm : BitVec 10) (size : Nat) : Act :=
  let a := n.addr rs1 imm size
  if n.badAddr a size size ≠ 0 then Act.fails (n.badAddr a size size)
  else {
    mem := [(a / 4, withPart (n.data (a / 4)) (a % 4) size (n.g rs2).toNat)]
    uses := true
    reads := (a / 4, if size = 4 then 0 else 1) }

/-- A load instruction, with rs2 zero. -/
def Hub.loads (h : Hub) (p : Place) (rd rs1 rs2 : BitVec 5) (imm : BitVec 10) (ecc : Ecc) (size : Nat) (sign : Bool) : Hub :=
  h.runBoth p limReads ecc fun n => Act.legal (rs2 == 0) (n.load rd rs1 imm size sign)

/-- A store instruction, with rd zero. -/
def Hub.storing (h : Hub) (p : Place) (rd rs1 rs2 : BitVec 5) (imm : BitVec 10) (ecc : Ecc) (size : Nat) : Hub :=
  h.runBoth p {} ecc fun n => Act.legal (rd == 0) (n.store rs1 rs2 imm size)

/-- LD (R195). A word. -/
def execLd (p : Place) (rd rs1 rs2 : BitVec 5) (imm : BitVec 10) (ecc : Ecc) (s : State) : Host.Outcome State Fault Refusal :=
  goesOn s (s.hub.loads p rd rs1 rs2 imm ecc 4 false)

/-- LDH (R195). A halfword, sign-extended. -/
def execLdh (p : Place) (rd rs1 rs2 : BitVec 5) (imm : BitVec 10) (ecc : Ecc) (s : State) : Host.Outcome State Fault Refusal :=
  goesOn s (s.hub.loads p rd rs1 rs2 imm ecc 2 true)

/-- LDHU (R195). A halfword, zero-extended. -/
def execLdhu (p : Place) (rd rs1 rs2 : BitVec 5) (imm : BitVec 10) (ecc : Ecc) (s : State) : Host.Outcome State Fault Refusal :=
  goesOn s (s.hub.loads p rd rs1 rs2 imm ecc 2 false)

/-- LDB (R195). A byte, sign-extended. -/
def execLdb (p : Place) (rd rs1 rs2 : BitVec 5) (imm : BitVec 10) (ecc : Ecc) (s : State) : Host.Outcome State Fault Refusal :=
  goesOn s (s.hub.loads p rd rs1 rs2 imm ecc 1 true)

/-- LDBU (R195). A byte, zero-extended. -/
def execLdbu (p : Place) (rd rs1 rs2 : BitVec 5) (imm : BitVec 10) (ecc : Ecc) (s : State) : Host.Outcome State Fault Refusal :=
  goesOn s (s.hub.loads p rd rs1 rs2 imm ecc 1 false)

/-- ST (R195). A word. -/
def execSt (p : Place) (rd rs1 rs2 : BitVec 5) (imm : BitVec 10) (s : State) : Host.Outcome State Fault Refusal :=
  goesOn s (s.hub.storing p rd rs1 rs2 imm .ok 4)

/-- STH (R191, R195). A halfword. -/
def execSth (p : Place) (rd rs1 rs2 : BitVec 5) (imm : BitVec 10) (ecc : Ecc) (s : State) : Host.Outcome State Fault Refusal :=
  goesOn s (s.hub.storing p rd rs1 rs2 imm ecc 2)

/-- STB (R191, R195). A byte. -/
def execStb (p : Place) (rd rs1 rs2 : BitVec 5) (imm : BitVec 10) (ecc : Ecc) (s : State) : Host.Outcome State Fault Refusal :=
  goesOn s (s.hub.storing p rd rs1 rs2 imm ecc 1)

end Sys2Proof.Machine
end

