-- ==== Sys2Proof/Machine/Control.lean ====
section
/-! DEFINITION. Meanings of the branches and jumps, and of the queue, record, time, wait and core-status instructions
(07_belouz_instruction_set.md). -/

namespace Sys2Proof.Machine

/-! ### Branches and jumps (R193, R194, R198) -/

/-- The address `off` instructions or bundles from the instruction's own, in 32 bits. -/
def Env.away (n : Env) (off : W32) : Nat := (BitVec.ofNat 32 n.ctx.pc + off).toNat

/-- A branch, with rd zero: two cycles when taken. -/
def Hub.branch (h : Hub) (p : Place) (rd rs1 rs2 : BitVec 5) (imm : BitVec 10) (cond : W32 → W32 → Bool) : Hub :=
  h.runBoth p limPlain .ok fun n =>
    Act.legal (rd == 0) (if cond (n.g rs1) (n.g rs2) then { target := some (n.away (sx10 imm)), cyc := 2 } else {})

/-- The link: own address + 1. -/
def Env.link (n : Env) : W32 := BitVec.ofNat 32 (n.ctx.pc + 1)

/-- BEQ (R198). Branches when g[rs1] = g[rs2]. -/
def execBeq (p : Place) (rd rs1 rs2 : BitVec 5) (imm : BitVec 10) (s : State) : Host.Outcome State Fault Refusal :=
  goesOn s (s.hub.branch p rd rs1 rs2 imm fun a b => a == b)

/-- BNE (R198). Branches when g[rs1] ≠ g[rs2]. -/
def execBne (p : Place) (rd rs1 rs2 : BitVec 5) (imm : BitVec 10) (s : State) : Host.Outcome State Fault Refusal :=
  goesOn s (s.hub.branch p rd rs1 rs2 imm fun a b => a != b)

/-- BLT (R198). Branches when g[rs1] < g[rs2], signed. -/
def execBlt (p : Place) (rd rs1 rs2 : BitVec 5) (imm : BitVec 10) (s : State) : Host.Outcome State Fault Refusal :=
  goesOn s (s.hub.branch p rd rs1 rs2 imm fun a b => a.slt b)

/-- BGE (R198). Branches when g[rs1] ≥ g[rs2], signed. -/
def execBge (p : Place) (rd rs1 rs2 : BitVec 5) (imm : BitVec 10) (s : State) : Host.Outcome State Fault Refusal :=
  goesOn s (s.hub.branch p rd rs1 rs2 imm fun a b => !a.slt b)

/-- BLTU (R198). Branches when g[rs1] < g[rs2], unsigned. -/
def execBltu (p : Place) (rd rs1 rs2 : BitVec 5) (imm : BitVec 10) (s : State) : Host.Outcome State Fault Refusal :=
  goesOn s (s.hub.branch p rd rs1 rs2 imm fun a b => a.ult b)

/-- BGEU (R198). Branches when g[rs1] ≥ g[rs2], unsigned. -/
def execBgeu (p : Place) (rd rs1 rs2 : BitVec 5) (imm : BitVec 10) (s : State) : Host.Outcome State Fault Refusal :=
  goesOn s (s.hub.branch p rd rs1 rs2 imm fun a b => !a.ult b)

/-- J (R198), with rd zero. -/
def execJ (p : Place) (rd : BitVec 5) (off : BitVec 20) (s : State) : Host.Outcome State Fault Refusal :=
  goesOn s (s.hub.runBoth p limPlain .ok fun n =>
    Act.legal (rd == 0) { target := some (n.away (off.signExtend 32)), cyc := 2 })

/-- JAL (R188, R198). -/
def execJal (p : Place) (rd : BitVec 5) (off : BitVec 20) (s : State) : Host.Outcome State Fault Refusal :=
  goesOn s (s.hub.runBoth p limPlain .ok fun n =>
    { Act.toG rd n.link with target := some (n.away (off.signExtend 32)), cyc := 2 })

/-- JALR (R188, R198), with rs2 zero. -/
def execJalr (p : Place) (rd rs1 rs2 : BitVec 5) (imm : BitVec 10) (s : State) : Host.Outcome State Fault Refusal :=
  goesOn s (s.hub.runBoth p limPlain .ok fun n =>
    Act.legal (rs2 == 0) { Act.toG rd n.link with target := some (n.g rs1 + sx10 imm).toNat, cyc := 2 })

/-! ### Queues (R209-R211, R267-R278) -/

/-- The context is the producer of a queue, or its consumer. -/
def Env.produces (n : Env) (q : Nat) : Bool := n.hub.fld F.Q_CFG_PROD q == programCode n.who
def Env.consumes (n : Env) (q : Nat) : Bool := n.hub.fld F.Q_CFG_CONS q == programCode n.who

/-- A push of {g[rs2], g[rs1]}. -/
def Env.pushes (n : Env) (q rs1 rs2 : BitVec 5) (last : Bool) : Act :=
  if n.produces q.toNat then { pushes := [{ q := q.toNat, data := pair (n.g rs2) (n.g rs1), last := last, hit := none }] }
  else Act.fails 6

/-- A pop: the head word, QL for the last word of an item, QE and zeros on an empty queue. -/
def Env.pops (n : Env) (rd q : BitVec 5) : Act :=
  if !n.consumes q.toNat then Act.fails 6
  else match (n.hub.queue q.toNat).ws with
    | [] => { Act.toPair rd 0 with csClr := csQL, csSet := csQE, cyc := 2 }
    | w :: _ => { Act.toPair rd w.data with
        csClr := csQL ||| csQE, csSet := if w.last then csQL else 0, pop := some q.toNat, cyc := 2 }

/-- What QSTAT gives of a queue: the bits of Q_STAT, OVF among them. -/
def Hub.queueStat (h : Hub) (q : Nat) : W32 :=
  BitVec.ofNat 32 (h.fld F.Q_STAT_DEPTH q + h.fld F.Q_STAT_FULL q * 2 ^ 5 + h.fld F.Q_STAT_ABOVE q * 2 ^ 6
    + h.fld F.Q_STAT_DISCARD q * 2 ^ 7 + h.fld F.Q_STAT_OVF q * 2 ^ 15 + h.fld F.Q_STAT_PEND q * 2 ^ 16)

/-- QPUSH (R210, R211). Pushes a word of an open item; rd names the queue. -/
def execQpush (p : Place) (rd rs1 rs2 : BitVec 5) (_imm : BitVec 10) (s : State) : Host.Outcome State Fault Refusal :=
  goesOn s (s.hub.runBoth p { noAtomic := true } .ok fun n => n.pushes rd rs1 rs2 false)

/-- QPUSHL (R210, R211). Pushes the word that closes an item; rd names the queue. -/
def execQpushl (p : Place) (rd rs1 rs2 : BitVec 5) (_imm : BitVec 10) (s : State) : Host.Outcome State Fault Refusal :=
  goesOn s (s.hub.runBoth p { noAtomic := true } .ok fun n => n.pushes rd rs1 rs2 true)

/-- QPOP (R209, R210). Pops the head word of queue rs1, with rs2 zero. -/
def execQpop (p : Place) (rd rs1 rs2 : BitVec 5) (_imm : BitVec 10) (s : State) : Host.Outcome State Fault Refusal :=
  goesOn s (s.hub.runBoth p { noAtomic := true } .ok fun n => Act.legal (pairReg rd && rs2 == 0) (n.pops rd rs1))

/-- QFLUSH (R210, R278). Flushes queue rs1, with rs2 zero. Bull may flush any queue. -/
def execQflush (p : Place) (_rd rs1 rs2 : BitVec 5) (_imm : BitVec 10) (s : State) : Host.Outcome State Fault Refusal :=
  goesOn s (s.hub.runBoth p { noAtomic := true } .ok fun n =>
    Act.legal (rs2 == 0) (if onBull n.who || n.produces rs1.toNat then { flush := some rs1.toNat } else Act.fails 6))

/-- QSTAT (R269). Depth and status of queue rs1, with rs2 zero. -/
def execQstat (p : Place) (rd rs1 rs2 : BitVec 5) (_imm : BitVec 10) (s : State) : Host.Outcome State Fault Refusal :=
  goesOn s (s.hub.runBoth p limReads .ok fun n => Act.legal (rs2 == 0) (Act.toG rd (n.hub.queueStat rs1.toNat)))

/-! ### Records, time, CS (R168, R204, R212, R286) -/

/-- The header that HDR builds. -/
def Env.hdr (n : Env) (rs1 rs2 : BitVec 5) : W64 :=
  let a := (n.g rs1).toNat
  header (bits a 5 0) n.hub.address (bits a 11 6) (bits (n.g rs2).toNat 23 0) (bits a 23 12)

/-- HDR (R286). -/
def execHdr (p : Place) (rd rs1 rs2 : BitVec 5) (_imm : BitVec 10) (s : State) : Host.Outcome State Fault Refusal :=
  goesOn s (s.hub.runBoth p limReads .ok fun n => Act.legal (pairReg rd) (Act.toPair rd (n.hdr rs1 rs2)))

/-- GAPW (R168). -/
def execGapw (p : Place) (rd rs1 rs2 : BitVec 5) (imm : BitVec 10) (s : State) : Host.Outcome State Fault Refusal :=
  goesOn s (s.hub.runBoth p limReads .ok fun n => Act.legal (pairReg rd) (Act.toPair rd
    (BitVec.ofNat 64 (imm.toNat % 256 * 2 ^ 56 + (n.g rs1).toNat % 2 ^ 24 * 2 ^ 24 + (n.g rs2).toNat % 2 ^ 24))))

/-- What STAG reads: a slot tag, the tag six slots back, POS, TIME_NS. -/
def Hub.stag (h : Hub) (k : Nat) : W32 :=
  match k with
  | 0 => h.tag.setWidth 32
  | 1 => (h.tag - 6#24).setWidth 32
  | 2 => BitVec.ofNat 32 (h.fld F.RT_ORBIT_POS 0)
  | _ => BitVec.ofNat 32 (h.fld F.RT_TIME_NS_NS 0)

/-- STAG (R212), with rs2 zero. -/
def execStag (p : Place) (rd _rs1 rs2 : BitVec 5) (imm : BitVec 10) (s : State) : Host.Outcome State Fault Refusal :=
  goesOn s (s.hub.runBoth p limReads .ok fun n => Act.legal (rs2 == 0) (Act.toG rd (n.hub.stag (imm.toNat % 4))))

/-- MFCS (R204), with rs2 zero. -/
def execMfcs (p : Place) (rd _rs1 rs2 : BitVec 5) (_imm : BitVec 10) (s : State) : Host.Outcome State Fault Refusal :=
  goesOn s (s.hub.runBoth p limReads .ok fun n => Act.legal (rs2 == 0) (Act.toG rd n.cs))

/-- MTCS (R204), with rs2 zero. -/
def execMtcs (p : Place) (_rd rs1 rs2 : BitVec 5) (_imm : BitVec 10) (s : State) : Host.Outcome State Fault Refusal :=
  goesOn s (s.hub.runBoth p limReads .ok fun n => Act.legal (rs2 == 0) { csClr := n.g rs1 &&& 0x1F#32 })

/-! ### Waits (R213, R214) -/

/-- A wait: in the slot context it ends the slot program. -/
def Env.waitSlots (n : Env) (imm : BitVec 10) : Act :=
  match n.who with
  | .oxSlot _ => if imm = 0 then { ends := true } else Act.fails 1
  | _ => { wait := .slots (imm.toNat + 1) }

/-- WSLOT (R213), with rs2 zero. -/
def execWslot (p : Place) (_rd _rs1 rs2 : BitVec 5) (imm : BitVec 10) (s : State) : Host.Outcome State Fault Refusal :=
  goesOn s (s.hub.runBoth p limReads .ok fun n => Act.legal (rs2 == 0) (n.waitSlots imm))

/-- A wait for the oldest trigger notice: a notice held already is taken at once. imm10 is sign-extended (R198). DEDUCED: of a number below
0, that many slot boundaries have passed already (notes/assumptions/84.md). -/
def Env.waitTrig (n : Env) (rd : BitVec 5) (imm : BitVec 10) : Act :=
  match n.who with
  | .oxBg e =>
    match (n.hub.oxOf e.val).notices with
    | x :: _ => { g := noticeRegs rd.toNat x, notice := true }
    | [] => if imm.toInt < 0 then Act.toG rd 0xFFFFFFFF#32
      else { wait := .trig rd.toNat (if imm = 0 then none else some imm.toNat) }
  | _ => Act.fails 0x0B

/-- WTRIG (R214): Ox only, in the scalar slot, with rd even and rs2 zero; CONTEXT in the slot context. -/
def execWtrig (p : Place) (rd _rs1 rs2 : BitVec 5) (imm : BitVec 10) (s : State) : Host.Outcome State Fault Refusal :=
  goesOn s (s.hub.runBoth p {} .ok fun n =>
    if onBull n.who then Act.fails 1 else Act.legal (rd.toNat % 2 == 0 && rs2 == 0) (n.waitTrig rd imm))

end Sys2Proof.Machine
end

