-- ==== Sys2Proof/Machine/Params.lean ====
section
/-! DEFINITION. Meanings of the parameter instructions (07_belouz_instruction_set.md "Parameter instructions"), with the
consistent view (R443), ATOMIC packets (R398-R402) and the twin's regions (R510). -/

namespace Sys2Proof.Machine

/-! ### Reading (R216, R219, R443, R510) -/

/-- The hub as a packet sees it through PLD and PBRD: live fields as they stood at its start, changed by its own writes. -/
def Hub.seenBy (h : Hub) (x : Exec) : Hub := { h with regs := x.view, bank := x.viewBank }

/-- What PLD and PBRD give for an address, and whether RANGE is set: words of the OX ENGINES and BULL memories regions as they stand,
others as the packet sees them (R443). -/
def Hub.paramRead (h : Hub) (bg : Bool) (a : Nat) : W32 × Bool :=
  match bg, h.pk.cur with
  | false, some x =>
    if x.pkt.src != .tether && h.inStep && twinPrivate a then (0, true)
    else if (0x20000 ≤ a && a < 0x42000) || (0x50000 ≤ a && a < 0x58000) then (h.readWord a, h.outOfRange a)
    else ((h.seenBy x).readWord a, (h.seenBy x).outOfRange a)
  | _, _ => (h.readWord a, h.outOfRange a)

/-- GPIO_IN shows the pins as they are at each access of a background task (R585). -/
def Hub.gpioSeen (h : Hub) (bg : Bool) (a : Nat) : Hub := if bg && a = A.GPIO_IN then h.sampleGpio else h

/-- RANGE of the reply of the packet that executes (R18). A background task has no reply. -/
def Hub.rangeSeen (h : Hub) (bg range : Bool) : Hub :=
  if bg || !range then h
  else { h with pk := { h.pk with cur := h.pk.cur.map fun (x : Exec) => { x with range := true } } }

/-- Words appended to the reply of the packet that executes (R404). -/
def Hub.appends (h : Hub) (ws : List W32) : Hub :=
  { h with pk := { h.pk with cur := h.pk.cur.map fun (x : Exec) => { x with reply := x.reply ++ ws } } }

/-- Result words that the reply still has room for (R219). -/
def Hub.replyRoom (h : Hub) : Nat :=
  match h.pk.cur with
  | some x => 4096 - x.reply.length
  | none => 0

/-- Parameter address of PLD and PST, in 32 bits. -/
def Env.paddr (n : Env) (rs1 : BitVec 5) (imm : BitVec 10) : Nat := (n.g rs1 + sx10 imm).toNat

/-- Nothing beside the act. -/
def noEffect (h : Hub) : Hub := h

/-- The hub has no address yet (R29). -/
def Env.unaddressed (n : Env) : Bool := !n.hub.flag F.HUB_ADDR_VALID 0

/-- PLD. -/
def Env.plds (n : Env) (rd rs1 : BitVec 5) (imm : BitVec 10) : Act × (Hub → Hub) :=
  let a := n.paddr rs1 imm
  let bg := inBackground n.who
  if n.unaddressed && decide (0x3FF < a) then (Act.fails 2, noEffect)
  else if 0xFFFFFF < a then (Act.fails 4, noEffect)
  else
    let r := (n.hub.gpioSeen bg a).paramRead bg a
    (Act.toG rd r.1, fun h => (h.gpioSeen bg a).rangeSeen bg r.2)

/-- Words that a block transfer of `k` words from `a` on reaches (R19, R216). -/
def blockLen (a k : Nat) : Nat := min k (regionEnd a + 1 - a)

/-- PBRD: the words that fit go into the reply; REPLY_FULL when more were to come. imm10 is sign-extended (R198). DEDUCED: a number of words
below 1 is none, here and in PBWR (notes/assumptions/84.md). -/
def Env.pbrds (n : Env) (rd rs1 : BitVec 5) (imm : BitVec 10) : Act × (Hub → Hub) :=
  let a := (n.g rs1).toNat
  let k := (imm.toInt + 1).toNat
  if n.unaddressed && decide (0x3FF < a) then (Act.fails 2, noEffect)
  else if inBackground n.who then (Act.fails 0x0B, noEffect)
  else if 0xFFFFFF < a then (Act.fails 4, noEffect)
  else
    let m := blockLen a k
    let fit := min m n.hub.replyRoom
    let rs := (upto fit).map fun i => n.hub.paramRead false (a + i)
    let eff (h : Hub) : Hub := (h.appends (rs.map fun r => r.1)).rangeSeen false (decide (m < k) || rs.any fun r => r.2)
    ({ Act.toG rd (BitVec.ofNat 32 fit) with
        csSet := if m < k then csASAT else 0
        exc := if fit < m then 0x0A else 0 }, eff)

/-- PLD (R215, R443), with rs2 zero. -/
def execPld (p : Place) (rd rs1 rs2 : BitVec 5) (imm : BitVec 10) (s : State) : Host.Outcome State Fault Refusal :=
  goesOn s (s.hub.runOnBull p limPlain .ok fun n =>
    if rs2 = 0 then n.plds rd rs1 imm else (Act.fails 1, noEffect))

/-- PBRD (R215, R216, R219, R228), with rs2 zero. -/
def execPbrd (p : Place) (rd rs1 rs2 : BitVec 5) (imm : BitVec 10) (s : State) : Host.Outcome State Fault Refusal :=
  goesOn s (s.hub.runOnBull p limPlain .ok fun n =>
    if rs2 = 0 then n.pbrds rd rs1 imm else (Act.fails 1, noEffect))

/-! ### Writing (R8-R10, R217, R220, R398-R401) -/

/-- A write of the packet that executes changes what the packet sees as well; the mode that decides what it does is the one in force. -/
def Hub.viewWrite (h : Hub) (a : Nat) (v : W32) : Hub :=
  match h.pk.cur with
  | none => h
  | some x =>
    let now := (h.seenBy x).setFld F.MODE_STAT_MODE 0 h.mode
    let seen := (now.regWrite true a v).setFld F.MODE_STAT_MODE 0 (h.seenBy x).mode
    { h with pk := { h.pk with cur := some { x with view := seen.regs, viewBank := seen.bank } } }

/-- The word is held by an ATOMIC packet: whether the packet that executes is one, and how many words it holds. -/
def Hub.holdsWrites (h : Hub) (bg : Bool) : Bool :=
  !bg && (h.pk.cur.map fun x => x.pkt.atomic).getD false

/-- Words held so far. -/
def Hub.heldWords (h : Hub) : Nat := (h.pk.cur.map fun x => x.held.length).getD 0

/-- One write of PST or PBWR that is not rejected. -/
def Hub.paramWrite (h : Hub) (bg : Bool) (a : Nat) (v : W32) : Hub :=
  let h := h.rangeSeen bg (h.outOfRange a)
  if h.holdsWrites bg then
    { h with pk := { h.pk with cur := h.pk.cur.map fun (x : Exec) => { x with held := x.held ++ [(a, v, x.ix)] } } }
  else (if bg then h else h.viewWrite a v).regWrite (!bg) a v

/-- The exception of a write (R217, R220, R401). -/
def Hub.writeExc (h : Hub) (bg : Bool) (a : Nat) (v : W32) : Nat :=
  if h.rejects a v ≠ 0 then h.rejects a v else if h.holdsWrites bg && decide (256 ≤ h.heldWords) then 9 else 0

/-- PST. -/
def Env.psts (n : Env) (rs1 rs2 : BitVec 5) (imm : BitVec 10) : Act × (Hub → Hub) :=
  let a := n.paddr rs1 imm
  let bg := inBackground n.who
  if n.unaddressed && a != A.HUB_ADDR then (Act.fails 2, noEffect)
  else if 0xFFFFFF < a then (Act.fails 4, noEffect)
  else if n.hub.writeExc bg a (n.g rs2) ≠ 0 then (Act.fails (n.hub.writeExc bg a (n.g rs2)), noEffect)
  else ({}, fun h => h.paramWrite bg a (n.g rs2))

/-- Writes words from an address on, until one is rejected; answers how many are written and the exception. -/
def Hub.writeBlock (h : Hub) (bg : Bool) (a done : Nat) (ws : List W32) : Hub × Nat × Nat :=
  match ws with
  | [] => (h, done, 0)
  | w :: rest =>
    if h.writeExc bg a w ≠ 0 then (h, done, h.writeExc bg a w)
    else (h.paramWrite bg a w).writeBlock bg (a + 1) (done + 1) rest

/-- PBWR: imm10 + 1 words, of which a number below 1 is none (R198; notes/assumptions/84.md). A word rejected with WRONG_MODE leaves the words before it written; after any other exception nothing has changed. -/
def Env.pbwrs (n : Env) (rd rs1 rs2 : BitVec 5) (imm : BitVec 10) : Act × (Hub → Hub) :=
  let a := (n.g rs1).toNat
  let src := (n.g rs2).toNat
  let k := (imm.toInt + 1).toNat
  let bg := inBackground n.who
  if n.unaddressed && !(a == A.HUB_ADDR && imm == 0) then (Act.fails 2, noEffect)
  else if 0xFFFFFF < a then (Act.fails 4, noEffect)
  else if n.badAddr src 4 (4 * k) ≠ 0 then (Act.fails (n.badAddr src 4 (4 * k)), noEffect)
  else
    let m := blockLen a k
    let ws := (upto m).map fun i => n.data (src / 4 + i)
    let r := n.hub.writeBlock bg a 0 ws
    let eff (h : Hub) : Hub := ((h.writeBlock bg a 0 ws).1).rangeSeen bg (decide (m < k))
    if r.2.2 = 0 || r.2.2 = 2 then
      ({ Act.toG rd (BitVec.ofNat 32 r.2.1) with
          csSet := if m < k then csASAT else 0
          exc := r.2.2
          reads := (src / 4, m) }, eff)
    else ({ exc := r.2.2 }, noEffect)

/-- PST (R8-R10, R215, R220), with rd zero. -/
def execPst (p : Place) (rd rs1 rs2 : BitVec 5) (imm : BitVec 10) (s : State) : Host.Outcome State Fault Refusal :=
  goesOn s (s.hub.runOnBull p { unaddr := true } .ok fun n =>
    if rd = 0 then n.psts rs1 rs2 imm else (Act.fails 1, noEffect))

/-- PBWR (R215-R218, R220). -/
def execPbwr (p : Place) (rd rs1 rs2 : BitVec 5) (imm : BitVec 10) (ecc : Ecc) (s : State) : Host.Outcome State Fault Refusal :=
  goesOn s (s.hub.runOnBull p { unaddr := true } ecc fun n => n.pbwrs rd rs1 rs2 imm)

end Sys2Proof.Machine
end

