-- ==== Sys2Proof/Machine/System.lean ====
section
/-! DEFINITION. Meanings of the procedure, result-slot and system instructions (07_belouz_instruction_set.md "Stored procedures
and result slots", "System instructions"). They exist on Bull only. -/

namespace Sys2Proof.Machine

/-- A Bull instruction whose rs2 field is zero (R197). -/
def Hub.system (h : Hub) (p : Place) (rs2 : BitVec 5) (lim : Limits) (f : Env → Act × (Hub → Hub)) : Hub :=
  h.runOnBull p lim .ok fun n => if rs2 = 0 then f n else (Act.fails 1, noEffect)

/-! ### Procedures (R221-R227) -/

/-- Entry address of a stored procedure (R196). -/
def Env.procEntry (n : Env) (k : W8) : Nat := bits (n.data k.toNat).toNat 13 0

/-- The word of the procedure table cannot be corrected: the read of it raises UNCORR. DESIGN CHOICE: CALL has no check outcome of its own, so
its read finds only a word that is marked bad already; the spec does not say whether that read is a load (notes/assumptions/99.md). -/
def Env.procBad (n : Env) (k : W8) : Bool := n.hub.isBad n.who false k.toNat

/-- CALL in the foreground, or within a task (R227). -/
def Env.calls (n : Env) (k : W8) : Act :=
  if n.procBad k then { reads := (k.toNat, 1) }
  else if n.procEntry k = 0 then Act.fails 8
  else { g := [(31, n.link)], target := some (n.procEntry k), reads := (k.toNat, 1) }

/-- CALL of a background task (R221-R223, R227). DESIGN CHOICE: of an absent procedure and a full queue or a BUSY slot the absent procedure is
raised, NOPROC; the spec does not order the two (notes/assumptions/100.md). -/
def Env.callsTask (n : Env) (rd rs1 rs2 : BitVec 5) (k : W8) : Act × (Hub → Hub) :=
  let slot := (n.g rs2).toNat % 16
  if n.procBad k then ({ reads := (k.toNat, 1) }, noEffect)
  else if n.procEntry k = 0 then (Act.fails 8, noEffect)
  else if 8 ≤ n.hub.bull.tasks.length || n.hub.slotState slot = 1 then (Act.fails 9, noEffect)
  else
    let t : Task := { entry := n.procEntry k, arg := n.g rs1, slot := slot }
    ({ Act.toG rd (BitVec.ofNat 32 (n.hub.slotBusy slot).2) with reads := (k.toNat, 1) }, fun h =>
      let h := (h.slotBusy slot).1
      { h with bull := { h.bull with tasks := h.bull.tasks ++ [t] } })

/-- CALL (R188, R227), with rs2 zero. Bit 9 of the immediate is not used. -/
def execCall (p : Place) (_rd _rs1 rs2 : BitVec 5) (proc : W8) (_hi : Bool) (s : State) : Host.Outcome State Fault Refusal :=
  goesOn s (s.hub.system p rs2 limReads fun n => (n.calls proc, noEffect))

/-- CALL_BACKGROUND (R221-R223, R227). -/
def execCallBackground (p : Place) (rd rs1 rs2 : BitVec 5) (proc : W8) (_hi : Bool) (s : State) :
    Host.Outcome State Fault Refusal :=
  goesOn s (s.hub.runOnBull p { noAtomic := true } .ok fun n => n.callsTask rd rs1 rs2 proc)

/-! ### Result slots (R224-R228) -/

/-- The descriptor of a result slot and its value words. -/
def Hub.slotWords (h : Hub) (k : Nat) : List W32 :=
  h.word (F.RSLOT_DESC_TAG.addr k) ::
    (upto (min 32 (h.fld F.RSLOT_DESC_WCOUNT k))).map fun w => h.word (F.RSLOT_VAL_VALUE.addr (32 * k + w))

/-- STALE of the reply of the packet that executes (R225). -/
def Hub.staleSeen (h : Hub) : Hub :=
  { h with pk := { h.pk with cur := h.pk.cur.map fun (x : Exec) => { x with stale := true } } }

/-- RSLT READ: the descriptor and the words go into the reply. -/
def Env.readsSlot (n : Env) (rd : BitVec 5) (k : Nat) : Act × (Hub → Hub) :=
  let ws := n.hub.slotWords k
  if inBackground n.who then (Act.fails 0x0B, noEffect)
  else if n.hub.replyRoom < ws.length then (Act.fails 0x0A, noEffect)
  else (Act.toG rd (ws.headD 0), fun h => (if h.slotState k = 2 then h else h.staleSeen).appends ws)

/-- RSLT POST: g[rs2] words from data memory at g[rs1]. DESIGN CHOICE: a count above 32 raises ADDRESS before the alignment of g[rs1] is looked
at; the spec does not order ADDRESS and ALIGN there (notes/assumptions/101.md). -/
def Env.posts (n : Env) (rs1 rs2 : BitVec 5) (k : Nat) : Act × (Hub → Hub) :=
  let a := (n.g rs1).toNat
  let c := (n.g rs2).toNat
  if 32 < c then (Act.fails 4, noEffect)
  else if c ≠ 0 && n.badAddr a 4 (4 * c) ≠ 0 then (Act.fails (n.badAddr a 4 (4 * c)), noEffect)
  else ({ reads := (a / 4, c) }, fun h => h.slotDone k ((upto c).map fun i => n.data (a / 4 + i)) 0)

/-- RSLT_READ (R225, R228), with rs2 zero. The words stand in the result slot, whose reading has no check of its own. -/
def execRsltRead (p : Place) (rd _rs1 rs2 : BitVec 5) (imm : W8) (_ecc : Ecc) (s : State) : Host.Outcome State Fault Refusal :=
  goesOn s (s.hub.system p rs2 limReads fun n => n.readsSlot rd (imm.toNat % 16))

/-- RSLT_POST (R224, R227). -/
def execRsltPost (p : Place) (_rd rs1 rs2 : BitVec 5) (imm : W8) (ecc : Ecc) (s : State) : Host.Outcome State Fault Refusal :=
  goesOn s (s.hub.runOnBull p { noAtomic := true } ecc fun n => n.posts rs1 rs2 (imm.toNat % 16))

/-- RFREE (R227), with rs2 zero. -/
def execRfree (p : Place) (_rd _rs1 rs2 : BitVec 5) (imm : BitVec 10) (s : State) : Host.Outcome State Fault Refusal :=
  goesOn s (s.hub.system p rs2 { noAtomic := true } fun n =>
    if n.hub.slotState (imm.toNat % 16) = 1 then (Act.fails 9, noEffect) else ({}, fun h => h.slotFree (imm.toNat % 16)))

/-- RPUT (R219, R228, R404), with rs2 zero. -/
def execRput (p : Place) (_rd rs1 rs2 : BitVec 5) (_imm : BitVec 10) (s : State) : Host.Outcome State Fault Refusal :=
  goesOn s (s.hub.system p rs2 limPlain fun n =>
    if inBackground n.who then (Act.fails 0x0B, noEffect)
    else if n.hub.replyRoom = 0 then (Act.fails 0x0A, noEffect)
    else ({}, fun h => h.appends [n.g rs1]))

/-! ### Mode, snapshots and commits (R229-R231) -/

/-- MODE: a change that is not allowed raises WRONG_MODE; one that is waits for its boundary. -/
def Env.asksMode (n : Env) (rd : BitVec 5) (m : Nat) : Act × (Hub → Hub) :=
  if 5 < m then (Act.fails 1, noEffect)
  else if !n.hub.modeAllowed m then (Act.fails 2, noEffect)
  else if n.hub.modeSame m then (Act.toG rd (BitVec.ofNat 32 n.hub.mode), noEffect)
  else ({ wait := .mode rd.toNat }, fun h => { h with goose := { h.goose with modeReq := some m } })

/-- MODE (R229), with rs2 zero. -/
def execMode (p : Place) (rd _rs1 rs2 : BitVec 5) (imm : BitVec 10) (s : State) : Host.Outcome State Fault Refusal :=
  goesOn s (s.hub.system p rs2 { noAtomic := true } fun n => n.asksMode rd (imm.toNat % 8))

/-- Action slot of SNAP and COMMIT (R230). -/
def Env.actionSlot (n : Env) (rs1 : BitVec 5) (imm : BitVec 10) : W48 :=
  let d := field 24 ((bits (n.g rs1).toNat 23 0 : Nat) - (n.hub.tag.toNat : Int))
  if imm.getLsbD 0 || d = 0 || 2 ^ 23 < d then n.hub.slot + 1#48 else n.hub.slot + BitVec.ofNat 48 d

/-- A slot's tag as a register value. -/
def tagOf (s : W48) : W32 := BitVec.ofNat 32 (s.toNat % 2 ^ 24)

/-- SNAP (R230, R231), with rs2 zero. -/
def execSnap (p : Place) (rd rs1 rs2 : BitVec 5) (imm : BitVec 10) (s : State) : Host.Outcome State Fault Refusal :=
  goesOn s (s.hub.system p rs2 { noAtomic := true } fun n =>
    let t := n.actionSlot rs1 imm
    (Act.toG rd (tagOf t), fun h =>
      ({ h with rooster := { h.rooster with snapAt := some t } }).setFld F.SNAP_STAT_SCHED 0 1))

/-- COMMIT (R230, R231), with rs2 zero. -/
def execCommit (p : Place) (rd rs1 rs2 : BitVec 5) (imm : BitVec 10) (s : State) : Host.Outcome State Fault Refusal :=
  goesOn s (s.hub.system p rs2 { noAtomic := true } fun n =>
    let t := n.actionSlot rs1 imm
    (Act.toG rd (tagOf t), fun h =>
      ({ h with rooster := { h.rooster with commitAt := some t } }).setFld F.COMMIT_STAT_SCHED 0 1))

/-- ACK (R407, R409), with rs2 zero. -/
def execAck (p : Place) (_rd rs1 rs2 : BitVec 5) (_imm : BitVec 10) (s : State) : Host.Outcome State Fault Refusal :=
  goesOn s (s.hub.system p rs2 { noAtomic := true } fun n => ({}, fun h => h.clearAttn (n.g rs1).toNat))

/-! ### Banks (R232-R235) -/

/-- The engines that g[rs1][16:0] names. -/
def Env.named (n : Env) (rs1 : BitVec 5) : List Nat := setBitsOf 17 (n.g rs1).toNat

/-- Seals or unseals the selected bank of the named engines. -/
def Hub.setSeals (h : Hub) (es : List Nat) (standby sealed : Bool) : Hub :=
  each es h fun e h => h.setFlag (if standby then F.OX_STAT_STBY_SEALED else F.OX_STAT_ACT_SEALED) e sealed

/-- SEAL (R233), with rs2 zero. Bits 9-2 of fn are not used. -/
def execSeal (p : Place) (_rd rs1 rs2 : BitVec 5) (standby : Bool) (_hi : BitVec 8) (s : State) :
    Host.Outcome State Fault Refusal :=
  goesOn s (s.hub.system p rs2 { noAtomic := true } fun n => ({}, fun h => h.setSeals (n.named rs1) standby true))

/-- UNSEAL (R233), with rs2 zero: outside SETUP, active banks stay sealed. -/
def execUnseal (p : Place) (_rd rs1 rs2 : BitVec 5) (standby : Bool) (_hi : BitVec 8) (s : State) :
    Host.Outcome State Fault Refusal :=
  goesOn s (s.hub.system p rs2 { noAtomic := true } fun n =>
    if !standby && n.hub.mode != mSetup && !(n.named rs1).isEmpty then (Act.fails 2, noEffect)
    else ({}, fun h => h.setSeals (n.named rs1) standby false))

/-- The slot at whose opening a SWAP acts (R235). -/
def Hub.swapSlot (h : Hub) : W48 :=
  if h.running then h.slot + BitVec.ofNat 48 (h.fld F.RT_ORBIT_LEN 0 - h.fld F.RT_ORBIT_POS 0) else h.slot + 1#48

/-- SWAP. -/
def Env.swaps (n : Env) (rd rs1 : BitVec 5) : Act × (Hub → Hub) :=
  let es := n.named rs1
  if es.any fun e => !n.hub.flag F.OX_STAT_STBY_SEALED e then (Act.fails 7, noEffect)
  else if es.any fun e => n.hub.flag F.OX_STAT_SWAP_PEND e then (Act.fails 9, noEffect)
  else (Act.toG rd (tagOf n.hub.swapSlot), fun h => each es h fun e h =>
    (h.setOx e { h.oxOf e with swapFrom := h.slot }).setFld F.OX_STAT_SWAP_PEND e 1)

/-- SWAP (R234, R235), with rs2 zero. -/
def execSwap (p : Place) (rd rs1 rs2 : BitVec 5) (_imm : BitVec 10) (s : State) : Host.Outcome State Fault Refusal :=
  goesOn s (s.hub.system p rs2 { noAtomic := true } fun n => n.swaps rd rs1)

/-- JLOG (R435), with rs2 zero: every field of JNL_STEP and JNL_LANES clears. -/
def execJlog (p : Place) (_rd _rs1 rs2 : BitVec 5) (imm : BitVec 10) (s : State) : Host.Outcome State Fault Refusal :=
  goesOn s (s.hub.system p rs2 { noAtomic := true } fun _ =>
    if imm = 1 then ({}, fun h => h.setWords A.JNL_STEP (List.replicate 11 0)) else (Act.fails 1, noEffect))

end Sys2Proof.Machine
end

