-- ==== Sys2Proof/Machine/Vector.lean ====
section
/-! DEFINITION. Meanings of the vector, compare, mask and data-move instructions (07_belouz_instruction_set.md, "Vector
instructions"). They exist on Ox only, in the vector slot. -/

namespace Sys2Proof.Machine

/-! ### Vector ALU (R236, R237) -/

/-- What a vector ALU instruction does: each lane that takes part gets the result, VSAT is set when one of them saturated. -/
def Env.lanes (n : Env) (rd rs1 rs2 : BitVec 5) (pr : BitVec 3) (cyc : Nat) (f : LaneOp) : Act :=
  let a := n.v rs1.toNat
  let b := n.v rs2.toNat
  let old := n.v rd.toNat
  let r (c : Nat) : Nat × Bool := f (lane16 a c) (lane16 b c)
  { v := [(rd.toNat, vecOf fun c => if n.takes pr c then (r c).1 else lane16 old c)]
    csSet := if (upto 32).any fun c => n.takes pr c && (r c).2 then csVSAT else 0
    cyc := cyc }

/-- A vector ALU instruction. -/
def Hub.vecAlu (h : Hub) (p : Place) (rd rs1 rs2 : BitVec 5) (pr : BitVec 3) (cyc : Nat) (f : LaneOp) : Hub :=
  h.runVector p .ok fun n => Act.legal (vReg rd && vReg rs1 && vReg rs2 && predOk pr) (n.lanes rd rs1 rs2 pr cyc f)

/-- VADD (R236). Sum modulo 2^16. -/
def execVadd (p : Place) (rd rs1 rs2 : BitVec 5) (pr : BitVec 3) (s : State) : Host.Outcome State Fault Refusal :=
  goesOn s (s.hub.vecAlu p rd rs1 rs2 pr 1 (plainOp fun a b => a + b))

/-- VADDS (R237). Signed sum, saturated. -/
def execVadds (p : Place) (rd rs1 rs2 : BitVec 5) (pr : BitVec 3) (s : State) : Host.Outcome State Fault Refusal :=
  goesOn s (s.hub.vecAlu p rd rs1 rs2 pr 1 (satOpS fun a b => a + b))

/-- VADDU (R237). Unsigned sum, saturated. -/
def execVaddu (p : Place) (rd rs1 rs2 : BitVec 5) (pr : BitVec 3) (s : State) : Host.Outcome State Fault Refusal :=
  goesOn s (s.hub.vecAlu p rd rs1 rs2 pr 1 (satOpU fun a b => a + b))

/-- VSUB (R236). Difference modulo 2^16. -/
def execVsub (p : Place) (rd rs1 rs2 : BitVec 5) (pr : BitVec 3) (s : State) : Host.Outcome State Fault Refusal :=
  goesOn s (s.hub.vecAlu p rd rs1 rs2 pr 1 (plainOp fun a b => a + 65536 - b))

/-- VSUBS (R237). Signed difference, saturated. -/
def execVsubs (p : Place) (rd rs1 rs2 : BitVec 5) (pr : BitVec 3) (s : State) : Host.Outcome State Fault Refusal :=
  goesOn s (s.hub.vecAlu p rd rs1 rs2 pr 1 (satOpS fun a b => a - b))

/-- VSUBU (R237). Unsigned difference, saturated. -/
def execVsubu (p : Place) (rd rs1 rs2 : BitVec 5) (pr : BitVec 3) (s : State) : Host.Outcome State Fault Refusal :=
  goesOn s (s.hub.vecAlu p rd rs1 rs2 pr 1 (satOpU fun a b => a - b))

/-- VMUL (R236). Low 16 bits of the product. -/
def execVmul (p : Place) (rd rs1 rs2 : BitVec 5) (pr : BitVec 3) (s : State) : Host.Outcome State Fault Refusal :=
  goesOn s (s.hub.vecAlu p rd rs1 rs2 pr 2 (plainOp fun a b => a * b))

/-- VMULR (R237). Signed product over 2^15, rounded and saturated. -/
def execVmulr (p : Place) (rd rs1 rs2 : BitVec 5) (pr : BitVec 3) (s : State) : Host.Outcome State Fault Refusal :=
  goesOn s (s.hub.vecAlu p rd rs1 rs2 pr 2 (satOpS fun a b => roundDiv (a * b) (2 ^ 15)))

/-- VMIN (R236). The smaller, signed. -/
def execVmin (p : Place) (rd rs1 rs2 : BitVec 5) (pr : BitVec 3) (s : State) : Host.Outcome State Fault Refusal :=
  goesOn s (s.hub.vecAlu p rd rs1 rs2 pr 1 (plainOp fun a b => if signed 16 b < signed 16 a then b else a))

/-- VMAX (R236). The larger, signed. -/
def execVmax (p : Place) (rd rs1 rs2 : BitVec 5) (pr : BitVec 3) (s : State) : Host.Outcome State Fault Refusal :=
  goesOn s (s.hub.vecAlu p rd rs1 rs2 pr 1 (plainOp fun a b => if signed 16 a < signed 16 b then b else a))

/-- VMINU (R236). The smaller, unsigned. -/
def execVminu (p : Place) (rd rs1 rs2 : BitVec 5) (pr : BitVec 3) (s : State) : Host.Outcome State Fault Refusal :=
  goesOn s (s.hub.vecAlu p rd rs1 rs2 pr 1 (plainOp fun a b => min a b))

/-- VMAXU (R236). The larger, unsigned. -/
def execVmaxu (p : Place) (rd rs1 rs2 : BitVec 5) (pr : BitVec 3) (s : State) : Host.Outcome State Fault Refusal :=
  goesOn s (s.hub.vecAlu p rd rs1 rs2 pr 1 (plainOp fun a b => max a b))

/-- VAND (R236). AND. -/
def execVand (p : Place) (rd rs1 rs2 : BitVec 5) (pr : BitVec 3) (s : State) : Host.Outcome State Fault Refusal :=
  goesOn s (s.hub.vecAlu p rd rs1 rs2 pr 1 (plainOp fun a b => a &&& b))

/-- VOR (R236). OR. -/
def execVor (p : Place) (rd rs1 rs2 : BitVec 5) (pr : BitVec 3) (s : State) : Host.Outcome State Fault Refusal :=
  goesOn s (s.hub.vecAlu p rd rs1 rs2 pr 1 (plainOp fun a b => a ||| b))

/-- VXOR (R236). Exclusive OR. -/
def execVxor (p : Place) (rd rs1 rs2 : BitVec 5) (pr : BitVec 3) (s : State) : Host.Outcome State Fault Refusal :=
  goesOn s (s.hub.vecAlu p rd rs1 rs2 pr 1 (plainOp fun a b => a ^^^ b))

/-- VABSD (R236). Magnitude of the unsigned difference. -/
def execVabsd (p : Place) (rd rs1 rs2 : BitVec 5) (pr : BitVec 3) (s : State) : Host.Outcome State Fault Refusal :=
  goesOn s (s.hub.vecAlu p rd rs1 rs2 pr 1 (plainOp fun a b => max a b - min a b))

/-- VSLL (R236). Shift left by b[3:0]. -/
def execVsll (p : Place) (rd rs1 rs2 : BitVec 5) (pr : BitVec 3) (s : State) : Host.Outcome State Fault Refusal :=
  goesOn s (s.hub.vecAlu p rd rs1 rs2 pr 1 (plainOp fun a b => a * 2 ^ (b % 16)))

/-- VSRL (R236). Shift right by b[3:0], zero-filled. -/
def execVsrl (p : Place) (rd rs1 rs2 : BitVec 5) (pr : BitVec 3) (s : State) : Host.Outcome State Fault Refusal :=
  goesOn s (s.hub.vecAlu p rd rs1 rs2 pr 1 (plainOp fun a b => a / 2 ^ (b % 16)))

/-- VSRA (R236). Shift right by b[3:0], sign-filled. -/
def execVsra (p : Place) (rd rs1 rs2 : BitVec 5) (pr : BitVec 3) (s : State) : Host.Outcome State Fault Refusal :=
  goesOn s (s.hub.vecAlu p rd rs1 rs2 pr 1 (plainOp fun a b => field 16 (signed 16 a / (2 ^ (b % 16) : Nat))))

/-- VSRAR (R236). Signed quotient by 2^b[3:0], rounded. -/
def execVsrar (p : Place) (rd rs1 rs2 : BitVec 5) (pr : BitVec 3) (s : State) : Host.Outcome State Fault Refusal :=
  goesOn s (s.hub.vecAlu p rd rs1 rs2 pr 1 (plainOp fun a b => field 16 (roundDiv (signed 16 a) (2 ^ (b % 16)))))

/-- VAVG (R236). Unsigned average, rounded. -/
def execVavg (p : Place) (rd rs1 rs2 : BitVec 5) (pr : BitVec 3) (s : State) : Host.Outcome State Fault Refusal :=
  goesOn s (s.hub.vecAlu p rd rs1 rs2 pr 1 (plainOp fun a b => (a + b + 1) / 2))

/-! ### Compare and masks (R236) -/

/-- VCMP (R236): bit c of m[rd] is the relation fn[2:0] between the lanes, and 0 where the predicate leaves the lane out; fn[6:3]
is zero. -/
def execVcmp (p : Place) (rd rs1 rs2 : BitVec 5) (imm : BitVec 10) (s : State) : Host.Outcome State Fault Refusal :=
  goesOn s (s.hub.runVector p .ok fun n =>
    let pr := imm.extractLsb' 7 3
    Act.legal (mReg rd && vReg rs1 && vReg rs2 && predOk pr && bits imm.toNat 6 3 == 0) {
      m := [(rd.toNat, mask32 fun c =>
        n.takes pr c && relation (imm.toNat % 8) (lane16 (n.v rs1.toNat) c) (lane16 (n.v rs2.toNat) c))] })

/-- A mask operation of two masks, with fn[9:7] zero. -/
def Hub.maskOp (h : Hub) (p : Place) (rd rs1 rs2 : BitVec 5) (pr : BitVec 3) (f : W32 → W32 → W32) : Hub :=
  h.runVector p .ok fun n =>
    Act.legal (mReg rd && mReg rs1 && mReg rs2 && pr == 0) { m := [(rd.toNat, f (n.m rs1.toNat) (n.m rs2.toNat))] }

/-- A mask operation that gives a register, with fn[9:7] and rs2 zero. -/
def Hub.maskOut (h : Hub) (p : Place) (rd rs1 rs2 : BitVec 5) (pr : BitVec 3) (f : W32 → W32) : Hub :=
  h.runVector p .ok fun n => Act.legal (mReg rs1 && rs2 == 0 && pr == 0) (Act.toG rd (f (n.m rs1.toNat)))

/-- MAND (R236). AND. -/
def execMand (p : Place) (rd rs1 rs2 : BitVec 5) (pr : BitVec 3) (s : State) : Host.Outcome State Fault Refusal :=
  goesOn s (s.hub.maskOp p rd rs1 rs2 pr fun a b => a &&& b)

/-- MOR (R236). OR. -/
def execMor (p : Place) (rd rs1 rs2 : BitVec 5) (pr : BitVec 3) (s : State) : Host.Outcome State Fault Refusal :=
  goesOn s (s.hub.maskOp p rd rs1 rs2 pr fun a b => a ||| b)

/-- MXOR (R236). Exclusive OR. -/
def execMxor (p : Place) (rd rs1 rs2 : BitVec 5) (pr : BitVec 3) (s : State) : Host.Outcome State Fault Refusal :=
  goesOn s (s.hub.maskOp p rd rs1 rs2 pr fun a b => a ^^^ b)

/-- MANDN (R236). m[rs1] AND NOT m[rs2]. -/
def execMandn (p : Place) (rd rs1 rs2 : BitVec 5) (pr : BitVec 3) (s : State) : Host.Outcome State Fault Refusal :=
  goesOn s (s.hub.maskOp p rd rs1 rs2 pr fun a b => a &&& ~~~b)

/-- MNOT (R236), with rs2 zero. -/
def execMnot (p : Place) (rd rs1 rs2 : BitVec 5) (pr : BitVec 3) (s : State) : Host.Outcome State Fault Refusal :=
  goesOn s (s.hub.runVector p .ok fun n =>
    Act.legal (mReg rd && mReg rs1 && rs2 == 0 && pr == 0) { m := [(rd.toNat, ~~~n.m rs1.toNat)] })

/-- MTM (R190), with rs2 zero. -/
def execMtm (p : Place) (rd rs1 rs2 : BitVec 5) (pr : BitVec 3) (s : State) : Host.Outcome State Fault Refusal :=
  goesOn s (s.hub.runVector p .ok fun n => Act.legal (mReg rd && rs2 == 0 && pr == 0) { m := [(rd.toNat, n.g rs1)] })

/-- MFM (R190). The mask. -/
def execMfm (p : Place) (rd rs1 rs2 : BitVec 5) (pr : BitVec 3) (s : State) : Host.Outcome State Fault Refusal :=
  goesOn s (s.hub.maskOut p rd rs1 rs2 pr fun a => a)

/-- MCNT (R190). Its set bits. -/
def execMcnt (p : Place) (rd rs1 rs2 : BitVec 5) (pr : BitVec 3) (s : State) : Host.Outcome State Fault Refusal :=
  goesOn s (s.hub.maskOut p rd rs1 rs2 pr fun a => BitVec.ofNat 32 (setBits a))

/-- MFIRST (R190). Its lowest set bit, or 32. -/
def execMfirst (p : Place) (rd rs1 rs2 : BitVec 5) (pr : BitVec 3) (s : State) : Host.Outcome State Fault Refusal :=
  goesOn s (s.hub.maskOut p rd rs1 rs2 pr fun a => BitVec.ofNat 32 (lowestBit a))

/-! ### Moves, loads and stores (R190, R195) -/

/-- VSPLAT (R190), with rs2 and fn zero. -/
def execVsplat (p : Place) (rd rs1 rs2 : BitVec 5) (imm : BitVec 10) (s : State) : Host.Outcome State Fault Refusal :=
  goesOn s (s.hub.runVector p .ok fun n =>
    Act.legal (vReg rd && rs2 == 0 && imm == 0) { v := [(rd.toNat, vecOf fun _ => (n.g rs1).toNat)] })

/-- VEXT (R190): lane imm[4:0], sign-extended when imm[5] is 1; rs2 and imm[9:6] are zero. -/
def execVext (p : Place) (rd rs1 rs2 : BitVec 5) (imm : BitVec 10) (s : State) : Host.Outcome State Fault Refusal :=
  goesOn s (s.hub.runVector p .ok fun n =>
    let k := lane16 (n.v rs1.toNat) (imm.toNat % 32)
    Act.legal (vReg rs1 && rs2 == 0 && imm.toNat / 64 == 0)
      (Act.toG rd (if imm.getLsbD 5 then BitVec.ofInt 32 (signed 16 k) else BitVec.ofNat 32 k)))

/-- VINS (R190): lane imm[4:0]; rs2 and imm[9:5] are zero. -/
def execVins (p : Place) (rd rs1 rs2 : BitVec 5) (imm : BitVec 10) (s : State) : Host.Outcome State Fault Refusal :=
  goesOn s (s.hub.runVector p .ok fun n =>
    Act.legal (vReg rd && rs2 == 0 && imm.toNat / 32 == 0) {
      v := [(rd.toNat, vecOf fun c => if c = imm.toNat then (n.g rs1).toNat else lane16 (n.v rd.toNat) c)] })

/-- Lane `c` of the 64 bytes whose first word is `w`. -/
def Env.dataLane (n : Env) (w c : Nat) : Nat := partOf (n.data (w + c / 2)) (2 * (c % 2)) 2

/-- VLD: 64 bytes from an address that is a multiple of 64. -/
def Env.loadVec (n : Env) (rd rs1 : BitVec 5) (imm : BitVec 10) : Act :=
  let a := n.addr rs1 imm 64
  if n.badAddr a 64 64 ≠ 0 then Act.fails (n.badAddr a 64 64)
  else { v := [(rd.toNat, vecOf fun c => n.dataLane (a / 4) c)], cyc := 2, uses := true, reads := (a / 4, 16) }

/-- VST: the vector as 64 bytes. -/
def Env.storeVec (n : Env) (rs1 rs2 : BitVec 5) (imm : BitVec 10) : Act :=
  let a := n.addr rs1 imm 64
  if n.badAddr a 64 64 ≠ 0 then Act.fails (n.badAddr a 64 64)
  else { mem := (upto 16).map fun k => (a / 4 + k, (n.v rs2.toNat).extractLsb' (32 * k) 32), uses := true }

/-- VLD (R191, R195), with rs2 zero. -/
def execVld (p : Place) (rd rs1 rs2 : BitVec 5) (imm : BitVec 10) (ecc : Ecc) (s : State) : Host.Outcome State Fault Refusal :=
  goesOn s (s.hub.runVector p ecc fun n => Act.legal (vReg rd && rs2 == 0) (n.loadVec rd rs1 imm))

/-- VST (R195), with rd zero. -/
def execVst (p : Place) (rd rs1 rs2 : BitVec 5) (imm : BitVec 10) (s : State) : Host.Outcome State Fault Refusal :=
  goesOn s (s.hub.runVector p .ok fun n => Act.legal (rd == 0 && vReg rs2) (n.storeVec rs1 rs2 imm))

/-! ### Reductions (R236) -/

/-- The lanes that take part in a reduction. -/
def Env.takenLanes (n : Env) (pr : BitVec 3) : List Nat := (upto 32).filter fun c => n.takes pr c

/-- The largest unsigned lane of some lanes, 0 when there is none. -/
def maxLane (a : Vec) (cs : List Nat) : Nat := cs.foldl (fun m c => max m (lane16 a c)) 0

/-- The lowest lane that holds the largest value, or 32. -/
def maxIndex (a : Vec) (cs : List Nat) : Nat := (cs.find? fun c => lane16 a c == maxLane a cs).getD 32

/-- A reduction, with rs2 zero. -/
def Hub.reduces (h : Hub) (p : Place) (rd rs1 rs2 : BitVec 5) (pr : BitVec 3) (f : Vec → List Nat → Int) : Hub :=
  h.runVector p .ok fun n =>
    Act.legal (vReg rs1 && rs2 == 0 && predOk pr)
      { Act.toG rd (BitVec.ofInt 32 (f (n.v rs1.toNat) (n.takenLanes pr))) with cyc := 2 }

/-- VRED_SUM (R236). Sum of the signed lanes. -/
def execVredSum (p : Place) (rd rs1 rs2 : BitVec 5) (pr : BitVec 3) (s : State) : Host.Outcome State Fault Refusal :=
  goesOn s (s.hub.reduces p rd rs1 rs2 pr fun a cs => cs.foldl (fun (t : Int) c => t + lane16s a c) 0)

/-- VRED_SUMU (R236). Sum of the unsigned lanes. -/
def execVredSumu (p : Place) (rd rs1 rs2 : BitVec 5) (pr : BitVec 3) (s : State) : Host.Outcome State Fault Refusal :=
  goesOn s (s.hub.reduces p rd rs1 rs2 pr fun a cs => cs.foldl (fun (t : Int) c => t + lane16 a c) 0)

/-- VRED_MAXU (R236). The largest unsigned lane. -/
def execVredMaxu (p : Place) (rd rs1 rs2 : BitVec 5) (pr : BitVec 3) (s : State) : Host.Outcome State Fault Refusal :=
  goesOn s (s.hub.reduces p rd rs1 rs2 pr fun a cs => maxLane a cs)

/-- VRED_MAXIDX (R236). The lowest lane that holds it, or 32. -/
def execVredMaxidx (p : Place) (rd rs1 rs2 : BitVec 5) (pr : BitVec 3) (s : State) : Host.Outcome State Fault Refusal :=
  goesOn s (s.hub.reduces p rd rs1 rs2 pr fun a cs => maxIndex a cs)

end Sys2Proof.Machine
end

