-- ==== Sys2Proof/Machine/Assist.lean ====
section
/-! DEFINITION. Meanings of the assists: the hits and the capture stream of an engine's group (07_belouz_instruction_set.md,
"Assists"). They exist on Ox only, in the vector slot. -/

namespace Sys2Proof.Machine

/-! ### Hits (R113, R116, R238) -/

/-- The engine of an instruction. -/
def Env.engine (n : Env) : Ox := n.hub.oxOf (engineOf n.who)

/-- The hit of lane `c` presented in this slot: the primary, or the secondary. -/
def Env.hitOf (n : Env) (sec : Bool) (c : Nat) : Option Hit :=
  (if sec then n.engine.sec else n.engine.prim).find? fun y => y.ch % 32 == c

/-- Bits [11:8] of the hit word of a primary. -/
def Env.hitFlags (n : Env) (y : Hit) : Nat := bits (hitWord y (n.engine.piled y.ch)).toNat 11 8

/-- A field of a hit that HITS names. -/
def Env.hitField (n : Env) (k : Nat) (y : Hit) : Nat :=
  match k with
  | 0 => y.toa
  | 1 => y.tot
  | 2 => y.amp.toNat
  | 3 => n.hitFlags y
  | 4 => y.toa
  | _ => y.tot

/-- HITS: fields 4 and 5 are those of the secondary hits, which it fetches. -/
def Env.hits (n : Env) (rd : BitVec 5) (mk k : Nat) : Act :=
  let sec := decide (4 ≤ k)
  { v := [(rd.toNat, vecOf fun c => ((n.hitOf sec c).map (n.hitField k)).getD 0)]
    m := [(mk, mask32 fun c => (n.hitOf sec c).isSome)]
    cyc := 2
    fetch := sec }

/-- An assist that only the slot context may execute. -/
def Env.slotOnly (n : Env) (a : Act) : Act := if inBackground n.who then Act.fails 0x0B else a

/-- HITS (R113, R238): mask fn[9:8], field fn[2:0]; rs1, rs2 and fn[7:3] are zero. -/
def execHits (p : Place) (rd rs1 rs2 : BitVec 5) (imm : BitVec 10) (s : State) : Host.Outcome State Fault Refusal :=
  goesOn s (s.hub.runVector p .ok fun n =>
    Act.legal (vReg rd && rs1 == 0 && rs2 == 0 && bits imm.toNat 7 3 == 0 && decide (imm.toNat % 8 < 6))
      (n.slotOnly (n.hits rd (bits imm.toNat 9 8) (imm.toNat % 8))))

/-! ### The capture window buffer (R150, R239, R612) -/

/-- Output N_s(c) − r of channel `ch`: its sample and flag code. N_s is the last of the outputs stored at the boundary that opened
the slot; an output from before output 0 of the chain start is 0 with SETTLE. -/
def Hub.captured (h : Hub) (ch r : Nat) : Nat × Nat :=
  let stored := (h.chainOf ch).stored
  if stored < r + 1 then (0, 2)
  else
    let k := stored - 1 - r
    let w := bits (Store.get (fun _ => (0 : W64)) h.lmem (lmemKey ch k)).toNat (18 * (k % 3) + 17) (18 * (k % 3))
    (w % 65536, w / 65536)

/-- Channel of lane `c` of the engine. -/
def Env.chan (n : Env) (c : Nat) : Nat := 32 * engineOf n.who + c

/-- WIN: the samples at an offset, or their flag codes. -/
def Env.window (n : Env) (rd rs1 : BitVec 5) (mk : Nat) (flags : Bool) : Act :=
  let r := (n.g rs1).toNat
  if 255 < r then Act.fails 4
  else {
    v := [(rd.toNat, vecOf fun c => if flags then (n.hub.captured (n.chan c) r).2 else (n.hub.captured (n.chan c) r).1)]
    m := [(mk, mask32 fun c => (n.hub.captured (n.chan c) r).2 != 0)]
    cyc := 2 }

/-- WIN (R239, R612): mask fn[9:8], F fn[0]; rs2 and fn[7:1] are zero. -/
def execWin (p : Place) (rd rs1 rs2 : BitVec 5) (imm : BitVec 10) (s : State) : Host.Outcome State Fault Refusal :=
  goesOn s (s.hub.runVector p .ok fun n =>
    Act.legal (vReg rd && rs2 == 0 && bits imm.toNat 7 1 == 0) (n.window rd rs1 (bits imm.toNat 9 8) (imm.getLsbD 0)))

/-- VTHR: the exact difference from the pedestal, or its magnitude, against a signed threshold. -/
def Env.threshold (n : Env) (rd rs1 rs2 : BitVec 5) (pred abs : Bool) (mp : Nat) : Act :=
  { m := [(rd.toNat, mask32 fun c =>
      let d : Int := (lane16 (n.v rs1.toNat) c : Int) - n.hub.fld F.CH_PED_PED (n.chan c)
      decide (lane16s (n.v rs2.toNat) c < if abs then (d.natAbs : Int) else d) && (!pred || bit (n.m mp).toNat c))] }

/-- VTHR (R236): P fn[7], mask fn[9:8], ABS fn[0]; fn[6:1] is zero. -/
def execVthr (p : Place) (rd rs1 rs2 : BitVec 5) (imm : BitVec 10) (s : State) : Host.Outcome State Fault Refusal :=
  goesOn s (s.hub.runVector p .ok fun n =>
    Act.legal (mReg rd && vReg rs1 && vReg rs2 && bits imm.toNat 6 1 == 0)
      (n.threshold rd rs1 rs2 (imm.getLsbD 7) (imm.getLsbD 0) (bits imm.toNat 9 8)))

/-- The largest of some values, and the first place that holds it. -/
def peakOf (l : List Nat) : Nat × Nat :=
  let m := l.foldl max 0
  (m, (l.findIdx? fun v => v == m).getD 0)

/-- VPEAK over the span of `len` offsets that ends at g[rs1], oldest first. -/
def Env.peaks (n : Env) (rd rs1 : BitVec 5) (mk len : Nat) : Act :=
  let r := (n.g rs1).toNat
  if 256 < r + len then Act.fails 4
  else
    let span (c : Nat) : List (Nat × Nat) := (upto len).map fun j => n.hub.captured (n.chan c) (r + len - 1 - j)
    let best (c : Nat) : Nat × Nat := peakOf ((span c).map fun x => x.1)
    { v := [(rd.toNat, vecOf fun c => (best c).1), (rd.toNat + 1, vecOf fun c => (best c).2)]
      m := [(mk, mask32 fun c => (span c).any fun x => x.2 == 3)]
      cyc := 2 + ceilDiv len 8 }

/-- VPEAK (R239): vd even, mask fn[9:8], len − 1 in fn[4:0]; rs2 and fn[7:5] are zero. -/
def execVpeak (p : Place) (rd rs1 rs2 : BitVec 5) (imm : BitVec 10) (s : State) : Host.Outcome State Fault Refusal :=
  goesOn s (s.hub.runVector p .ok fun n =>
    Act.legal (vReg rd && rd.toNat % 2 == 0 && rs2 == 0 && bits imm.toNat 7 5 == 0)
      (n.peaks rd rs1 (bits imm.toNat 9 8) (imm.toNat % 32 + 1)))

/-! ### TWALK (R240) -/

/-- Entry `i` of the table whose first word is `w`; entry 64 is entry 63. -/
def Env.walkEntry (n : Env) (w i : Nat) : Int :=
  let i := min i 63
  signed 16 (partOf (n.data (w + i / 2)) (2 * (i % 2)) 2)

/-- The walk at an input. -/
def Env.walkAt (n : Env) (w k x : Nat) : Int :=
  let y := min (x / 2 ^ k) 4095
  let i := y / 64
  n.walkEntry w i + roundDiv ((n.walkEntry w (i + 1) - n.walkEntry w i) * (y % 64 : Nat)) 64

/-- TWALK: the corrected TOA, computed in 17 bits, clamped to 0 to TOA_MAX with VSAT. -/
def Env.walks (n : Env) (rd rs1 rs2 : BitVec 5) (base k : Nat) : Act :=
  let r (c : Nat) : Int :=
    signed 17 (field 17 ((lane16 (n.v rs1.toNat) c : Int) - n.walkAt (32 * base) k (lane16 (n.v rs2.toNat) c)))
  let top := n.hub.toaMax
  { v := [(rd.toNat, vecOf fun c => (clamp 0 top (r c)).toNat)]
    csSet := if (upto 32).any fun c => decide (r c < 0) || decide ((top : Int) < r c) then csVSAT else 0
    cyc := 2
    uses := true
    reads := (32 * base, 32) }

/-- TWALK (R240): base fn[9:4], k fn[2:0]; fn[3] is zero. -/
def execTwalk (p : Place) (rd rs1 rs2 : BitVec 5) (imm : BitVec 10) (ecc : Ecc) (s : State) :
    Host.Outcome State Fault Refusal :=
  goesOn s (s.hub.runVector p ecc fun n =>
    Act.legal (vReg rd && vReg rs1 && vReg rs2 && !imm.getLsbD 3)
      (n.walks rd rs1 rs2 (bits imm.toNat 9 4) (imm.toNat % 8)))

/-! ### HEMIT (R210, R211, R238, R241, R242) -/

/-- The hit word that HEMIT pushes for a hit: TOA of `vt` and AMP of `va` where asked for; a secondary carries PILEUP. -/
def Env.emitted (n : Env) (y : Hit) (sec rt ra : Bool) (vt va : Vec) : W64 :=
  let c := y.ch % 32
  hitWord { y with
    toa := if rt then lane16 vt c % 2 ^ 15 else y.toa
    amp := if ra then BitVec.ofNat 16 (lane16 va c) else y.amp } (sec || n.engine.piled y.ch)

/-- HEMIT: one push for each lane of the mask that has a hit of the kind not pushed yet, in lane order. -/
def Env.emits (n : Env) (q : Nat) (vt va : Vec) (mk : Nat) (rt ra sec : Bool) : Act :=
  if !n.produces q then Act.fails 6
  else
    let ps := (upto 32).filterMap fun c =>
      match n.hitOf sec c with
      | none => none
      | some y =>
        if bit (n.m mk).toNat c && !y.gone then
          some { q := q, data := n.emitted y sec rt ra vt va, last := true, hit := some (y.ch, sec) }
        else none
    { pushes := ps, cyc := 1 + ps.length, fetch := sec }

/-- HEMIT (R210, R238, R241): queue rd, vt in rs1, va in rs2, mask fn[9:8], RT fn[0], RA fn[1], SEC fn[2]; fn[7:3] is zero. -/
def execHemit (p : Place) (rd rs1 rs2 : BitVec 5) (imm : BitVec 10) (s : State) : Host.Outcome State Fault Refusal :=
  goesOn s (s.hub.runVector p .ok fun n =>
    Act.legal (vReg rs1 && vReg rs2 && bits imm.toNat 7 3 == 0)
      (n.slotOnly (n.emits rd.toNat (n.v rs1.toNat) (n.v rs2.toNat) (bits imm.toNat 9 8) (imm.getLsbD 0) (imm.getLsbD 1)
        (imm.getLsbD 2))))

end Sys2Proof.Machine
end

