-- ==== Sys2Proof/Machine/Boundary.lean ====
section
/-! DEFINITION. The slot boundary (R42, R60): everything that the hub does once in every slot, in its order. Each action of a
boundary that has a command of its own is done here by the same operation; the command then finds it done. -/

namespace Sys2Proof.Machine

/-! ### Waits (R213, R214, R248) -/

/-- One slot boundary for a context that waits for slot boundaries. -/
def Ctx.slotPasses (c : Ctx) : Ctx :=
  match c.wait with
  | .slots (n + 2) => { c with wait := .slots (n + 1) }
  | .slots _ => { c with wait := .run }
  | _ => c

/-- One slot boundary for a background context that waits: for slot boundaries, or for a trigger notice for a number of them. It goes on
in the first cycle that the slot program leaves (`Hub.bgWakes`). -/
def Ctx.bgPasses (c : Ctx) : Ctx :=
  match c.wait with
  | .slots n => { c with wait := .slots (n - 1) }
  | .trig rd (some n) => { c with wait := .trig rd (some (n - 1)) }
  | _ => c

/-- The waits of every context see the boundary. -/
def Hub.waitsPass (h : Hub) : Hub :=
  let h := { h with bull := { h.bull with fg := h.bull.fg.slotPasses, bg := h.bull.bg.slotPasses } }
  if h.live then
    forN 16 h fun e h =>
      let x := h.oxOf e
      if x.bg.wait == .run then h else h.setOx e { x with bg := x.bg.bgPasses }
  else h

/-! ### The parts of a boundary -/

/-- The slots in which hit words, acquisition or the compression engine waited are counted (MULE_HITSTALL, MULE_ACQSTALL,
CMP_STALL). -/
def Hub.countStalls (h : Hub) : Hub :=
  let h := if h.flag F.MULE_STAT_HIT_STALL 0 then h.bump F.MULE_HITSTALL_COUNT 0 else h
  let h := if h.flag F.MULE_STAT_ACQ_STALL 0 then h.bump F.MULE_ACQSTALL_COUNT 0 else h
  if h.flag F.CMP_STAT_STALL 0 then h.bump F.CMP_STALL_COUNT 0 else h

/-- What ends with the slot that ends. -/
def Hub.slotEnds (h : Hub) (adc : List AdcIn) : Hub :=
  let h := (((h.chainSlots_ adc).muleSlot).countStalls).twinSlotEnds h.slot
  if h.live then forN 16 h fun e h => h.oxSlotEnds e else h

/-- The band switch of R606 comes one slot nearer its HEALTH item. -/
def Hub.bandSlot (h : Hub) : Hub :=
  match h.rooster.band with
  | some (n + 1, err) => { h with rooster := { h.rooster with band := some (n, err) } }
  | _ => h

/-- Time moves on: the counters, the watch of the parent lanes, the slewing, the counters to be cleared. -/
def Hub.timeMoves (h : Hub) : Hub :=
  let h := ((h.tick.watchFraming).leadBack).holdoverEntry
  (h.slew.bandSlot.bandHealth).clearsAct

/-- The scheduled actions, in the order of R60, and the held writes of an ATOMIC packet ahead of them (R398); and the calibration
engine's own pulses (R450). -/
def Hub.scheduledActs (h : Hub) (new : Nat) : Hub :=
  ((h.atomicActs new).commitActs.syncActs.snapActs.orbitActs.calPulseActs).calTick

/-- What an orbit boundary does beside the bring-ins: a new orbit for overruns, contexts, notices and logs, and an audit frame in
the next frame (R254, R307, R343, R469, R479). -/
def Hub.orbitBegins (h : Hub) : Hub :=
  let h := (h.rollOrbit.oxOrbit).contextsOrbit
  { h with
    goose := { h.goose with logged := [], noticed := [] }
    hen := { h.hen with audit := true } }

/-- Whether the block of a row of record memory is free for its row to be mapped (R500): surely while no block is held; else an open
value, since the spec does not say which blocks are (notes/assumptions/75.md). -/
def Hub.rowsFree (h : Hub) : Hub :=
  if h.atOrbit && h.rsv.preps.any (fun p => p.kind == kRow && p.unit / 65536 == 0x10) then
    { h.tookOpen with rsv := { h.rsv with rowFree := decide (h.freeBlocks + h.blocksOut = 2048) || h.openValue.getLsbD 0 } }
  else h

/-- The changes of an orbit boundary, and fences and repairs that wait for a boundary (R60, R473, R495, R496). `copyBad` says that the
copy of an engine's memories which ends here found an uncorrectable word. -/
def Hub.orbitChanges (h : Hub) (copyBad : Bool) : Hub :=
  let h := { h with rsv := { h.rsv with moved := [] } }
  let h := forN 17 h fun e h => if h.atOrbit || !h.running then h.swapActs e else h
  let h := h.fencesAct.repairs
  let h := if h.atOrbit then h.rowsFree.prepOrbit else h
  let h := ((h.bringIns copyBad).refreshAges).refreshHen
  let h := if h.atOrbit then h.orbitBegins else h
  forN 17 h fun e h => if h.atOrbit then h.bgResumes e else h

/-- What comes between the changes and the mode: lanes, triggers, requests. -/
def Hub.requestsAct (h : Hub) : Hub :=
  ((h.allLaneFences.accepts).maskStops).noteSettings

/-- The mode, the ledger and the drain (R415, R298, R302). -/
def Hub.modesAct (h : Hub) : Hub := h.modeActs.ledgerBoundary.drainSlot

/-- The slot that opens: the outputs to come, and the slot programs (R245). -/
def Hub.slotOpens (h : Hub) : Hub :=
  let h := h.earlyHits.fixAll.waitsPass
  (if h.live then forN 16 h fun e h => h.oxSlotStarts e else h).modeWaits

/-- Fast commands forwarded long ago are in no frame to come. -/
def Hub.forgetFc (h : Hub) : Hub :=
  { h with hen := { h.hen with fc := h.hen.fc.filter fun x => !reached h.slot x.2.2 || decide (slotsFrom x.2.2 h.slot < 8) } }

/-- The twin, commands that were held for this slot, which it sees at the next boundary, and claims. -/
def Hub.linksAct (h : Hub) : Hub := h.twinBoundary.heldActs.claims.forgetFc

/-- The packet that executes has executed for one slot more (R397). -/
def Hub.slotOfPacket (h : Hub) : Hub :=
  { h with pk := { h.pk with cur := h.pk.cur.map fun (x : Exec) => { x with slots := x.slots + 1 } } }

/-- Packets and tasks: replies leave, roles apply, tasks and packets end and start (R23, R221, R396, R397). -/
def Hub.packetsAct (h : Hub) : Hub :=
  let h := h.repliesGo.rolesGo.searchAgain
  let h := h.taskEnds.taskStarts
  h.slotOfPacket.packetTimesOut.packetStarts

/-- What follows once a slot: the monitor, the interlock's timers, and what STATUS registers show. -/
def Hub.slotShows (h : Hub) : Hub := (h.monWake.monSlot.ilkSlot.refreshXo.refreshHold).refreshDegr

/-- What happens up to the scheduled actions. An ATTN_STAT bit that an event of this boundary sets is not cleared by a write that acts
at it (R407). Reports of the slot that ends are taken in it, in a CK640 cycle that is open. -/
def Hub.boundaryOpens (h : Hub) (adc : List AdcIn) : Hub :=
  let h := h.packetEnds
  let was := h.fld F.ATTN_STAT_STICKY 0
  let h := h.setFld F.ATTN_STAT_STICKY 0 0
  let h := (h.settled (h.slotEnds adc)).timeMoves
  let new := h.fld F.ATTN_STAT_STICKY 0
  let h := (h.setFld F.ATTN_STAT_STICKY 0 (was ||| new)).refreshAttn.scheduledActs new
  (h.setFld F.ATTN_STAT_STICKY 0 (h.fld F.ATTN_STAT_STICKY 0 ||| new)).refreshAttn

/-- A slot boundary. `adc` are the samples that digitiser slots made in the slot that ends. Nothing happens while the hub is held
in reset. Reports of the boundary itself are taken in cycle 0 of the slot that it opens (R466). -/
def Hub.boundary (h : Hub) (adc : List AdcIn) (copyBad : Bool) : Hub :=
  if h.start.held then h
  else
    let n := h.goose.found.length
    let h := (h.boundaryOpens adc).orbitChanges copyBad
    let h := (h.requestsAct.modesAct.slotOpens).linksAct
    (h.packetsAct.slotShows).reportsTaken 0 n

/-- SLOT_BOUNDARY (R42, R60, R265). -/
def execSlotBoundary (x : SlotIn) (s : State) : Host.Outcome State Fault Refusal :=
  .next { s with hub := s.hub.boundary x.adc x.copyBad }

end Sys2Proof.Machine
end

