-- ==== Sys2Proof/Machine/Dispatch.lean ====
section
/-! DEFINITION. The dispatcher: one arm per command, each a direct call of its meaning. -/

namespace Sys2Proof.Machine

/-- The effect of a command on everything but the queue. -/
def exec (i : Instr) (s : State) : Host.Outcome State Fault Refusal :=
  match i with
  | .powerOn straps => Sys2Proof.Machine.execPowerOn straps s
  | .rstNAssert => Sys2Proof.Machine.execRstNAssert s
  | .rstNRelease => Sys2Proof.Machine.execRstNRelease s
  | .rstNMask => Sys2Proof.Machine.execRstNMask s
  | .rstNRearm => Sys2Proof.Machine.execRstNRearm s
  | .wresetWrite v => Sys2Proof.Machine.execWresetWrite v s
  | .warmReset => Sys2Proof.Machine.execWarmReset s
  | .s00PowerGood dur => Sys2Proof.Machine.execS00PowerGood dur s
  | .s01CrystalCheck okA okB dur => Sys2Proof.Machine.execS01CrystalCheck okA okB dur s
  | .s02PllLock okA okB dur => Sys2Proof.Machine.execS02PllLock okA okB dur s
  | .startRerun => Sys2Proof.Machine.execStartRerun s
  | .s03LaneSearch framed failed found dur => Sys2Proof.Machine.execS03LaneSearch framed failed found dur s
  | .s04GridPlace dur => Sys2Proof.Machine.execS04GridPlace dur s
  | .s05Address dur => Sys2Proof.Machine.execS05Address dur s
  | .s06MemoryTest rows dur => Sys2Proof.Machine.execS06MemoryTest rows dur s
  | .s07TdcCheck bad dur => Sys2Proof.Machine.execS07TdcCheck bad dur s
  | .s08DigitiserTest bad dur => Sys2Proof.Machine.execS08DigitiserTest bad dur s
  | .s09StrapCheck read1 read2 dur => Sys2Proof.Machine.execS09StrapCheck read1 read2 dur s
  | .laneSearchRepeat => Sys2Proof.Machine.execLaneSearchRepeat s
  | .slotBoundary x => Sys2Proof.Machine.execSlotBoundary x s
  | .thetaAverage l port echoes => Sys2Proof.Machine.execThetaAverage l port echoes s
  | .crystalFail => Sys2Proof.Machine.execCrystalFail s
  | .bandFail err => Sys2Proof.Machine.execBandFail err s
  | .bandSwitchHealth => Sys2Proof.Machine.execBandSwitchHealth s
  | .holdoverEntry => Sys2Proof.Machine.execHoldoverEntry s
  | .holdoverEnd l port => Sys2Proof.Machine.execHoldoverEnd l port s
  | .clockSourceWrite src => Sys2Proof.Machine.execClockSourceWrite src s
  | .regrid => Sys2Proof.Machine.execRegrid s
  | .fccfgWrite v => Sys2Proof.Machine.execFccfgWrite v s
  | .voteFix addr => Sys2Proof.Machine.execVoteFix addr s
  | .voteFail addr => Sys2Proof.Machine.execVoteFail addr s
  | .downlinkFrameReceive l bytes arrival => Sys2Proof.Machine.execDownlinkFrameReceive l bytes arrival s
  | .fcNop q => Sys2Proof.Machine.execFcNop q s
  | .fcL1a q num ok => Sys2Proof.Machine.execFcL1a q num ok s
  | .fcSync q => Sys2Proof.Machine.execFcSync q s
  | .fcOrbit q => Sys2Proof.Machine.execFcOrbit q s
  | .fcHold q => Sys2Proof.Machine.execFcHold q s
  | .fcCalPulse q => Sys2Proof.Machine.execFcCalPulse q s
  | .fcSnap q => Sys2Proof.Machine.execFcSnap q s
  | .fcCommit q => Sys2Proof.Machine.execFcCommit q s
  | .fcTwinTake q => Sys2Proof.Machine.execFcTwinTake q s
  | .syncAction => Sys2Proof.Machine.execSyncAction s
  | .orbitCheck => Sys2Proof.Machine.execOrbitCheck s
  | .calPulseFire => Sys2Proof.Machine.execCalPulseFire s
  | .snapshot => Sys2Proof.Machine.execSnapshot s
  | .commitApply => Sys2Proof.Machine.execCommitApply s
  | .counterClear addr bits => Sys2Proof.Machine.execCounterClear addr bits s
  | .feSettled c => Sys2Proof.Machine.execFeSettled c s
  | .discriminatorCrossing c coarse fine stby charge => Sys2Proof.Machine.execDiscriminatorCrossing c coarse fine stby charge s
  | .fallingCrossing c coarse fine stby => Sys2Proof.Machine.execFallingCrossing c coarse fine stby s
  | .totTimeout c => Sys2Proof.Machine.execTotTimeout c s
  | .hitPresent g => Sys2Proof.Machine.execHitPresent g s
  | .triggerAccept => Sys2Proof.Machine.execTriggerAccept s
  | .recordReadStart => Sys2Proof.Machine.execRecordReadStart s
  | .latencyBankRead g ecc => Sys2Proof.Machine.execLatencyBankRead g ecc s
  | .recordPartHandover => Sys2Proof.Machine.execRecordPartHandover s
  | .maskRearm => Sys2Proof.Machine.execMaskRearm s
  | .oxOverrun e => Sys2Proof.Machine.execOxOverrun e s
  | .oxSlotStop e => Sys2Proof.Machine.execOxSlotStop e s
  | .oxBgRestart e => Sys2Proof.Machine.execOxBgRestart e s
  | .swapExchange e => Sys2Proof.Machine.execSwapExchange e s
  | .hitBlockClose => Sys2Proof.Machine.execHitBlockClose s
  | .muleItemRecord q => Sys2Proof.Machine.execMuleItemRecord q s
  | .muleHandover ecc => Sys2Proof.Machine.execMuleHandover ecc s
  | .muleDrain => Sys2Proof.Machine.execMuleDrain s
  | .ledgerBoundary => Sys2Proof.Machine.execLedgerBoundary s
  | .compressRecord upset upset2 => Sys2Proof.Machine.execCompressRecord upset upset2 s
  | .cmpStallResume upset upset2 => Sys2Proof.Machine.execCmpStallResume upset upset2 s
  | .contextReset v => Sys2Proof.Machine.execContextReset v s
  | .henSendRecord => Sys2Proof.Machine.execHenSendRecord s
  | .uplinkFrameSend l => Sys2Proof.Machine.execUplinkFrameSend l s
  | .downlinkFrameSend l => Sys2Proof.Machine.execDownlinkFrameSend l s
  | .uplinkFrameReceive l bytes arrival => Sys2Proof.Machine.execUplinkFrameReceive l bytes arrival s
  | .auditFrameReceive k words => Sys2Proof.Machine.execAuditFrameReceive k words s
  | .audnow => Sys2Proof.Machine.execAudnow s
  | .laneLos l => Sys2Proof.Machine.execLaneLos l s
  | .laneLosClear l => Sys2Proof.Machine.execLaneLosClear l s
  | .laneLol l => Sys2Proof.Machine.execLaneLol l s
  | .laneLolClear l => Sys2Proof.Machine.execLaneLolClear l s
  | .lossOfAlignment l => Sys2Proof.Machine.execLossOfAlignment l s
  | .alignmentFound l => Sys2Proof.Machine.execAlignmentFound l s
  | .trainingEnd l => Sys2Proof.Machine.execTrainingEnd l s
  | .ackTimeout l => Sys2Proof.Machine.execAckTimeout l s
  | .laneFence l => Sys2Proof.Machine.execLaneFence l s
  | .laneRoleWrite l v => Sys2Proof.Machine.execLaneRoleWrite l v s
  | .laneRoleApply => Sys2Proof.Machine.execLaneRoleApply s
  | .prbsGenerator l v => Sys2Proof.Machine.execPrbsGenerator l v s
  | .prbsChecker l v => Sys2Proof.Machine.execPrbsChecker l v s
  | .prbsLock l bits => Sys2Proof.Machine.execPrbsLock l bits s
  | .errorInjection l => Sys2Proof.Machine.execErrorInjection l s
  | .packetRoute l bytes => Sys2Proof.Machine.execPacketRoute l bytes s
  | .packetAccept src bytes => Sys2Proof.Machine.execPacketAccept src bytes s
  | .packetExecuteStart => Sys2Proof.Machine.execPacketExecuteStart s
  | .packetEnd => Sys2Proof.Machine.execPacketEnd s
  | .packetTimeout => Sys2Proof.Machine.execPacketTimeout s
  | .atomicApply => Sys2Proof.Machine.execAtomicApply s
  | .bgTaskStart => Sys2Proof.Machine.execBgTaskStart s
  | .bgTaskEnd => Sys2Proof.Machine.execBgTaskEnd s
  | .modeChange => Sys2Proof.Machine.execModeChange s
  | .holdEntry => Sys2Proof.Machine.execHoldEntry s
  | .holdExit => Sys2Proof.Machine.execHoldExit s
  | .faultReport r => Sys2Proof.Machine.execFaultReport r s
  | .unitFence u => Sys2Proof.Machine.execUnitFence u s
  | .lockstepRecovery badA badB => Sys2Proof.Machine.execLockstepRecovery badA badB s
  | .feclr => Sys2Proof.Machine.execFeclr s
  | .ringclr => Sys2Proof.Machine.execRingclr s
  | .gsUnfence u => Sys2Proof.Machine.execGsUnfence u s
  | .calOffset gmask apply => Sys2Proof.Machine.execCalOffset gmask apply s
  | .calTdc gmask apply => Sys2Proof.Machine.execCalTdc gmask apply s
  | .calPhase gmask apply => Sys2Proof.Machine.execCalPhase gmask apply s
  | .calInj gmask apply => Sys2Proof.Machine.execCalInj gmask apply s
  | .calGain gmask apply => Sys2Proof.Machine.execCalGain gmask apply s
  | .calRatio gmask apply => Sys2Proof.Machine.execCalRatio gmask apply s
  | .calThresh gmask apply => Sys2Proof.Machine.execCalThresh gmask apply s
  | .calTimeofs gmask apply => Sys2Proof.Machine.execCalTimeofs gmask apply s
  | .calWalk gmask apply => Sys2Proof.Machine.execCalWalk gmask apply s
  | .calLaneRx l apply => Sys2Proof.Machine.execCalLaneRx l apply s
  | .calEye l apply => Sys2Proof.Machine.execCalEye l apply s
  | .calAll gmask apply => Sys2Proof.Machine.execCalAll gmask apply s
  | .calAbort => Sys2Proof.Machine.execCalAbort s
  | .calApply results => Sys2Proof.Machine.execCalApply results s
  | .xoMeasure ppm => Sys2Proof.Machine.execXoMeasure ppm s
  | .pathDelayMeasure l tx rx deskew => Sys2Proof.Machine.execPathDelayMeasure l tx rx deskew s
  | .rollingRecal g r => Sys2Proof.Machine.execRollingRecal g r s
  | .wearEvaluate m => Sys2Proof.Machine.execWearEvaluate m s
  | .spareBringIn copyBad => Sys2Proof.Machine.execSpareBringIn copyBad s
  | .rsVetoWrite v => Sys2Proof.Machine.execRsVetoWrite v s
  | .twinDelivery => Sys2Proof.Machine.execTwinDelivery s
  | .twinSyncReceive words => Sys2Proof.Machine.execTwinSyncReceive words s
  | .partnerLost => Sys2Proof.Machine.execPartnerLost s
  | .takeover => Sys2Proof.Machine.execTakeover s
  | .joinStart => Sys2Proof.Machine.execJoinStart s
  | .copyRecordReceive words => Sys2Proof.Machine.execCopyRecordReceive words s
  | .stepBoundary => Sys2Proof.Machine.execStepBoundary s
  | .twinHealth bist scrub drift => Sys2Proof.Machine.execTwinHealth bist scrub drift s
  | .rejoin => Sys2Proof.Machine.execRejoin s
  | .hreq => Sys2Proof.Machine.execHreq s
  | .monitorEntryEnd m => Sys2Proof.Machine.execMonitorEntryEnd m s
  | .monitorPassEnd => Sys2Proof.Machine.execMonitorPassEnd s
  | .monitorRun run => Sys2Proof.Machine.execMonitorRun run s
  | .monitorRestart => Sys2Proof.Machine.execMonitorRestart s
  | .ilkInputChange pin level => Sys2Proof.Machine.execIlkInputChange pin level s
  | .discrepancyFault n => Sys2Proof.Machine.execDiscrepancyFault n s
  | .feedbackLockout n => Sys2Proof.Machine.execFeedbackLockout n s
  | .testPulse n ok => Sys2Proof.Machine.execTestPulse n ok s
  | .rcCheck tick => Sys2Proof.Machine.execRcCheck tick s
  | .ilkInternalFault threeWay => Sys2Proof.Machine.execIlkInternalFault threeWay s
  | .ilkReqWrite v => Sys2Proof.Machine.execIlkReqWrite v s
  | .ilkOff v => Sys2Proof.Machine.execIlkOff v s
  | .ilkClr v => Sys2Proof.Machine.execIlkClr v s
  | .tetherFrame edges words notReady => Sys2Proof.Machine.execTetherFrame edges words notReady s
  | .ttLenWrite v => Sys2Proof.Machine.execTtLenWrite v s
  | .portGo n => Sys2Proof.Machine.execPortGo n s
  | .portAbort n rx => Sys2Proof.Machine.execPortAbort n rx s
  | .portTransferEnd n rx => Sys2Proof.Machine.execPortTransferEnd n rx s
  | .portRdyTimeout n rx => Sys2Proof.Machine.execPortRdyTimeout n rx s
  | .gpioSet v => Sys2Proof.Machine.execGpioSet v s
  | .gpioClr v => Sys2Proof.Machine.execGpioClr v s
  | .tapReset => Sys2Proof.Machine.execTapReset s
  | .extest balls shifted => Sys2Proof.Machine.execExtest balls shifted s
  | .idcode => Sys2Proof.Machine.execIdcode s
  | .samplePreload balls shifted => Sys2Proof.Machine.execSamplePreload balls shifted s
  | .clamp => Sys2Proof.Machine.execClamp s
  | .highz => Sys2Proof.Machine.execHighz s
  | .extestPulse balls shifted => Sys2Proof.Machine.execExtestPulse balls shifted s
  | .extestTrain balls shifted => Sys2Proof.Machine.execExtestTrain balls shifted s
  | .bypass => Sys2Proof.Machine.execBypass s
  | .registerWrite addr v => Sys2Proof.Machine.execRegisterWrite addr v s
  | .nop p => Sys2Proof.Machine.execNop p s
  | .add p rd rs1 rs2 => Sys2Proof.Machine.execAdd p rd rs1 rs2 s
  | .sub p rd rs1 rs2 => Sys2Proof.Machine.execSub p rd rs1 rs2 s
  | .and p rd rs1 rs2 => Sys2Proof.Machine.execAnd p rd rs1 rs2 s
  | .or p rd rs1 rs2 => Sys2Proof.Machine.execOr p rd rs1 rs2 s
  | .xor p rd rs1 rs2 => Sys2Proof.Machine.execXor p rd rs1 rs2 s
  | .andn p rd rs1 rs2 => Sys2Proof.Machine.execAndn p rd rs1 rs2 s
  | .sll p rd rs1 rs2 => Sys2Proof.Machine.execSll p rd rs1 rs2 s
  | .srl p rd rs1 rs2 => Sys2Proof.Machine.execSrl p rd rs1 rs2 s
  | .sra p rd rs1 rs2 => Sys2Proof.Machine.execSra p rd rs1 rs2 s
  | .ror p rd rs1 rs2 => Sys2Proof.Machine.execRor p rd rs1 rs2 s
  | .slt p rd rs1 rs2 => Sys2Proof.Machine.execSlt p rd rs1 rs2 s
  | .sltu p rd rs1 rs2 => Sys2Proof.Machine.execSltu p rd rs1 rs2 s
  | .min p rd rs1 rs2 => Sys2Proof.Machine.execMin p rd rs1 rs2 s
  | .max p rd rs1 rs2 => Sys2Proof.Machine.execMax p rd rs1 rs2 s
  | .minu p rd rs1 rs2 => Sys2Proof.Machine.execMinu p rd rs1 rs2 s
  | .maxu p rd rs1 rs2 => Sys2Proof.Machine.execMaxu p rd rs1 rs2 s
  | .mul p rd rs1 rs2 => Sys2Proof.Machine.execMul p rd rs1 rs2 s
  | .mulh p rd rs1 rs2 => Sys2Proof.Machine.execMulh p rd rs1 rs2 s
  | .mulhu p rd rs1 rs2 => Sys2Proof.Machine.execMulhu p rd rs1 rs2 s
  | .adds p rd rs1 rs2 => Sys2Proof.Machine.execAdds p rd rs1 rs2 s
  | .subs p rd rs1 rs2 => Sys2Proof.Machine.execSubs p rd rs1 rs2 s
  | .clz p rd rs1 rs2 => Sys2Proof.Machine.execClz p rd rs1 rs2 s
  | .popc p rd rs1 rs2 => Sys2Proof.Machine.execPopc p rd rs1 rs2 s
  | .addi p rd rs1 rs2 imm => Sys2Proof.Machine.execAddi p rd rs1 rs2 imm s
  | .andi p rd rs1 rs2 imm => Sys2Proof.Machine.execAndi p rd rs1 rs2 imm s
  | .ori p rd rs1 rs2 imm => Sys2Proof.Machine.execOri p rd rs1 rs2 imm s
  | .xori p rd rs1 rs2 imm => Sys2Proof.Machine.execXori p rd rs1 rs2 imm s
  | .slli p rd rs1 rs2 imm => Sys2Proof.Machine.execSlli p rd rs1 rs2 imm s
  | .srli p rd rs1 rs2 imm => Sys2Proof.Machine.execSrli p rd rs1 rs2 imm s
  | .srai p rd rs1 rs2 imm => Sys2Proof.Machine.execSrai p rd rs1 rs2 imm s
  | .slti p rd rs1 rs2 imm => Sys2Proof.Machine.execSlti p rd rs1 rs2 imm s
  | .sltiu p rd rs1 rs2 imm => Sys2Proof.Machine.execSltiu p rd rs1 rs2 imm s
  | .movl p rd hi imm => Sys2Proof.Machine.execMovl p rd hi imm s
  | .movh p rd hi imm => Sys2Proof.Machine.execMovh p rd hi imm s
  | .extu p rd rs1 rs2 imm => Sys2Proof.Machine.execExtu p rd rs1 rs2 imm s
  | .exts p rd rs1 rs2 imm => Sys2Proof.Machine.execExts p rd rs1 rs2 imm s
  | .ins p rd rs1 rs2 imm => Sys2Proof.Machine.execIns p rd rs1 rs2 imm s
  | .ld p rd rs1 rs2 imm ecc => Sys2Proof.Machine.execLd p rd rs1 rs2 imm ecc s
  | .ldh p rd rs1 rs2 imm ecc => Sys2Proof.Machine.execLdh p rd rs1 rs2 imm ecc s
  | .ldhu p rd rs1 rs2 imm ecc => Sys2Proof.Machine.execLdhu p rd rs1 rs2 imm ecc s
  | .ldb p rd rs1 rs2 imm ecc => Sys2Proof.Machine.execLdb p rd rs1 rs2 imm ecc s
  | .ldbu p rd rs1 rs2 imm ecc => Sys2Proof.Machine.execLdbu p rd rs1 rs2 imm ecc s
  | .st p rd rs1 rs2 imm => Sys2Proof.Machine.execSt p rd rs1 rs2 imm s
  | .sth p rd rs1 rs2 imm ecc => Sys2Proof.Machine.execSth p rd rs1 rs2 imm ecc s
  | .stb p rd rs1 rs2 imm ecc => Sys2Proof.Machine.execStb p rd rs1 rs2 imm ecc s
  | .beq p rd rs1 rs2 imm => Sys2Proof.Machine.execBeq p rd rs1 rs2 imm s
  | .bne p rd rs1 rs2 imm => Sys2Proof.Machine.execBne p rd rs1 rs2 imm s
  | .blt p rd rs1 rs2 imm => Sys2Proof.Machine.execBlt p rd rs1 rs2 imm s
  | .bge p rd rs1 rs2 imm => Sys2Proof.Machine.execBge p rd rs1 rs2 imm s
  | .bltu p rd rs1 rs2 imm => Sys2Proof.Machine.execBltu p rd rs1 rs2 imm s
  | .bgeu p rd rs1 rs2 imm => Sys2Proof.Machine.execBgeu p rd rs1 rs2 imm s
  | .j p rd off => Sys2Proof.Machine.execJ p rd off s
  | .jal p rd off => Sys2Proof.Machine.execJal p rd off s
  | .jalr p rd rs1 rs2 imm => Sys2Proof.Machine.execJalr p rd rs1 rs2 imm s
  | .qpush p rd rs1 rs2 imm => Sys2Proof.Machine.execQpush p rd rs1 rs2 imm s
  | .qpushl p rd rs1 rs2 imm => Sys2Proof.Machine.execQpushl p rd rs1 rs2 imm s
  | .qpop p rd rs1 rs2 imm => Sys2Proof.Machine.execQpop p rd rs1 rs2 imm s
  | .qflush p rd rs1 rs2 imm => Sys2Proof.Machine.execQflush p rd rs1 rs2 imm s
  | .qstat p rd rs1 rs2 imm => Sys2Proof.Machine.execQstat p rd rs1 rs2 imm s
  | .hdr p rd rs1 rs2 imm => Sys2Proof.Machine.execHdr p rd rs1 rs2 imm s
  | .gapw p rd rs1 rs2 imm => Sys2Proof.Machine.execGapw p rd rs1 rs2 imm s
  | .stag p rd rs1 rs2 imm => Sys2Proof.Machine.execStag p rd rs1 rs2 imm s
  | .wslot p rd rs1 rs2 imm => Sys2Proof.Machine.execWslot p rd rs1 rs2 imm s
  | .wtrig p rd rs1 rs2 imm => Sys2Proof.Machine.execWtrig p rd rs1 rs2 imm s
  | .pld p rd rs1 rs2 imm => Sys2Proof.Machine.execPld p rd rs1 rs2 imm s
  | .pst p rd rs1 rs2 imm => Sys2Proof.Machine.execPst p rd rs1 rs2 imm s
  | .pbrd p rd rs1 rs2 imm => Sys2Proof.Machine.execPbrd p rd rs1 rs2 imm s
  | .pbwr p rd rs1 rs2 imm ecc => Sys2Proof.Machine.execPbwr p rd rs1 rs2 imm ecc s
  | .call p rd rs1 rs2 proc hi => Sys2Proof.Machine.execCall p rd rs1 rs2 proc hi s
  | .callBackground p rd rs1 rs2 proc hi => Sys2Proof.Machine.execCallBackground p rd rs1 rs2 proc hi s
  | .rsltRead p rd rs1 rs2 imm ecc => Sys2Proof.Machine.execRsltRead p rd rs1 rs2 imm ecc s
  | .rsltPost p rd rs1 rs2 imm ecc => Sys2Proof.Machine.execRsltPost p rd rs1 rs2 imm ecc s
  | .rfree p rd rs1 rs2 imm => Sys2Proof.Machine.execRfree p rd rs1 rs2 imm s
  | .rput p rd rs1 rs2 imm => Sys2Proof.Machine.execRput p rd rs1 rs2 imm s
  | .mode p rd rs1 rs2 imm => Sys2Proof.Machine.execMode p rd rs1 rs2 imm s
  | .snap p rd rs1 rs2 imm => Sys2Proof.Machine.execSnap p rd rs1 rs2 imm s
  | .commit p rd rs1 rs2 imm => Sys2Proof.Machine.execCommit p rd rs1 rs2 imm s
  | .ack p rd rs1 rs2 imm => Sys2Proof.Machine.execAck p rd rs1 rs2 imm s
  | .seal p rd rs1 rs2 standby hi => Sys2Proof.Machine.execSeal p rd rs1 rs2 standby hi s
  | .unseal p rd rs1 rs2 standby hi => Sys2Proof.Machine.execUnseal p rd rs1 rs2 standby hi s
  | .swap p rd rs1 rs2 imm => Sys2Proof.Machine.execSwap p rd rs1 rs2 imm s
  | .jlog p rd rs1 rs2 imm => Sys2Proof.Machine.execJlog p rd rs1 rs2 imm s
  | .mfcs p rd rs1 rs2 imm => Sys2Proof.Machine.execMfcs p rd rs1 rs2 imm s
  | .mtcs p rd rs1 rs2 imm => Sys2Proof.Machine.execMtcs p rd rs1 rs2 imm s
  | .vadd p rd rs1 rs2 pr => Sys2Proof.Machine.execVadd p rd rs1 rs2 pr s
  | .vadds p rd rs1 rs2 pr => Sys2Proof.Machine.execVadds p rd rs1 rs2 pr s
  | .vaddu p rd rs1 rs2 pr => Sys2Proof.Machine.execVaddu p rd rs1 rs2 pr s
  | .vsub p rd rs1 rs2 pr => Sys2Proof.Machine.execVsub p rd rs1 rs2 pr s
  | .vsubs p rd rs1 rs2 pr => Sys2Proof.Machine.execVsubs p rd rs1 rs2 pr s
  | .vsubu p rd rs1 rs2 pr => Sys2Proof.Machine.execVsubu p rd rs1 rs2 pr s
  | .vmul p rd rs1 rs2 pr => Sys2Proof.Machine.execVmul p rd rs1 rs2 pr s
  | .vmulr p rd rs1 rs2 pr => Sys2Proof.Machine.execVmulr p rd rs1 rs2 pr s
  | .vmin p rd rs1 rs2 pr => Sys2Proof.Machine.execVmin p rd rs1 rs2 pr s
  | .vmax p rd rs1 rs2 pr => Sys2Proof.Machine.execVmax p rd rs1 rs2 pr s
  | .vminu p rd rs1 rs2 pr => Sys2Proof.Machine.execVminu p rd rs1 rs2 pr s
  | .vmaxu p rd rs1 rs2 pr => Sys2Proof.Machine.execVmaxu p rd rs1 rs2 pr s
  | .vand p rd rs1 rs2 pr => Sys2Proof.Machine.execVand p rd rs1 rs2 pr s
  | .vor p rd rs1 rs2 pr => Sys2Proof.Machine.execVor p rd rs1 rs2 pr s
  | .vxor p rd rs1 rs2 pr => Sys2Proof.Machine.execVxor p rd rs1 rs2 pr s
  | .vabsd p rd rs1 rs2 pr => Sys2Proof.Machine.execVabsd p rd rs1 rs2 pr s
  | .vsll p rd rs1 rs2 pr => Sys2Proof.Machine.execVsll p rd rs1 rs2 pr s
  | .vsrl p rd rs1 rs2 pr => Sys2Proof.Machine.execVsrl p rd rs1 rs2 pr s
  | .vsra p rd rs1 rs2 pr => Sys2Proof.Machine.execVsra p rd rs1 rs2 pr s
  | .vsrar p rd rs1 rs2 pr => Sys2Proof.Machine.execVsrar p rd rs1 rs2 pr s
  | .vavg p rd rs1 rs2 pr => Sys2Proof.Machine.execVavg p rd rs1 rs2 pr s
  | .vcmp p rd rs1 rs2 imm => Sys2Proof.Machine.execVcmp p rd rs1 rs2 imm s
  | .mand p rd rs1 rs2 pr => Sys2Proof.Machine.execMand p rd rs1 rs2 pr s
  | .mor p rd rs1 rs2 pr => Sys2Proof.Machine.execMor p rd rs1 rs2 pr s
  | .mxor p rd rs1 rs2 pr => Sys2Proof.Machine.execMxor p rd rs1 rs2 pr s
  | .mandn p rd rs1 rs2 pr => Sys2Proof.Machine.execMandn p rd rs1 rs2 pr s
  | .mnot p rd rs1 rs2 pr => Sys2Proof.Machine.execMnot p rd rs1 rs2 pr s
  | .mtm p rd rs1 rs2 pr => Sys2Proof.Machine.execMtm p rd rs1 rs2 pr s
  | .mfm p rd rs1 rs2 pr => Sys2Proof.Machine.execMfm p rd rs1 rs2 pr s
  | .mcnt p rd rs1 rs2 pr => Sys2Proof.Machine.execMcnt p rd rs1 rs2 pr s
  | .mfirst p rd rs1 rs2 pr => Sys2Proof.Machine.execMfirst p rd rs1 rs2 pr s
  | .vsplat p rd rs1 rs2 imm => Sys2Proof.Machine.execVsplat p rd rs1 rs2 imm s
  | .vext p rd rs1 rs2 imm => Sys2Proof.Machine.execVext p rd rs1 rs2 imm s
  | .vins p rd rs1 rs2 imm => Sys2Proof.Machine.execVins p rd rs1 rs2 imm s
  | .vld p rd rs1 rs2 imm ecc => Sys2Proof.Machine.execVld p rd rs1 rs2 imm ecc s
  | .vst p rd rs1 rs2 imm => Sys2Proof.Machine.execVst p rd rs1 rs2 imm s
  | .vredSum p rd rs1 rs2 pr => Sys2Proof.Machine.execVredSum p rd rs1 rs2 pr s
  | .vredSumu p rd rs1 rs2 pr => Sys2Proof.Machine.execVredSumu p rd rs1 rs2 pr s
  | .vredMaxu p rd rs1 rs2 pr => Sys2Proof.Machine.execVredMaxu p rd rs1 rs2 pr s
  | .vredMaxidx p rd rs1 rs2 pr => Sys2Proof.Machine.execVredMaxidx p rd rs1 rs2 pr s
  | .hits p rd rs1 rs2 imm => Sys2Proof.Machine.execHits p rd rs1 rs2 imm s
  | .win p rd rs1 rs2 imm => Sys2Proof.Machine.execWin p rd rs1 rs2 imm s
  | .vthr p rd rs1 rs2 imm => Sys2Proof.Machine.execVthr p rd rs1 rs2 imm s
  | .vpeak p rd rs1 rs2 imm => Sys2Proof.Machine.execVpeak p rd rs1 rs2 imm s
  | .twalk p rd rs1 rs2 imm ecc => Sys2Proof.Machine.execTwalk p rd rs1 rs2 imm ecc s
  | .hemit p rd rs1 rs2 imm => Sys2Proof.Machine.execHemit p rd rs1 rs2 imm s
  | .supplyBelowFallingThreshold => Sys2Proof.Machine.execSupplyBelowFallingThreshold s
  | .vcoBandLocksAgain band => Sys2Proof.Machine.execVcoBandLocksAgain band s
  | .feLeakChange c leak => Sys2Proof.Machine.execFeLeakChange c leak s

end Sys2Proof.Machine
end

