-- ==== Sys2Proof/Safety.lean ====
section
/-! DEFINITION. What the statements about the block are made of: what it means that a command answers, which registers a
command may change, and the canonical form of the stores.

Nothing stops this block: the spec gives every command an effect, so a safe run is one in which every step answers a next
state (Machine/State.lean: there is no fault). -/

namespace Sys2Proof.Machine

/-- The command answers a next state: the queue is as it was, and the hub meets `P`. -/
def Answers (i : Instr) (s : State) (P : Hub → Prop) : Prop := ∃ h : Hub, exec i s = .next { s with hub := h } ∧ P h

/-- Nothing but registers of the parameter space may differ, and of those only the words at `l`. -/
def Hub.onlyWords (h h' : Hub) (l : List Nat) : Prop := h' = { h with regs := h'.regs } ∧ ∀ a, a ∉ l → h'.word a = h.word a

/-- No register of the parameter space differs but, perhaps, the words at `l`. -/
def Hub.sameWords (h h' : Hub) (l : List Nat) : Prop := ∀ a, a ∉ l → h'.word a = h.word a

/-- The parameter space, the words that windows show, Bull's memories and the latency memory are in canonical form. -/
def Hub.canonical (h : Hub) : Bool :=
  Store.wf loadWord h.regs && Store.wf bankLoad h.bank && Store.wf (fun _ => (0 : W32)) h.bull.imem
    && Store.wf (fun _ => (0 : W32)) h.bull.dmem && Store.wf (fun _ => (0 : W64)) h.lmem

/-- Every word of the parameter space as a reset leaves it (R7): the Load value, but for the fields of the retention domain. -/
def Hub.loaded (h h' : Hub) (l : List Nat) : Prop :=
  ∀ a, a ∉ l → h'.word a = (loadWord a &&& ~~~keepMask a) ||| (h.word a &&& keepMask a)

/-- A JNL_STEP entry (R426, R429): its outcome and duration of `dur` µs, and RUN. -/
def Hub.journal (h : Hub) (k outcome dur : Nat) : Prop :=
  h.fld F.JNL_STEP_OUTCOME k = outcome ∧ h.fld F.JNL_STEP_RUN k = 1 ∧ h.fld F.JNL_STEP_DUR k = min 0xFFFF (dur / 100)

/-- A counter has counted `n` events, and stands at its greatest value when it cannot hold them (R603). -/
def Hub.counted (h h' : Hub) (f : Fld) (i n : Nat) : Prop := h'.fld f i = min (2 ^ f.width - 1) (h.fld f i + n)

/-- Queue `q` is between items, none has been dropped since the last GAP marker, and `n` words fit. -/
def Hub.queueRoom (h : Hub) (q n : Nat) : Prop :=
  h.flag F.Q_STAT_DISCARD q = false ∧ (h.queue q).openItem = false ∧ h.fld F.Q_STAT_PEND q = 0 ∧ (h.queue q).ws.length + n ≤ 16

/-- Queue `q` has got the words of an item, the last of them marked as its end. -/
def Hub.queueGot (h h' : Hub) (q : Nat) (ws : List W64) : Prop :=
  (h'.queue q).ws.map (fun w => w.data) = (h.queue q).ws.map (fun w => w.data) ++ ws ∧
  (h'.queue q).openItem = false ∧ (((h'.queue q).ws.getLast?).map fun w => w.last) = some true

/-- A sticky STATUS bit is set (R407). -/
def Hub.sticky (h : Hub) (b : Nat) : Prop := bit (h.fld F.ATTN_STAT_STICKY 0) (b - 2) = true

/-- A command that can carry a write to ILK_REQ of a packet: the write itself, a register write, a store of Bull, and the boundary or
the command at which the held writes of an ATOMIC packet act (R398, R559). -/
def mayEnable (i : Instr) : Bool :=
  match i with
  | .ilkReqWrite _ => true
  | .registerWrite _ _ => true
  | .pst _ _ _ _ _ => true
  | .pbwr _ _ _ _ _ _ => true
  | .atomicApply => true
  | .slotBoundary _ => true
  | _ => false

/-- A command of the bias interlock. -/
def ofInterlock (i : Instr) : Bool :=
  match i with
  | .ilkInputChange _ _ => true
  | .discrepancyFault _ => true
  | .feedbackLockout _ => true
  | .testPulse _ _ => true
  | .rcCheck _ => true
  | .ilkInternalFault _ => true
  | .ilkReqWrite _ => true
  | .ilkOff _ => true
  | .ilkClr _ => true
  | _ => false

/-! ### Instructions -/

/-- The context of a place. -/
def Hub.ctxAt (h : Hub) (p : Place) : Ctx :=
  if onBull p.who then h.bullCtx (inBackground p.who) else (h.oxOf (engineOf p.who)).ctxOf (inBackground p.who)

/-- An instruction at a place can execute, in a bundle of its own on Ox, and nothing stands against it ahead of its own checks:
its fetch finds no error, its context runs, its cycles fit into the slot (R192, R201, R248, R249), and R29, R401 and R511 let
it. -/
def Hub.may (h : Hub) (p : Place) (vec : Bool) (lim : Limits) (cyc : Nat) : Prop :=
  let bg := inBackground p.who
  let c := h.ctxAt p
  p.fetch = .ok ∧
  if onBull p.who then h.bullReady bg = true ∧ h.bullGate bg lim = 0 ∧ (c.pc < 0x4000 → c.pc ∉ h.bull.badI)
  else
    let x := h.oxOf (engineOf p.who)
    h.oxReady bg (engineOf p.who) = true ∧ p.vec = vec ∧ p.ends = true ∧ c.half = none ∧ 2 * c.pc + b2n vec ∉ x.bad ∧
    if bg then x.cyc + x.bgCyc + cyc ≤ 16 else x.cyc + cyc < 12

/-- The context of a place may go to an address (R193, R194). -/
def Hub.mayGo (h : Hub) (p : Place) (t : Nat) : Prop :=
  if onBull p.who then h.bullTarget (inBackground p.who) t = true else t ≤ 0x3FF

/-- The hub as an instruction that executes finds it: on Bull its index in the packet is noted (R205), on Ox the registers show the
engine. -/
def Hub.ready (h : Hub) (p : Place) : Hub :=
  if onBull p.who then (if inBackground p.who then h else h.notesIndex)
  else h.setOx (engineOf p.who) (h.oxOf (engineOf p.who))

/-- Two hubs in which every engine, every register and everything else reads the same. -/
def Hub.alike (h h' : Hub) : Prop :=
  h' = { h with ox := h'.ox, regs := h'.regs } ∧ (∀ k, h'.oxOf k = h.oxOf k) ∧ ∀ a, h'.word a = h.word a

/-- An engine of which the slot program, or the background, has used `n` cycles more. -/
def Ox.ran (x : Ox) (bg : Bool) (n : Nat) : Ox :=
  if bg then { x with bgCyc := x.bgCyc + n } else { x with cyc := x.cyc + n }

/-- From a hub, the context of a place has become `c`, it has used `cyc` cycles more, and nothing else changed. -/
def Hub.leaves (h h' : Hub) (p : Place) (c : Ctx) (cyc : Nat) : Prop :=
  let bg := inBackground p.who
  if onBull p.who then h' = h.setBullCtx bg c
  else
    let x := h.oxOf (engineOf p.who)
    (h.setOx (engineOf p.who) ((x.setCtx bg c).ran bg cyc)).alike h'

/-- The instruction at a place raises an exception, with no effect beside it: on Ox in the first cycle of its bundle. -/
def Hub.raised (h h' : Hub) (p : Place) (code : Nat) : Prop :=
  let e := engineOf p.who
  let bg := inBackground p.who
  h' = h.settled (if onBull p.who then (h.ready p).bullFails bg code
    else (h.setOx e ((h.oxOf e).ran bg 1)).oxFails p.who code)

/-- A word of the data memory of a place, its index among the words that R191 checks, and a byte of it. -/
def Hub.dataAt (h : Hub) (p : Place) (w : Nat) : W32 :=
  if onBull p.who then Store.get (fun _ => (0 : W32)) h.bull.dmem w
  else Store.get (fun _ => (0 : W32)) (h.oxOf (engineOf p.who)).dmem w
def dataIndex (p : Place) (w : Nat) : Nat := (if onBull p.who then 0 else 0x1000) + w
def Hub.byteAt (h : Hub) (p : Place) (b : Nat) : Nat := (h.dataAt p (b / 4)).toNat / 2 ^ (8 * (b % 4)) % 256

/-- Bytes of the data memory of a place (R195). -/
def dataBytes (p : Place) : Nat := if onBull p.who then 65536 else 8192

/-- The number that `size` bytes from `a` on hold, the lowest byte first. -/
def Hub.numberAt (h : Hub) (p : Place) (a size : Nat) : Nat :=
  (List.range size).foldl (fun v k => v + h.byteAt p (a + k) * 256 ^ k) 0

/-- A context that goes on at an address. -/
def Ctx.go (c : Ctx) (t : Nat) : Ctx := { c with pc := t }

/-- An instruction completes: where it may execute and go on at `t`, the hub is `base` but for the context of the place, which is
`c` with its pc at `t`, and for the cycles used. -/
def Completes (i : Instr) (s : State) (p : Place) (vec : Bool) (lim : Limits) (cyc t : Nat) (base : Hub) (c : Ctx) : Prop :=
  s.hub.may p vec lim cyc → s.hub.mayGo p t → Answers i s fun h => base.leaves h p (c.go t) cyc

/-- An instruction that may execute raises an exception and does nothing else. -/
def Traps (i : Instr) (s : State) (p : Place) (vec : Bool) (lim : Limits) (code : Nat) : Prop :=
  s.hub.may p vec lim 1 → Answers i s fun h => s.hub.raised h p code

/-- Instructions of three register fields, of those and imm10, and of those and a predicate. -/
abbrev RegForm := Place → BitVec 5 → BitVec 5 → BitVec 5 → Instr
abbrev ImmForm := Place → BitVec 5 → BitVec 5 → BitVec 5 → BitVec 10 → Instr
abbrev PredForm := Place → BitVec 5 → BitVec 5 → BitVec 5 → BitVec 3 → Instr
abbrev MemForm := Place → BitVec 5 → BitVec 5 → BitVec 5 → BitVec 10 → Ecc → Instr

end Sys2Proof.Machine
end

