-- ==== Sys2Proof/Certificates/Slice0/Obligations.lean ====
section
/-! DEFINITION. The statements about the block, for the provers. OBLIGATIONS.json lists them with the rules that they rest on;
Tests/Slice0.lean shows for each a state that meets its hypotheses. -/

open Sys2Proof Sys2Proof.Machine


/-! ### The block as a whole -/

/-- A step takes the command at the front of the queue and runs it on the state with the queue's rest. -/
def Obligations.StepRunsTheFront : Prop :=
  ∀ (c : Instr) (s : State) (rest : List Instr), step { s with pending := c :: rest } = exec c { s with pending := rest }

/-- Every command answers a next state, and none touches the queue: nothing stops this block. That a command out of its place is
answered too is the model's choice (notes/assumptions/7.md, 9.md). -/
def Obligations.EveryCommandAnswers : Prop :=
  ∀ (i : Instr) (s : State), ∃ h : Hub, exec i s = .next { s with hub := h } ∧
    exec i { s with pending := [] } = .next { hub := h, pending := [] }

/-- What the machine holds right after power-on (R7): every word of the parameter space at its Load value but those of the start
count and of the latched straps, the first start counted, nothing waiting, and the contexts, memories and queues of Bull and of the
engines, the latency memory, the lanes and the records all empty. The zeros of registers, memories and queues, and the straps
latched as 001b, are the model's choice (notes/assumptions/5.md, 6.md). -/
def Obligations.ResetLeavesLoadValues : Prop :=
  (∀ a, a ≠ A.JNL_STAT → a ≠ A.ILK_STRAP → State.reset.hub.word a = loadWord a) ∧
  State.reset.hub.fld F.ILK_STRAP_LATCHED 0 = 9 ∧ State.reset.hub.flag F.ILK_STRAP_STRAPF 0 = false ∧
  State.reset.hub.fld F.JNL_STAT_STARTS 0 = 1 ∧ State.reset.hub.fld F.JNL_STAT_CAUSE 0 = 0 ∧
  State.reset.hub.mode = mUnloaded ∧ State.reset.hub.slot = 0 ∧ State.reset.hub.flag F.HUB_ADDR_VALID 0 = false ∧
  State.reset.pending = [] ∧ (∀ q, State.reset.hub.queue q = {}) ∧ (∀ e, State.reset.hub.oxOf e = {}) ∧
  State.reset.hub.start.held = false ∧ State.reset.hub.bull = {} ∧ (∀ r, State.reset.hub.bull.fg.gr r = 0) ∧
  State.reset.hub.lmem = [] ∧ State.reset.hub.bank = [] ∧ State.reset.hub.shadow = [] ∧ State.reset.hub.snap = [] ∧
  (∀ l, State.reset.hub.lane l = {}) ∧ State.reset.hub.mule = {} ∧ State.reset.hub.hen = {} ∧ State.reset.hub.cmp = {} ∧
  State.reset.hub.trigs = [] ∧ State.reset.hub.pk = {} ∧ State.reset.hub.twin = {}

/-- The canonical form of the parameter space, of the words that windows show, of Bull's memories and of the latency memory holds
after power-on. Readings and choices that it rests on: notes/assumptions/5.md. -/
def Obligations.ResetIsCanonical : Prop := State.reset.hub.canonical = true

/-- Every step keeps the canonical form of five stores, the parameter space, the words that windows show, Bull's instruction and
data memory and the latency memory (not of the other lists of the state), whichever command stands at the front of the queue and
whatever state the hub is in. Readings and choices that it rests on: notes/assumptions/5.md. -/
def Obligations.EveryStepKeepsCanonical : Prop :=
  ∀ s t : State, s.hub.canonical = true → step s = .next t → t.hub.canonical = true

/-- A read of a register field after a write of it gives the value written modulo the width of the field; every other bit of the
word, and every other word, stays. -/
def Obligations.FieldWriteThenRead : Prop :=
  ∀ (h : Hub) (f : Fld) (i v : Nat), f.lo ≤ f.hi → f.hi < 32 →
    (h.setFld f i v).fld f i = v % 2 ^ f.width ∧
    (∀ a, a ≠ f.addr i → (h.setFld f i v).word a = h.word a) ∧
    (∀ k, k < 32 → (k < f.lo ∨ f.hi < k) → ((h.setFld f i v).word (f.addr i)).getLsbD k = (h.word (f.addr i)).getLsbD k)

/-- A write of a general register reads back, g0 stays 0, and no other register changes (R188). -/
def Obligations.RegisterZeroDiscards : Prop :=
  ∀ (c : Ctx) (r k : Nat) (w : W32),
    (c.setG r w).gr 0 = 0 ∧ (r ≠ 0 → (c.setG r w).gr r = w) ∧ (k ≠ r → (c.setG r w).gr k = c.gr k) ∧
    (c.setG 0 w) = c

/-! ### Resets and the reset pin -/

/-- Power-on and power loss, RST_N asserted, released, masked and re-armed, and a warm reset: what each leaves (R7, R421, R424,
R425, R589). A masked pin that is high again holds nothing once power has cleared MASKED. A strap fault is counted once, as the
start begins (R552, R567), and so is every fault of the interlock found while the hub was held. What a reset keeps beside the
retention domain is a reading (notes/assumptions/10.md); that memories and queues are empty after one is the model's choice
(notes/assumptions/5.md). Readings and choices that it rests on: notes/assumptions/7.md. -/
def Obligations.ResetsActAsStated : Prop :=
  let high (h : Hub) : Prop := h.flag F.RSTPIN_MASKED 0 = true ∧ h.flag F.RSTPIN_LEVEL 0 = true
  (∀ (s : State) (straps : BitVec 6), s.hub.start.pin = false ∨ high s.hub → Answers (.powerOn straps) s fun h =>
    let fault := decide (straps.toNat % 8 = 0) || decide (straps.toNat / 8 = 0)
    h.start.held = false ∧ h.start.off = false ∧ h.start.pin = false ∧ h.fld F.JNL_STAT_STARTS 0 = 1 ∧
    h.fld F.JNL_STAT_CAUSE 0 = 0 ∧ h.fld F.ILK_STRAP_LATCHED 0 = straps.toNat ∧ h.mode = mUnloaded ∧ h.bull = {} ∧ h.tap = {} ∧
    h.flag F.ILK_STRAP_STRAPF 0 = fault ∧ h.fld F.ILK_FLTCNT_COUNT 0 = b2n fault ∧ h.fld F.GS_CODECNT_COUNT 0x50 = b2n fault ∧
    h.fld F.ILK_STAT_EN 0 = 0) ∧
  (∀ (s : State) (straps : BitVec 6), s.hub.start.pin = true → ¬ high s.hub → Answers (.powerOn straps) s fun h =>
    h.start.held = true ∧ h.start.off = false ∧ h.start.pin = true ∧ h.fld F.JNL_STAT_STARTS 0 = 0 ∧
    h.fld F.ILK_FLTCNT_COUNT 0 = 0) ∧
  (∀ s : State, Answers .supplyBelowFallingThreshold s fun h =>
    h.start.held = true ∧ h.start.off = true ∧ (∀ a, h.word a = loadWord a) ∧ h.bank = [] ∧ h.ilk = {}) ∧
  (∀ s : State, s.hub.start.pin = false → s.hub.start.off = false → s.hub.canonical = true →
    s.hub.flag F.RSTPIN_MASKED 0 = false → Answers .rstNAssert s fun h =>
      h.start.held = true ∧ h.start.pin = true ∧ h.fld F.JNL_STAT_CAUSE 0 = 2 ∧ s.hub.loaded h [A.JNL_STAT] ∧ h.bull = {}) ∧
  (∀ s : State, s.hub.start.pin = true → s.hub.start.off = false → s.hub.tap.holds = false →
    s.hub.flag F.RSTPIN_MASKED 0 = false → Answers .rstNRelease s fun h =>
      h.start.held = false ∧ h.start.pin = false ∧ h.fld F.JNL_STAT_CAUSE 0 = 2 ∧ h.ilk.owed = [] ∧
      h.fld F.JNL_STAT_STARTS 0 = min 0xFFFF (s.hub.fld F.JNL_STAT_STARTS 0 + 1) ∧
      s.hub.counted h F.ILK_FLTCNT_COUNT 0 s.hub.ilk.owed.length ∧
      (s.hub.ilk.owed = [] → s.hub.sameWords h [A.JNL_STAT])) ∧
  (∀ s : State, s.hub.start.pin = true → s.hub.start.off = false → s.hub.tap.holds = false →
    s.hub.flag F.RSTPIN_MASKED 0 = false → Answers .rstNMask s fun h =>
      h.start.held = false ∧ h.flag F.RSTPIN_MASKED 0 = true ∧ h.fld F.JNL_STAT_CAUSE 0 = 3 ∧
      bit (h.fld F.ATTN_STAT_STICKY 0) (aResetStuck - 2) = true ∧
      (s.hub.ilk.owed = [] → s.hub.sameWords h [A.JNL_STAT, A.RSTPIN, A.ATTN_STAT])) ∧
  (∀ s : State, s.hub.flag F.RSTPIN_MASKED 0 = true → Answers .rstNRearm s fun h =>
    h.flag F.RSTPIN_MASKED 0 = false ∧ h.start.pin = false ∧ s.hub.sameWords h [A.RSTPIN]) ∧
  (∀ s : State, s.hub.pk.reset = true → s.hub.repliesLeft = true → s.hub.canonical = true → s.hub.flag F.RSTPIN_MASKED 0 = false →
    Answers .warmReset s fun h =>
      h.start.held = false ∧ h.fld F.JNL_STAT_CAUSE 0 = 1 ∧ (s.hub.ilk.owed = [] → s.hub.loaded h [A.JNL_STAT] ∧ h.queues = []) ∧
      h.bull = {} ∧ h.pk = {} ∧ h.mode = mUnloaded) ∧
  (∀ s : State, s.hub.pk.reset = false ∨ s.hub.repliesLeft = false → Answers .warmReset s fun h => h = s.hub)

/-! ### The start steps -/

/-- The steps S00 to S05: a step that is in progress ends with its journal entry written, and the next one begins (R426, R429). S01
and S02 take the alternate where their mark is set. Readings and choices that it rests on: notes/assumptions/19.md. -/
def Obligations.EarlyStartSteps : Prop :=
  (∀ (s : State) (dur : Nat), s.hub.atStep 0 = true → Answers (.s00PowerGood dur) s fun h =>
    h.journal 0 oPass dur ∧ h.fld F.JNL_STAT_STEP 0 = 1) ∧
  (∀ (s : State) (okA okB : Bool) (dur : Nat), s.hub.atStep 1 = true → Answers (.s01CrystalCheck okA okB dur) s fun h =>
    (okA = true → s.hub.flag F.JNL_STEP_MARK 1 = false →
      h.journal 1 oPass dur ∧ h.fld F.RT_CLK_XO_SEL 0 = 0 ∧ h.fld F.JNL_STAT_STEP 0 = 2) ∧
    ((okA = false ∨ s.hub.flag F.JNL_STEP_MARK 1 = true) → okB = true →
      h.journal 1 oAlternate dur ∧ h.fld F.RT_CLK_XO_SEL 0 = 1 ∧ h.flag F.JNL_STEP_MARK 1 = true ∧
      h.fld F.JNL_STAT_STEP 0 = 2) ∧
    ((okA = false ∨ s.hub.flag F.JNL_STEP_MARK 1 = true) → okB = false →
      h.journal 1 oFail dur ∧ h.start.failed = true ∧ h.flag F.JNL_STEP_MARK 1 = true ∧ h.fld F.JNL_STAT_STEP 0 = 1) ∧
    s.hub.sameWords h [A.JNL_STAT, A.JNL_STEP + 1, A.RT_CLK]) ∧
  (∀ (s : State) (okA okB : Bool) (dur : Nat), s.hub.atStep 2 = true → Answers (.s02PllLock okA okB dur) s fun h =>
    (okA = true → s.hub.flag F.JNL_STEP_MARK 2 = false →
      h.journal 2 oPass dur ∧ h.fld F.RT_CLK_BAND 0 = 0 ∧ h.fld F.RT_CLK_LOCK 0 = 1 ∧ h.fld F.JNL_STAT_STEP 0 = 3) ∧
    ((okA = false ∨ s.hub.flag F.JNL_STEP_MARK 2 = true) → okB = true →
      h.journal 2 oAlternate dur ∧ h.fld F.RT_CLK_BAND 0 = 1 ∧ h.fld F.RT_CLK_LOCK 0 = 1 ∧ h.fld F.JNL_STAT_STEP 0 = 3) ∧
    ((okA = false ∨ s.hub.flag F.JNL_STEP_MARK 2 = true) → okB = false →
      h.journal 2 oFail dur ∧ h.start.failed = true ∧ h.fld F.JNL_STAT_STEP 0 = 2) ∧
    s.hub.sameWords h [A.JNL_STAT, A.JNL_STEP + 2, A.RT_CLK]) ∧
  (∀ (s : State) (framed failed : BitVec 24) (rate : BitVec 2) (first : Fin 24) (dur : Nat),
    s.hub.atStep 3 = true → s.hub.start.again = 0 → first.val ∈ s.hub.autoLanes → framed.getLsbD first.val = true →
    bit (s.hub.fld F.JNL_LANES_SKIP 0) first.val = false →
    Answers (.s03LaneSearch framed failed ⟨rate, first⟩ dur) s fun h =>
      h.fld F.LANE_ROLE_RATE first.val = rate.toNat ∧ h.start.foundRate = rate ∧
      h.fld F.JNL_STEP_RUN 3 = 1 ∧ h.fld F.JNL_STEP_DUR 3 = min 0xFFFF (dur / 100) ∧ h.fld F.JNL_STAT_STEP 0 = 4 ∧
      (h.fld F.JNL_STEP_OUTCOME 3 = oPass ↔
        ∀ l ∈ s.hub.autoLanes, bit (s.hub.fld F.JNL_LANES_SKIP 0) l = false ∧
          (failed.getLsbD l = true → framed.getLsbD l = true))) ∧
  (∀ (s : State) (dur : Nat), s.hub.atStep 4 = true → s.hub.start.again = 0 →
    (s.hub.flag F.RT_CLK_GRID 0 = true ∨ s.hub.onCrystal = true ∨ s.hub.timingLane.isSome = true) →
    Answers (.s04GridPlace dur) s fun h =>
      h.journal 4 oPass dur ∧ h.fld F.JNL_STAT_STEP 0 = 5 ∧ h.flag F.RT_CLK_GRID 0 = true ∧
      (s.hub.flag F.RT_CLK_GRID 0 = true → s.hub.onlyWords h [A.JNL_STAT, A.JNL_STEP + 4])) ∧
  (∀ (s : State) (dur : Nat), s.hub.atStep 5 = true → s.hub.flag F.HUB_ADDR_VALID 0 = true →
    Answers (.s05Address dur) s fun h =>
      h.journal 5 oPass dur ∧ h.fld F.JNL_STAT_STEP 0 = 6 ∧ s.hub.onlyWords h [A.JNL_STAT, A.JNL_STEP + 5])

/-- The steps S06 to S09 (R426, R430, R431, R434): each writes its entry and lets the next begin; with nothing to repair the outcome
is PASS, in a quick start S06 to S08 are SKIPPED; S09 records whether both strap readings gave the latched address, and the start is
done. The rerun of R427 and the repeated lane search of R26. Readings and choices that it rests on: notes/assumptions/20.md, 21.md.
-/
def Obligations.LateStartSteps : Prop :=
  ((∀ (s : State) (rows : List (BitVec 10 × BitVec 11)) (dur : Nat), s.hub.atStep 6 = true →
      Answers (.s06MemoryTest rows dur) s fun h =>
        h.fld F.JNL_STEP_RUN 6 = 1 ∧ h.fld F.JNL_STEP_DUR 6 = min 0xFFFF (dur / 100) ∧ h.fld F.JNL_STAT_STEP 0 = 7 ∧
        (s.hub.quick = true → h.fld F.JNL_STEP_OUTCOME 6 = oSkipped) ∧
        (s.hub.quick = false → s.hub.bank = [] → rows = [] → h.fld F.JNL_STEP_OUTCOME 6 = oPass)) ∧
    (∀ (s : State) (bad : List (Fin 544 × Bool)) (dur : Nat), s.hub.atStep 7 = true →
      Answers (.s07TdcCheck bad dur) s fun h =>
        h.fld F.JNL_STEP_RUN 7 = 1 ∧ h.fld F.JNL_STEP_DUR 7 = min 0xFFFF (dur / 100) ∧ h.fld F.JNL_STAT_STEP 0 = 8 ∧
        (s.hub.quick = true → h.fld F.JNL_STEP_OUTCOME 7 = oSkipped) ∧
        (s.hub.quick = false → (∀ p, p < 544 → s.hub.flag F.RS_DSLOT_TREP p = false) → bad = [] →
          h.fld F.JNL_STEP_OUTCOME 7 = oPass)) ∧
    (∀ (s : State) (bad : List (Fin 544)) (dur : Nat), s.hub.atStep 8 = true →
      Answers (.s08DigitiserTest bad dur) s fun h =>
        h.fld F.JNL_STEP_RUN 8 = 1 ∧ h.fld F.JNL_STEP_DUR 8 = min 0xFFFF (dur / 100) ∧ h.fld F.JNL_STAT_STEP 0 = 9 ∧
        (s.hub.quick = true → h.fld F.JNL_STEP_OUTCOME 8 = oSkipped) ∧
        (s.hub.quick = false → (∀ p, p < 544 → s.hub.flag F.RS_DSLOT_DREP p = false) → bad = [] →
          h.fld F.JNL_STEP_OUTCOME 8 = oPass)) ∧
    (∀ (s : State) (read1 read2 : BitVec 6) (dur : Nat), s.hub.atStep 9 = true →
      Answers (.s09StrapCheck read1 read2 dur) s fun h =>
        let ok := decide (read1.toNat = s.hub.fld F.ILK_STRAP_LATCHED 0 ∧ read2.toNat = s.hub.fld F.ILK_STRAP_LATCHED 0)
        h.fld F.JNL_STAT_DONE 0 = 1 ∧ h.fld F.JNL_STAT_STEP 0 = 0xF ∧ h.journal 9 (if ok then oPass else oFail) dur ∧
        h.flag F.ILK_STAT_S09OK 0 = ok ∧
        s.hub.sameWords h [A.JNL_STAT, A.JNL_STEP + 9, A.ILK_STAT, A.ATTN_STAT] ∧
        ((∃ k < 10, h.fld F.JNL_STEP_OUTCOME k ≠ oPass) → bit (h.fld F.ATTN_STAT_STICKY 0) (aJournal - 2) = true))) ∧
  ((∀ s : State, s.hub.start.failed = true → Answers .startRerun s fun h =>
      h.start.failed = false ∧ h.fld F.JNL_STAT_STEP 0 = 1 ∧ (∀ k < 10, h.fld F.JNL_STEP_RUN k = 0) ∧
      (∀ k < 10, h.fld F.JNL_STEP_OUTCOME k = s.hub.fld F.JNL_STEP_OUTCOME k) ∧
      h.fld F.JNL_STAT_STARTS 0 = s.hub.fld F.JNL_STAT_STARTS 0 ∧ h.fld F.JNL_STAT_CAUSE 0 = s.hub.fld F.JNL_STAT_CAUSE 0) ∧
    (∀ s : State, s.hub.searchDue = true → Answers .laneSearchRepeat s fun h =>
      h.rooster.noParent = 0 ∧ (s.hub.atStep 4 = true → h.fld F.JNL_STAT_STEP 0 = 3) ∧
      (s.hub.atStep 4 = false → h.start = { s.hub.start with again := 3, found := [], atRate := [] })))

/-! ### The test port -/

/-- The instructions of the test port (R595, R596): what each selects and captures, that the interlock's cells only capture, and
that entering EXTEST, CLAMP, HIGHZ, EXTEST_PULSE or EXTEST_TRAIN holds the hub in reset with CAUSE 010b, while IDCODE,
SAMPLE/PRELOAD, BYPASS and a reset of the TAP leave a running hub as it is. That Bull's memories are empty after the reset is the
model's choice (notes/assumptions/5.md). Readings and choices that it rests on: notes/assumptions/21.md. -/
def Obligations.TestPortInstructions : Prop :=
  let runs (s : State) : Prop := s.hub.tap.holds = false ∧ s.hub.start.off = false ∧ s.hub.start.held = false
  let resets (h : Hub) : Prop := h.start.held = true ∧ h.fld F.JNL_STAT_CAUSE 0 = 2 ∧ h.bull = {} ∧ h.pk = {}
  let scanned (h : Hub) (balls shifted : BitVec 136) : Prop :=
    h.tap.captured = balls ∧ h.tap.cells &&& ilkCells = balls &&& ilkCells ∧
    h.tap.cells &&& ~~~ilkCells = shifted &&& ~~~ilkCells
  (∀ s : State, s.hub.tap.holds = true → s.hub.start.off = false →
    (s.hub.start.pin = false ∨ s.hub.flag F.RSTPIN_MASKED 0 = true) →
    Answers .idcode s fun h => h.start.held = false ∧ h.tap.ir = 0x01 ∧ h.fld F.JNL_STAT_CAUSE 0 = 2 ∧
      h.fld F.JNL_STAT_STARTS 0 = min 0xFFFF (s.hub.fld F.JNL_STAT_STARTS 0 + 1)) ∧
  ∀ (s : State), runs s →
    Answers .idcode s (fun h => h = { s.hub with tap := { s.hub.tap with ir := 0x01, dr := 0x1512455F } }) ∧
    Answers .tapReset s (fun h => h = { s.hub with tap := { s.hub.tap with ir := 0x01, dr := 0x1512455F } }) ∧
    Answers .bypass s (fun h => h = { s.hub with tap := { s.hub.tap with ir := 0xFF, dr := 0 } }) ∧
    (∀ balls shifted, Answers (.samplePreload balls shifted) s fun h =>
      h.tap.ir = 0x02 ∧ scanned h balls shifted ∧ h = { s.hub with tap := h.tap }) ∧
    Answers .clamp s (fun h => h.tap.ir = 0x04 ∧ h.tap.dr = 0 ∧ h.tap.cells = s.hub.tap.cells ∧ resets h) ∧
    Answers .highz s (fun h => h.tap.ir = 0x05 ∧ h.tap.dr = 0 ∧ resets h) ∧
    (∀ balls shifted,
      Answers (.extest balls shifted) s (fun h => h.tap.ir = 0x00 ∧ scanned h balls shifted ∧ resets h) ∧
      Answers (.extestPulse balls shifted) s (fun h => h.tap.ir = 0x10 ∧ scanned h balls shifted ∧ resets h) ∧
      Answers (.extestTrain balls shifted) s (fun h => h.tap.ir = 0x11 ∧ scanned h balls shifted ∧ resets h))

/-! ### The Rooster -/

/-- A crystal or a VCO band that fails gives way to the other, and is fenced; without another crystal time is lost, a fatal fault,
and without another band the lock is (R40, R41). A band that locks again ends the standing cause (R481). The HEALTH item of a band
switch (R606): once its slots have passed, three words go into Q30, or wait as a unit-local event of a twin unit (R508). Readings
and choices that it rests on: notes/assumptions/14.md. -/
def Obligations.ClockPartsGiveWay : Prop :=
  ((∀ s : State, s.hub.start.held = false → s.hub.fenced (unitOf 1 (1 - s.hub.fld F.RT_CLK_XO_SEL 0)) = false →
      Answers .crystalFail s fun h =>
        h.fld F.RT_CLK_XO_SEL 0 = 1 - s.hub.fld F.RT_CLK_XO_SEL 0 ∧ h.fenced (unitOf 1 (s.hub.fld F.RT_CLK_XO_SEL 0)) = true ∧
        h.fenced (unitOf 1 (1 - s.hub.fld F.RT_CLK_XO_SEL 0)) = false ∧ s.hub.counted h F.GS_CODECNT_COUNT 1 1) ∧
    (∀ s : State, s.hub.start.held = false → s.hub.fenced (unitOf 1 (1 - s.hub.fld F.RT_CLK_XO_SEL 0)) = true →
      s.hub.fenced (unitOf 1 (s.hub.fld F.RT_CLK_XO_SEL 0)) = false → s.hub.onCrystal = true → Answers .crystalFail s fun h =>
        h.fld F.RT_CLK_XO_SEL 0 = s.hub.fld F.RT_CLK_XO_SEL 0 ∧ s.hub.counted h F.GS_CODECNT_COUNT 8 1 ∧
        s.hub.counted h F.GS_FATCNT_COUNT 0 1 ∧ (s.hub.mode ≠ mUnloaded → s.hub.mode ≠ mHold → h.goose.fatal = true)) ∧
    (∀ (s : State) (err : W32), s.hub.start.held = false → s.hub.fenced (unitOf 1 (3 - s.hub.fld F.RT_CLK_BAND 0)) = false →
      Answers (.bandFail err) s fun h =>
        h.fld F.RT_CLK_BAND 0 = 1 - s.hub.fld F.RT_CLK_BAND 0 ∧ s.hub.counted h F.RT_BANDSW_COUNT 0 1 ∧
        h.fenced (unitOf 1 (2 + s.hub.fld F.RT_CLK_BAND 0)) = true ∧ h.rooster.band = some (21, err)) ∧
    (∀ (s : State) (err : W32), s.hub.start.held = false → s.hub.fenced (unitOf 1 (3 - s.hub.fld F.RT_CLK_BAND 0)) = true →
      Answers (.bandFail err) s fun h =>
        s.hub.counted h F.GS_CODECNT_COUNT 3 1 ∧ h.flag F.RT_CLK_LOCK 0 = false ∧ h.fld F.RT_CLK_BAND 0 = s.hub.fld F.RT_CLK_BAND 0 ∧
        h.fld F.RT_BANDSW_COUNT 0 = s.hub.fld F.RT_BANDSW_COUNT 0) ∧
    (∀ (s : State) (band : Bool), s.hub.start.held = false → Answers (.vcoBandLocksAgain band) s fun h =>
      3 ∉ h.goose.standing ∧ (∀ c, c ≠ 3 → (c ∈ h.goose.standing ↔ c ∈ s.hub.goose.standing)) ∧
      (s.hub.fld F.RT_CLK_BAND 0 = b2n band → h.flag F.RT_CLK_LOCK 0 = true) ∧
      (s.hub.fld F.RT_CLK_BAND 0 ≠ b2n band → h.regs = s.hub.regs) ∧ s.hub.sameWords h [A.RT_CLK])) ∧
  (∀ (s : State) (err : W32), s.hub.rooster.band = some (0, err) →
      let lane := match s.hub.timingLane with | some l => l | none => 0xFF
      let item : List W64 := [header tHealth 0 0 s.hub.tag.toNat 0, healthWord1 3 lane 0 0, BitVec.ofNat 64 (err.toNat * 2 ^ 32)]
      Answers .bandSwitchHealth s fun h =>
        h.rooster.band = none ∧
        (s.hub.twinLocal = true → h.twin.items = s.hub.twin.items ++ [item] ∧ h.regs = s.hub.regs) ∧
        (s.hub.twinLocal = false → s.hub.queueRoom 30 3 → s.hub.queueGot h 30 item))

/-- The 256-slot averages and holdover (R46-R53): what RT_RTT and RT_LANE show of a PARENT lane that has had echoes, the entry to
holdover after two slots without framing, and its end with the first average of the timing lane: its length, its error and the
ambiguity mark. Readings and choices that it rests on: notes/assumptions/7.md, 88.md. -/
def Obligations.AveragesAndHoldover : Prop :=
  (∀ (s : State) (l : Fin 24) (port : Fin 2), s.hub.role l = roleParent → s.hub.lanePort l = port → (s.hub.lane l).avgN ≠ 0 →
    Answers (.thetaAverage l port (s.hub.lane l).avgN) s fun h =>
    let rtt := roundDiv (s.hub.lane l).avgRtt (s.hub.lane l).avgN
    h.fld F.RT_RTT_RTT l = satU 24 rtt ∧ (h.lane l).avgN = 0 ∧
    h.fld F.RT_LANE_D l = satU 24 (roundDiv (rtt - s.hub.sfld F.RT_TX_ASYM_V (s.hub.lanePort l)
      - s.hub.sfld F.RT_RX_ASYM_V (s.hub.lanePort l)) 2)) ∧
  (∀ (s : State) (l : Fin 24) (port : Fin 2) (n : Nat),
    s.hub.role l ≠ roleParent ∨ s.hub.lanePort l ≠ port ∨ (s.hub.lane l).avgN ≠ n ∨ n = 0 →
    Answers (.thetaAverage l port n) s fun h => h = s.hub) ∧
  (∀ s : State, 2 ≤ s.hub.rooster.noFrame → s.hub.pastS04 = true → s.hub.flag F.RT_CLK_HOLDOVER 0 = false →
    s.hub.onCrystal = false → Answers .holdoverEntry s fun h =>
      h.flag F.RT_CLK_HOLDOVER 0 = true ∧ h.rooster.backAt = none ∧ (s.hub.twinLocal = false → h.sticky aTime) ∧
      h.slot = s.hub.slot ∧ h.fld F.RT_TIME_NS_NS 0 = s.hub.fld F.RT_TIME_NS_NS 0) ∧
  (∀ (s : State) (l : Fin 24) (port : Fin 2) (back : W48), s.hub.rooster.backAt = some back → s.hub.timingLane = some l.val →
    s.hub.portInForce = port →
    s.hub.flag F.RT_CLK_HOLDOVER 0 = true →
    let known := (s.hub.laneAverages l).refreshAges
    known.timingLane = some l.val → (known.lane l).fresh = true →
    Answers (.holdoverEnd l port) s fun h =>
      let theta := roundDiv (known.thetaOf l) 125
      let dur := slotsFrom s.hub.rooster.lossAt back
      h.flag F.RT_CLK_HOLDOVER 0 = false ∧ h.fld F.RT_HOLDDUR_V 0 = min 0xFFFFFFFF dur ∧
      h.word A.RT_HOLDERR = BitVec.ofInt 32 theta ∧ (7600000 < dur → h.flag F.RT_CLK_AMBIG 0 = true) ∧
      (dur ≤ 7600000 → h.flag F.RT_CLK_AMBIG 0 = s.hub.flag F.RT_CLK_AMBIG 0) ∧
      h.rooster.noFrame = 0 ∧ (s.hub.onCrystal = false → s.hub.pastS03 = true → s.hub.flag F.RT_CLK_GRID 0 = true →
        h.sfld F.RT_OFFSET_THETA 0 = satS 24 theta))

/-- Writes to the Rooster's registers, votes and cleared counters (R8, R9, R49, R65, R68, R69, R607): RT_CLK.SRC, REGRID and
RT_FCCFG act in SETUP and in no other mode; a corrected vote is counted and reported, three disagreeing copies ask for HOLD, and the
bits written to a CNTCLR register clear their counters when the next boundary comes to them. Readings and choices that it rests on:
notes/assumptions/7.md, 69.md. -/
def Obligations.RoosterWrites : Prop :=
  (∀ (s : State) (src : BitVec 2), s.hub.mode = mSetup → Answers (.clockSourceWrite src) s fun h =>
    h.fld F.RT_CLK_SRC 0 = src.toNat ∧
    (src = 2 → h.flag F.RT_CLK_HOLDOVER 0 = false ∧ h.flag F.RT_CLK_GRID 0 = true) ∧
    (src ≠ 2 → s.hub.onCrystal = true → h.flag F.RT_CLK_GRID 0 = false ∧ h.flag F.RT_CLK_AMBIG 0 = false) ∧
    (s.hub.noCrystal = false → s.hub.sameWords h [A.RT_CLK, A.RT_OFFSET])) ∧
  (∀ s : State, s.hub.mode = mSetup → s.hub.onCrystal = false → Answers .regrid s fun h =>
    h.flag F.RT_CLK_GRID 0 = false ∧ h.flag F.RT_CLK_AMBIG 0 = false ∧ s.hub.onlyWords h [A.RT_CLK]) ∧
  (∀ (s : State) (v : W32), s.hub.mode = mSetup → Answers (.fccfgWrite v) s fun h =>
    h.fld F.RT_FCCFG_FC_LAT 0 = max 1 (bits v.toNat 9 0) ∧ h.fld F.RT_FCCFG_UP_AGE 0 = bits v.toNat 25 16 ∧
    h.rooster.sched = [] ∧ h.rooster.held = s.hub.rooster.held.filter (fun x => !x.1.scheduled) ∧
    s.hub.counted h F.RT_FCLATE_COUNT 0
      (s.hub.rooster.sched.length + (s.hub.rooster.held.filter fun x => x.1.scheduled).length) ∧
    h.fld F.RT_AGE_FWD_AGE 0 = (h.fld F.RT_AGE_FC_AGE 0 + 1) % 2 ^ F.RT_AGE_FWD_AGE.width) ∧
  (∀ (s : State) (src : BitVec 2) (v : W32), s.hub.mode ≠ mSetup →
    Answers (.clockSourceWrite src) s (fun h => h = s.hub) ∧ Answers .regrid s (fun h => h = s.hub) ∧
    Answers (.fccfgWrite v) s fun h => h = s.hub) ∧
  (∀ (s : State) (addr : W24), s.hub.start.held = false → s.hub.fenced (unitOf 1 4) = false →
    Answers (.voteFix addr) s fun h =>
      s.hub.counted h F.RT_VOTEFIX_COUNT 0 1 ∧ s.hub.counted h F.GS_CODECNT_COUNT 4 1 ∧
      s.hub.counted h F.GS_CORCNT_COUNT 0 1 ∧ h.mode = s.hub.mode ∧ (s.hub.flag F.GS_CFG_LOGCOR 0 = false →
        s.hub.sameWords h [A.RT_VOTEFIX, A.GS_CODECNT + 4, A.GS_CORCNT, A.ATTN_STAT])) ∧
  (∀ (s : State) (addr : W24), s.hub.start.held = false → s.hub.fenced (unitOf 1 4) = false →
    Answers (.voteFail addr) s fun h =>
      s.hub.counted h F.GS_CODECNT_COUNT 5 1 ∧ s.hub.counted h F.GS_FATCNT_COUNT 0 1 ∧ h.mode = s.hub.mode ∧
      (s.hub.mode ≠ mUnloaded → s.hub.mode ≠ mHold → h.goose.fatal = true)) ∧
  (∀ (s : State) (addr : W24) (v : W32), s.hub.start.held = false → Answers (.counterClear addr v) s fun h =>
    h = { s.hub with rooster := h.rooster } ∧ h.rooster.clears = s.hub.rooster.clears ++ [(addr.toNat, v)] ∧
    (s.hub.rooster.clears = [] →
      ∀ x ∈ [(A.RT_CNTCLR, 0x1030, 6), (A.ACQ_CNTCLR, 0x10010, 9), (A.MULE_CNTCLR, 0x7008, 4), (A.CMP_CNTCLR, 0x7408, 6),
          (A.CAL_CNTCLR, 0x60890, 3), (A.RS_CNTCLR, 0x63008, 4), (A.TW_CNTCLR, 0x62208, 5), (A.MON_CNTCLR, 0x61008, 4),
          (A.ILK_CNTCLR, 0x62008, 4)],
        addr.toNat = x.1 → ∀ k < x.2.2,
          (bit v.toNat k = true → h.clearsAct.word (x.2.1 + k) = 0) ∧
          (bit v.toNat k = false → h.clearsAct.word (x.2.1 + k) = s.hub.word (x.2.1 + k))))

/-- What every command keeps (R269, R557-R562). A queue holds at most 16 words, whatever command follows, as long as no state copy
is about to be taken over. The grant of an interlock output is made by a command that carries a write to ILK_REQ within a packet,
and by no other. Of the commands of the interlock, ILK_REQ_WRITE alone enables an output, with the second word behind its first of
the same mask; and none of them leaves an output enabled with the chain broken. -/
def Obligations.EveryCommandKeepsBounds : Prop :=
  (∀ (i : Instr) (s t : State), exec i s = .next t → s.hub.twin.stepAt = none → (∀ q, (s.hub.queue q).ws.length ≤ 16) →
    ∀ q, (t.hub.queue q).ws.length ≤ 16) ∧
  (∀ (i : Instr) (s t : State) (n : Nat), exec i s = .next t → s.hub.ilk.grant.getLsbD n = false →
    t.hub.ilk.grant.getLsbD n = true → mayEnable i = true) ∧
  (∀ (i : Instr) (s t : State), exec i s = .next t → ofInterlock i = true →
    (s.hub.fld F.ILK_STAT_EN 0 ≠ 0 → s.hub.flag F.ILK_STAT_CHAIN 0 = true) →
    (t.hub.fld F.ILK_STAT_EN 0 ≠ 0 → t.hub.flag F.ILK_STAT_CHAIN 0 = true) ∧
    (∀ n, s.hub.ilkBit F.ILK_STAT_EN n = false → t.hub.ilkBit F.ILK_STAT_EN n = true →
      ∃ (v : W32) (x : Exec) (mask : BitVec 2), i = .ilkReqWrite v ∧ s.hub.pk.cur = some x ∧ x.ilkKey = some mask ∧
        F.ILK_REQ_KEY.get v = 0x9494 ∧ mask = BitVec.ofNat 2 (F.ILK_REQ_MASK.get v) ∧ mask.getLsbD n = true))

/-! ### Fast commands -/

/-- The scheduled fast commands (R58, R59): before its decode slot a command is held (R57); in it, it is forwarded in the next slot
and scheduled for slot o + FC_LAT, or for the next boundary when that slot has come, which is counted. Readings and choices that it
rests on: notes/assumptions/43.md. -/
def Obligations.ScheduledFastCommands : Prop :=
  ∀ x ∈ [(Fc.sync, Instr.fcSync), (.orbit, .fcOrbit), (.calPulse, .fcCalPulse), (.snap, .fcSnap), (.commit, .fcCommit)],
  ∀ (s : State) (q : W48), s.hub.start.held = false →
    let act := s.hub.originSlot q + BitVec.ofNat 48 (s.hub.fld F.RT_FCCFG_FC_LAT 0)
    (reached s.hub.slot (s.hub.decodeSlot q) = false → Answers (x.2 q) s fun h =>
      h.rooster.held = s.hub.rooster.held ++ [(x.1, q, s.hub.decodeSlot q, 0, true)] ∧ h = { s.hub with rooster := h.rooster }) ∧
    (reached s.hub.slot (s.hub.decodeSlot q) = true → Answers (x.2 q) s fun h =>
      h.hen.fc = s.hub.hen.fc ++ [(x.1.code, 0, s.hub.slot + 1#48)] ∧
      (reached s.hub.slot act = false → h.rooster.sched = s.hub.rooster.sched ++ [(x.1, act)] ∧ h.regs = s.hub.regs) ∧
      (reached s.hub.slot act = true → h.rooster.sched = s.hub.rooster.sched ++ [(x.1, s.hub.slot + 1#48)] ∧
        s.hub.counted h F.RT_FCLATE_COUNT 0 1 ∧ s.hub.counted h F.GS_CODECNT_COUNT 6 1))

/-- The fast commands that act at once (R55, R62-R64, R417, R418, R518): NOP does nothing, an L1A takes its number and its way to
the accept slot two slots on, HOLD asks for HOLD, and TWIN_TAKE lets a healthy SOLO standby take over or is counted. Readings and
choices that it rests on: notes/assumptions/43.md. -/
def Obligations.ImmediateFastCommands : Prop :=
  ∀ (s : State) (q : W48), s.hub.start.held = false → reached s.hub.slot (s.hub.decodeSlot q) = true →
    Answers (.fcNop q) s (fun h => h = s.hub) ∧
    (∀ (num : W24) (ok : Bool), Answers (.fcL1a q num ok) s fun h =>
      let n : W24 := if ok then num else match s.hub.rooster.prevTrig with | some p => p + 1#24 | none => 0
      h.rooster.prevTrig = some n ∧
      h.l1as = s.hub.l1as ++ [{ num := n, inferred := !ok, origin := s.hub.originSlot q, accept := s.hub.slot + 2#48 }] ∧
      h.hen.fc = s.hub.hen.fc ++ [(0x4D#8, n, s.hub.slot + 1#48)] ∧
      (∀ p, s.hub.rooster.prevTrig = some p → ok = true →
        s.hub.counted h F.RT_TRIGSKIP_COUNT 0 (num - (p + 1#24)).toNat) ∧
      s.hub.sameWords h [A.RT_TRIGSKIP]) ∧
    Answers (.fcHold q) s (fun h =>
      (s.hub.mode = mUnloaded → h.goose = s.hub.goose) ∧
      (s.hub.mode = mHold → h.goose = { s.hub.goose with quietFrom := s.hub.slot }) ∧
      (s.hub.mode ≠ mUnloaded → s.hub.mode ≠ mHold → h.goose = { s.hub.goose with holdFc := true }) ∧ h.regs = s.hub.regs) ∧
    Answers (.fcTwinTake q) s (fun h =>
      (s.hub.fld F.TW_STAT_STATE 0 = 4 → s.hub.flag F.TW_STAT_HEALTHY 0 = true → h.twin.take = true ∧ h.regs = s.hub.regs) ∧
      ((s.hub.fld F.TW_STAT_STATE 0 ≠ 4 ∨ s.hub.flag F.TW_STAT_HEALTHY 0 = false) →
        s.hub.counted h F.TW_TAKEIGN_COUNT 0 1 ∧ h.twin = s.hub.twin))

/-- SYNC and ORBIT at the boundary for which they are scheduled (R44, R61): SYNC sets POS to 0 and, when armed, loads SLOT_COUNT and
TIME_NS and sets EPOCH; ORBIT sets POS to 0 in the setup modes, and in the running modes counts and reports an orbit slip. Without a
SYNC, or a CAL_PULSE, that is due its command changes nothing, which is the model's choice (notes/assumptions/7.md). Readings and
choices that it rests on: notes/assumptions/43.md. -/
def Obligations.SyncAndOrbitAct : Prop :=
  (∀ s : State, s.hub.fcDue .sync = true → s.hub.flag F.RT_TSARM_ARM 0 = false → Answers .syncAction s fun h =>
    h.fld F.RT_ORBIT_POS 0 = 0 ∧ h.rooster.syncedAt = some s.hub.slot ∧ h.slot = s.hub.slot ∧ h.fcDue .sync = false) ∧
  (∀ s : State, s.hub.fcDue .sync = true → s.hub.flag F.RT_TSARM_ARM 0 = true → s.hub.running = false →
    Answers .syncAction s fun h =>
      h.fld F.RT_ORBIT_POS 0 = 0 ∧
      h.slot = BitVec.ofNat 48 (s.hub.fld F.RT_SLOTSET_LO_V 0 + s.hub.fld F.RT_SLOTSET_HI_V 0 * 2 ^ 32) ∧
      h.fld F.RT_TIME_NS_NS 0 = s.hub.fld F.RT_TNSSET_V 0 ∧ h.rooster.frac = 0 ∧
      h.flag F.RT_TSARM_ARM 0 = false ∧ h.flag F.RT_CLK_EPOCH 0 = true) ∧
  (∀ s : State, s.hub.fcDue .sync = false → Answers .syncAction s fun h => h = s.hub) ∧
  (∀ s : State, s.hub.fcDue .calPulse = false → Answers .calPulseFire s fun h => h = s.hub) ∧
  (∀ s : State, s.hub.fcDue .orbit = true → Answers .orbitCheck s fun h =>
    h.fcDue .orbit = false ∧
    (s.hub.atOrbit = true → h.regs = s.hub.regs) ∧
    (s.hub.atOrbit = false → s.hub.mode = mUnloaded ∨ s.hub.mode = mSetup ∨ s.hub.mode = mCalibrate →
      h.fld F.RT_ORBIT_POS 0 = 0 ∧ s.hub.sameWords h [A.RT_ORBIT]) ∧
    (s.hub.start.held = false → s.hub.atOrbit = false → s.hub.mode = mRun ∨ s.hub.mode = mDegraded →
      s.hub.counted h F.RT_ORBSLIP_COUNT 0 1 ∧ s.hub.counted h F.GS_CODECNT_COUNT 7 1 ∧
      h.fld F.RT_ORBIT_POS 0 = s.hub.fld F.RT_ORBIT_POS 0))

/-! ### Faults, fences and modes -/

/-- A fault report by its class (R465, R467, R469-R472): its code is counted; unless its unit is fenced, its class is counted, a
contained or fatal report makes the next ring entry of four words, with the time of its CK640 cycle, and starts the quiet period
again, and a fatal one asks for HOLD in the modes that HOLD can be entered from; of several reports of one cycle a fatal one is
taken ahead of a corrected one, in whatever order they come (R466). TIME_LOST and BAND_LOST are taken though their unit is fenced,
which is the model's choice (notes/assumptions/67.md). The first-error capture and the ring are cleared by FECLR and RINGCLR, and by
nothing beside them in that command (R477, R478); a report whose code is not used changes nothing, which is the model's choice
(notes/assumptions/13.md). -/
def Obligations.FaultReportsByClass : Prop :=
  (∀ (s : State) (cycle : Fin 16) (r : Report) (c : FaultClass), s.hub.start.held = false → s.hub.goose.found = [] →
    faultClass r.code.toNat = some c → Answers (.faultReport ⟨cycle, [r]⟩) s fun h =>
      let known := r.unit ∈ s.hub.goose.fenced ∧ r.code ≠ 0x08#8 ∧ r.code ≠ 0x03#8
      s.hub.counted h F.GS_CODECNT_COUNT r.code.toNat 1 ∧
      (known → s.hub.sameWords h [F.GS_CODECNT_COUNT.addr r.code.toNat, A.MODE_STAT] ∧ h.goose = s.hub.goose) ∧
      (¬ known →
        (c = .corrected → s.hub.counted h F.GS_CORCNT_COUNT 0 1 ∧ h.bull = s.hub.bull ∧ h.ox = s.hub.ox) ∧
        (c = .contained → s.hub.counted h F.GS_CONTCNT_COUNT 0 1) ∧
        (c = .fatal → s.hub.counted h F.GS_FATCNT_COUNT 0 1 ∧
          (s.hub.mode ≠ mUnloaded → s.hub.mode ≠ mHold → h.goose.fatal = true)) ∧
        (c ≠ .corrected →
          h.goose.quietFrom = s.hub.slot ∧ h.fld F.GS_RING_NEXT 0 = (s.hub.fld F.GS_RING_NEXT 0 + 1) % 32 ∧
          ∀ k < 4, h.word (A.GS_RENT + 4 * s.hub.fld F.GS_RING_NEXT 0 + k) = ((s.hub.faultEntry cycle r c)[k]?).getD 0) ∧
        (c ≠ .corrected → bit (s.hub.fld F.FE_W_W 2) 31 = false →
          bit (h.fld F.FE_W_W 2) 31 = true ∧ h.fld F.FE_W_W 2 % 2 ^ 24 = s.hub.tag.toNat ∧
          ∀ k ∈ [0, 1, 3], h.word (A.FE_W + k) = ((s.hub.faultEntry cycle r c)[k]?).getD 0))) ∧
  (∀ (s : State) (cycle : Fin 16) (q r : Report), s.hub.start.held = false → s.hub.goose.found = [] →
    faultClass q.code.toNat = some .corrected → faultClass r.code.toNat = some .fatal →
    Answers (.faultReport ⟨cycle, [q, r]⟩) s fun h => exec (.faultReport ⟨cycle, [r, q]⟩) s = .next { s with hub := h }) ∧
  ((∀ s : State, s.hub.start.held = false → Answers .feclr s fun h =>
      (∀ k < 4, h.word (A.FE_W + k) = 0) ∧ s.hub.onlyWords h [A.FE_W, A.FE_W + 1, A.FE_W + 2, A.FE_W + 3]) ∧
    (∀ s : State, s.hub.start.held = false → Answers .ringclr s fun h =>
      (∀ k < 128, h.word (A.GS_RENT + k) = 0) ∧ h.word A.GS_RING = 0 ∧
      s.hub.onlyWords h (A.GS_RING :: (List.range 128).map fun k => A.GS_RENT + k)) ∧
    (∀ (s : State) (cycle : Fin 16) (r : Report), s.hub.start.held = false → faultClass r.code.toNat = none →
      Answers (.faultReport ⟨cycle, [r]⟩) s fun h => s.hub.sameWords h [A.MODE_STAT] ∧ h.goose = s.hub.goose))

/-- Fences (R473, R475, R476): a due fence takes effect at its boundary, a write of the UNIT in SETUP lifts one, but not that of a
lane, and is rejected in every other mode, and a lockstep mismatch fences a core of the pair, puts the third core into its place
where that is not fenced, and is fatal where it is. Readings and choices that it rests on: notes/assumptions/7.md, 51.md. -/
def Obligations.FencesComeAndGo : Prop :=
  (∀ (s : State) (u : BitVec 16), u ∈ s.hub.goose.due → s.hub.fenceNow u.toNat = true → Answers (.unitFence u) s fun h =>
    u ∉ h.goose.due ∧ u ∈ h.goose.fenced ∧ ∀ x, x ∈ s.hub.goose.fenced → x ∈ h.goose.fenced) ∧
  (∀ (s : State) (u : BitVec 16), u ∉ s.hub.goose.due ∨ s.hub.fenceNow u.toNat = false → Answers (.unitFence u) s fun h => h = s.hub) ∧
  (∀ (s : State) (u : BitVec 16), s.hub.mode = mSetup → bits u.toNat 15 10 ≠ 8 → Answers (.gsUnfence u) s fun h =>
    u ∉ h.goose.fenced ∧ u ∉ h.goose.retired ∧ (∀ x, x ≠ u → (x ∈ h.goose.fenced ↔ x ∈ s.hub.goose.fenced))) ∧
  (∀ (s : State) (u : BitVec 16), bits u.toNat 15 10 = 8 → Answers (.gsUnfence u) s fun h => h = s.hub) ∧
  (∀ (s : State) (u : BitVec 16), s.hub.mode ≠ mSetup → Answers (.gsUnfence u) s fun h => h = s.hub) ∧
  (∀ (s : State) (badA badB : Bool) (third : Fin 3), s.hub.start.held = false → s.hub.bull.stopped = false →
    s.hub.bull.pairA ≠ s.hub.bull.pairB → third ≠ s.hub.bull.pairA → third ≠ s.hub.bull.pairB →
    Answers (.lockstepRecovery badA badB) s fun h =>
      let gone := if badB && !badA then s.hub.bull.pairB else s.hub.bull.pairA
      h.fenced (unitOf 3 gone) = true ∧ h.bull.imem = s.hub.bull.imem ∧ h.bull.dmem = s.hub.bull.dmem ∧
      (s.hub.fenced (unitOf 3 third) = false →
        h.bull.pairA ≠ gone ∧ h.bull.pairB ≠ gone ∧ h.bull.pairA < h.bull.pairB ∧ h.flag F.RS_STAT_BCFREE 0 = false ∧
        s.hub.counted h F.GS_CODECNT_COUNT 0x20 1) ∧
      (s.hub.fenced (unitOf 3 third) = true → s.hub.counted h F.GS_CODECNT_COUNT 0x21 1))

/-- Changes of mode (R415-R420): an allowed request takes effect, HOLD is entered for the first of its causes with LEFT and HCAUSE,
and the hub leaves HOLD on its own once the quiet period has passed and nothing stands. -/
def Obligations.ModesChange : Prop :=
  (∀ (s : State) (m : Nat), s.hub.goose.modeReq = some m → s.hub.goose.fatal = false → s.hub.goose.demand = false →
    s.hub.goose.holdFc = false → s.hub.modeAllowed m = true → s.hub.modeSame m = false →
    Answers .modeChange s fun h =>
      h.goose.modeReq = none ∧
      (m = mSetup → h.mode = mSetup ∧ h.shadow = [] ∧ h.fld F.GS_STAT_RECOV 0 = 0) ∧
      (m = mCalibrate → h.mode = mCalibrate) ∧
      (m = mRun → s.hub.degraded = false → h.mode = mRun) ∧ (m = mRun → s.hub.degraded = true → h.mode = mDegraded) ∧
      (m = mHold → h.mode = mHold ∧ h.fld F.MODE_STAT_HCAUSE 0 = 4 ∧ h.fld F.MODE_STAT_LEFT 0 = s.hub.mode)) ∧
  (∀ s : State, s.hub.mode ≠ mUnloaded → s.hub.mode ≠ mHold →
    (s.hub.goose.fatal = true ∨ s.hub.goose.demand = true ∨ s.hub.goose.holdFc = true) → Answers .holdEntry s fun h =>
      h.mode = mHold ∧ h.fld F.MODE_STAT_LEFT 0 = s.hub.mode ∧
      h.fld F.MODE_STAT_HCAUSE 0 = (if s.hub.goose.fatal then 1 else if s.hub.goose.demand then 2 else 3) ∧
      h.goose.quietFrom = s.hub.slot ∧ h.goose.fatal = false ∧ h.goose.demand = false ∧ h.goose.holdFc = false) ∧
  (∀ s : State, s.hub.holdAsked = false → s.hub.goose.modeReq = none → s.hub.mayLeaveHold = true →
    Answers .holdExit s fun h =>
      h.mode = (if s.hub.fld F.MODE_STAT_LEFT 0 = mRun ∧ s.hub.degraded = true then mDegraded else s.hub.fld F.MODE_STAT_LEFT 0) ∧
      h.fld F.GS_STAT_RECOV 0 = s.hub.fld F.GS_STAT_RECOV 0 + 1) ∧
  (∀ s : State, s.hub.holdAsked = false → s.hub.mayLeaveHold = false → Answers .holdExit s fun h => h.mode = s.hub.mode)

/-! ### Snapshots, commits, register writes -/

/-- SNAP and COMMIT at the boundary for which they are scheduled (R436, R440-R442): every SN field shows its source as it stood,
every pending shadow becomes active, no other SH field changes, and the slot tag is noted. (The Load value of every SN field is 0,
so the premise about it holds at every address; the memory of shadows lists each word once.) Readings and choices that it rests on:
notes/assumptions/7.md. -/
def Obligations.SnapAndCommitAct : Prop :=
  (∀ s : State, s.hub.snapDue = true → Answers .snapshot s fun h =>
    (s.hub.canonical = true → ∀ a, a ≠ A.SNAP_STAT → loadWord a &&& accBits .sn a = 0 →
      Store.get (fun _ => (0 : W32)) h.snap a = s.hub.word a &&& accBits .sn a) ∧
    h.fld F.SNAP_STAT_LAST 0 = s.hub.tag.toNat ∧ h.snapDue = false ∧ s.hub.sameWords h [A.SNAP_STAT]) ∧
  (∀ s : State, s.hub.snapDue = false → Answers .snapshot s fun h => h = s.hub) ∧
  (∀ s : State, s.hub.commitDue = true → Answers .commitApply s fun h =>
    h.shadow = [] ∧ h.flag F.COMMIT_STAT_PENDING 0 = false ∧ h.fld F.COMMIT_STAT_LAST 0 = s.hub.tag.toNat ∧
    h.commitDue = false ∧
    ((s.hub.shadow.map fun x => x.1).Nodup →
      (∀ x ∈ s.hub.shadow, h.word x.1 &&& accBits .sh x.1 = x.2 &&& accBits .sh x.1) ∧
      ∀ a, a ∉ s.hub.shadow.map (fun x => x.1) → h.word a &&& accBits .sh a = s.hub.word a &&& accBits .sh a)) ∧
  (∀ s : State, s.hub.commitDue = false → Answers .commitApply s fun h => h = s.hub)

/-! ### Front ends and time digitisers -/

/-- The front ends (R71, R73-R75, R77): one that has settled is powered, LEAK follows the leakage, and a crossing above threshold of
a powered front end is counted; one at or below it, or of a front end without power, changes nothing. -/
def Obligations.FrontEndEvents : Prop :=
  (∀ (s : State) (c : Fin 512), s.hub.flag F.FE_STAT_SETTLING c = true → Answers (.feSettled c) s fun h =>
    h.flag F.FE_STAT_SETTLING c = false ∧ h.flag F.FE_STAT_PWR c = true) ∧
  (∀ (s : State) (c : Fin 512) (leak : Bool), s.hub.start.held = false → Answers (.feLeakChange c leak) s fun h =>
    h.flag F.FE_STAT_LEAK c = leak ∧ s.hub.onlyWords h [F.FE_STAT_LEAK.addr c] ∧
    h.flag F.FE_STAT_PWR c = s.hub.flag F.FE_STAT_PWR c) ∧
  (∀ (s : State) (c : Fin 512) (coarse : Fin 64) (fine stby : Fin 128) (charge : Int),
    s.hub.flag F.FE_STAT_PWR c = true → s.hub.threshold c < charge →
    Answers (.discriminatorCrossing c coarse fine stby charge) s fun h =>
      s.hub.counted h F.FE_DISCCNT_COUNT c 1 ∧
      (s.hub.flag F.FE_THR_DISC_EN c = false → s.hub.calPart (c / 32) ≠ 7 → s.hub.onlyWords h [F.FE_DISCCNT_COUNT.addr c])) ∧
  (∀ (s : State) (c : Fin 512) (coarse : Fin 64) (fine stby : Fin 128) (charge : Int),
    (s.hub.flag F.FE_STAT_PWR c = false ∨ charge ≤ s.hub.threshold c) →
    Answers (.discriminatorCrossing c coarse fine stby charge) s fun h => h = s.hub)

/-- The time digitisers (R101-R111, R114, R115, R117): a crossing that reaches a free digitiser becomes the pulse that it measures,
with its raw and corrected times, its hit is assigned to its slot and counted from then on where the running modes reach that slot,
and the standby line latches its own fine bin; its falling crossing, or 31.99 ns without one, gives the hit its TOT, frees the
digitiser and moves no counter; a crossing during a pulse is dead. That a hit counts from its rise on is a reading
(notes/assumptions/36.md). Readings and choices that it rests on: notes/assumptions/36.md. -/
def Obligations.CrossingsBecomeHits : Prop :=
  let timed (y : Hit) (l : List Hit) : List Hit := l.map fun z =>
    if z.ch == y.ch && z.slot == y.slot && z.toa == y.toa && z.base == y.base && z.k0 == y.k0 then { z with tot := y.tot } else z
  (∀ (s : State) (c : Fin 512) (coarse : Fin 64) (fine stby : Fin 128) (charge : Int) (p : Nat),
    s.hub.flag F.FE_STAT_PWR c = true → s.hub.threshold c < charge → s.hub.flag F.FE_THR_DISC_EN c = true →
    s.hub.liveSlot c = some p → s.hub.flag F.TDC_CFG_EN c = true → s.hub.flag F.TDC_STAT_ACTIVE c = true →
    let t := s.hub.rawTime p (s.hub.flag F.RS_DSLOT_LINE p) coarse fine
    (∀ q f, (s.hub.tdcOf c).lastFall = some (q, f) →
      (s.hub.slotLen18 : Int) ≤ 5 * (circ 48 s.hub.slot.toNat q.toNat * s.hub.slotLen18 + t - f)) →
    Answers (.discriminatorCrossing c coarse fine stby charge) s fun h =>
      let tot := s.hub.flag F.TDC_CFG_TOT_EN c
      let x : Pulse := {
        slot := s.hub.slot, rise := t, tc := roundDiv (t + s.hub.sfld F.TDC_OFS_OFS c * 256) 256, p := p
        line := s.hub.flag F.RS_DSLOT_LINE p, tot := tot, done := !tot }
      (h.tdcOf c).stbyRise = BitVec.ofNat 7 stby ∧ (∀ k, k ≠ c.val → h.tdcOf k = s.hub.tdcOf k) ∧
      ((s.hub.tdcOf c).pulse = none → (s.hub.tdcOf c).overLong = false →
        (h.tdcOf c).pulse = some x ∧
        (s.hub.hitsCount (s.hub.hitOf c x 0).slot = false → h.hits = s.hub.hits ∧ h.led 0 = s.hub.led 0) ∧
        (s.hub.hitsCount (s.hub.hitOf c x 0).slot = true → h.led 0 = (s.hub.led 0 + 1) % 2 ^ 48 ∧
          ((s.hub.hits.filter fun z => z.ch == c.val && z.slot == (s.hub.hitOf c x 0).slot) = [] →
            h.hits = s.hub.hits ++ [s.hub.hitOf c x 0]))) ∧
      ((s.hub.tdcOf c).pulse.isSome = true ∨ (s.hub.tdcOf c).overLong = true →
        (h.tdcOf c).pulse = (s.hub.tdcOf c).pulse ∧ h.hits = s.hub.hits ∧
        (s.hub.hitsCount s.hub.slot = true → s.hub.counted h F.TDC_DEADCNT_COUNT c 1 ∧ s.hub.counted h F.TDC_PILECNT_COUNT c 1))) ∧
  (∀ (s : State) (c : Fin 512) (coarse : Fin 64) (fine stby : Fin 128) (x : Pulse), (s.hub.tdcOf c).pulse = some x →
    x.done = false → Answers (.fallingCrossing c coarse fine stby) s fun h =>
      let t := s.hub.rawTime x.p x.line coarse fine
      let fall := circ 48 s.hub.slot.toNat x.slot.toNat * s.hub.slotLen18 + t
      (h.tdcOf c).pulse = none ∧ (h.tdcOf c).lastFall = some (s.hub.slot, t) ∧ (h.tdcOf c).overLong = false ∧
      (h.tdcOf c).stbyFall = BitVec.ofNat 7 stby ∧ h.hits = timed (s.hub.hitOf c x (totOf x.rise fall)) s.hub.hits ∧
      h.regs = s.hub.regs) ∧
  (∀ (s : State) (c : Fin 512) (coarse : Fin 64) (fine stby : Fin 128), (s.hub.tdcOf c).pulse = none →
    (s.hub.tdcOf c).overLong = false → Answers (.fallingCrossing c coarse fine stby) s fun h => h = s.hub) ∧
  (∀ (s : State) (c : Fin 512) (x : Pulse), (s.hub.tdcOf c).pulse = some x → x.done = false →
    Answers (.totTimeout c) s fun h =>
      (h.tdcOf c).pulse = none ∧ (h.tdcOf c).overLong = true ∧ h.hits = timed (s.hub.hitOf c x 0xFFF) s.hub.hits ∧
      h.regs = s.hub.regs)

/-- A CAL_PULSE at its boundary (R84, R85, R87, R450): one that acts less than 80 slots after the last that fired does not fire, so
that no step is injected, and is counted in FE_INJSKIP, whatever else holds; one that acts while a procedure uses the injectors does
not fire either and is counted in CAL_FCSKIP; any other fires, its slot is kept, and exactly the powered and settled channels with
INJ_EN at 1 and a CODE that is not 0 receive a step of the polarity of FE_CFG.POL, 4.000 ns and DELAY times 97.65625 ps behind the
boundary (in units of 1/256 ns), of CODE × 0.5 fC but of 4.0 fC for a CODE of 1 to 7 and of 500.0 fC for one of 1,001 to 1,023. The
calibration engine's own pulses come at slot boundaries, while such a procedure runs, and 80 slots or more behind the last that
fired. -/
def Obligations.CalPulseFires : Prop :=
  (∀ h : Hub, h.calTick.rooster ≠ h.rooster →
    h.injecting = true ∧ h.calTick.rooster.lastCal = some h.slot ∧ (∀ q, h.rooster.lastCal = some q → 80 ≤ slotsFrom q h.slot) ∧
    ∀ x ∈ h.calTick.rooster.injected, x.ch < 512 ∧ h.fld F.FE_STAT_PWR x.ch = 1 ∧ h.cal.gmask.getLsbD (x.ch / 32) = true ∧
      x.pol = h.flag F.FE_CFG_POL x.ch ∧ 8 ≤ x.charge ∧ x.charge ≤ 1000) ∧
  ∀ s : State, s.hub.fcDue .calPulse = true → Answers .calPulseFire s fun h =>
    let soon := ∃ q, s.hub.rooster.lastCal = some q ∧ slotsFrom q s.hub.slot < 80
    let quiet := h.rooster.lastCal = s.hub.rooster.lastCal ∧ h.rooster.injected = s.hub.rooster.injected
    h.fcDue .calPulse = false ∧
    (soon → quiet ∧ s.hub.counted h F.FE_INJSKIP_COUNT 0 1) ∧
    (s.hub.injecting = true → quiet ∧ s.hub.counted h F.CAL_FCSKIP_COUNT 0 1) ∧
    (s.hub.injecting = false → h.fld F.CAL_FCSKIP_COUNT 0 = s.hub.fld F.CAL_FCSKIP_COUNT 0) ∧
    (¬ soon → h.fld F.FE_INJSKIP_COUNT 0 = s.hub.fld F.FE_INJSKIP_COUNT 0) ∧
    (¬ soon → s.hub.injecting = false → h.rooster.lastCal = some s.hub.slot ∧ h.regs = s.hub.regs ∧
      (∀ x ∈ h.rooster.injected, x.ch < 512 ∧ s.hub.fld F.FE_STAT_PWR x.ch = 1 ∧ s.hub.fld F.FE_INJ_INJ_EN x.ch = 1 ∧
        x.pol = s.hub.flag F.FE_CFG_POL x.ch ∧ x.arrives = 1024 + 25 * s.hub.fld F.FE_INJCFG_DELAY 0) ∧
      (h.rooster.injected.map fun x => x.ch).Nodup ∧
      (∀ c < 512, s.hub.fld F.FE_STAT_PWR c = 1 → s.hub.fld F.FE_INJ_INJ_EN c = 1 → s.hub.fld F.FE_INJ_CODE c ≠ 0 →
        ∃ x ∈ h.rooster.injected, x.ch = c) ∧
      ∀ x ∈ h.rooster.injected,
        let code := s.hub.fld F.FE_INJ_CODE x.ch
        code ≠ 0 ∧ (code ≤ 7 → x.charge = 8) ∧ (8 ≤ code → code ≤ 1000 → x.charge = code) ∧ (1001 ≤ code → x.charge = 1000))

/-- The hits of slot s are presented at the start of slot s + 6, in the running modes alone (R113, R114), and every other hit waits
on: of each channel with hits the earliest is the primary, and the next, where there is one, the secondary (R106). With two hits of
one channel alone, the secondary sets the PILEUP bit of that channel and no other (R111). That nothing is presented in a parked hub
is a reading (notes/assumptions/90.md). Readings and choices that it rests on: notes/assumptions/36.md. -/
def Obligations.HitsArePresented : Prop :=
  (∀ (s : State) (g : Fin 16), s.hub.live = true → Answers (.hitPresent g) s fun h =>
    let mine := s.hub.hits.filter fun z => z.ch / 32 == g.val && z.slot == s.hub.slot - 6#48
    let ofCh (c : Nat) := sortBy (fun z => z.toa) (mine.filter fun z => z.ch == c)
    h.hits = s.hub.hits.filter (fun z => !(z.ch / 32 == g.val && z.slot == s.hub.slot - 6#48)) ∧
    (mine ≠ [] → ∀ k < 32,
      (((h.oxOf g).prim.filter fun z => z.ch == 32 * g.val + k).map fun z => (z.slot, z.toa, z.tot)) =
        ((ofCh (32 * g.val + k)).take 1).map (fun z => (z.slot, z.toa, z.tot)) ∧
      (((h.oxOf g).sec.filter fun z => z.ch == 32 * g.val + k).map fun z => (z.slot, z.toa, z.tot)) =
        (((ofCh (32 * g.val + k)).drop 1).take 1).map (fun z => (z.slot, z.toa, z.tot))) ∧
    (∀ e, e ≠ g.val → h.oxOf e = s.hub.oxOf e) ∧ h.mode = s.hub.mode) ∧
  (∀ (s : State) (g : Fin 16), s.hub.live = false → Answers (.hitPresent g) s fun h => h = s.hub) ∧
  ∀ (s : State) (g : Fin 16) (x y : Hit), s.hub.live = true → x.ch / 32 = g → y.ch = x.ch → x.toa ≤ y.toa →
    x.slot = s.hub.slot - 6#48 → y.slot = x.slot → s.hub.dead = [] → s.hub.hits = [x, y] →
    Answers (.hitPresent g) s fun h =>
      h.hits = [] ∧ ((h.oxOf g).prim.map fun z => (z.ch, z.slot, z.toa, z.tot)) = [(x.ch, x.slot, x.toa, x.tot)] ∧
      ((h.oxOf g).sec.map fun z => (z.ch, z.slot, z.toa, z.tot)) = [(y.ch, y.slot, y.toa, y.tot)] ∧
      (∀ k < 32, bit (h.oxOf g).pile.toNat k = (k == x.ch % 32)) ∧ (h.oxOf g).fetched = false ∧
      (∀ e, e ≠ g.val → h.oxOf e = s.hub.oxOf e)

/-! ### Engines -/

/-- The engines' events (R251, R254, R257, R258, R263): an overrun aborts the slot program and its slot falls back, 256 slots with
an exception stop the slot context, a halted background context restarts at bundle 001h at an orbit boundary, and a SWAP exchanges
the banks and their seals and restarts both contexts. Readings and choices that it rests on: notes/assumptions/7.md. -/
def Obligations.EngineEvents : Prop :=
  (∀ (s : State) (e : Fin 17), s.hub.live = true → (s.hub.oxOf e).done = false → Answers (.oxOverrun e) s fun h =>
    s.hub.counted h F.OX_OVRCNT_COUNT e 1 ∧ (h.oxOf e).done = true ∧ (h.oxOf e).slot.pc = 0 ∧
    bits (h.oxOf e).slot.cs.toNat 31 24 = 0x0C ∧ (∀ y ∈ (h.oxOf e).prim ++ (h.oxOf e).sec, y.gone = true) ∧
    (h.oxOf e).bg = (s.hub.oxOf e).bg ∧ (h.oxOf e).dmem = (s.hub.oxOf e).dmem ∧ (h.oxOf e).act = (s.hub.oxOf e).act) ∧
  (∀ (s : State) (e : Fin 17), (s.hub.live = false ∨ (s.hub.oxOf e).done = true) →
    Answers (.oxOverrun e) s fun h => h = s.hub) ∧
  (∀ (s : State) (e : Fin 17), s.hub.start.held = false → s.hub.live = true → (s.hub.oxOf e).excNow = true → 255 ≤ (s.hub.oxOf e).excRun →
    (s.hub.oxOf e).stopped = false → Answers (.oxSlotStop e) s fun h =>
      (h.oxOf e) = { s.hub.oxOf e with stopped := true } ∧ s.hub.counted h F.GS_CODECNT_COUNT 0x25 1) ∧
  (∀ (s : State) (e : Fin 17), s.hub.atOrbit = true → s.hub.flag F.OX_STAT_BG_HALT e = true → (s.hub.oxOf e).haltAt ≠ s.hub.slot →
    Answers (.oxBgRestart e) s fun h =>
      h.flag F.OX_STAT_BG_HALT e = false ∧ (h.oxOf e).bg.pc = 1 ∧ (h.oxOf e).bg.wait = .run ∧
      (h.oxOf e).bg.g = (s.hub.oxOf e).bg.g ∧ (h.oxOf e).slot = (s.hub.oxOf e).slot) ∧
  (∀ (s : State) (e : Fin 17), (s.hub.atOrbit = true ∨ s.hub.running = false) → s.hub.flag F.OX_STAT_SWAP_PEND e = true →
    (s.hub.oxOf e).swapFrom ≠ s.hub.slot →
    Answers (.swapExchange e) s fun h =>
      (h.oxOf e).act = (s.hub.oxOf e).stby ∧ (h.oxOf e).stby = (s.hub.oxOf e).act ∧
      (h.oxOf e).dmem = (s.hub.oxOf e).dmem ∧
      h.flag F.OX_STAT_ACT_SEALED e = s.hub.flag F.OX_STAT_STBY_SEALED e ∧
      h.flag F.OX_STAT_STBY_SEALED e = s.hub.flag F.OX_STAT_ACT_SEALED e ∧ h.flag F.OX_STAT_SWAP_PEND e = false ∧
      (h.oxOf e).slot.pc = 0 ∧ (h.oxOf e).bg.pc = 1 ∧ ∀ k, k ≠ e.val → h.oxOf k = s.hub.oxOf k)

/-! ### Acquisition -/

/-- An L1A at its accept slot (R154, R155, R172-R174): outside the running modes it is counted and ignored; held off, it is answered
by a HELD-OFF record that waits for the Mule; otherwise it is read, with its event slot LAT slots before its origin. Readings and
choices that it rests on: notes/assumptions/7.md, 90.md, 94.md. -/
def Obligations.TriggersAreAccepted : Prop :=
  (∀ s : State, (∀ x ∈ s.hub.l1as, reached s.hub.slot x.accept = false) → Answers .triggerAccept s fun h =>
    h.trigs = s.hub.trigs ∧ h.l1as = s.hub.l1as ∧ h.answers = s.hub.answers ∧ s.hub.sameWords h [A.ACQ_STAT]) ∧
  ∀ (s : State) (x : L1a) (rest : List L1a), s.hub.l1as = x :: rest → reached s.hub.slot x.accept = true →
    (∀ y ∈ rest, reached s.hub.slot y.accept = false) →
    let st := s.hub.settingsAt x.origin
    let lpresc := setOf st F.ACQ_LSEL_LPRESC 0
    let long := decide (lpresc ≠ 0) && x.num.toNat % lpresc == setOf st F.ACQ_LSEL_LPHASE 0
    Answers .triggerAccept s fun h =>
      h.l1as = rest ∧
      (s.hub.live = false → s.hub.counted h F.ACQ_TRIGIGN_COUNT 0 1 ∧ h.trigs = s.hub.trigs ∧ h.led 6 = s.hub.led 6) ∧
      (s.hub.live = true → h.led 6 = (s.hub.led 6 + 1) % 2 ^ 48) ∧
      (∀ r, s.hub.live = true → s.hub.heldOff st long x.origin = some r →
        h.trigs = s.hub.trigs ∧ h.led 8 = (s.hub.led 8 + 1) % 2 ^ 48 ∧
        h.answers = s.hub.answers ++
          [([header tHeldOff s.hub.address (32 + 8 * b2n x.inferred + r) x.num.toNat 2], true)]) ∧
      (s.hub.live = true → s.hub.heldOff st long x.origin = none →
        h.answers = s.hub.answers ∧ h.reads = x.origin :: s.hub.reads.take 15 ∧ h.trigs.length = s.hub.trigs.length + 1 ∧
        (h.trigs.getLast?.map fun t => (t.num, t.inferred, t.origin, t.event, t.long)) =
          some (x.num, x.inferred, x.origin, x.origin - BitVec.ofNat 48 (setOf st F.ACQ_LAT_LAT 0), long))

/-- Reading a record (R164, R165, R151, R283): every buffered record whose window is stored starts to be read, none while the engine
waits for a block or for Q28; each access of a bank adds the positions that its word holds to the section that needs the oldest
sample; an error in the word is counted. Readings and choices that it rests on: notes/assumptions/7.md, 28.md, 95.md. -/
def Obligations.RecordsAreRead : Prop :=
  (∀ s : State, s.hub.acqBlocked = false → Answers .recordReadStart s fun h =>
    (h.trigs.map fun t => (t.num, t.started)) = s.hub.trigs.map fun t => (t.num, t.started || s.hub.windowStored t)) ∧
  (∀ s : State, s.hub.acqBlocked = true ∨ (∀ t ∈ s.hub.trigs, s.hub.windowStored t = false) →
    Answers .recordReadStart s fun h => h = s.hub) ∧
  (∀ (s : State) (g : Fin 16) (ecc : Ecc) (n i j : Nat) (t : Trig) (c : Sect), s.hub.start.held = false →
    s.hub.acqBlocked = false → s.hub.settle.nextRead g = some (n, i, j) → s.hub.settle.trigs[i]? = some t →
    t.sects[j]? = some c → Answers (.latencyBankRead g ecc) s fun h =>
      (∃ t' c', h.trigs[i]? = some t' ∧ t'.sects[j]? = some c' ∧ c'.ch = c.ch ∧
        c.got.length + min (3 - n % 3) (t.width - c.got.length) ≤ c'.got.length ∧ c.got <+: c'.got) ∧
      (s.hub.settle.overwritten c.ch n = false → ecc = .corrected → s.hub.settle.counted h F.ACQ_MEMCOR_COUNT 0 1) ∧
      (s.hub.settle.overwritten c.ch n = false → ecc = .uncorrectable → s.hub.settle.counted h F.ACQ_MEMERR_COUNT 0 1))

/-- Hand-over to the Mule and re-arming (R178, R183, R187, R277): a record that waits goes to record memory with its announcement on
Q28, and for the last part of a trigger the triggers answered move; REARM clears STOPPED. Readings and choices that it rests on:
notes/assumptions/7.md, 33.md. -/
def Obligations.PartsAreHandedOver : Prop :=
  (∀ (s : State) (ws : List W64) (b : Bool) (rest : List (List W64 × Bool)), s.hub.settle.answers = (ws, b) :: rest →
    s.hub.settle.roomFor .acq (blocksOf (ws.length + 1)) = true → (s.hub.settle.queue 28).ws.length < 16 →
    s.hub.mule.closing = none → Answers .recordPartHandover s fun h =>
      h.answers = rest ∧ h.mule.recs = s.hub.settle.mule.recs ++ [{ ws := ws, cls := .acq, ann := some 28 }] ∧
      h.led 7 = (if b then (s.hub.settle.led 7 + 1) % 2 ^ 48 else s.hub.settle.led 7)) ∧
  (∀ (s : State) (t : Trig) (rest : List Trig) (ws : List W64) (secs : List Secn) (last : Bool),
    s.hub.settle.answers = [] → s.hub.settle.trigs = t :: rest → s.hub.settle.nextPart t = some (ws, secs, last) →
    s.hub.settle.roomFor .acq (blocksOf (ws.length + 1) - t.blocks) = true → (s.hub.settle.queue 28).ws.length < 16 →
    s.hub.mule.closing = none → Answers .recordPartHandover s fun h =>
      (∃ n, h.mule.recs = s.hub.settle.mule.recs ++ [{ ws := ws, cls := .acq, ann := some 28, samples := n }]) ∧
      (last = true → (h.trigs.map fun x => (x.num, x.part)) = rest.map (fun x => (x.num, x.part)) ∧
        h.led 7 = (s.hub.settle.led 7 + 1) % 2 ^ 48) ∧
      (last = false → (h.trigs.map fun x => (x.num, x.part)) = (t.num, t.part + 1) :: rest.map (fun x => (x.num, x.part)) ∧
        h.led 7 = s.hub.settle.led 7)) ∧
  (∀ s : State, s.hub.start.held = false → Answers .maskRearm s fun h =>
    h.flag F.ACQ_MASKCTL_STOPPED 0 = false ∧ s.hub.onlyWords h [A.ACQ_MASKCTL])

/-! ### The Mule and the compression engine -/

/-- HIT BLOCKs and the drain (R291, R298): the block of the oldest span closes with its records once its push window is over and no
word of it waits, and the span that follows is the next to close; the end of the drain leaves no span open. Records from queue items
(R295-R297): a complete item of an accepted type becomes a record with a header of the hub, one of another type is discarded and
counted, and a GAP marker becomes a GAP record. Readings and choices that it rests on: notes/assumptions/7.md, 32.md. -/
def Obligations.ItemsBecomeRecords : Prop :=
  ((∀ (s : State) (b : W48) (blk : HitBlock) (rest : List HitBlock), s.hub.mule.span = some b →
      s.hub.mule.blocks = blk :: rest → reached s.hub.slot (s.hub.spanEnd b) = true → s.hub.spanWaits b = false →
      Answers .hitBlockClose s fun h =>
        h.mule.recs = s.hub.mule.recs ++ [s.hub.hitRecord blk false] ∧
        h.mule.span = some (b + BitVec.ofNat 48 s.hub.span) ∧ h.queues = s.hub.queues ∧ h.ox = s.hub.ox) ∧
    (∀ s : State, (∀ b, s.hub.mule.span = some b → reached s.hub.slot (s.hub.spanEnd b) = false) →
      Answers .hitBlockClose s fun h => h = s.hub) ∧
    (∀ (s : State) (n : Nat), s.hub.mule.drain = some (n + 1) → Answers .muleDrain s fun h =>
      h.mule.span = none ∧ (h.mule.drain = some 0 ∨ (h.mule.drain = none ∧ h.flag F.MULE_STAT_DRAIN 0 = false))) ∧
    (∀ s : State, s.hub.mule.drain = none → Answers .muleDrain s fun h => h = s.hub)) ∧
  (∀ (s : State) (q : Fin 32) (w : QWord) (body rest : List QWord), itemQueue q = true → s.hub.muleConsumes q = true →
      s.hub.itemOf q = [] → (s.hub.queue q).ws = w :: body ++ rest → body.length < 16 →
      (w.gap = false → (∀ x ∈ body, x.gap = false) → ((w :: body).getLast?.map fun x => x.last) = some true →
        (∀ x ∈ (w :: body).dropLast, x.last = false) →
        s.hub.roomFor (itemCls (w :: body)) (blocksOf (body.length + 2)) = true → Answers (.muleItemRecord q) s fun h =>
          (h.queue q).ws = rest ∧
          (s.hub.typeFits q (hdrType w.data) = true → h.mule.recs = s.hub.mule.recs ++ [{
            ws := header (hdrType w.data) s.hub.address (s.hub.sourceOf q) (hdrSlot w.data) (body.length + 2) ::
              body.map fun x => x.data
            cls := clsOfType (hdrType w.data) }]) ∧
          (s.hub.typeFits q (hdrType w.data) = false →
            h.mule.recs = s.hub.mule.recs ∧ s.hub.counted h F.MULE_BADITEM_COUNT 0 1 ∧
            h.led 0xB = (s.hub.led 0xB + 1) % 2 ^ 48)) ∧
      (body = [] → w.gap = true → s.hub.roomFor .ctrl 1 = true → Answers (.muleItemRecord q) s fun h =>
        (h.queue q).ws = rest ∧ h.mule.recs = s.hub.mule.recs ++ [{
          ws := [header tGap s.hub.address (s.hub.sourceOf q) w.slot.toNat 3,
            BitVec.ofNat 64 (q.val * 2 ^ 56 + bits w.data.toNat 16 0)]
          cls := .ctrl }]))

/-- Hand-over and the ledger (R284, R285, R287, R300-R303, R474): a LEDGER record goes first, then the oldest record, each with its
CRC, inverted where record memory held a word that could not be corrected, and the next sequence number, and RECORDS moves; at a
ledger boundary every counter and gauge is copied. Readings and choices that it rests on: notes/assumptions/7.md, 35.md, 93.md. -/
def Obligations.RecordsAndLedger : Prop :=
  (∀ (s : State) (ecc : Ecc) (ws : List W64), s.hub.cmpFree = true → s.hub.mule.ledger = some ws →
    Answers (.muleHandover ecc) s fun h =>
      h.cmp.waiting = [{ ws := withTrailer ws (s.hub.word A.MULE_SEQ), cls := .ledger }] ∧
      h.word A.MULE_SEQ = s.hub.word A.MULE_SEQ + 1#32 ∧ h.led 0xC = (s.hub.led 0xC + 1) % 2 ^ 48 ∧
      h.mule.ledger = none ∧ h.mule.recs = s.hub.mule.recs) ∧
  (∀ (s : State) (ecc : Ecc) (r : Rec) (rest : List Rec), s.hub.cmpFree = true → s.hub.mule.ledger = none →
    s.hub.mule.recs = r :: rest → r.cls ≠ .ledger → Answers (.muleHandover ecc) s fun h =>
      h.cmp.waiting = [{
        ws := r.ws ++ [pair (if ecc = .uncorrectable then ~~~(crcWords r.ws) else crcWords r.ws) (s.hub.word A.MULE_SEQ)]
        cls := r.cls }] ∧
      h.word A.MULE_SEQ = s.hub.word A.MULE_SEQ + 1#32 ∧ h.led 0xC = (s.hub.led 0xC + 1) % 2 ^ 48 ∧
      (s.hub.mule.drain ≠ some 0 → h.mule.recs = rest)) ∧
  (∀ (s : State) (ecc : Ecc), s.hub.cmpFree = false → Answers (.muleHandover ecc) s fun h =>
    h.cmp = s.hub.cmp ∧ h.mule = s.hub.mule ∧
    ((s.hub.mule.ledger.isSome = true ∨ s.hub.mule.recs ≠ []) → h.flag F.MULE_STAT_HAND_STALL 0 = true)) ∧
  (∀ s : State, s.hub.ledgerDue = true → Answers .ledgerBoundary s fun h =>
    h.mule.lastLedger = some s.hub.slot ∧ h.ledgerDue = false ∧
    (∃ ws, h.mule.ledger = some ws ∧ ws.length = 21 ∧
      ∀ i < 18, (ws[3 + i]?).map (fun w => (w.toNat / 2 ^ 56, w.toNat % 2 ^ 48)) = some (i, s.hub.led i)) ∧
    (s.hub.mule.ledger.isSome = true → s.hub.counted h F.MULE_LEDSKIP_COUNT 0 1)) ∧
  (∀ s : State, s.hub.ledgerDue = false → Answers .ledgerBoundary s fun h => h = s.hub)

/-- The compression engine (R305, R307, R312, R313, R316-R319): a record without a context is handed on unchanged, as is every
record of a context once the engine is fenced; whatever bits upsets invert in its blocks, it hands exactly one record on for each
that it takes, or stalls holding it; CMP_CTXRST marks the contexts of the bits written. Readings and choices that it rests on:
notes/assumptions/7.md. -/
def Obligations.CompressionHandsOn : Prop :=
  (∀ (s : State) (upset upset2 : Option Nat) (r : Whole) (rest : List Whole), s.hub.cmp.job = none →
    s.hub.cmp.waiting = r :: rest →
    (s.hub.cmpContext (r.ws.headD 0) = none → Answers (.compressRecord upset upset2) s fun h =>
      h.cmp.waiting = rest ∧ h.hen.pool = s.hub.hen.pool ++ [{ ws := r.ws, cls := r.cls, enter := s.hub.slot }]) ∧
    (∀ k, s.hub.cmpContext (r.ws.headD 0) = some k → s.hub.flag F.CMP_STAT_FENCED 0 = true →
      Answers (.compressRecord upset upset2) s fun h =>
        h.cmp.waiting = rest ∧ h.hen.pool = s.hub.hen.pool ++ [{ ws := r.ws, cls := r.cls, enter := s.hub.slot }] ∧
        s.hub.counted h F.CMP_PASSED_COUNT 0 1) ∧
    (∀ k, s.hub.cmpContext (r.ws.headD 0) = some k → s.hub.flag F.CMP_STAT_FENCED 0 = false →
      Answers (.compressRecord upset upset2) s fun h =>
        h.cmp.waiting = rest ∧
        ((h.cmp.job = none ∧ h.hen.pool.length = s.hub.hen.pool.length + 1 ∧ s.hub.hen.pool <+: h.hen.pool) ∨
          (∃ j, h.cmp.job = some j ∧ j.src = r ∧ h.hen.pool = s.hub.hen.pool ∧ h.flag F.CMP_STAT_STALL 0 = true)))) ∧
  (∀ (s : State) (upset upset2 : Option Nat) (j : Job), s.hub.cmp.job = some j → Answers (.cmpStallResume upset upset2) s fun h =>
    (h.cmp.job = none ∧ h.hen.pool.length = s.hub.hen.pool.length + 1) ∨
      (∃ k, h.cmp.job = some k ∧ k.src = j.src ∧ h.hen.pool = s.hub.hen.pool)) ∧
  (∀ (s : State) (v : W32), s.hub.start.held = false → Answers (.contextReset v) s fun h =>
    (∀ k < 32, h.flag F.CMP_CTXST_RSTPEND k = (s.hub.flag F.CMP_CTXST_RSTPEND k || bit v.toNat k)) ∧
    s.hub.onlyWords h ((List.range 32).map fun k => F.CMP_CTXST_RSTPEND.addr k))

/-! ### The Hen and the lanes -/

/-- Merging and assignment (R327, R328, R332, R378, R380): a returned record goes first, on no credit of its own; the oldest head
waits for HORIZON while an active input is empty, waits for credit while the balance is short, and is assigned with its cells
reserved; with no lane for the next record nothing moves. Audits (R343, R345, R346): AUDNOW asks for an audit frame and changes
nothing else; an audit frame of a child takes the port's count of returned cells to that of the child, with no error on the first
after a resynchronisation, and with one where the counts differ. A hub held in reset stays as it is, which is the model's choice
(notes/assumptions/7.md). Readings and choices that it rests on: notes/assumptions/25.md, 38.md. -/
def Obligations.RecordsAreMerged : Prop :=
  (∀ s : State, s.hub.laneFor = none → Answers .henSendRecord s fun h => h = s.hub) ∧
  (∀ (s : State) (l : Nat), s.hub.laneFor = some l →
      (∀ (r : Whole) (rest : List Whole), s.hub.hen.front = r :: rest → Answers .henSendRecord s fun h =>
        h.hen.front = rest ∧ h.regs = s.hub.regs ∧ h.hen.reserved = s.hub.hen.reserved ∧
        (h.lane l).tx = (s.hub.lane l).tx ++ [{ r := { r with again := true }, sent := 0, reserved := 0 }]) ∧
      (s.hub.hen.front = [] → s.hub.oldest = none → Answers .henSendRecord s fun h =>
        h.flag F.HEN_STAT_WAIT 0 = false ∧ h.flag F.HEN_STAT_NOCRED 0 = false ∧ s.hub.onlyWords h [A.HEN_STAT]) ∧
      (∀ (k : Nat) (r : Whole), s.hub.hen.front = [] → s.hub.oldest = some (k, r) →
        let waits := !s.hub.allActive && s.hub.age r < s.hub.fld F.HEN_CFG_HORIZON 0
        let cells := (s.hub.lane l).opens r.ws.length
        (waits = true → Answers .henSendRecord s fun h =>
          h.flag F.HEN_STAT_WAIT 0 = true ∧ s.hub.onlyWords h [A.HEN_STAT]) ∧
        (waits = false → s.hub.fld F.HEN_UPSTAT_BAL 0 < s.hub.hen.reserved + cells → Answers .henSendRecord s fun h =>
          h.flag F.HEN_STAT_WAIT 0 = false ∧ h.flag F.HEN_STAT_NOCRED 0 = true ∧ s.hub.onlyWords h [A.HEN_STAT]) ∧
        (waits = false → s.hub.hen.reserved + cells ≤ s.hub.fld F.HEN_UPSTAT_BAL 0 → Answers .henSendRecord s fun h =>
          h.flag F.HEN_STAT_WAIT 0 = false ∧ h.flag F.HEN_STAT_NOCRED 0 = false ∧
          (h.lane l).tx = (s.hub.lane l).tx ++ [{ r := r, sent := 0, reserved := cells }] ∧
          h.hen.reserved = s.hub.hen.reserved + cells ∧ h.hen.lastTag = some (s.hub.mergeTag r) ∧
          h.hen.pool = (if k = 4 then s.hub.hen.pool.erase r else s.hub.hen.pool) ∧
          (k ≠ 4 → (h.child k).recs = (s.hub.child k).recs.drop 1) ∧ s.hub.sameWords h [A.HEN_STAT, A.HEN_LATE]))) ∧
  ((∀ s : State, s.hub.start.held = false → Answers .audnow s fun h =>
      h = { s.hub with hen := { s.hub.hen with audit := true } }) ∧
    (∀ s : State, s.hub.start.held = true → Answers .audnow s (fun h => h = s.hub) ∧
      ∀ (k : Fin 4) (words : List W64), Answers (.auditFrameReceive k words) s fun h => h = s.hub) ∧
    (∀ (s : State) (k : Fin 4) (words : List W64), s.hub.start.held = false → Answers (.auditFrameReceive k words) s fun h =>
      s.hub.counted h F.HEN_AUDCNT_COUNT 0 1 ∧
      h.fld F.HEN_PRET_RETURNED k = bits ((words[1]?).getD 0).toNat 63 32 ∧
      (h.child k).malf = 0 ∧ (h.child k).resync = false ∧
      ((s.hub.child k).resync = true →
        h.fld F.HEN_AUDERR_COUNT k = s.hub.fld F.HEN_AUDERR_COUNT k ∧ h.queues = s.hub.queues) ∧
      ((s.hub.child k).resync = false →
        (bits ((words[1]?).getD 0).toNat 63 32 ≠
          (s.hub.fld F.HEN_PRET_RETURNED k + bits ((words[2]?).getD 0).toNat 15 0) % 2 ^ 32) →
        s.hub.counted h F.HEN_AUDERR_COUNT k 1 ∧ h.sticky aAudit)))

/-- Uplink frames sent (R22, R352, R360, R370, R371): on a trained PARENT lane in use a replayed frame goes first, then an audit
frame that is asked for, then a new cell of the assigned words, which spends one of the balance, and IDLE when nothing is there; a
lane of the other port sends copies under its own SEQ; during training TRAIN frames are counted down. One frame is sent in a frame
period, and on a lane with the generator on, a frame period of the pattern (R384). A TWIN lane sends its records and keeps nothing.
Downlink frames sent (R337, R354, R362, R365, R379): each frame of a CHILD lane carries ACK, NAK, the grant of its port, which joins
GRANTED, and packet bytes on one lane of the port only; a spare that comes in as a CHILD lane grants nothing. Readings and choices
that it rests on: notes/assumptions/7.md, 18.md. -/
def Obligations.FramesAreSent : Prop :=
  (∀ (s : State) (l : Fin 24),
      (s.hub.frameDue l = false → Answers (.uplinkFrameSend l) s fun h => h = s.hub) ∧
      (s.hub.frameDue l = true → s.hub.sendsPattern l = false → s.hub.role l ≠ roleTwin →
        (s.hub.upLane l && s.hub.flag F.LN_STAT_ALIGNED l) = false → Answers (.uplinkFrameSend l) s fun h => h = s.hub) ∧
      (s.hub.sendsPattern l = true → ∀ i ∈ [Instr.uplinkFrameSend l, .downlinkFrameSend l], Answers i s fun h =>
        let p := prbsRunBits (s.hub.fld F.LN_PRBS_PAT l) 512 (s.hub.lane l).genReg 0
        (h.lane l).genReg = p.2 ∧ (h.lane l).sentAt = some s.hub.slot ∧
        ((s.hub.lane l).injLeft = 0 →
          (h.lane l).out = bytesOf 64 (if s.hub.flag F.LN_PRBS_INV l then 2 ^ 512 - 1 - p.1 else p.1))) ∧
      (s.hub.frameDue l = true → s.hub.role l = roleTwin → Answers (.uplinkFrameSend l) s fun h =>
        let x := s.hub.lane l
        let ws := x.next7
        (h.lane l).kept = x.kept ∧ (h.lane l).tx = sentWords ws.length x.tx ∧ (h.lane l).sentAt = some s.hub.slot ∧
        (x.injLeft = 0 → (h.lane l).out = ({ seq := BitVec.ofNat 8 (s.hub.fld F.LN_STAT_TXSEQ l)
                                             kind := if ws.isEmpty then kIdle else kData, new := !ws.isEmpty, again := false
                                             low := 0, cell := ws.map fun w => w.1 } : Up).bytes)) ∧
      (s.hub.frameDue l = true → s.hub.sendsPattern l = false → s.hub.upLane l = true →
        s.hub.flag F.LN_STAT_ALIGNED l = true →
        let x := s.hub.lane l
        let seq := BitVec.ofNat 8 (s.hub.fld F.LN_STAT_TXSEQ l)
        (s.hub.flag F.LN_STAT_TRAINED l = false → x.train ≠ 0 → Answers (.uplinkFrameSend l) s fun h =>
          (h.lane l).train = x.train - 1 ∧ (h.lane l).sentAt = some s.hub.slot ∧ h.flag F.LN_STAT_TRAINED l = false) ∧
        (∀ (k : Kept) (rest : List Kept), s.hub.flag F.LN_STAT_TRAINED l = true → x.again = k :: rest →
          Answers (.uplinkFrameSend l) s fun h =>
            (h.lane l).again = rest ∧ (h.lane l).kept = x.kept ∧ (h.lane l).sentAt = some s.hub.slot ∧
            (x.injLeft = 0 → (h.lane l).out =
              ({ seq := k.seq, kind := k.kind, new := k.new, again := k.again, low := 0, cell := k.cell } : Up).bytes)) ∧
        (s.hub.flag F.LN_STAT_TRAINED l = true → x.again = [] → l.val ∉ s.hub.bundle s.hub.sendPort →
          (x.copies = [] → Answers (.uplinkFrameSend l) s fun h =>
            (h.lane l).kept = x.kept ∧ (h.lane l).sentAt = some s.hub.slot) ∧
          (∀ (k : Kept) (rest : List Kept), x.copies = k :: rest → x.kept.length < 255 → Answers (.uplinkFrameSend l) s fun h =>
            (h.lane l).copies = rest ∧ (h.lane l).kept = x.kept ++ [{ k with seq := seq }] ∧
            h.fld F.LN_STAT_TXSEQ l = (s.hub.fld F.LN_STAT_TXSEQ l + 1) % 256) ∧
          (x.copies ≠ [] → 255 ≤ x.kept.length → Answers (.uplinkFrameSend l) s fun h =>
            (h.lane l).copies = x.copies ∧ (h.lane l).kept = x.kept ∧ h.flag F.LN_STAT_WINFULL l = true)) ∧
        (s.hub.flag F.LN_STAT_TRAINED l = true → x.again = [] → l.val ∈ s.hub.bundle s.hub.sendPort →
          (x.tx ≠ [] → 255 ≤ x.kept.length → Answers (.uplinkFrameSend l) s fun h =>
            (h.lane l).tx = x.tx ∧ (h.lane l).kept = x.kept ∧ h.flag F.LN_STAT_WINFULL l = true) ∧
          (s.hub.hen.audit = false → x.tx = [] → Answers (.uplinkFrameSend l) s fun h =>
            (h.lane l).kept = x.kept ∧ (h.lane l).sentAt = some s.hub.slot ∧
            (x.injLeft = 0 → (h.lane l).out =
              ({ seq := seq, kind := kIdle, new := false, again := false, low := 0, cell := [] } : Up).bytes)) ∧
          (s.hub.hen.audit = false → x.tx ≠ [] → x.kept.length < 255 → Answers (.uplinkFrameSend l) s fun h =>
            ((h.lane l).kept.getLast?.map fun k => (k.seq, k.kind, k.cell)) = some (seq, kData, x.next7.map fun w => w.1) ∧
            (h.lane l).kept.length = x.kept.length + 1 ∧
            h.fld F.LN_STAT_TXSEQ l = (s.hub.fld F.LN_STAT_TXSEQ l + 1) % 256 ∧
            h.fld F.HEN_UPSTAT_BAL 0 = s.hub.fld F.HEN_UPSTAT_BAL 0 - b2n (x.next7.any fun w => w.2)) ∧
          (s.hub.hen.audit = true → (s.hub.bundle s.hub.sendPort).head? = some l.val → x.kept.length < 255 →
            Answers (.uplinkFrameSend l) s fun h =>
              ((h.lane l).kept.getLast?.map fun k => (k.seq, k.kind)) = some (seq, kAudit) ∧ h.hen.audit = false ∧
              (h.lane l).tx = x.tx ∧ h.fld F.HEN_UPSTAT_LOSTDL 0 = 0)))) ∧
  (∀ (s : State) (l : Fin 24),
      ((s.hub.frameDue l && (s.hub.role l == roleChild || s.hub.comesAs l roleChild)) = false → s.hub.sendsPattern l = false →
        Answers (.downlinkFrameSend l) s fun h => h = s.hub) ∧
      (s.hub.frameDue l = true → s.hub.comesAs l roleChild = true → s.hub.sendsPattern l = false →
        Answers (.downlinkFrameSend l) s fun h =>
          (∀ k < 4, h.fld F.HEN_PGRANT_GRANTED k = s.hub.fld F.HEN_PGRANT_GRANTED k) ∧ h.hen.child = s.hub.hen.child ∧
          (h.lane l).sentAt = some s.hub.slot) ∧
      (s.hub.frameDue l = true → s.hub.role l = roleChild →
        let k := s.hub.lanePort l
        Answers (.downlinkFrameSend l) s fun h =>
          h.fld F.HEN_PGRANT_GRANTED k = (s.hub.fld F.HEN_PGRANT_GRANTED k + s.hub.grantOf k) % 2 ^ 32 ∧
          (h.lane l).sentAt = some s.hub.slot ∧
          ((s.hub.lane l).injLeft = 0 → ∃ d : Down, (h.lane l).out = d.bytes (s.hub.fcOfFrame l).1 ∧
            d.ack.toNat = s.hub.fld F.LN_STAT_ACKSEQ l ∧ d.grant.toNat = s.hub.grantOf k ∧ d.nak = (s.hub.lane l).nak ∧
            d.kind = 0 ∧ d.eseq = (s.hub.lane l).upSeq ∧ d.trig = (s.hub.fcOfFrame l).2.1 ∧
            (((s.hub.child k).fwdLane.filter fun m => (s.hub.childLanes k).contains m).orElse
                (fun _ => (s.hub.childLanes k).head?) ≠ some l.val → d.pbytes = [] ∧ d.pstart = false))))

/-- Uplink frames received on a CHILD lane (R369, R372): one that does not decode, and one ahead of EXP, is discarded with NAK; one
with SEQ equal to EXP is accepted, moves EXP and clears NAK; one behind EXP is discarded alone. Downlink frames received on a PARENT
lane that does not carry the timing (R334, R361, R363, R373): one that decodes brings its ACK and, on the port in force, its grant
to the balance; one that does not is counted and ends the packet in progress. In a unit that holds frames (R507, R523) an accepted
frame waits with its slot and port, and brings neither grant nor cells yet; a failed one takes its place among them. Readings and
choices that it rests on: notes/assumptions/7.md, 39.md. -/
def Obligations.FramesAreReceived : Prop :=
  (∀ (s : State) (l : Fin 24) (bytes : List W8) (arr : Nat),
      (s.hub.flag F.LN_STAT_ALIGNED l = false → Answers (.uplinkFrameReceive l bytes arr) s fun h => h = s.hub) ∧
      (s.hub.start.held = false → s.hub.flag F.LN_STAT_ALIGNED l = true → s.hub.signal l = true → s.hub.role l = roleChild →
        (upOf bytes = none → Answers (.uplinkFrameReceive l bytes arr) s fun h =>
          (h.lane l).nak = true ∧ (h.lane l).exp = (s.hub.lane l).exp ∧ (h.lane l).fails = (s.hub.lane l).fails + 1 ∧
          s.hub.counted h F.LN_NAKTX_COUNT l 1 ∧ s.hub.counted h F.LN_FECUNC_COUNT l 1) ∧
        (∀ (u : Up) (n : Nat) (e : W8), upOf bytes = some (u, n) → u.kind = kData ∨ u.kind = kAudit →
          (s.hub.lane l).exp = some e →
          (u.seq = e → Answers (.uplinkFrameReceive l bytes arr) s fun h =>
            (h.lane l).exp = some (e + 1#8) ∧ (h.lane l).nak = false ∧ h.fld F.LN_STAT_ACKSEQ l = e.toNat) ∧
          (u.seq = e → s.hub.holdsFrames l = true → Answers (.uplinkFrameReceive l bytes arr) s fun h =>
            h.hen.child = s.hub.hen.child ∧ ∃ x : Held, (h.lane l).hold = (s.hub.lane l).hold ++ [x] ∧ x.slot = s.hub.slot ∧
              x.up = true ∧ x.port = s.hub.lanePort l) ∧
          (u.seq ≠ e → (u.seq - e).toNat < 128 → Answers (.uplinkFrameReceive l bytes arr) s fun h =>
            (h.lane l).exp = some e ∧ (h.lane l).nak = true ∧ s.hub.counted h F.LN_NAKTX_COUNT l 1) ∧
          (128 ≤ (u.seq - e).toNat → Answers (.uplinkFrameReceive l bytes arr) s fun h =>
            (h.lane l).exp = some e ∧ (h.lane l).nak = (s.hub.lane l).nak ∧
            h.fld F.LN_NAKTX_COUNT l = s.hub.fld F.LN_NAKTX_COUNT l ∧ h.hen.child = s.hub.hen.child)))) ∧
  (∀ (s : State) (l : Fin 24) (bytes : List W8) (arr : Nat),
      (s.hub.flag F.LN_STAT_ALIGNED l = false → Answers (.downlinkFrameReceive l bytes arr) s fun h => h = s.hub) ∧
      (s.hub.start.held = false → s.hub.flag F.LN_STAT_ALIGNED l = true → s.hub.signal l = true → s.hub.role l = roleParent →
        s.hub.powered l = true → s.hub.timingLane ≠ some l.val →
        (downOf bytes = none → Answers (.downlinkFrameReceive l bytes arr) s fun h =>
          s.hub.counted h F.LN_FECUNC_COUNT l 1 ∧
          (s.hub.holdsFrames l = false → (h.lane l).pkt = none ∧ (h.lane l).ignore = true) ∧
          (s.hub.holdsFrames l = true → (h.lane l).pkt = (s.hub.lane l).pkt ∧
            ∃ x : Held, (h.lane l).hold = (s.hub.lane l).hold ++ [x] ∧ x.bytes = [] ∧ x.named = true) ∧
          (s.hub.lanePort l = s.hub.portInForce →
            h.fld F.HEN_UPSTAT_LOSTDL 0 = min 0x7FFF (s.hub.fld F.HEN_UPSTAT_LOSTDL 0 + 1)) ∧
          h.fld F.HEN_UPSTAT_BAL 0 = s.hub.fld F.HEN_UPSTAT_BAL 0) ∧
        (∀ (d : Down) (n : Nat), downOf bytes = some (d, n) → d.kind = 0 → s.hub.holdsFrames l = true →
          Answers (.downlinkFrameReceive l bytes arr) s fun h =>
            h.fld F.LN_STAT_ACKSEQ l = d.ack.toNat ∧ h.fld F.HEN_UPSTAT_BAL 0 = s.hub.fld F.HEN_UPSTAT_BAL 0 ∧
            ∃ x : Held, (h.lane l).hold = (s.hub.lane l).hold ++ [x] ∧ x.slot = s.hub.slot ∧ x.up = false ∧
              x.port = s.hub.lanePort l) ∧
        (∀ (d : Down) (n : Nat), downOf bytes = some (d, n) → d.kind = 0 → s.hub.holdsFrames l = false →
          Answers (.downlinkFrameReceive l bytes arr) s fun h =>
            h.fld F.LN_STAT_ACKSEQ l = d.ack.toNat ∧
            h.fld F.HEN_UPSTAT_BAL 0 = (if s.hub.lanePort l = s.hub.portInForce
              then min 0xFFFF (s.hub.fld F.HEN_UPSTAT_BAL 0 + d.grant.toNat) else s.hub.fld F.HEN_UPSTAT_BAL 0)) ∧
        (∀ (d : Down) (n : Nat), downOf bytes = some (d, n) → d.kind ≠ 0 →
          Answers (.downlinkFrameReceive l bytes arr) s fun h =>
            s.hub.counted h F.LN_BADKIND_COUNT l 1 ∧ h.fld F.LN_STAT_ACKSEQ l = s.hub.fld F.LN_STAT_ACKSEQ l ∧
            h.fld F.HEN_UPSTAT_BAL 0 = s.hub.fld F.HEN_UPSTAT_BAL 0)))

/-- Detectors, alignment, training and fences of lanes (R357, R358, R360, R375, R380). Readings and choices that it rests on:
notes/assumptions/7.md, 39.md. -/
def Obligations.LanesAreWatched : Prop :=
  ∀ (s : State) (l : Fin 24),
    let r := s.hub.role l
    let serves := r = roleParent ∨ r = roleChild ∨ r = roleTwin
    let x := s.hub.lane l
    Answers (.laneLos l) s (fun h => h.flag F.LN_STAT_SIG l = false ∧ h.flag F.LN_STAT_ALIGNED l = false ∧
      (serves → (h.lane l).cause = 1) ∧ (¬ serves → (h.lane l).cause = x.cause) ∧
      s.hub.sameWords h [F.LN_STAT_SIG.addr l]) ∧
    (s.hub.start.held = false → Answers (.laneLosClear l) s fun h =>
      h.flag F.LN_STAT_SIG l = true ∧ s.hub.onlyWords h [F.LN_STAT_SIG.addr l]) ∧
    (s.hub.start.held = true → ∀ i ∈ [Instr.laneLosClear l, .laneLolClear l], Answers i s fun h => h = s.hub) ∧
    Answers (.laneLol l) s (fun h => h.flag F.LN_STAT_LOCK l = false ∧ h.flag F.LN_STAT_ALIGNED l = false ∧
      (serves → (h.lane l).cause = if x.cause = 1 then 1 else 2) ∧ (¬ serves → (h.lane l).cause = x.cause) ∧
      s.hub.sameWords h [F.LN_STAT_SIG.addr l]) ∧
    (s.hub.start.held = false → Answers (.laneLolClear l) s fun h =>
      h.flag F.LN_STAT_LOCK l = true ∧ s.hub.onlyWords h [F.LN_STAT_SIG.addr l]) ∧
    (s.hub.flag F.LN_STAT_ALIGNED l = true → 2 ≤ x.fails → 4 ≤ x.fails * s.hub.framePeriod l →
      Answers (.lossOfAlignment l) s fun h => h.flag F.LN_STAT_ALIGNED l = false ∧
        (serves → (h.lane l).cause = if x.cause = 1 ∨ x.cause = 2 then x.cause else 3)) ∧
    (x.fails < 2 ∨ x.fails * s.hub.framePeriod l < 4 → Answers (.lossOfAlignment l) s fun h => h = s.hub) ∧
    (s.hub.flag F.LN_STAT_ALIGNED l = false → s.hub.signal l = true → s.hub.powered l = true →
      Answers (.alignmentFound l) s fun h =>
        h.flag F.LN_STAT_ALIGNED l = true ∧ (h.lane l).fails = 0 ∧
        (s.hub.upLane l = true → h.flag F.LN_STAT_TRAINED l = false ∧ (h.lane l).train = 2048)) ∧
    (s.hub.flag F.LN_STAT_ALIGNED l = true ∨ s.hub.signal l = false ∨ s.hub.powered l = false →
      Answers (.alignmentFound l) s fun h => h = s.hub) ∧
    (s.hub.upLane l = true → s.hub.flag F.LN_STAT_ALIGNED l = true → s.hub.flag F.LN_STAT_TRAINED l = false → x.train = 0 →
      Answers (.trainingEnd l) s fun h =>
        h.flag F.LN_STAT_TRAINED l = true ∧ (h.lane l).trainedAt = s.hub.slot ∧
        s.hub.sameWords h [F.LN_STAT_SIG.addr l]) ∧
    (s.hub.upLane l = false ∨ s.hub.flag F.LN_STAT_ALIGNED l = false ∨ s.hub.flag F.LN_STAT_TRAINED l = true ∨ x.train ≠ 0 →
      Answers (.trainingEnd l) s fun h => h = s.hub) ∧
    (r = roleParent → x.kept ≠ [] → 512 ≤ slotsFrom x.ackSlot s.hub.slot → Answers (.ackTimeout l) s fun h =>
      (h.lane l).cause = (if x.cause = 0 ∨ 4 < x.cause then 4 else x.cause) ∧ h.regs = s.hub.regs) ∧
    (x.kept = [] → Answers (.ackTimeout l) s fun h => h = s.hub) ∧
    (x.cause ≠ 0 → serves → Answers (.laneFence l) s fun h =>
      h.role l = roleOff ∧ h.flag F.LN_STAT_FENCED l = true ∧ h.flag F.LN_STAT_TRAINED l = false ∧
      h.fld F.LN_CAUSE_CAUSE l = x.cause % 8 ∧ h.fenced (unitOf 8 l) = true ∧ (h.lane l).tx = [] ∧ (h.lane l).kept = [] ∧
      (r = roleParent → h.hen.audit = true) ∧
      (r = roleParent → s.hub.lanePort l = s.hub.portInForce → (s.hub.hen.front ++ x.records) <+: h.hen.front)) ∧
    (x.cause = 0 ∨ ¬ serves → Answers (.laneFence l) s fun h => h = s.hub.standbys)

/-- Lane roles (R9, R23, R24): a write in SETUP waits in its packet for the packet's end, and one in another mode changes nothing;
at the packet's end the roles, ports and rates that would then be in force are checked, counting the writes of packets that still
wait: where they break R20 or R21 none of the packet's writes is kept and the reply ends in a tail word with RDISC, CODE ROLES and
the index of the last of them, and else they wait; the write of a packet that has ended waits until the packet's reply has left, and
then gives an unfenced lane its role and port. A write of a background task acts at once, or not at all. Readings and choices that
it rests on: notes/assumptions/7.md, 57.md. -/
def Obligations.LaneRolesAreTaken : Prop :=
  let breaks (h : Hub) (ws : List (Nat × W32)) : Prop :=
    let all := (List.range 24).map fun l => h.roleAfter ws l
    let ofPort (k : Nat) := all.filter fun x => x.1 == roleChild && x.2.1 == k
    12 < (all.filter fun x => x.1 == roleParent).length ∨ 8 < (all.filter fun x => x.1 == roleChild).length ∨
      1 < (all.filter fun x => x.1 == roleTwin).length ∨ (∃ k < 4, 2 < (ofPort k).length) ∨
      (∃ x ∈ all, ∃ y ∈ all, x.1 = roleParent ∧ y.1 = roleParent ∧ x.2.2 ≠ y.2.2) ∨
      (∃ k < 4, ∃ x ∈ ofPort k, ∃ y ∈ ofPort k, x.2.2 ≠ y.2.2) ∨ ∃ x ∈ all, x.1 = roleChild ∧ x.2.2 = 2
  (∀ (s : State) (l : Fin 24) (v : W32), s.hub.mode ≠ mSetup → Answers (.laneRoleWrite l v) s fun h => h = s.hub) ∧
  (∀ (s : State) (l : Fin 24) (v : W32), s.hub.start.held = true → Answers (.laneRoleWrite l v) s fun h => h = s.hub) ∧
  (∀ (s : State) (l : Fin 24) (v : W32) (x : Exec), s.hub.mode = mSetup → s.hub.start.held = false → s.hub.pk.cur = some x →
    Answers (.laneRoleWrite l v) s fun h =>
      (h.pk.cur.map fun y => y.roles) = some (x.roles ++ [(l.val, s.hub.takenAs (F.LANE_ROLE_ROLE.addr l) v)]) ∧
      h.regs = s.hub.regs ∧ h.lanes = s.hub.lanes) ∧
  (∀ (s : State) (l : Fin 24) (v : W32), s.hub.mode = mSetup → s.hub.start.held = false → s.hub.pk.cur = none →
    (breaks s.hub [(l.val, s.hub.takenAs (F.LANE_ROLE_ROLE.addr l) v)] → Answers (.laneRoleWrite l v) s fun h => h = s.hub) ∧
    (¬ breaks s.hub [(l.val, s.hub.takenAs (F.LANE_ROLE_ROLE.addr l) v)] → Answers (.laneRoleWrite l v) s fun h =>
      h.fld F.LANE_ROLE_ROLE l = F.LANE_ROLE_ROLE.get (s.hub.takenAs (F.LANE_ROLE_ROLE.addr l) v) ∧ h.pk.roles = s.hub.pk.roles)) ∧
  (∀ (s : State) (x : Exec) (n : Fin 24), s.hub.pk.cur = some x → s.hub.packetOver x = true → x.stop = none → x.held = [] →
    x.roles ≠ [] → x.pkt.src = .lane n →
    (breaks s.hub (s.hub.pk.roles ++ x.roles) → Answers .packetEnd s fun h =>
      h.pk.cur = none ∧ h.pk.roles = s.hub.pk.roles ∧ h.lanes = s.hub.lanes ∧
      ∃ r, h.pk.laneReply = some r ∧ (r.ws.drop 2).dropLast = x.reply ++ [tailWord 0x84 0 true false x.roleAt]) ∧
    (¬ breaks s.hub (s.hub.pk.roles ++ x.roles) → Answers .packetEnd s fun h =>
      h.pk.cur = none ∧ h.pk.roles = s.hub.pk.roles ++ x.roles ∧ h.lanes = s.hub.lanes ∧
      (∀ l < 24, h.role l = s.hub.role l) ∧ ∃ r, h.pk.laneReply = some r ∧ (r.ws.drop 2).dropLast = x.reply)) ∧
  (∀ s : State, s.hub.pk.roles = [] → Answers .laneRoleApply s fun h => h = s.hub) ∧
  (∀ s : State, s.hub.repliesLeft = false → Answers .laneRoleApply s fun h => h = s.hub) ∧
  (∀ (s : State) (l : Fin 24) (v : W32), s.hub.pk.roles = [(l.val, v)] → s.hub.repliesLeft = true →
    Answers .laneRoleApply s fun h =>
    h.pk.roles = [] ∧ h.fld F.LANE_ROLE_ROLE l = F.LANE_ROLE_ROLE.get v ∧ h.flag F.LN_STAT_FENCED l = false ∧
    (F.LANE_ROLE_ROLE.get v ≠ roleAuto → h.role l = F.LANE_ROLE_ROLE.get v) ∧
    (F.LANE_ROLE_ROLE.get v = roleParent ∨ F.LANE_ROLE_ROLE.get v = roleChild →
      h.fld F.LANE_ROLE_ACT_PORT l = F.LANE_ROLE_PORT.get v))

/-- Test patterns and error injection (R384-R386): a pattern or its checker starts on an OFF or SPARE lane that is not fenced, and
the checker from cleared counts; it locks after 64 bits in a row that follow the pattern, and then counts each bit, and as an error
each that does not follow it; injection starts on a lane that has none. Readings and choices that it rests on:
notes/assumptions/7.md, 44.md. -/
def Obligations.LaneTestsAct : Prop :=
  (∀ (s : State) (l : Fin 24) (v : W32), s.hub.start.held = false → ∀ i ∈ [Instr.prbsGenerator l v, .prbsChecker l v],
    let asked := F.LN_PRBS_GEN_EN.get v = 1 ∨ F.LN_PRBS_CHK_EN.get v = 1
    let free := (s.hub.role l = roleOff ∨ s.hub.role l = roleSpare) ∧ s.hub.flag F.LN_STAT_FENCED l = false
    (asked → ¬ free → Answers i s fun h => h = s.hub) ∧
    (¬ asked ∨ free → Answers i s fun h =>
      h.fld F.LN_PRBS_PAT l = F.LN_PRBS_PAT.get v ∧ h.fld F.LN_PRBS_GEN_EN l = F.LN_PRBS_GEN_EN.get v ∧
      h.fld F.LN_PRBS_CHK_EN l = F.LN_PRBS_CHK_EN.get v ∧
      (s.hub.flag F.LN_PRBS_CHK_EN l = false → F.LN_PRBS_CHK_EN.get v = 1 →
        h.fld F.LN_BERR_ERRORS l = 0 ∧ h.fld F.LN_BITS_LO_V l = 0 ∧ h.fld F.LN_BITS_HI_V l = 0 ∧
        h.flag F.LN_PRBS_CHK_LOCK l = false))) ∧
  (∀ (s : State) (l : Fin 24) (bs : List Bool),
    (s.hub.patternLane l && s.hub.flag F.LN_PRBS_CHK_EN l && s.hub.signal l) = false →
    Answers (.prbsLock l bs) s fun h => h = s.hub) ∧
  (∀ (s : State) (l : Fin 24) (b : Bool),
    (s.hub.patternLane l && s.hub.flag F.LN_PRBS_CHK_EN l && s.hub.signal l) = true →
    let x := s.hub.lane l
    let pat := s.hub.fld F.LN_PRBS_PAT l
    let got := b != s.hub.flag F.LN_PRBS_INV l
    let follows := got == prbsNext pat x.chkReg
    (s.hub.flag F.LN_PRBS_CHK_LOCK l = false → Answers (.prbsLock l [b]) s fun h =>
      let r := takeBit x.chkReg got
      let run := if x.prbsRun < (prbsPoly pat).1 ∨ follows = true then x.prbsRun + 1 else (prbsPoly pat).1
      (h.lane l).chkReg = r ∧ h.flag F.LN_PRBS_CHK_LOCK l = (decide (64 ≤ run) && prbsAlive pat r) ∧
      (run < 64 → (h.lane l).prbsRun = run) ∧
      h.fld F.LN_BITS_LO_V l = s.hub.fld F.LN_BITS_LO_V l ∧ h.fld F.LN_BERR_ERRORS l = s.hub.fld F.LN_BERR_ERRORS l) ∧
    (s.hub.flag F.LN_PRBS_CHK_LOCK l = true → Answers (.prbsLock l [b]) s fun h =>
      h.fld F.LN_BITS_LO_V l = (s.hub.fld F.LN_BITS_LO_V l + 1) % 2 ^ 32 ∧
      s.hub.counted h F.LN_BERR_ERRORS l (b2n (!follows)) ∧
      h.flag F.LN_PRBS_CHK_LOCK l = decide (((follows :: x.prbsWin).take 64).count false ≤ 16))) ∧
  (∀ (s : State) (l : Fin 24), s.hub.start.held = false →
    s.hub.flag F.LN_STAT_INJ_BUSY l = false → s.hub.fld F.LN_INJ_MODE l ≠ 0 →
    Answers (.errorInjection l) s fun h =>
      h.flag F.LN_STAT_INJ_BUSY l = true ∧ (h.lane l).injMode = s.hub.fld F.LN_INJ_MODE l ∧
      (h.lane l).injLeft = (if s.hub.fld F.LN_INJ_MODE l = 1 then 1
        else if s.hub.fld F.LN_INJ_MODE l = 2 then s.hub.fld F.LN_INJ_LEN l else s.hub.fld F.LN_INJ_COUNT l) ∧
      s.hub.sameWords h [F.LN_STAT_SIG.addr l]) ∧
  (∀ (s : State) (l : Fin 24), s.hub.flag F.LN_STAT_INJ_BUSY l = true ∨ s.hub.fld F.LN_INJ_MODE l = 0 →
    Answers (.errorInjection l) s fun h => h = s.hub)

/-! ### Command packets, registers and tasks -/

/-- Packets that arrive (R31, R389, R391-R395): one that is no source's, unreadable, truncated, unroutable, with a wrong CRC,
repeated, or without room is logged or dropped and not queued; one for a child port with room joins its forward buffer; a good one
for this hub joins those that wait. Readings and choices that it rests on: notes/assumptions/41.md. -/
def Obligations.PacketsAreTaken : Prop :=
  (∀ (s : State) (l : Fin 24) (b : List W8), s.hub.takesPackets l = false →
    Answers (.packetRoute l b) s (fun h => h = s.hub) ∧ Answers (.packetAccept (.lane l) b) s fun h => h = s.hub) ∧
  (∀ (s : State) (l : Fin 24) (b : List W8), s.hub.takesPackets l = true → ∀ i ∈ [Instr.packetRoute l b, .packetAccept (.lane l) b],
    (b.length < 8 → Answers i s fun h => s.hub.counted h F.PV_CNT_COUNT 5 1 ∧ h.pk = s.hub.pk ∧ h.hen = s.hub.hen) ∧
    (8 ≤ b.length → pkUnreadable (pkHeader b) = true → Answers i s fun h =>
      s.hub.counted h F.PV_CNT_COUNT 1 1 ∧ h.pk = s.hub.pk ∧ h.hen = s.hub.hen) ∧
    (8 ≤ b.length → pkUnreadable (pkHeader b) = false → b.length < pkLength (pkHeader b) → Answers i s fun h =>
      s.hub.counted h F.PV_CNT_COUNT 5 1 ∧ h.pk = s.hub.pk ∧ h.hen = s.hub.hen)) ∧
  (∀ (s : State) (l : Fin 24) (b : List W8), s.hub.takesPackets l = true → b.length = pkLength (pkHeader b) →
    pkUnreadable (pkHeader b) = false → s.hub.pkMine (pkHeader b) = false →
    (s.hub.routePorts (pkHeader b) = [] → Answers (.packetRoute l b) s fun h =>
      s.hub.counted h F.PV_CNT_COUNT 4 1 ∧ h.pk = s.hub.pk ∧ h.hen = s.hub.hen) ∧
    (∀ k, s.hub.routePorts (pkHeader b) = [k] → (s.hub.child k).fwd.length + s.hub.forwardComing l k < 8 →
      Answers (.packetRoute l b) s fun h =>
        (h.child k).fwd = (s.hub.child k).fwd ++ [(b, true)] ∧ s.hub.counted h F.CP_FWD_COUNT 0 1 ∧ h.pk = s.hub.pk) ∧
    (∀ k, s.hub.routePorts (pkHeader b) = [k] → 8 ≤ (s.hub.child k).fwd.length + s.hub.forwardComing l k →
      Answers (.packetRoute l b) s fun h =>
        s.hub.counted h F.PV_CNT_COUNT 6 1 ∧ h.hen = s.hub.hen ∧ h.pk = s.hub.pk)) ∧
  (∀ (s : State) (src : Source) (b : List W8), (∀ l, src = .lane l → s.hub.takesPackets l = true) → s.hub.start.held = false →
    b.length = pkLength (pkHeader b) → pkUnreadable (pkHeader b) = false → s.hub.pkMine (pkHeader b) = true →
    let n := b.length - 4
    let good := BitVec.ofNat 32 (ofBytes (b.drop n)) = crc32c (b.take n)
    let again := (s.hub.stored src).any fun r => r.seq.toNat == pkSeq (pkHeader b)
    (¬ good → Answers (.packetAccept src b) s fun h =>
      s.hub.counted h F.PV_CNT_COUNT 0 1 ∧ h.pk.waiting = s.hub.pk.waiting) ∧
    (good → again = true → Answers (.packetAccept src b) s fun h =>
      s.hub.counted h F.PV_CNT_COUNT 2 1 ∧ h.pk.waiting = s.hub.pk.waiting) ∧
    (good → again = false → 4 ≤ s.hub.pk.waiting.length → Answers (.packetAccept src b) s fun h =>
      s.hub.counted h F.PV_CNT_COUNT 7 1 ∧ h.pk.waiting = s.hub.pk.waiting) ∧
    (good → again = false → s.hub.pk.waiting.length < 4 → Answers (.packetAccept src b) s fun h =>
      ∃ p : Pkt, h.pk.waiting = s.hub.pk.waiting ++ [p] ∧ p.src = src ∧ p.seq.toNat = pkSeq (pkHeader b) ∧
        p.code.length = pkCount (pkHeader b) ∧ p.arrived = s.hub.slot ∧ p.noReply = bit (pkHeader b) 34 ∧
        p.atomic = bit (pkHeader b) 32 ∧ s.hub.sameWords h [A.CP_STAT]))

/-- Execution of packets (R193, R396, R397, R403, R405, R443): the oldest packet starts at address 4000h with its view frozen; at
its end its reply holds its result words; one that has run for LIMIT slots stops with TIMEOUT. ATOMIC packets and key writes (R398,
R400, R421, R613): at the apply boundary the held words take effect, and none of them when the mode has changed; the words of the
WRESET key count within one packet, in their order. Readings and choices that it rests on: notes/assumptions/7.md, 22.md, 23.md. -/
def Obligations.PacketsAreExecuted : Prop :=
  ((∀ (s : State) (p : Pkt) (rest : List Pkt), s.hub.pk.waiting = p :: rest → s.hub.mayStart p = true →
      Answers .packetExecuteStart s fun h =>
        h.pk.waiting = rest ∧ h.bull.fg.pc = 0x4000 ∧ h.bull.fg.wait = .run ∧ h.flag F.CP_STAT_EXEC 0 = true ∧
        s.hub.counted h F.CP_EXEC_COUNT 0 1 ∧ s.hub.sameWords h [A.GPIO_IN, A.CP_EXEC, A.CP_STAT] ∧
        ∃ x : Exec, h.pk.cur = some x ∧ x.pkt = p ∧ x.start = s.hub.slot ∧ x.mode = s.hub.mode ∧ x.reply = [] ∧ x.stop = none ∧
          (∀ a, a ≠ A.GPIO_IN → Store.get loadWord x.view a = s.hub.word a) ∧ x.viewBank = s.hub.bank) ∧
    (∀ s : State, (∀ p ∈ s.hub.pk.waiting.head?, s.hub.mayStart p = false) → Answers .packetExecuteStart s fun h => h = s.hub) ∧
    (∀ (s : State) (x : Exec), s.hub.pk.cur = some x → s.hub.packetOver x = false →
      Answers .packetEnd s (fun h => h = s.hub) ∧
      (x.slots < s.hub.fld F.CP_CFG_LIMIT 0 → Answers .packetTimeout s fun h => h = s.hub) ∧
      (s.hub.fld F.CP_CFG_LIMIT 0 ≤ x.slots → s.hub.bull.fg.wait = .run → Answers .packetTimeout s fun h =>
        s.hub.counted h F.CP_TIMEOUT_COUNT 0 1 ∧ h.pk.cur = none ∧ h.pk.freed = some s.hub.slot) ∧
      (s.hub.fld F.CP_CFG_LIMIT 0 ≤ x.slots → s.hub.bull.fg.wait = .run → ∀ l, x.pkt.src = .lane l → x.pkt.atomic = false →
        x.roles = [] → Answers .packetTimeout s fun h =>
          s.hub.counted h F.CP_TIMEOUT_COUNT 0 1 ∧ h.pk.cur = none ∧ h.pk.freed = some s.hub.slot ∧
          ∃ r ix, h.pk.laneReply = some r ∧ r.seq = x.pkt.seq ∧
            (r.ws.drop 2).dropLast = x.reply ++ [tailWord 0x82 0 false false ix])) ∧
    (∀ (s : State) (x : Exec), s.hub.pk.cur = some x → s.hub.packetOver x = true → Answers .packetEnd s fun h =>
      h.pk.cur = none ∧ h.pk.freed = some s.hub.slot ∧
      (x.stop ≠ none ∨ x.held = [] → h.pk.apply = none ∧ h.flag F.CP_STAT_EXEC 0 = false ∧
        h.pk.reset = (s.hub.pk.reset || x.wkey == 2))) ∧
    (∀ (s : State) (x : Exec) (l : Fin 24) (code ix : Nat), s.hub.pk.cur = some x → x.stop = some (code, ix) →
      x.pkt.atomic = false → x.roles = [] → x.pkt.src = .lane l → Answers .packetEnd s fun h =>
        ∃ r, h.pk.laneReply = some r ∧ r.seq = x.pkt.seq ∧
          (r.ws.drop 2).dropLast = x.reply ++ [tailWord code 0 false false ix]) ∧
    (∀ (s : State) (x : Exec) (l : Fin 24), s.hub.pk.cur = some x → s.hub.packetOver x = true → x.stop = none → x.held = [] →
      x.roles = [] → x.pkt.src = .lane l → Answers .packetEnd s fun h =>
        h.pk.cur = none ∧ h.pk.apply = none ∧ h.pk.freed = some s.hub.slot ∧ h.flag F.CP_STAT_EXEC 0 = false ∧
        ∃ r, h.pk.laneReply = some r ∧ r.seq = x.pkt.seq ∧ r.slot = x.start ∧ (r.ws.drop 2).dropLast = x.reply ∧
          r.ws.getLast? = some (crc32c (r.ws.dropLast.flatMap bytes32))) ∧
    (∀ (s : State) (x : Exec), s.hub.pk.cur = some x → s.hub.packetOver x = true → x.stop = none → x.held ≠ [] →
      Answers .packetEnd s fun h => h.pk.cur = none ∧ h.pk.apply = some x ∧ h.regs = s.hub.regs)) ∧
  ((∀ s : State, s.hub.pk.apply = none → Answers .atomicApply s fun h => h = s.hub) ∧
    (∀ (s : State) (x : Exec), s.hub.pk.apply = some x → Answers .atomicApply s fun h => h.pk.cur = none ∧ h.pk.apply = none) ∧
    (∀ (s : State) (x : Exec) (code ix : Nat), s.hub.pk.apply = some x → s.hub.mode = x.mode →
      s.hub.heldRejected x = some (code, ix) → Answers .atomicApply s fun h =>
        s.hub.counted h F.CP_ADISC_COUNT 0 1 ∧ h.bull.dmem = s.hub.bull.dmem ∧ h.bull.imem = s.hub.bull.imem ∧
        h.ox = s.hub.ox) ∧
    (∀ (s : State) (x : Exec), s.hub.pk.apply = some x → s.hub.mode ≠ x.mode → x.held ≠ [] → Answers .atomicApply s fun h =>
      h.pk.apply = none ∧ h.pk.cur = none ∧ s.hub.counted h F.CP_ADISC_COUNT 0 1 ∧ h.bull.dmem = s.hub.bull.dmem ∧
      h.bull.imem = s.hub.bull.imem ∧ h.ox = s.hub.ox) ∧
    (∀ (s : State) (x : Exec) (k : Nat) (v : W32) (ix : Nat), s.hub.pk.apply = some x → s.hub.mode = x.mode → k < 0x4000 →
      x.held = [(0x54000 + k, v, ix)] → Answers .atomicApply s fun h =>
        h.pk.apply = none ∧ h.pk.cur = none ∧ Store.get (fun _ => 0) h.bull.dmem k = v ∧
        h.fld F.CP_ADISC_COUNT 0 = s.hub.fld F.CP_ADISC_COUNT 0) ∧
    (∀ (s : State) (v : W32), s.hub.pk.cur = none → Answers (.wresetWrite v) s fun h => h = s.hub) ∧
    (∀ (s : State) (v : W32) (x : Exec), s.hub.pk.cur = some x → Answers (.wresetWrite v) s fun h =>
      (h.pk.cur.map fun y => y.wkey) =
        some (if v = 0x5A5A#32 then 1 else if v = 0xA5A5#32 ∧ x.wkey = 1 then 2 else 0) ∧ h.regs = s.hub.regs))

/-- A write of a register (R7-R10, R437, R438): one that is rejected, and one while the hub is held in reset, changes nothing; in
the registers listed, which are all that have SH fields and registers of every other access code, an RW field takes the value, an SH
field waits in its shadow in RUN and DEGRADED and takes the value at once in every other mode, a W1C bit clears where 1 is written,
and RO, SN and WO fields and reserved bits stay as they are; a word of Bull's memories takes the value. That a hub held in reset
takes no write is the model's choice (notes/assumptions/7.md). -/
def Obligations.RegistersAreWritten : Prop :=
  (∀ x ∈ ([(F.RT_TX_ASYM_V, 2), (F.RT_RX_ASYM_V, 2), (F.FE_THR_TRIM, 512), (F.FE_INJ_CODE, 512), (F.FE_GTHR_GTHR, 1),
      (F.FE_INJCFG_DELAY, 1), (F.TDC_OFS_OFS, 512), (F.TDC_AMPWIN_START, 1), (F.CH_PHOFS_PHOFS, 512), (F.ACQ_LAT_LAT, 1),
      (F.ACQ_SWIN_PRE, 1), (F.ACQ_LWIN_PRE, 1), (F.ACQ_LSEL_LPRESC, 1), (F.ACQ_HOLDOFF_T, 1), (F.ACQ_MASKCTL_REARM, 1),
      (F.ACQ_CHMASK_MASK, 32), (F.ACQ_MASKSEL_SEL, 32), (F.HEN_PCFG_CAPL, 4), (F.FE_CFG_EN, 512), (F.CAL_REF_TREF, 1),
      (F.COMMIT_STAT_PENDING, 1), (F.CAL_STAT_BUSY, 1), (F.RS_WEAR_WEAR, 1), (F.MON_WIN_LEFT, 1), (F.MON_BRK_BRK, 1),
      (F.MON_ESTAT_BRK, 32), (F.PN_STAT_BUSY, 2), (F.FE_STAT_PWR, 512), (F.FE_DISCCNT_COUNT, 512), (F.GS_FATCNT_COUNT, 1),
      (F.ILK_STAT_EN, 1), (F.JNL_STAT_STARTS, 1)] : List (Fld × Nat)),
    ∀ (s : State) (i : Nat) (v : W32), i < x.2 → s.hub.start.held = false →
      let a := x.1.addr i
      let t := s.hub.takenAs a v
      s.hub.rejects a v = 0 → (a = A.ACQ_MASKCTL → F.ACQ_MASKCTL_REARM.get v = 0) →
      Answers (.registerWrite (BitVec.ofNat 24 a) v) s fun h =>
        (∀ k < 32, (h.word a).getLsbD k =
          if (accBits .rw a).getLsbD k then t.getLsbD k
          else if (accBits .sh a).getLsbD k then (if s.hub.mode = mRun ∨ s.hub.mode = mDegraded then (s.hub.word a).getLsbD k else t.getLsbD k)
          else if (accBits .w1c a).getLsbD k then (s.hub.word a).getLsbD k && !v.getLsbD k
          else (s.hub.word a).getLsbD k) ∧
        (accBits .sh a ≠ 0 → s.hub.mode = mRun ∨ s.hub.mode = mDegraded →
          Store.get (fun _ => 0) h.shadow a = t &&& accBits .sh a ∧ h.flag F.COMMIT_STAT_PENDING 0 = true) ∧
        (accBits .sh a ≠ 0 → s.hub.mode ≠ mRun → s.hub.mode ≠ mDegraded → h.shadow = Store.del s.hub.shadow a)) ∧
  (∀ (s : State) (addr : W24) (v : W32), s.hub.rejects addr.toNat v ≠ 0 → Answers (.registerWrite addr v) s fun h => h = s.hub) ∧
  (∀ (s : State) (v : W32), ∀ f ∈ [F.GPIO_DIR_DIR, F.RT_TNSSET_V, F.RT_SLOTSET_LO_V, F.RT_SLOTSET_HI_V],
    s.hub.start.held = false → s.hub.rejects (f.addr 0) v = 0 → Answers (.registerWrite (BitVec.ofNat 24 (f.addr 0)) v) s fun h =>
      h.fld f 0 = f.get v ∧ s.hub.onlyWords h [f.addr 0]) ∧
  (∀ (s : State) (addr : W24) (v : W32), s.hub.start.held = true → Answers (.registerWrite addr v) s fun h => h = s.hub) ∧
  (∀ (s : State) (c : Fin 512) (v : W32), s.hub.start.held = false → s.hub.rejects (F.FE_THR_TRIM.addr c) v = 0 →
    Answers (.registerWrite (BitVec.ofNat 24 (F.FE_THR_TRIM.addr c)) v) s fun h =>
      (s.hub.mode = mRun ∨ s.hub.mode = mDegraded → h.fld F.FE_THR_TRIM c = s.hub.fld F.FE_THR_TRIM c ∧
        F.FE_THR_TRIM.get (Store.get (fun _ => 0) h.shadow (F.FE_THR_TRIM.addr c)) = F.FE_THR_TRIM.get v ∧
        h.flag F.COMMIT_STAT_PENDING 0 = true) ∧
      (s.hub.mode ≠ mRun → s.hub.mode ≠ mDegraded → h.fld F.FE_THR_TRIM c = F.FE_THR_TRIM.get v)) ∧
  (∀ (s : State) (k : Nat) (v : W32), s.hub.start.held = false → k < 0x4000 →
    Answers (.registerWrite (BitVec.ofNat 24 (0x54000 + k)) v) s (fun h =>
      Store.get (fun _ => 0) h.bull.dmem k = v ∧ h.regs = s.hub.regs ∧
      (∀ j, j ≠ k → Store.get (fun _ => 0) h.bull.dmem j = Store.get (fun _ => 0) s.hub.bull.dmem j)) ∧
    (s.hub.mode = mSetup → Answers (.registerWrite (BitVec.ofNat 24 (0x50000 + k)) v) s fun h =>
      Store.get (fun _ => 0) h.bull.imem k = v ∧ h.regs = s.hub.regs ∧
      (∀ j, j ≠ k → Store.get (fun _ => 0) h.bull.imem j = Store.get (fun _ => 0) s.hub.bull.imem j)))

/-- Background tasks (R193, R221, R222, R226): the oldest queued task starts with its argument, its slot and its return address
while the foreground is idle or waits; at address 4400h it ends, and a slot still BUSY becomes DONE without values. Readings and
choices that it rests on: notes/assumptions/7.md, 98.md. -/
def Obligations.TasksRun : Prop :=
  (∀ (s : State) (t : Task) (rest : List Task), s.hub.bull.task = none → s.hub.bull.tasks = t :: rest → s.hub.fgYields = true →
    Answers .bgTaskStart s fun h =>
      h.bull.task = some t ∧ h.bull.tasks = rest ∧ h.bull.bg.pc = t.entry ∧ h.bull.bg.wait = .run ∧
      (∀ r, Store.get (fun _ => (0 : W32)) h.bull.bg.g r =
        if r = 1 then t.arg else if r = 2 then BitVec.ofNat 32 t.slot else if r = 31 then 0x4400#32 else 0) ∧
      h.regs = s.hub.regs ∧ h.bull.fg = s.hub.bull.fg) ∧
  (∀ s : State, s.hub.bull.task ≠ none ∨ s.hub.bull.tasks = [] ∨ s.hub.fgYields = false →
    Answers .bgTaskStart s fun h => h = s.hub) ∧
  (∀ (s : State) (t : Task), s.hub.bull.task = some t → t.slot < 16 → s.hub.bull.bg.pc = 0x4400 → s.hub.bull.bg.wait = .run →
    Answers .bgTaskEnd s fun h =>
      h.bull.task = none ∧
      (s.hub.fld F.RSLOT_DESC_STATE t.slot = 1 → h.fld F.RSLOT_DESC_STATE t.slot = 2 ∧ h.fld F.RSLOT_DESC_WCOUNT t.slot = 0 ∧
        h.fld F.RSLOT_DESC_EXC t.slot = 0 ∧
        h.fld F.RSLOT_DESC_TAG t.slot = (Store.get (fun _ => (0 : BitVec 12)) s.hub.bull.tags t.slot).toNat) ∧
      (s.hub.fld F.RSLOT_DESC_STATE t.slot ≠ 1 → h.regs = s.hub.regs)) ∧
  (∀ s : State, s.hub.bull.task = none ∨ s.hub.bull.bg.pc ≠ 0x4400 ∨ s.hub.bull.bg.wait ≠ .run →
    Answers .bgTaskEnd s fun h => h = s.hub)

/-! ### Calibration, wear and the reserve -/

/-- The calibration procedures (R448, R452, R458): a procedure starts when none runs and its condition holds, and is turned away
with REJ otherwise; ABORT stops a running one. Readings and choices that it rests on: notes/assumptions/7.md, 46.md. -/
def Obligations.CalibrationStartsAndStops : Prop :=
  (∀ x ∈ [(Instr.calOffset, 1), (.calTdc, 2), (.calPhase, 3), (.calInj, 4), (.calGain, 5), (.calRatio, 6), (.calThresh, 7),
      (.calTimeofs, 8), (.calWalk, 9), (.calAll, 15)],
    ∀ (s : State) (gmask : BitVec 16) (apply : Bool), s.hub.start.held = false →
      (s.hub.mode = mCalibrate → s.hub.flag F.CAL_STAT_BUSY 0 = false → Answers (x.1 gmask apply) s fun h =>
        h.cal = { s.hub.cal with proc := x.2, apply := apply, gmask := gmask, lane := 0, part := if x.2 = 15 then 1 else x.2
                                 ticks := 0, fired := 0, counts := [] } ∧ h.flag F.CAL_STAT_BUSY 0 = true ∧
        h.fld F.CAL_STAT_PROC 0 = x.2 ∧ h.flag F.CAL_STAT_DONE 0 = false ∧ h.flag F.CAL_STAT_FAIL 0 = false ∧
        h.fld F.CAL_STAT_NFAIL 0 = 0 ∧ s.hub.sameWords h [A.CAL_STAT]) ∧
      (s.hub.mode ≠ mCalibrate ∨ s.hub.flag F.CAL_STAT_BUSY 0 = true → Answers (x.1 gmask apply) s fun h =>
        h.flag F.CAL_STAT_REJ 0 = true ∧ h.flag F.CAL_STAT_BUSY 0 = s.hub.flag F.CAL_STAT_BUSY 0 ∧
        s.hub.onlyWords h [A.CAL_STAT])) ∧
  (∀ (s : State) (l : Fin 24) (apply : Bool), s.hub.start.held = false → s.hub.flag F.CAL_STAT_BUSY 0 = false →
    (s.hub.laneRxOk l = true → Answers (.calLaneRx l apply) s fun h =>
      h.cal = { s.hub.cal with proc := 10, apply := apply, gmask := 0, lane := l, part := 10, ticks := 0
                               fired := 0, counts := [] } ∧ h.flag F.CAL_STAT_BUSY 0 = true ∧
      s.hub.sameWords h [A.CAL_STAT]) ∧
    (s.hub.laneRxOk l = false → Answers (.calLaneRx l apply) s fun h =>
      h.flag F.CAL_STAT_REJ 0 = true ∧ s.hub.onlyWords h [A.CAL_STAT]) ∧
    Answers (.calEye l apply) s fun h =>
      h.cal = { s.hub.cal with proc := 11, apply := apply, gmask := 0, lane := l, part := 11, ticks := 0
                               fired := 0, counts := [] } ∧ h.flag F.CAL_STAT_BUSY 0 = true ∧
      s.hub.sameWords h [A.CAL_STAT]) ∧
  (∀ s : State, s.hub.flag F.CAL_STAT_BUSY 0 = true → Answers .calAbort s fun h =>
    h.flag F.CAL_STAT_BUSY 0 = false ∧ h.flag F.CAL_STAT_ABORTED 0 = true ∧ s.hub.onlyWords h [A.CAL_STAT]) ∧
  (∀ s : State, s.hub.flag F.CAL_STAT_BUSY 0 = false → Answers .calAbort s fun h => h = s.hub)

/-- What calibration leaves (R446, R452, R453, R456, R460-R464): the end of a procedure with its figures and, with APPLY alone, its
results; the figure of the crystal; the path delays; and the stages of a rolling round trip: a self phase after SELFORB orbits, a
shadow phase that compares until 64 hits or 8 orbits, and that fails where the comparison or the self phase missed a limit. Readings
and choices that it rests on: notes/assumptions/7.md, 46.md, 47.md, 49.md. -/
def Obligations.CalibrationResults : Prop :=
  (∀ (s : State) (rs : List CalResult), s.hub.flag F.CAL_STAT_BUSY 0 = false → Answers (.calApply rs) s fun h => h = s.hub) ∧
  (∀ (s : State) (rs : List CalResult), s.hub.flag F.CAL_STAT_BUSY 0 = true → Answers (.calApply rs) s fun h =>
    h.flag F.CAL_STAT_BUSY 0 = false ∧ h.flag F.CAL_STAT_DONE 0 = true) ∧
  (∀ (s : State) (c : Fin 512) (times cs : List Int), s.hub.flag F.CAL_STAT_BUSY 0 = true → s.hub.cal.proc = 8 →
    s.hub.cal.gmask.getLsbD (c.val / 32) = true → s.hub.mode = mCalibrate →
    Answers (.calApply [.timeofs c times cs]) s fun h =>
      h.fld F.TDC_OFS_OFS c = (if s.hub.cal.apply
        then field 16 (clamp (-12800) 12799 (s.hub.delayMean (s.hub.sfld F.CAL_REF_TREF 0) (-1) times)) else s.hub.fld F.TDC_OFS_OFS c)) ∧
  (∀ (s : State) (p : Fin 544) (hg lg a bigA : BitVec 16), s.hub.flag F.CAL_STAT_BUSY 0 = true → s.hub.cal.proc = 1 →
    s.hub.cal.gmask.getLsbD (p.val / 34) = true → s.hub.mode = mCalibrate →
    Answers (.calApply [.offset p hg lg a bigA true]) s fun h =>
      h.flag F.CAL_STAT_BUSY 0 = false ∧ h.flag F.CAL_STAT_DONE 0 = true ∧
      h.qual 0 p 5 = hg.toNat + lg.toNat * 65536 ∧ h.qual 0 p 3 = a.toNat + bigA.toNat * 65536 ∧
      h.fld F.ADC_OFS_OFS_HG p = (if s.hub.cal.apply then hg.toNat else s.hub.fld F.ADC_OFS_OFS_HG p) ∧
      h.fld F.ADC_OFS_OFS_LG p = (if s.hub.cal.apply then lg.toNat else s.hub.fld F.ADC_OFS_OFS_LG p)) ∧
  (∀ (s : State) (ppm : BitVec 16), s.hub.start.held = false → Answers (.xoMeasure ppm) s fun h =>
    (s.hub.flag F.RT_CLK_LOCK 0 = true → s.hub.crystalRef = false →
      h.fld F.CAL_XO_PPM 0 = ppm.toNat ∧ h.flag F.CAL_XO_VALID 0 = true) ∧
    (s.hub.flag F.RT_CLK_LOCK 0 = false ∨ s.hub.crystalRef = true → h.flag F.CAL_XO_VALID 0 = false ∧
      h.fld F.CAL_XO_PPM 0 = s.hub.fld F.CAL_XO_PPM 0) ∧ s.hub.onlyWords h [A.CAL_XO]) ∧
  (∀ (s : State) (l : Fin 24) (tx rx : BitVec 16) (d : W8), s.hub.start.held = false → Answers (.pathDelayMeasure l tx rx d) s fun h =>
    (s.hub.role l = roleOff → h = s.hub) ∧
    (s.hub.role l ≠ roleOff → h.qual 2 l 1 = tx.toNat + rx.toNat * 65536 ∧ h.qual 2 l 2 = d.toNat ∧ h.regs = s.hub.regs)) ∧
  (∀ (s : State) (g : Fin 16) (r : Roll) (a bigA : BitVec 16) (c0 c1 : List Nat) (m0 m1 l0 l1 : Int),
    s.hub.rollOf g = some r → s.hub.taking = true → r.stage = 1 ∨ r.stage = 4 → ∀ ok : Bool,
    (s.hub.atOrbit = true → s.hub.fld F.CAL_ROLL_SELFORB 0 ≤ r.orbits →
      Answers (.rollingRecal g (.selfPhase a bigA c0 c1 m0 m1 l0 l1 ok)) s fun h =>
        h.rollOf g = some { r with stage := r.stage + 1, orbits := 0, bad := !ok, seen := {} } ∧
        h.fld F.CAL_ROLLFAIL_COUNT 0 = s.hub.fld F.CAL_ROLLFAIL_COUNT 0) ∧
    (s.hub.atOrbit = false ∨ r.orbits < s.hub.fld F.CAL_ROLL_SELFORB 0 →
      Answers (.rollingRecal g (.selfPhase a bigA c0 c1 m0 m1 l0 l1 ok)) s fun h => s.hub.onlyWords h [A.MODE_STAT])) ∧
  (∀ (s : State) (g : Fin 16) (r : Roll) (hits samples : Nat) (toa amp : Int),
    s.hub.rollOf g = some r → s.hub.taking = true → r.stage = 2 ∨ r.stage = 5 → r.ch / 32 = g.val → r.ch < 512 →
    let seen := r.seen.more hits toa samples amp
    let whole := s.hub.atOrbit = true ∧ 1 ≤ r.orbits ∧ (64 ≤ seen.hits ∨ 8 ≤ r.orbits)
    (r.bad = true ∨ (whole ∧ seen.within = false) → Answers (.rollingRecal g (.shadow hits toa samples amp)) s fun h =>
      h.rollOf g = none ∧ s.hub.counted h F.CAL_ROLLFAIL_COUNT 0 1) ∧
    (r.bad = false → ¬ whole → Answers (.rollingRecal g (.shadow hits toa samples amp)) s fun h =>
      h.rollOf g = some { r with seen := seen } ∧ h.fld F.CAL_ROLLFAIL_COUNT 0 = s.hub.fld F.CAL_ROLLFAIL_COUNT 0) ∧
    (r.bad = false → whole → seen.within = true → r.stage = 2 → r.spare < 34 →
      Answers (.rollingRecal g (.shadow hits toa samples amp)) s fun h =>
        h.rollOf g = some { r with stage := 4, orbits := 0, bad := false, seen := {} } ∧
        h.servingSlot r.ch = some (34 * g.val + r.spare)) ∧
    (r.bad = false → whole → seen.within = true → r.stage = 5 → r.home < 34 →
      Answers (.rollingRecal g (.shadow hits toa samples amp)) s fun h =>
        s.hub.counted h F.CAL_ROLLDONE_COUNT 0 1 ∧ h.servingSlot r.ch = some (34 * g.val + r.home))) ∧
  (∀ (s : State) (g : Fin 16) (res : RollResult), s.hub.rollOf g = none → s.hub.rsv.preps = [] →
    Answers (.rollingRecal g res) s fun h => s.hub.onlyWords h [A.MODE_STAT])

/-- Wear and the reserve (R484, R489-R493, R496, R497): a metric is evaluated outside HOLD, and a reading that reaches its threshold
anew sets its bit; a prepared row, TDC line, digitiser slot, Ox engine or lane enters service, in HOLD and within an orbit none
(R495); a write to RS_VETO keeps back what it still vetoes. Readings and choices that it rests on: notes/assumptions/7.md, 50.md,
91.md, 102.md. Readings and choices that it rests on: notes/assumptions/91.md. -/
def Obligations.WearAndSpares : Prop :=
  (∀ (s : State) (m : WearInput), s.hub.mode = mHold → Answers (.wearEvaluate m) s fun h => h = s.hub) ∧
  (∀ (s : State) (m : WearInput), s.hub.start.held = true → Answers (.wearEvaluate m) s fun h => h = s.hub) ∧
  (∀ (s : State) (j : Fin 4) (curr : BitVec 16), s.hub.start.held = false → s.hub.mode ≠ mHold → (1, 0) ∉ s.hub.rsv.reached →
    Answers (.wearEvaluate (.leak j curr)) s fun h =>
      h.fld F.RS_LEAK_CURR j = curr.toNat ∧
      (s.hub.fld F.RS_THR_LEAK 0 * 10 ≤ curr.toNat → bit (h.fld F.RS_WEAR_WEAR 0) 1 = true ∧ (1, 0) ∈ h.rsv.reached)) ∧
  (∀ (s : State) (l : Fin 24) (height : Nat), s.hub.start.held = false → s.hub.mode ≠ mHold → s.hub.laneServes l = true →
    (height < 2 * s.hub.fld F.RS_POLICY_EYEMIN 0 → (6, l.val) ∉ s.hub.rsv.reached → Answers (.wearEvaluate (.eye l height)) s fun h =>
      bit (h.fld F.RS_WEAR_WEAR 0) 6 = true ∧ (6, l.val) ∈ h.rsv.reached) ∧
    (2 * s.hub.fld F.RS_POLICY_EYEMIN 0 ≤ height → Answers (.wearEvaluate (.eye l height)) s fun h =>
      (6, l.val) ∉ h.rsv.reached ∧ h.regs = s.hub.regs)) ∧
  (∀ (s : State) (p : Fin 544) (a : BitVec 16), s.hub.start.held = false → s.hub.mode ≠ mHold →
    (Store.get (fun _ => none) s.hub.rsv.firstA p.val = none → Answers (.wearEvaluate (.dslot p a)) s fun h =>
      Store.get (fun _ => none) h.rsv.firstA p.val = some a ∧ h.regs = s.hub.regs) ∧
    (∀ f : BitVec 16, Store.get (fun _ => none) s.hub.rsv.firstA p.val = some f → (5, p.val) ∉ s.hub.rsv.reached →
      s.hub.fld F.RS_POLICY_ADRIFT 0 < (a.toInt - f.toInt).natAbs → Answers (.wearEvaluate (.dslot p a)) s fun h =>
        bit (h.fld F.RS_WEAR_WEAR 0) 5 = true ∧ (5, p.val) ∈ h.rsv.reached)) ∧
  (∀ (s : State) (i : Fin 8) (periods : BitVec 24), s.hub.start.held = false → s.hub.mode ≠ mHold → s.hub.fld F.RS_DOSEREF_REF i ≠ 0 →
    Answers (.wearEvaluate (.dose i periods)) s fun h =>
      h.fld F.RS_DOSE_SHIFT i = satU 16 (roundDiv (((s.hub.fld F.RS_DOSEREF_REF i : Int) - periods.toNat) * 10000)
        (s.hub.fld F.RS_DOSEREF_REF i)) ∧
      h.fld F.RS_DOSEREF_REF i = s.hub.fld F.RS_DOSEREF_REF i) ∧
  (∀ (s : State) (c : Bool), s.hub.mode = mHold ∨ (s.hub.running = true ∧ s.hub.atOrbit = false) → Answers (.spareBringIn c) s fun h => s.hub.onlyWords h [A.MODE_STAT]) ∧
  (∀ (s : State) (c : Bool) (mem row r : Nat), s.hub.mode = mSetup → s.hub.rsv.returns = [] → s.hub.vetoed kRow = false →
    s.hub.flag F.RS_STAT_LOADWAIT 0 = false → mem < 1024 → row < 2048 → r < spareRows mem →
    (∃ p ∈ s.hub.rsv.preps, s.hub.rsv.preps = [p] ∧ p.kind = kRow ∧ p.unit = mem * 65536 + row ∧ p.spare = r ∧
      p.reactive = true) →
    Answers (.spareBringIn c) s fun h =>
      h.rsv.preps = [] ∧ h.bankWord (rowKey mem r) = BitVec.ofNat 32 (row + 2 * 4096 + 16384) ∧
      s.hub.counted h F.RS_BRINGIN_COUNT 0 1 ∧ h.flag F.RS_STAT_PREP 0 = false) ∧
  (∀ (s : State) (c b : Bool) (slot : Nat), s.hub.mode = mSetup → s.hub.rsv.returns = [] → s.hub.vetoed kLine = false →
    s.hub.flag F.RS_STAT_LOADWAIT 0 = false → slot < 544 →
    (∃ p ∈ s.hub.rsv.preps, s.hub.rsv.preps = [p] ∧ p.kind = kLine ∧ p.unit = 2 * slot + b2n b ∧ p.reactive = true) →
    Answers (.spareBringIn c) s fun h =>
      h.rsv.preps = [] ∧ h.flag F.RS_DSLOT_LINE slot = !b ∧ s.hub.counted h F.RS_BRINGIN_COUNT 0 1) ∧
  (∀ (s : State) (c : Bool) (ch x : Nat), s.hub.mode = mSetup → s.hub.rsv.returns = [] → ch / 32 ∉ s.hub.rsv.moved →
    s.hub.vetoed kDslot = false → s.hub.flag F.RS_STAT_LOADWAIT 0 = false → ch < 512 → x < 34 →
    (∃ p ∈ s.hub.rsv.preps, s.hub.rsv.preps = [p] ∧ p.kind = kDslot ∧ p.unit = ch ∧ p.spare = x ∧ p.reactive = true) →
    Answers (.spareBringIn c) s fun h =>
      h.rsv.preps = [] ∧ h.servingSlot ch = some (34 * (ch / 32) + x) ∧ s.hub.counted h F.RS_BRINGIN_COUNT 0 1 ∧
      h.fld F.RS_CHMAP_SHADOW ch = 0x3F) ∧
  (∀ (s : State) (bad : Bool) (e : Fin 16), s.hub.mode = mSetup → s.hub.rsv.returns = [] → s.hub.vetoed kOx = false →
    s.hub.flag F.RS_STAT_LOADWAIT 0 = false →
    (∃ p ∈ s.hub.rsv.preps, s.hub.rsv.preps = [p] ∧ p.kind = kOx ∧ p.unit = e ∧ p.reactive = true) →
    Answers (.spareBringIn bad) s fun h =>
      h.rsv.preps = [] ∧ h.fld F.RS_STAT_OXG 0 = e ∧ h.fld F.OX_STAT_PHYS e = 16 ∧ h.flag F.RS_STAT_PREP 0 = false ∧
      (bad = false → (s.hub.oxOf e).bad = [] → s.hub.counted h F.RS_BRINGIN_COUNT 0 1 ∧ (h.oxOf e).act = (s.hub.oxOf e).act ∧
        (h.oxOf e).stby = (s.hub.oxOf e).stby ∧ (h.oxOf e).dmem = (s.hub.oxOf e).dmem ∧ (h.oxOf e).slot.pc = 0) ∧
      (bad = true ∨ (s.hub.oxOf e).bad ≠ [] → (h.oxOf e).loadWait = true ∧ h.flag F.OX_STAT_ACT_SEALED e = false ∧
        h.flag F.OX_STAT_STBY_SEALED e = false ∧ h.flag F.RS_STAT_LOADWAIT 0 = true ∧
        h.fld F.RS_BRINGIN_COUNT 0 = s.hub.fld F.RS_BRINGIN_COUNT 0)) ∧
  (∀ (s : State) (c : Bool) (l sp : Fin 24) (j : Fin 8), s.hub.mode = mSetup → s.hub.rsv.returns = [] → s.hub.vetoed kLane = false →
    s.hub.flag F.RS_STAT_LOADWAIT 0 = false → s.hub.fld F.RS_LANE_LANE j = sp → s.hub.laneServes l = true →
    (∃ p ∈ s.hub.rsv.preps, s.hub.rsv.preps = [p] ∧ p.kind = kLane ∧ p.unit = l ∧ p.spare = j ∧ p.reactive = true) →
    Answers (.spareBringIn c) s fun h =>
      h.rsv.preps = [] ∧ h.fld F.LANE_ROLE_ACT_ROLE sp = s.hub.role l ∧ h.fld F.LANE_ROLE_ACT_PORT sp = s.hub.lanePort l ∧
      h.fld F.RS_LANE_SERVES j = l ∧ s.hub.counted h F.RS_BRINGIN_COUNT 0 1 ∧ h.flag F.RS_STAT_PREP 0 = false) ∧
  (∀ (s : State) (v : W32), s.hub.start.held = false → Answers (.rsVetoWrite v) s fun h =>
    h.word A.RS_VETO = v &&& 0x11F#32 ∧
    h.rsv.heldBack = s.hub.rsv.heldBack.filter fun x => (s.hub.setWord A.RS_VETO (v &&& 0x11F#32)).vetoed x.1)

/-! ### Twin operation -/

/-- Takeover, a lost partner, and requests (R516-R520, R527): a STANDBY unit that may take over enters SOLO with the last claim
seen, its epoch one higher, and takes the next audit of each child as it is (R349); a joining unit whose partner is lost ends in
INCOMPLETE, and an ACTIVE one goes on in SOLO. TWIN SYNC, delivery and health (R507, R508, R515, R527): what a TWIN SYNC shows of
the partner; the STATUS bits or the item of an event at its delivery; a held frame, which acts in an ACTIVE or SOLO unit when its
slot is due and in a STANDBY unit when the partner's mask names its lane (R514); and a due health item, which joins the unit-local
items. Readings and choices that it rests on: notes/assumptions/7.md, 45.md. -/
def Obligations.TwinActs : Prop :=
  ((∀ s : State, s.hub.takesOver = true → Answers .takeover s fun h =>
      h.fld F.TW_STAT_STATE 0 = 1 ∧ s.hub.counted h F.TW_TAKES_COUNT 0 1 ∧
      h.fld F.TW_CLAIM_CUR 0 = s.hub.fld F.TW_STAT_PCLAIM 0 / 4096 * 4096 + (s.hub.fld F.TW_STAT_PCLAIM 0 % 4096 + 1) % 4096 ∧
      (∀ k < 4, (h.child k).resync = true)) ∧
    (∀ s : State, s.hub.takesOver = false → Answers .takeover s fun h => h = s.hub) ∧
    (∀ s : State, s.hub.peerLost = false → s.hub.twin.peerFatal = false → Answers .partnerLost s fun h => h = s.hub) ∧
    (∀ s : State, s.hub.peerLost = true → s.hub.fld F.TW_STAT_STATE 0 = 3 → Answers .partnerLost s fun h =>
      h.fld F.TW_STAT_STATE 0 = 5 ∧ s.hub.counted h F.TW_COPYFAIL_COUNT 0 1 ∧ h.fld F.TW_CLAIM_CUR 0 = 0) ∧
    (∀ s : State, s.hub.peerLost = true → s.hub.fld F.TW_STAT_STATE 0 = 2 → Answers .partnerLost s fun h =>
      h.fld F.TW_STAT_STATE 0 = 1 ∧ h.fld F.TW_CLAIM_CUR 0 = s.hub.fld F.TW_CLAIM_CUR 0) ∧
    (∀ s : State, s.hub.start.held = false →
      Answers .rejoin s (fun h => h = { s.hub with twin := { s.hub.twin with wantJoin := true } }) ∧
      Answers .hreq s fun h => h = { s.hub with twin := { s.hub.twin with hreq := true } })) ∧
  ((∀ (s : State) (ws : List W64), s.hub.start.held = false → s.hub.parked = false → Answers (.twinSyncReceive ws) s fun h =>
      h = { s.hub with twin := { s.hub.twin with lastSeen := some s.hub.slot } }) ∧
    (∀ (s : State) (ws : List W64), s.hub.start.held = false → s.hub.parked = true →
      let w (i : Nat) : Nat := ((ws[i]?).getD 0).toNat
      (bits (w 1) 63 60 = 2 → Answers (.twinSyncReceive ws) s fun h =>
        h.twin.peerJoin = true ∧ h.twin.lastSeen = some s.hub.slot ∧ h.regs = s.hub.regs) ∧
      (bits (w 1) 63 60 = 0 → Answers (.twinSyncReceive ws) s fun h =>
        h.twin.peerState = bits (w 1) 59 57 ∧ h.twin.peerClaim.toNat = bits (w 1) 15 0 ∧ h.twin.peerFatal = bit (w 1) 55 ∧
        h.twin.lastSeen = some s.hub.slot ∧
        h.fld F.TW_STAT_PCLAIM 0 = (if bits (w 1) 59 57 = 1 ∨ bits (w 1) 59 57 = 2 then bits (w 1) 15 0
          else s.hub.fld F.TW_STAT_PCLAIM 0))) ∧
    (∀ s : State, s.hub.parked = false → Answers .twinDelivery s fun h => h = s.hub) ∧
    (∀ (s : State) (e : W48 × Bool × BitVec 13 × List W64), s.hub.parked = true → s.hub.fld F.TW_STAT_STATE 0 = 2 →
      s.hub.lanes = [] → s.hub.twin.events = [e] →
      let due := s.hub.slot - BitVec.ofNat 48 s.hub.twinAlign
      (reached due e.1 = true → e.2.2.2 = [] → Answers .twinDelivery s fun h =>
        h.twin.events = [] ∧ (∀ k < 13, bit e.2.2.1.toNat k = true → h.sticky (k + 2))) ∧
      (reached due e.1 = true → e.2.2.2 ≠ [] → s.hub.queueRoom 30 e.2.2.2.length → Answers .twinDelivery s fun h =>
        h.twin.events = [] ∧ s.hub.queueGot h 30 e.2.2.2) ∧
      (reached due e.1 = false → Answers .twinDelivery s fun h => h = s.hub)) ∧
    (∀ (s : State) (l : Fin 24) (x : Lane) (e : Held), s.hub.parked = true → s.hub.lanes = [(l.val, x)] → x.hold = [e] →
      s.hub.twin.events = [] →
      let due := s.hub.slot - BitVec.ofNat 48 s.hub.twinAlign
      (s.hub.fld F.TW_STAT_STATE 0 = 1 ∨ s.hub.fld F.TW_STAT_STATE 0 = 2 →
        (reached due e.slot = false → Answers .twinDelivery s fun h => h = s.hub) ∧
        (reached due e.slot = true → Answers .twinDelivery s fun h =>
          h = s.hub.settled ((s.hub.setLane l { x with hold := [] }).deliverHeld l e))) ∧
      (s.hub.fld F.TW_STAT_STATE 0 = 4 → e.bytes ≠ [] → e.port < 4 → ∀ (mask : BitVec 24) (ic : W32),
        s.hub.twin.masks = [(due, mask, ic)] →
        (mask = BitVec.ofNat 24 (2 ^ l.val) → Answers .twinDelivery s fun h => (h.lane l).hold = [] ∧
          (ic = icrc [e] → h.fld F.TW_MISSED_COUNT 0 = s.hub.fld F.TW_MISSED_COUNT 0 ∧ h.twin.diverge = s.hub.twin.diverge) ∧
          (ic ≠ icrc [e] → s.hub.counted h F.TW_MISSED_COUNT 0 1 ∧ h.twin.diverge = true)) ∧
        (mask = 0 → ic = 0 → Answers .twinDelivery s fun h => h.regs = s.hub.regs ∧ h.twin.diverge = s.hub.twin.diverge ∧
          (h.lane l).hold = if reached (due - BitVec.ofNat 48 s.hub.twinAlign) e.slot then [] else [e]))) ∧
    (∀ (s : State) (l : Fin 24) (ic : W32), s.hub.parked = true → s.hub.fld F.TW_STAT_STATE 0 = 4 → s.hub.lanes = [] →
      s.hub.twin.events = [] →
      s.hub.twin.masks = [(s.hub.slot - BitVec.ofNat 48 s.hub.twinAlign, BitVec.ofNat 24 (2 ^ l.val), ic)] →
      Answers .twinDelivery s fun h => s.hub.counted h F.TW_MISSED_COUNT 0 1 ∧ h.twin.diverge = true) ∧
    (∀ (s : State) (bist scrub : W8) (drift : BitVec 18),
      (s.hub.twin.healthDue = false ∨ s.hub.twinLocal = false → Answers (.twinHealth bist scrub drift) s fun h => h = s.hub) ∧
      (s.hub.twin.healthDue = true → s.hub.twinLocal = true → Answers (.twinHealth bist scrub drift) s fun h =>
        h.twin.healthDue = false ∧ h.twin.cor = 0 ∧ h.twin.cont = 0 ∧ h.regs = s.hub.regs ∧
        ∃ item, h.twin.items = s.hub.twin.items ++ [item] ∧ item.length = 4)))

/-- Joining, the state copy and step (R516, R523, R524): at an orbit boundary a unit that has asked enters JOINING and its partner
starts the copy of its state block, a COPY record places its words (as entry 40 of the log lays them out), and at the boundary that
STEPAT names the joining unit takes the block and both units enter step; of a block received whole, the words of the acquisition
registers and of Bull's data memory are then those of the partner. Readings and choices that it rests on: notes/assumptions/7.md,
45.md. Readings and choices that it rests on: notes/assumptions/45.md. -/
def Obligations.TwinJoins : Prop :=
  (∀ s : State, s.hub.atOrbit = false → Answers .joinStart s fun h => h = s.hub) ∧
  (∀ s : State, s.hub.atOrbit = true → s.hub.wantsJoin = true → s.hub.twin.joinSent = true → s.hub.twin.peerState = 1 →
    s.hub.peerLost = false → Answers .joinStart s fun h =>
      h.fld F.TW_STAT_STATE 0 = 3 ∧ h.twin.joinAt = some s.hub.slot ∧ h.twin.image = [] ∧ h.twin.stepAt = none ∧
      h.fld F.TW_COPY_WORDS 0 = 0) ∧
  (∀ s : State, s.hub.atOrbit = true → s.hub.fld F.TW_STAT_STATE 0 = 1 → s.hub.twin.peerJoin = true → s.hub.twin.joinAt = none →
    s.hub.peerLost = false → Answers .joinStart s fun h =>
      h.twin.joinAt = some s.hub.slot ∧ h.twin.copyWords = s.hub.copyImage.map copyWord ∧ h.twin.copied = s.hub.copyImage ∧ h.twin.peerJoin = false ∧
      h.fld F.TW_STAT_STATE 0 = 1 ∧ h.fld F.TW_COPY_WORDS 0 = 0) ∧
  (∀ (s : State) (words : List W64), s.hub.fld F.TW_STAT_STATE 0 ≠ 3 → Answers (.copyRecordReceive words) s fun h => h = s.hub) ∧
  (∀ (s : State) (w1 d t : W64), s.hub.fld F.TW_STAT_STATE 0 = 3 →
    Answers (.copyRecordReceive [header tTwinSync 0 16 0 4, w1, d, t]) s fun h =>
      (∀ k, Store.get (fun _ => 0) h.twin.image k = if k = (hiWord d).toNat then loWord d
        else Store.get (fun _ => 0) s.hub.twin.image k) ∧
      h.fld F.TW_COPY_WORDS 0 = min 0xFFFFF (s.hub.fld F.TW_COPY_WORDS 0 + 1) ∧
      (bit w1.toNat 59 = true → h.twin.stepAt = some (BitVec.ofNat 24 (bits w1.toNat 47 24))) ∧
      (bit w1.toNat 59 = false → h.twin.stepAt = s.hub.twin.stepAt)) ∧
  (∀ s p : State, p.hub.canonical = true → s.hub.fld F.TW_STAT_STATE 0 = 3 →
    s.hub.twin.stepAt = some s.hub.tag → s.hub.twin.image = p.hub.copyImage → Answers .stepBoundary s fun h =>
      (∀ a, 0x10000 ≤ a → a < 0x18000 → h.word a = p.hub.word a) ∧
      (∀ k, k < 0x4000 → Store.get (fun _ => (0 : W32)) h.bull.dmem k = Store.get (fun _ => (0 : W32)) p.hub.bull.dmem k)) ∧
  (∀ s : State, s.hub.twin.stepAt ≠ some s.hub.tag → Answers .stepBoundary s fun h => h = s.hub) ∧
  (∀ s : State, s.hub.twin.stepAt = some s.hub.tag → Answers .stepBoundary s fun h =>
    h.twin.stepAt = none ∧ h.twin.joinAt = none ∧
    (s.hub.fld F.TW_STAT_STATE 0 = 3 → h.fld F.TW_STAT_STATE 0 = 4 ∧ h.fld F.TW_CLAIM_CUR 0 = 0) ∧
    (s.hub.fld F.TW_STAT_STATE 0 = 1 → h.fld F.TW_STAT_STATE 0 = 2))

/-! ### Monitor, interlock, ports, the slot boundary -/

/-- The monitor (R528, R531, R538, R539, R543-R546): RUN and RESTART, the end of a sound entry with its value and its next sequence
number, that of a broken one with the cause of the break, and the end of a pass, which is counted. Readings and choices that it
rests on: notes/assumptions/7.md, 52.md. -/
def Obligations.MonitorMeasures : Prop :=
  (∀ (s : State) (run : Bool) (m : MonMeasure), s.hub.start.held = true →
    ∀ i ∈ [Instr.monitorRun run, .monitorRestart, .monitorEntryEnd m, .monitorPassEnd], Answers i s fun h => h = s.hub) ∧
  (∀ s : State, s.hub.start.held = false → Answers (.monitorRun false) s fun h =>
    h.flag F.MON_CTL_RUN 0 = false ∧ h.fld F.MON_STAT_PHASE 0 = 0 ∧ h.mon.due = false ∧
    s.hub.sameWords h [A.MON_CTL, A.MON_STAT]) ∧
  (∀ s : State, s.hub.start.held = false → s.hub.flag F.MON_CTL_RUN 0 = false → 0 < s.hub.fld F.MON_CTL_LEN 0 → s.hub.flag F.MON_SEQ_EN 0 = true →
    monCfgErr (s.hub.word (F.MON_SEQ_CHAN.addr 0)) = false → Answers (.monitorRun true) s fun h =>
      h.flag F.MON_CTL_RUN 0 = true ∧ h.fld F.MON_STAT_PHASE 0 = 1 ∧ h.fld F.MON_STAT_ENTRY 0 = 0 ∧
      h.mon.entry = s.hub.word (F.MON_SEQ_CHAN.addr 0) ∧ h.mon.start = s.hub.slot ∧ h.mon.len = s.hub.fld F.MON_CTL_LEN 0 ∧
      h.fld F.MON_STAT_PASSES 0 = s.hub.fld F.MON_STAT_PASSES 0) ∧
  (∀ s : State, s.hub.start.held = false → s.hub.flag F.MON_CTL_RUN 0 = false → Answers .monitorRestart s fun h =>
    (∀ e < 32, h.word (F.MON_RES_VALUE.addr e) = 0x800000#32 ∧ h.flag F.MON_ESTAT_INBAND e = true) ∧
    h.fld F.MON_STAT_PHASE 0 = 0) ∧
  (∀ (s : State) (m : MonMeasure), s.hub.monIdle = true → s.hub.flag F.MON_CTL_RUN 0 = false →
    Answers (.monitorEntryEnd m) s fun h => h = s.hub) ∧
  (∀ (s : State) (m : MonMeasure) (x : Int), s.hub.start.held = false → s.hub.monIdle = false → monTwo s.hub.mon.entry = false →
    monRaw s.hub.mon.entry m.vinA m.vref = some x → F.MON_SEQ_WEN.get s.hub.mon.entry = 0 →
    m.moved ≤ 25000 → m.railRun < 16 →
    monCurrent s.hub.mon.entry = false ∨ (s.hub.mon.excBad = false ∧ s.hub.flag F.MON_EXC_EN 0 = true ∧
      5 ≤ s.hub.fld F.MON_EXC_CURR 0 ∧ 5 ≤ m.excLow ∧ m.excHigh ≤ 10500 ∧ 0 ≤ m.compLow ∧ m.compHigh ≤ 2000) →
    let e := s.hub.fld F.MON_STAT_ENTRY 0
    Answers (.monitorEntryEnd m) s fun h =>
      h.fld F.MON_RES_VALUE e = field 24 (clamp (-0x7FFFFF) 0x7FFFFE x) ∧ h.fld F.MON_RES_VALID e = 1 ∧
      h.fld F.MON_RES_BREAK e = 0 ∧ h.fld F.MON_RES_OVR e = (if 0x7FFFFE < x ∨ x < -0x7FFFFF then 1 else 0) ∧
      h.fld F.MON_RES_SEQ e = (s.hub.fld F.MON_RES_SEQ e + 1) % 16 ∧ h.queues = s.hub.queues) ∧
  (∀ (s : State) (m : MonMeasure), s.hub.start.held = false → s.hub.monIdle = false →
    F.MON_SEQ_WEN.get s.hub.mon.entry = 0 → s.hub.flag F.MON_REC_ON_BRK 0 = false →
    let e := s.hub.fld F.MON_STAT_ENTRY 0
    let w := s.hub.mon.entry
    let burnOut : Prop := monPin w = true ∧ F.MON_SEQ_BRKCHK.get w = 1 ∧ 25000 < m.moved
    let broken (cause : Nat) : Prop := Answers (.monitorEntryEnd m) s fun h =>
      h.fld F.MON_RES_VALUE e = 0x7FFFFF ∧ h.fld F.MON_RES_VALID e = 1 ∧ h.fld F.MON_RES_BREAK e = 1 ∧ h.fld F.MON_RES_OVR e = 0 ∧
      h.fld F.MON_ESTAT_CAUSE e = cause ∧ h.flag F.MON_ESTAT_BRK e = true ∧ bit (h.fld F.MON_BRK_BRK 0) e = true ∧
      s.hub.counted h F.MON_BRKCNT_COUNT 0 1 ∧ h.queues = s.hub.queues
    (burnOut → monCurrent w = false → m.railRun < 16 → broken 1) ∧
    (¬ burnOut → monCurrent w = true → s.hub.flag F.MON_EXC_EN 0 = false → m.railRun < 16 → broken 2) ∧
    (¬ burnOut → monCurrent w = false → 16 ≤ m.railRun → broken 3)) ∧
  (∀ s : State, s.hub.mon.due = false → Answers .monitorPassEnd s fun h => h = s.hub) ∧
  (∀ s : State, s.hub.start.held = false → s.hub.mon.due = true → Answers .monitorPassEnd s fun h =>
    h.fld F.MON_STAT_PASSES 0 = (s.hub.fld F.MON_STAT_PASSES 0 + 1) % 65536 ∧
    (s.hub.flag F.MON_CTL_RUN 0 = false → h.mon.due = false))

/-- The bias interlock (R549-R566): a contact that opens breaks the chain and takes both outputs away, disagreement for its time and
internal faults break it too, a feedback that differs for its time or a test pulse that fails locks its output out, the two-word key
of a packet enables an output while the chain is closed, and ILK_CLR lifts a lockout of an output that is off and low for its time.
Readings and choices that it rests on: notes/assumptions/7.md, 53.md, 54.md. -/
def Obligations.InterlockActs : Prop :=
  (∀ (s : State) (i : Fin 4) (level : Bool), Answers (.ilkInputChange (.contact i) level) s fun h =>
    bit (h.fld F.ILK_STAT_CONTACTS 0) i = level ∧
    (level = false → h.flag F.ILK_STAT_CHAIN 0 = false) ∧
    (level = false → s.hub.flag F.ILK_STAT_CHAIN 0 = true → h.fld F.ILK_STAT_EN 0 = 0 ∧ h.ilk.grant = 0 ∧ h.ilk.demand = true)) ∧
  (∀ (s : State) (n : Fin 2), s.hub.discMay n = true → s.hub.strapWatches n = true → s.hub.disagree n = true → s.hub.ilkBit F.ILK_STAT_DISC n = false →
    Answers (.discrepancyFault n) s fun h => h.ilkBit F.ILK_STAT_DISC n = true ∧ h.flag F.ILK_STAT_CHAIN 0 = false ∧
      (s.hub.flag F.ILK_STRAP_STRAPF 0 = true → h.fld F.ILK_CAUSE_CAUSE 0 = 1 + n)) ∧
  (∀ (s : State) (n : Fin 2), s.hub.disagree n = false ∨ s.hub.discMay n = false → Answers (.discrepancyFault n) s fun h => h = s.hub) ∧
  (∀ (s : State) (n : Fin 2), s.hub.ilkBit F.ILK_STAT_LOCK n = false →
    (s.hub.offMay n = true → Answers (.feedbackLockout n) s fun h =>
      h.ilkBit F.ILK_STAT_LOCK n = true ∧ h.ilkBit F.ILK_STAT_EN n = false ∧ h.ilk.grant.getLsbD n = false) ∧
    (s.hub.offMay n = false → Answers (.feedbackLockout n) s fun h => h = s.hub) ∧
    (s.hub.ilkBit F.ILK_STAT_EN n = true → Answers (.testPulse n false) s fun h =>
      h.ilkBit F.ILK_STAT_LOCK n = true ∧ h.ilkBit F.ILK_STAT_EN n = false)) ∧
  (∀ (s : State) (n : Fin 2) (ok : Bool), s.hub.ilkBit F.ILK_STAT_EN n = false →
    Answers (.testPulse n ok) s fun h => h = s.hub) ∧
  (∀ (s : State) (n : Fin 2), s.hub.ilkBit F.ILK_STAT_EN n = true → Answers (.testPulse n true) s fun h =>
    h.regs = s.hub.regs ∧ h.ilk.grant = s.hub.ilk.grant ∧ 0 < (if n = 0 then h.ilk.pause0 else h.ilk.pause1)) ∧
  (∀ (s : State) (tick : BitVec 16), s.hub.start.held = false → Answers (.rcCheck tick) s fun h =>
    h.fld F.ILK_RC_TICK 0 = tick.toNat ∧
    (let f := 16 * s.hub.fld F.RT_BCFREQ_FREQ 0
     (9 * f ≤ tick.toNat * 1000000 → tick.toNat * 1000000 ≤ 11 * f → s.hub.onlyWords h [A.ILK_RC]) ∧
     (s.hub.flag F.RT_CLK_LOCK 0 = true → tick.toNat * 1000000 < 9 * f ∨ 11 * f < tick.toNat * 1000000 →
       h.fld F.ILK_CAUSE_CAUSE 0 = 8))) ∧
  (∀ s : State, s.hub.start.held = false → Answers (.ilkInternalFault false) s fun h =>
    s.hub.counted h F.ILK_VOTEFIX_COUNT 0 1 ∧ s.hub.onlyWords h [A.ILK_VOTEFIX]) ∧
  (∀ s : State, s.hub.flag F.ILK_STAT_INTF 0 = false → Answers (.ilkInternalFault true) s fun h =>
    h.flag F.ILK_STAT_INTF 0 = true ∧ h.flag F.ILK_STAT_CHAIN 0 = false) ∧
  (∀ (s : State) (v : W32), s.hub.pk.cur = none → Answers (.ilkReqWrite v) s fun h => h = s.hub) ∧
  (∀ (s : State) (v : W32) (x : Exec), s.hub.pk.cur = some x →
    let mask := BitVec.ofNat 2 (F.ILK_REQ_MASK.get v)
    (F.ILK_REQ_KEY.get v = 0x6B6B → Answers (.ilkReqWrite v) s fun h =>
      (h.pk.cur.map fun y => y.ilkKey) = some (some mask) ∧ h.regs = s.hub.regs) ∧
    (F.ILK_REQ_KEY.get v = 0x9494 → x.ilkKey = some mask → s.hub.flag F.ILK_STAT_CHAIN 0 = true →
      s.hub.flag F.ILK_STAT_S09OK 0 = true → BitVec.ofNat 2 (s.hub.fld F.ILK_STAT_LOCK 0) &&& mask = 0 →
      Answers (.ilkReqWrite v) s fun h =>
        h.ilk.grant = s.hub.ilk.grant ||| mask ∧ h.fld F.ILK_STAT_EN 0 = s.hub.fld F.ILK_STAT_EN 0 ||| mask.toNat) ∧
    (F.ILK_REQ_KEY.get v = 0x9494 → x.ilkKey = some mask → s.hub.flag F.ILK_STAT_CHAIN 0 = false →
      Answers (.ilkReqWrite v) s fun h => s.hub.counted h F.ILK_REFCNT_COUNT 0 1 ∧ h.ilk = s.hub.ilk) ∧
    (F.ILK_REQ_KEY.get v = 0x9494 → x.ilkKey ≠ some mask → Answers (.ilkReqWrite v) s fun h =>
      h.ilk = s.hub.ilk ∧ h.regs = s.hub.regs)) ∧
  (∀ (s : State) (v : W32), s.hub.start.held = false → Answers (.ilkOff v) s fun h =>
    (∀ n < 2, bit (F.ILK_OFF_MASK.get v) n = true → h.ilkBit F.ILK_STAT_EN n = false ∧ h.ilk.grant.getLsbD n = false) ∧
    (∀ n < 2, bit (F.ILK_OFF_MASK.get v) n = false → h.ilkBit F.ILK_STAT_EN n = s.hub.ilkBit F.ILK_STAT_EN n)) ∧
  (∀ (s : State) (v : W32) (n : Fin 2), s.hub.start.held = false → s.hub.ilkBit F.ILK_STAT_LOCK n = true →
    let low := (if n = 0 then s.hub.ilk.fbLow0 else s.hub.ilk.fbLow1) * s.hub.slotLen / 1024
    (bit (F.ILK_CLR_MASK.get v) n = true → s.hub.ilkBit F.ILK_STAT_EN n = false → s.hub.ilkBit F.ILK_STAT_FB n = false →
      105000000 ≤ low → Answers (.ilkClr v) s fun h => h.ilkBit F.ILK_STAT_LOCK n = false) ∧
    (bit (F.ILK_CLR_MASK.get v) n = false ∨ s.hub.ilkBit F.ILK_STAT_EN n = true ∨ s.hub.ilkBit F.ILK_STAT_FB n = true ∨
      low < 95000000 → Answers (.ilkClr v) s fun h => h.ilkBit F.ILK_STAT_LOCK n = true))

/-- The Tether port, the peripheral ports and the GPIO pins (R571-R576, R580-R584). Readings and choices that it rests on:
notes/assumptions/7.md, 55.md, 56.md, 104.md. -/
def Obligations.PortsAct : Prop :=
  (∀ (s : State) (edges : Nat) (ws : List W32) (nr : Bool), s.hub.start.held = true ∨ s.hub.pastS02 = false →
    Answers (.tetherFrame edges ws nr) s fun h => h = s.hub) ∧
  (∀ (s : State) (edges : Nat) (ws : List W32) (nr : Bool), s.hub.start.held = false → s.hub.pastS02 = true →
    edges / 32 ≤ ws.length → s.hub.tether.lenNext = none →
    let code := s.hub.tetherReject edges (ws.headD 0) (((ws.take (s.hub.tether.len / 32)).drop 1).flatMap bytes32) nr
    (edges % 32 ≠ 0 → code = 1) ∧ (edges % 32 = 0 → edges < s.hub.tether.len → code = 2) ∧
    (edges % 32 = 0 → s.hub.tether.len < edges → code = 3) ∧
    (code ≠ 0 → Answers (.tetherFrame edges ws nr) s fun h =>
      s.hub.counted h F.TT_REJCNT_COUNT 0 1 ∧ h.fld F.TT_STAT_LASTREJ 0 = code ∧ h.tether.trej.toNat = code ∧
      h.tether.pkt = s.hub.tether.pkt ∧ h.tether.out = s.hub.tether.out ∧ h.tether.ready = s.hub.tether.out.length ∧ h.pk = s.hub.pk) ∧
    (code = 0 → Answers (.tetherFrame edges ws nr) s fun h => s.hub.counted h F.TT_FRAMES_COUNT 0 1 ∧
      h.fld F.TT_REJCNT_COUNT 0 = s.hub.fld F.TT_REJCNT_COUNT 0) ∧
    (s.hub.tether.out = [] → Answers (.tetherFrame edges ws nr) s fun h =>
      h.tether.resp = BitVec.ofNat 32 (s.hub.fld F.TT_STAT_REJCNT 0 % 16 * 2 ^ 24 + s.hub.fld F.TT_STAT_LASTREJ 0 % 256 * 2 ^ 16) ::
        List.replicate (s.hub.tetherRoom / 4) 0) ∧
    (∀ (b : List W8) (first : Bool) (rest : List (List W8 × Bool)), s.hub.tether.out = (b, first) :: rest → 0 < s.hub.tether.ready →
      Answers (.tetherFrame edges ws nr) s fun h =>
        h.tether.resp.headD 0 = s.hub.trsp first (decide (b.length ≤ s.hub.tetherRoom)) (min s.hub.tetherRoom b.length))) ∧
  (∀ (s : State) (v : W32), s.hub.start.held = false → Answers (.ttLenWrite v) s fun h =>
    h.fld F.TT_LEN_LEN 0 = max 32 (min 4096 (F.TT_LEN_LEN.get v / 32 * 32)) ∧ h.tether.len = s.hub.tether.len ∧
    (s.hub.pk.cur = none → h.tether.lenNext = some (h.fld F.TT_LEN_LEN 0) ∧ h.tether.lenLate = false) ∧
    (∀ x, s.hub.pk.cur = some x → h.pk.cur = some { x with ttLen := some (h.fld F.TT_LEN_LEN 0) } ∧ h.tether = s.hub.tether)) ∧
  (∀ (s : State) (n : Fin 2), s.hub.start.held = false → Answers (.portGo n) s fun h =>
    s.hub.onlyWords h [F.PN_STAT_BUSY.addr n] ∧ h.flag F.PN_STAT_BUSY n = true ∧
    (s.hub.flag F.PN_STAT_BUSY n = true → h.flag F.PN_STAT_GOERR n = true) ∧
    (s.hub.flag F.PN_STAT_BUSY n = false → h.flag F.PN_STAT_DONE n = false ∧ h.flag F.PN_STAT_ABORTED n = false ∧
      h.flag F.PN_STAT_TIMEOUT n = false ∧ h.fld F.PN_STAT_BITS n = 0)) ∧
  (∀ (s : State) (n : Fin 2) (rx : List Bool), s.hub.flag F.PN_STAT_BUSY n = false →
    Answers (.portAbort n rx) s (fun h => h = s.hub) ∧ Answers (.portTransferEnd n rx) s (fun h => h = s.hub) ∧
    Answers (.portRdyTimeout n rx) s fun h => h = s.hub) ∧
  (∀ (s : State) (n : Fin 2) (rx : List Bool), s.hub.flag F.PN_STAT_BUSY n = true →
    let ended (h : Hub) : Prop := h.flag F.PN_STAT_BUSY n = false ∧ h.flag F.PN_STAT_DONE n = true
    Answers (.portAbort n rx) s (fun h => ended h ∧ h.flag F.PN_STAT_ABORTED n = true ∧
      h.fld F.PN_STAT_BITS n = min (s.hub.fld F.PN_LEN_BITS n) rx.length) ∧
    Answers (.portTransferEnd n rx) s (fun h => ended h ∧ h.fld F.PN_STAT_BITS n = s.hub.fld F.PN_LEN_BITS n ∧
      (∀ k b, k < s.hub.fld F.PN_LEN_BITS n → rx[k]? = some b →
        (h.bankWord (portKey n (k / 32))).getLsbD (31 - k % 32) = b)) ∧
    (s.hub.flag F.PN_CFG_RDY_EN n = true → Answers (.portRdyTimeout n rx) s fun h =>
      ended h ∧ h.flag F.PN_STAT_TIMEOUT n = true)) ∧
  (∀ (s : State) (v : W32), s.hub.start.held = false →
    Answers (.gpioSet v) s (fun h => h.fld F.GPIO_OUT_OUT 0 = s.hub.fld F.GPIO_OUT_OUT 0 ||| F.GPIO_SET_SET.get v ∧
      s.hub.onlyWords h [A.GPIO_OUT]) ∧
    Answers (.gpioClr v) s fun h => h.fld F.GPIO_OUT_OUT 0 = s.hub.fld F.GPIO_OUT_OUT 0 &&& (255 - F.GPIO_CLR_CLR.get v) ∧
      s.hub.onlyWords h [A.GPIO_OUT])

/-- A slot boundary (R12, R42-R44, R60, R128, R141, R149, R150): SLOT_COUNT, TIME_NS and POS advance by one slot once the root PLL
has locked, whatever else the boundary does in a hub outside twin operation with no fast command scheduled; where a COMMIT, an armed
SYNC, a SNAP and an ORBIT are due at one boundary they act in this order; a hub held in reset does nothing. Of the amplitude chain:
the four samples of the slot that ends enter stage A in their order, and three outputs make one word of the latency memory. Readings
and choices that it rests on: notes/assumptions/7.md, 15.md, 76.md. -/
def Obligations.SlotBoundaryCounts : Prop :=
  (∀ (s : State) (x : SlotIn), s.hub.start.held = true → Answers (.slotBoundary x) s fun h => h = s.hub) ∧
  (∀ (s : State) (x : SlotIn), s.hub.start.held = false → s.hub.parked = false → s.hub.twin.stepAt = none →
    s.hub.pk.apply = none → (∀ t, s.hub.bull.task = some t → t.slot < 16) →
    (s.hub.rooster.sched = [] → Answers (.slotBoundary x) s fun h =>
      let acc := s.hub.fld F.RT_TIME_NS_NS 0 * 2 ^ 24 + s.hub.rooster.frac.toNat + 16 * s.hub.fld F.RT_TNSINC_INC 0
      let pos := s.hub.fld F.RT_ORBIT_POS 0 + 1
      (s.hub.rooster.counting = true → h.slot = s.hub.slot + 1#48 ∧ h.fld F.RT_TIME_NS_NS 0 = acc / 2 ^ 24 % 2 ^ 32 ∧
        h.rooster.frac = BitVec.ofNat 24 acc ∧ h.fld F.RT_ORBIT_POS 0 = if pos < s.hub.fld F.RT_ORBIT_LEN 0 then pos else 0) ∧
      (s.hub.rooster.counting = false → h.slot = s.hub.slot ∧ h.fld F.RT_TIME_NS_NS 0 = s.hub.fld F.RT_TIME_NS_NS 0 ∧
        h.fld F.RT_ORBIT_POS 0 = s.hub.fld F.RT_ORBIT_POS 0)) ∧
    (s.hub.mode = mSetup → s.hub.rooster.counting = true → s.hub.flag F.CHN_STAT_RUNNING 0 = false → s.hub.mule.drain = none →
      s.hub.shadow = [] → s.hub.flag F.RT_TSARM_ARM 0 = true →
      (let q := s.hub.slot + 1#48
       s.hub.rooster.sched = [(Fc.orbit, q), (Fc.snap, q), (Fc.sync, q), (Fc.commit, q)]) →
      let slot := s.hub.fld F.RT_SLOTSET_LO_V 0 + s.hub.fld F.RT_SLOTSET_HI_V 0 * 2 ^ 32
      Answers (.slotBoundary x) s fun h =>
        h.fld F.COMMIT_STAT_LAST 0 = (s.hub.slot + 1#48).toNat % 2 ^ 24 ∧
        h.slot = BitVec.ofNat 48 slot ∧ h.fld F.RT_TIME_NS_NS 0 = s.hub.fld F.RT_TNSSET_V 0 ∧ h.flag F.RT_TSARM_ARM 0 = false ∧
        h.fld F.SNAP_STAT_LAST 0 = slot % 2 ^ 24 ∧
        h.fld F.RT_ORBIT_POS 0 = 0 ∧ h.fld F.RT_ORBSLIP_COUNT 0 = s.hub.fld F.RT_ORBSLIP_COUNT 0 ∧ h.rooster.sched = [])) ∧
  (∀ (h : Hub) (c : Fin 512) (p : Fin 544) (adc : List AdcIn) (s0 s1 s2 s3 : Raw), h.flag F.CHN_STAT_RUNNING 0 = true →
    h.liveSlot c = some p.val → adc.find? (fun a => a.p == p) = some ⟨p, s0, s1, s2, s3⟩ →
    (h.chainSlots_ adc).chainSlots = h.chainSlots + 1 ∧ ((h.chainSlots_ adc).chainOf c).nb = (h.chainOf c).nb + 4 ∧
    ((h.chainSlots_ adc).chainOf c).hist.take 4 = [s3, s2, s1, s0].map fun r =>
      (((h.stageA c p r).1).1, (h.stageA c p r).2)) ∧
  (∀ (h : Hub) (c : Fin 512) (p : Fin 544) (x : Raw), h.rangeMode c = 1 ∨ h.rangeMode c = 2 →
    let lg : Bool := h.rangeMode c == 2
    let ofs := if lg then h.sfld F.ADC_OFS_OFS_LG p else h.sfld F.ADC_OFS_OFS_HG p
    let gain : Int := if lg then h.fld F.ADC_GLG_GAIN p else h.fld F.ADC_GHG_GAIN p
    let v := roundDiv (((x.code.toNat : Int) * 16 - ofs) * gain) (2 ^ (20 + h.fld F.CH_CHAIN_SHIFT_A c)) + h.fld F.CH_PED_PED c
    ((h.stageA c p x).1).1 = BitVec.ofNat 16 (satU 16 v) ∧
    (65535 < v → ((h.stageA c p x).1).2 = 3) ∧ (v ≤ 65535 → ((h.stageA c p x).1).2 = if x.full then 3 else 0)) ∧
  (∀ (h : Hub) (c : Fin 512) (n : Nat) (y0 y1 y2 : BitVec 16 × BitVec 2), n % 3 = 0 → h.fld F.CH_SETTLE_K c ≤ n →
    (h.chainOf c).part = [] →
    let v (y : BitVec 16 × BitVec 2) : Nat := y.2.toNat * 2 ^ 16 + y.1.toNat
    let h' := ((h.capture3 c n y0).capture3 c (n + 1) y1).capture3 c (n + 2) y2
    Store.get (fun _ => (0 : W64)) h'.lmem (lmemKey c n) = BitVec.ofNat 64 (v y0 + v y1 * 2 ^ 18 + v y2 * 2 ^ 36) ∧
    (∀ k, k ≠ lmemKey c n → Store.get (fun _ => (0 : W64)) h'.lmem k = Store.get (fun _ => (0 : W64)) h.lmem k) ∧
    (h'.chainOf c).part = [] ∧ (h'.chainOf c).stored = n + 3 ∧
    h'.fld F.CH_SATCNT_COUNT c =
      min (2 ^ F.CH_SATCNT_COUNT.width - 1) (h.fld F.CH_SATCNT_COUNT c + ([y0, y1, y2].filter fun y => y.2 == 3).length))

/-! ### Belouz -/

/-- The instructions that only compute, on both cores (R188, R197-R199, R204, R209, R212, R269): each writes its register, or its
pair, and CS where its row says so, and goes on at the next address; a field that must be zero and is not raises ILLEGAL. -/
def Obligations.RegisterInstructions : Prop :=
  (∀ x ∈ ([(.add, 1, fun a b => a + b), (.sub, 1, fun a b => a - b), (.and, 1, fun a b => a &&& b), (.or, 1, fun a b => a ||| b),
      (.xor, 1, fun a b => a ^^^ b), (.andn, 1, fun a b => a &&& ~~~b),
      (.sll, 1, fun a b => BitVec.ofNat 32 (a.toNat * 2 ^ (b.toNat % 32))),
      (.srl, 1, fun a b => BitVec.ofNat 32 (a.toNat / 2 ^ (b.toNat % 32))),
      (.sra, 1, fun a b => BitVec.ofInt 32 (a.toInt / (2 ^ (b.toNat % 32) : Nat))),
      (.ror, 1, fun a b => a >>> (b.toNat % 32) ||| a <<< (32 - b.toNat % 32)),
      (.slt, 1, fun a b => if a.toInt < b.toInt then 1 else 0), (.sltu, 1, fun a b => if a.toNat < b.toNat then 1 else 0),
      (.min, 1, fun a b => if a.toInt < b.toInt then a else b), (.max, 1, fun a b => if a.toInt < b.toInt then b else a),
      (.minu, 1, fun a b => if a.toNat < b.toNat then a else b), (.maxu, 1, fun a b => if a.toNat < b.toNat then b else a),
      (.mul, 2, fun a b => a * b), (.mulh, 2, fun a b => BitVec.ofInt 32 (a.toInt * b.toInt / (2 ^ 32 : Nat))),
      (.mulhu, 2, fun a b => BitVec.ofNat 32 (a.toNat * b.toNat / 2 ^ 32))] : List (RegForm × Nat × (W32 → W32 → W32))),
    ∀ (s : State) (p : Place) (rd rs1 rs2 : BitVec 5),
      let c := s.hub.ctxAt p
      Completes (x.1 p rd rs1 rs2) s p false limPlain x.2.1 (c.pc + 1) (s.hub.ready p)
        (c.setG rd.toNat (x.2.2 (c.gr rs1.toNat) (c.gr rs2.toNat)))) ∧
  (∀ x ∈ ([(.adds, fun a b => a + b), (.subs, fun a b => a - b)] : List (RegForm × (Int → Int → Int))),
    ∀ (s : State) (p : Place) (rd rs1 rs2 : BitVec 5),
      let c := s.hub.ctxAt p
      let r := x.2 (c.gr rs1.toNat).toInt (c.gr rs2.toNat).toInt
      let sat := 2 ^ 31 ≤ r ∨ r < -2 ^ 31
      Completes (x.1 p rd rs1 rs2) s p false limPlain 1 (c.pc + 1) (s.hub.ready p)
        ((c.setG rd.toNat (BitVec.ofInt 32 (max (-2 ^ 31) (min (2 ^ 31 - 1) r)))).flags 0 (if sat then csASAT else 0))) ∧
  (∀ (s : State) (p : Place) (rd rs1 : BitVec 5),
    let c := s.hub.ctxAt p
    let a := c.gr rs1.toNat
    (∃ n : Nat, (a = 0 → n = 32) ∧ (a ≠ 0 → n < 32 ∧ 2 ^ (31 - n) ≤ a.toNat ∧ a.toNat < 2 ^ (32 - n)) ∧
      Completes (.clz p rd rs1 0) s p false limPlain 1 (c.pc + 1) (s.hub.ready p) (c.setG rd.toNat (BitVec.ofNat 32 n))) ∧
    Completes (.popc p rd rs1 0) s p false limPlain 1 (c.pc + 1) (s.hub.ready p)
      (c.setG rd.toNat (BitVec.ofNat 32 ((List.range 32).filter fun k => a.getLsbD k).length)) ∧
    (∀ rs2, rs2 ≠ 0 → Traps (.clz p rd rs1 rs2) s p false limPlain 1 ∧ Traps (.popc p rd rs1 rs2) s p false limPlain 1)) ∧
  (∀ x ∈ ([(.addi, fun a k => a + k.signExtend 32), (.andi, fun a k => a &&& k.setWidth 32), (.ori, fun a k => a ||| k.setWidth 32),
      (.xori, fun a k => a ^^^ k.setWidth 32), (.slti, fun a k => if a.toInt < k.toInt then 1 else 0),
      (.sltiu, fun a k => if a.toNat < (k.signExtend 32).toNat then 1 else 0)] : List (ImmForm × (W32 → BitVec 10 → W32))),
    ∀ (s : State) (p : Place) (rd rs1 : BitVec 5) (imm : BitVec 10),
      let c := s.hub.ctxAt p
      Completes (x.1 p rd rs1 0 imm) s p false limPlain 1 (c.pc + 1) (s.hub.ready p)
        (c.setG rd.toNat (x.2 (c.gr rs1.toNat) imm)) ∧
      (∀ rs2, rs2 ≠ 0 → Traps (x.1 p rd rs1 rs2 imm) s p false limPlain 1)) ∧
  (∀ x ∈ ([(.slli, fun a k => BitVec.ofNat 32 (a.toNat * 2 ^ k)), (.srli, fun a k => BitVec.ofNat 32 (a.toNat / 2 ^ k)),
      (.srai, fun a k => BitVec.ofInt 32 (a.toInt / (2 ^ k : Nat)))] : List (ImmForm × (W32 → Nat → W32))),
    ∀ (s : State) (p : Place) (rd rs1 rs2 : BitVec 5) (imm : BitVec 10),
      let c := s.hub.ctxAt p
      (rs2 = 0 → imm.toNat < 32 → Completes (x.1 p rd rs1 rs2 imm) s p false limPlain 1 (c.pc + 1) (s.hub.ready p)
        (c.setG rd.toNat (x.2 (c.gr rs1.toNat) imm.toNat))) ∧
      (rs2 ≠ 0 ∨ 32 ≤ imm.toNat → Traps (x.1 p rd rs1 rs2 imm) s p false limPlain 1)) ∧
  (∀ x ∈ ([(.extu, fun _ a p w k => decide (k < w) && a.getLsbD (p + k)),
      (.exts, fun _ a p w k => a.getLsbD (p + min k (min w (32 - p) - 1))),
      (.ins, fun old a p w k => if p ≤ k ∧ k < p + w then a.getLsbD (k - p) else old.getLsbD k)] :
        List (ImmForm × (W32 → W32 → Nat → Nat → Nat → Bool))),
    ∀ (s : State) (p : Place) (rd rs1 rs2 : BitVec 5) (imm : BitVec 10),
      let c := s.hub.ctxAt p
      (imm.toNat < 32 → ∃ w : W32,
        (∀ k < 32, w.getLsbD k = x.2 (c.gr rd.toNat) (c.gr rs1.toNat) rs2.toNat (imm.toNat + 1) k) ∧
        Completes (x.1 p rd rs1 rs2 imm) s p false limPlain 1 (c.pc + 1) (s.hub.ready p) (c.setG rd.toNat w)) ∧
      (32 ≤ imm.toNat → Traps (x.1 p rd rs1 rs2 imm) s p false limPlain 1)) ∧
  (∀ (s : State) (p : Place) (rd : BitVec 5) (hi : BitVec 4) (imm : BitVec 16),
    let c := s.hub.ctxAt p
    (hi = 0 → Completes (.movl p rd hi imm) s p false limPlain 1 (c.pc + 1) (s.hub.ready p)
        (c.setG rd.toNat (BitVec.ofNat 32 imm.toNat)) ∧
      Completes (.movh p rd hi imm) s p false limPlain 1 (c.pc + 1) (s.hub.ready p)
        (c.setG rd.toNat (BitVec.ofNat 32 (imm.toNat * 2 ^ 16 + (c.gr rd.toNat).toNat % 2 ^ 16)))) ∧
    (hi ≠ 0 → Traps (.movl p rd hi imm) s p false limPlain 1 ∧ Traps (.movh p rd hi imm) s p false limPlain 1)) ∧
  (∀ (s : State) (p : Place) (rd rs1 rs2 : BitVec 5) (imm : BitVec 10),
    let c := s.hub.ctxAt p
    let a := c.gr rs1.toNat
    let b := c.gr rs2.toNat
    let q := rs1.toNat
    let pairOk := rd.toNat % 2 = 0 ∧ 2 ≤ rd.toNat ∧ rd.toNat ≤ 28
    let twice (lo hi : W32) : Ctx := (c.setG rd.toNat lo).setG (rd.toNat + 1) hi
    let head := header (bits a.toNat 5 0) (s.hub.fld F.HUB_ADDR_ADDR 0) (bits a.toNat 11 6) (bits b.toNat 23 0) (bits a.toNat 23 12)
    let stag : W32 := match imm.toNat % 4 with
      | 0 => BitVec.ofNat 32 (s.hub.slot.toNat % 2 ^ 24)
      | 1 => BitVec.ofNat 32 ((s.hub.slot.toNat + 2 ^ 48 - 6) % 2 ^ 24)
      | 2 => BitVec.ofNat 32 (s.hub.fld F.RT_ORBIT_POS 0)
      | _ => BitVec.ofNat 32 (s.hub.fld F.RT_TIME_NS_NS 0)
    Completes (.nop p) s p p.vec limPlain 1 (c.pc + 1) (s.hub.ready p) c ∧
    (pairOk → Completes (.hdr p rd rs1 rs2 imm) s p false limReads 1 (c.pc + 1) (s.hub.ready p)
        (twice (BitVec.ofNat 32 (head.toNat % 2 ^ 32)) (BitVec.ofNat 32 (head.toNat / 2 ^ 32))) ∧
      Completes (.gapw p rd rs1 rs2 imm) s p false limReads 1 (c.pc + 1) (s.hub.ready p)
        (twice (BitVec.ofNat 32 (a.toNat % 256 * 2 ^ 24 + b.toNat % 2 ^ 24))
          (BitVec.ofNat 32 (imm.toNat % 256 * 2 ^ 24 + a.toNat % 2 ^ 24 / 256)))) ∧
    (¬ pairOk → Traps (.hdr p rd rs1 rs2 imm) s p false limReads 1 ∧ Traps (.gapw p rd rs1 rs2 imm) s p false limReads 1) ∧
    (rs2 = 0 → Completes (.stag p rd rs1 rs2 imm) s p false limReads 1 (c.pc + 1) (s.hub.ready p) (c.setG rd.toNat stag) ∧
      Completes (.qstat p rd rs1 rs2 imm) s p false limReads 1 (c.pc + 1) (s.hub.ready p)
        (c.setG rd.toNat (BitVec.ofNat 32 (s.hub.fld F.Q_STAT_DEPTH q + s.hub.fld F.Q_STAT_FULL q * 2 ^ 5
          + s.hub.fld F.Q_STAT_ABOVE q * 2 ^ 6 + s.hub.fld F.Q_STAT_DISCARD q * 2 ^ 7 + s.hub.fld F.Q_STAT_OVF q * 2 ^ 15
          + s.hub.fld F.Q_STAT_PEND q * 2 ^ 16))) ∧
      Completes (.mfcs p rd rs1 rs2 imm) s p false limReads 1 (c.pc + 1) (s.hub.ready p)
        (c.setG rd.toNat (csShown c.cs (inBackground p.who) (if onBull p.who then 0x20 else s.hub.oxId (engineOf p.who)))) ∧
      Completes (.mtcs p rd rs1 rs2 imm) s p false limReads 1 (c.pc + 1) (s.hub.ready p) { c with cs := c.cs &&& ~~~(a &&& 0x1F#32) }) ∧
    (rs2 ≠ 0 → ∀ i ∈ ([.stag, .qstat, .mfcs, .mtcs] : List ImmForm), Traps (i p rd rs1 rs2 imm) s p false limReads 1))

/-- Loads, stores, branches and jumps, on both cores (R188, R191, R193-R195, R198): what a load gives and where a store writes, with
every other byte as it was; where a branch or jump goes, and its link; the exceptions ADDRESS, ALIGN, ILLEGAL and UNCORR; and
ILLEGAL where the word fetched is no instruction (R197), whatever stands in its place. Readings and choices that it rests on:
notes/assumptions/26.md, 30.md. -/
def Obligations.MemoryAndFlow : Prop :=
  (∀ x ∈ ([(.ld, 4, false), (.ldh, 2, true), (.ldhu, 2, false), (.ldb, 1, true), (.ldbu, 1, false)] : List (MemForm × Nat × Bool)),
    ∀ (s : State) (p : Place) (rd rs1 rs2 : BitVec 5) (imm : BitVec 10),
      let c := s.hub.ctxAt p
      let n := x.2.1
      let a := (c.gr rs1.toNat + imm.signExtend 32 * BitVec.ofNat 32 n).toNat
      let v := s.hub.numberAt p a n
      (rs2 = 0 → a + n ≤ dataBytes p → a % n = 0 → s.hub.isBad p.who false (dataIndex p (a / 4)) = false →
        Completes (x.1 p rd rs1 rs2 imm .ok) s p false limReads 2 (c.pc + 1) (s.hub.ready p)
          (c.setG rd.toNat (if x.2.2 then BitVec.ofInt 32 (signed (8 * n) v) else BitVec.ofNat 32 v))) ∧
      (rs2 = 0 → dataBytes p < a + n → ∀ e, Traps (x.1 p rd rs1 rs2 imm e) s p false limReads 4) ∧
      (rs2 = 0 → a + n ≤ dataBytes p → a % n ≠ 0 → ∀ e, Traps (x.1 p rd rs1 rs2 imm e) s p false limReads 3) ∧
      (rs2 ≠ 0 → ∀ e, Traps (x.1 p rd rs1 rs2 imm e) s p false limReads 1) ∧
      (rs2 = 0 → a + n ≤ dataBytes p → a % n = 0 → onBull p.who = true → a / 4 ∈ s.hub.bull.badD → s.hub.may p false limReads 2 →
        ∀ e, Answers (x.1 p rd rs1 rs2 imm e) s fun h =>
          h = s.hub.settled (((s.hub.ready p).wordError p.who false 1 (a / 4) false).bullFails (inBackground p.who) 5))) ∧
  (∀ x ∈ ([((fun p rd rs1 rs2 imm _ => .st p rd rs1 rs2 imm), 4), (.sth, 2), (.stb, 1)] : List (MemForm × Nat)),
    ∀ (s : State) (p : Place) (rd rs1 rs2 : BitVec 5) (imm : BitVec 10),
      let c := s.hub.ctxAt p
      let n := x.2
      let a := (c.gr rs1.toNat + imm.signExtend 32 * BitVec.ofNat 32 n).toNat
      (rd = 0 → a + n ≤ dataBytes p → a % n = 0 → n = 4 ∨ s.hub.isBad p.who false (dataIndex p (a / 4)) = false →
        s.hub.may p false {} 1 → s.hub.mayGo p (c.pc + 1) → Answers (x.1 p rd rs1 rs2 imm .ok) s fun h =>
          (∀ b, h.byteAt p b = if a ≤ b ∧ b < a + n then (c.gr rs2.toNat).toNat / 2 ^ (8 * (b - a)) % 256 else s.hub.byteAt p b) ∧
          ((s.hub.ready p).stores p.who [(a / 4, h.dataAt p (a / 4))]).leaves h p (c.go (c.pc + 1)) 1) ∧
      (rd = 0 → dataBytes p < a + n → ∀ e, Traps (x.1 p rd rs1 rs2 imm e) s p false {} 4) ∧
      (rd = 0 → a + n ≤ dataBytes p → a % n ≠ 0 → ∀ e, Traps (x.1 p rd rs1 rs2 imm e) s p false {} 3) ∧
      (rd ≠ 0 → ∀ e, Traps (x.1 p rd rs1 rs2 imm e) s p false {} 1)) ∧
  (∀ x ∈ ([(.beq, fun a b => decide (a = b)), (.bne, fun a b => decide (a ≠ b)), (.blt, fun a b => decide (a.toInt < b.toInt)),
      (.bge, fun a b => decide (b.toInt ≤ a.toInt)), (.bltu, fun a b => decide (a.toNat < b.toNat)),
      (.bgeu, fun a b => decide (b.toNat ≤ a.toNat))] : List (ImmForm × (W32 → W32 → Bool))),
    ∀ (s : State) (p : Place) (rd rs1 rs2 : BitVec 5) (imm : BitVec 10),
      let c := s.hub.ctxAt p
      let taken := x.2 (c.gr rs1.toNat) (c.gr rs2.toNat)
      let t := if taken then (BitVec.ofNat 32 c.pc + imm.signExtend 32).toNat else c.pc + 1
      (rd = 0 → Completes (x.1 p rd rs1 rs2 imm) s p false limPlain (if taken then 2 else 1) t (s.hub.ready p) c) ∧
      (rd = 0 → ¬ s.hub.mayGo p t → s.hub.may p false limPlain 2 → Traps (x.1 p rd rs1 rs2 imm) s p false limPlain 4) ∧
      (rd ≠ 0 → Traps (x.1 p rd rs1 rs2 imm) s p false limPlain 1)) ∧
  (∀ (s : State) (p : Place) (rd rs1 rs2 : BitVec 5) (off : BitVec 20) (imm : BitVec 10),
    let c := s.hub.ctxAt p
    let t := (BitVec.ofNat 32 c.pc + off.signExtend 32).toNat
    let u := (c.gr rs1.toNat + imm.signExtend 32).toNat
    let linked := c.setG rd.toNat (BitVec.ofNat 32 (c.pc + 1))
    (rd = 0 → Completes (.j p rd off) s p false limPlain 2 t (s.hub.ready p) c) ∧
    (rd ≠ 0 → Traps (.j p rd off) s p false limPlain 1) ∧
    Completes (.jal p rd off) s p false limPlain 2 t (s.hub.ready p) linked ∧
    (rs2 = 0 → Completes (.jalr p rd rs1 rs2 imm) s p false limPlain 2 u (s.hub.ready p) linked) ∧
    (rs2 ≠ 0 → Traps (.jalr p rd rs1 rs2 imm) s p false limPlain 1) ∧
    (¬ s.hub.mayGo p t → s.hub.may p false limPlain 2 → Traps (.jal p rd off) s p false limPlain 4) ∧
    Traps (.nop { p with fetch := .unassigned }) s p p.vec limPlain 1 ∧
    Traps (.jal { p with fetch := .unassigned } rd off) s p false limPlain 1)

/-- The queue and wait instructions, on both cores (R209-R211, R213, R214, R270, R271, R278): a push, which sets QD when the word is
not accepted; a pop into a pair, with QL and QE; a flush; WSLOT, which waits, or ends the slot program; WTRIG; and the exceptions
CONTEXT for a program that is not the producer or consumer, and ILLEGAL. Ahead of a push into a hit queue the Mule has taken the
words that the cycles gone by allow (R290). WTRIG with an imm10 below 0 follows entry 84's reading of R198. Readings and choices
that it rests on: notes/assumptions/29.md, 84.md. -/
def Obligations.QueueAndWait : Prop :=
  (∀ (s : State) (p : Place) (rd rs1 rs2 : BitVec 5) (imm : BitVec 10) (last : Bool),
    let c := s.hub.ctxAt p
    let i : Instr := if last then .qpushl p rd rs1 rs2 imm else .qpush p rd rs1 rs2 imm
    let data : W64 := BitVec.ofNat 64 ((c.gr rs2.toNat).toNat * 2 ^ 32 + (c.gr rs1.toNat).toNat)
    -- the Mule has taken words of the hit queues up to the cycle of the push, in that cycle ahead of it (R269, R290)
    let t := (s.hub.ready p).cycleOf p.who
    let mule (h : Hub) (cyc : Nat) : Hub := if rd.toNat < 16 then h.muleBy cyc else h
    let h0 := mule (s.hub.ready p) (t - 1)
    let r := (mule h0 t).pushFrom rd.toNat t (h0.queue rd.toNat).ws.length data last false
    (s.hub.fld F.Q_CFG_PROD rd.toNat = programCode p.who →
      Completes i s p false { noAtomic := true } 1 (c.pc + 1) r.1 (c.flags csQD (if r.2 = .accepted then 0 else csQD)) ∧
      (s.hub.queueRoom rd.toNat 1 → 16 ≤ rd.toNat ∨ s.hub.hitWords = false → last = true → s.hub.may p false { noAtomic := true } 1 → s.hub.mayGo p (c.pc + 1) →
        Answers i s fun h => s.hub.queueGot h rd.toNat [data])) ∧
    (s.hub.fld F.Q_CFG_PROD rd.toNat ≠ programCode p.who → Traps i s p false { noAtomic := true } 6)) ∧
  (∀ (s : State) (p : Place) (rd rs1 rs2 : BitVec 5) (imm : BitVec 10),
    let c := s.hub.ctxAt p
    let q := rs1.toNat
    let ok := rd.toNat % 2 = 0 ∧ 2 ≤ rd.toNat ∧ rd.toNat ≤ 28 ∧ rs2 = 0
    let pairOf (d : W64) : Ctx := (c.setG rd.toNat (BitVec.ofNat 32 (d.toNat % 2 ^ 32))).setG (rd.toNat + 1)
      (BitVec.ofNat 32 (d.toNat / 2 ^ 32))
    (¬ ok → Traps (.qpop p rd rs1 rs2 imm) s p false { noAtomic := true } 1) ∧
    (ok → s.hub.fld F.Q_CFG_CONS q ≠ programCode p.who → Traps (.qpop p rd rs1 rs2 imm) s p false { noAtomic := true } 6) ∧
    (ok → s.hub.fld F.Q_CFG_CONS q = programCode p.who →
      ((s.hub.queue q).ws = [] → Completes (.qpop p rd rs1 rs2 imm) s p false { noAtomic := true } 2 (c.pc + 1) (s.hub.ready p)
        ((pairOf 0).flags csQL csQE)) ∧
      (∀ (w : QWord) (rest : List QWord), (s.hub.queue q).ws = w :: rest →
        ∃ base : Hub, (s.hub.ready p).pop q = some (w, base) ∧ (base.queue q).ws = rest ∧
          Completes (.qpop p rd rs1 rs2 imm) s p false { noAtomic := true } 2 (c.pc + 1) base
            ((pairOf w.data).flags (csQL ||| csQE) (if w.last then csQL else 0))))) ∧
  (∀ (s : State) (p : Place) (rd rs1 rs2 : BitVec 5) (imm : BitVec 10),
    let c := s.hub.ctxAt p
    let mine := onBull p.who = true ∨ s.hub.fld F.Q_CFG_PROD rs1.toNat = programCode p.who
    (rs2 = 0 → mine →
      Completes (.qflush p rd rs1 rs2 imm) s p false { noAtomic := true } 1 (c.pc + 1) ((s.hub.ready p).flush rs1.toNat) c ∧
      (rs1.toNat ≠ 28 → rs1.toNat ≠ 29 → (((s.hub.ready p).flush rs1.toNat).queue rs1.toNat).ws = []) ∧
      (rs1.toNat = 28 ∨ rs1.toNat = 29 → ((s.hub.ready p).flush rs1.toNat).queues = s.hub.queues)) ∧
    (rs2 = 0 → ¬ mine → Traps (.qflush p rd rs1 rs2 imm) s p false { noAtomic := true } 6) ∧
    (rs2 ≠ 0 → Traps (.qflush p rd rs1 rs2 imm) s p false { noAtomic := true } 1 ∧
      Traps (.wslot p rd rs1 rs2 imm) s p false limReads 1)) ∧
  (∀ (s : State) (p : Place) (rd rs1 : BitVec 5) (imm : BitVec 10),
    let c := s.hub.ctxAt p
    ((∀ e, p.who ≠ .oxSlot e) →
      Completes (.wslot p rd rs1 0 imm) s p false limReads 1 (c.pc + 1) (s.hub.ready p) { c with wait := .slots (imm.toNat + 1) }) ∧
    (∀ e, p.who = .oxSlot e → imm ≠ 0 → Traps (.wslot p rd rs1 0 imm) s p false limReads 1) ∧
    (∀ e, p.who = .oxSlot e → imm = 0 → s.hub.may p false limReads 1 → s.hub.mayGo p (c.pc + 1) →
      Answers (.wslot p rd rs1 0 imm) s fun h =>
        (h.oxOf e).done = true ∧ (h.oxOf e).slot = c.go (c.pc + 1) ∧ (h.oxOf e).bg = (s.hub.oxOf e).bg ∧
        (h.oxOf e).dmem = (s.hub.oxOf e).dmem ∧ (∀ y ∈ (h.oxOf e).prim ++ (h.oxOf e).sec, y.gone = true) ∧
        (h.oxOf e).excRun = 0 ∧ h.fld F.OX_CYC_LAST e = (s.hub.oxOf e).cyc + 1 ∧ (∀ k, k ≠ e.val → h.oxOf k = s.hub.oxOf k) ∧
        h.queues = s.hub.queues ∧
        h.led 2 = (s.hub.led 2 + (((s.hub.oxOf e).prim ++ (s.hub.oxOf e).sec).filter fun y => !y.gone).length) % 2 ^ 48)) ∧
  (∀ (s : State) (p : Place) (rd rs1 rs2 : BitVec 5) (imm : BitVec 10),
    let c := s.hub.ctxAt p
    let x := s.hub.oxOf (engineOf p.who)
    let ok := rd.toNat % 2 = 0 ∧ rs2 = 0
    (onBull p.who = true ∨ ¬ ok → Traps (.wtrig p rd rs1 rs2 imm) s p false {} 1) ∧
    (ok → (∃ e, p.who = .oxSlot e) → Traps (.wtrig p rd rs1 rs2 imm) s p false {} 0x0B) ∧
    (ok → (∃ e, p.who = .oxBg e) →
      (x.notices = [] → 0 ≤ imm.toInt → Completes (.wtrig p rd rs1 rs2 imm) s p false {} 1 (c.pc + 1) (s.hub.ready p)
        { c with wait := .trig rd.toNat (if imm = 0 then none else some imm.toNat) }) ∧
      (x.notices = [] → imm.toInt < 0 → Completes (.wtrig p rd rs1 rs2 imm) s p false {} 1 (c.pc + 1) (s.hub.ready p)
        (c.setG rd.toNat 0xFFFFFFFF#32)) ∧
      (∀ (n : W24 × W24) (rest : List (W24 × W24)), x.notices = n :: rest →
        Completes (.wtrig p rd rs1 rs2 imm) s p false {} 1 (c.pc + 1) (s.hub.setOx (engineOf p.who) { x with notices := rest })
          ((c.setG rd.toNat (BitVec.ofNat 32 n.1.toNat)).setG (rd.toNat + 1) (BitVec.ofNat 32 n.2.toNat)))))

/-- The parameter instructions (R19, R29, R215-R220, R443): what PLD and PBRD read and where it goes, what PST and PBWR write, and
the exceptions WRONG_MODE, ADDRESS, CONTEXT, REPLY_FULL, ALIGN and ILLEGAL; on Ox every one raises ILLEGAL, as do all instructions
of Bull only. PBRD and PBWR with an imm10 below 0 transfer nothing, which is entry 84's reading of R198. Readings and choices that
it rests on: notes/assumptions/24.md, 26.md, 84.md. -/
def Obligations.ParameterInstructions : Prop :=
  (∀ (s : State) (p : Place) (rd rs1 rs2 : BitVec 5) (imm : BitVec 10) (w : W8) (b : Bool) (hi : BitVec 8),
    onBull p.who = false →
    ∀ i ∈ ([.pld p rd rs1 rs2 imm, .pst p rd rs1 rs2 imm, .pbrd p rd rs1 rs2 imm, .pbwr p rd rs1 rs2 imm .ok,
        .call p rd rs1 rs2 w b, .callBackground p rd rs1 rs2 w b, .rsltRead p rd rs1 rs2 w .ok, .rsltPost p rd rs1 rs2 w .ok,
        .rfree p rd rs1 rs2 imm, .rput p rd rs1 rs2 imm, .mode p rd rs1 rs2 imm, .snap p rd rs1 rs2 imm, .commit p rd rs1 rs2 imm,
        .ack p rd rs1 rs2 imm, .seal p rd rs1 rs2 b hi, .unseal p rd rs1 rs2 b hi, .swap p rd rs1 rs2 imm,
        .jlog p rd rs1 rs2 imm] : List Instr),
      Traps i s p p.vec {} 1) ∧
  ∀ (s : State) (p : Place) (rd rs1 rs2 : BitVec 5) (imm : BitVec 10), onBull p.who = true →
    let c := s.hub.ctxAt p
    let bg := inBackground p.who
    let h0 := s.hub.ready p
    let room := match s.hub.pk.cur with | some x => 4096 - x.reply.length | none => 0
    let named := s.hub.flag F.HUB_ADDR_VALID 0
    let a := (c.gr rs1.toNat + imm.signExtend 32).toNat
    let a0 := (c.gr rs1.toNat).toNat
    let k := (imm.toInt + 1).toNat
    let m := min k (regionEnd a0 + 1 - a0)
    let src := (c.gr rs2.toNat).toNat
    let limW : Limits := { unaddr := true }
    let addressed := named = true ∨ (a0 = A.HUB_ADDR ∧ imm = 0)
    -- PLD
    (rs2 ≠ 0 → Traps (.pld p rd rs1 rs2 imm) s p p.vec limPlain 1 ∧ Traps (.pbrd p rd rs1 rs2 imm) s p p.vec limPlain 1) ∧
    (rs2 = 0 → named = false → 0x3FF < a → Traps (.pld p rd rs1 rs2 imm) s p p.vec limPlain 2) ∧
    (rs2 = 0 → named = true → 0xFFFFFF < a → Traps (.pld p rd rs1 rs2 imm) s p p.vec limPlain 4) ∧
    (rs2 = 0 → (named = true ∧ a ≤ 0xFFFFFF) ∨ a ≤ 0x3FF →
      Completes (.pld p rd rs1 rs2 imm) s p p.vec limPlain 1 (c.pc + 1) (h0.rangeSeen bg (h0.paramRead bg a).2)
        (c.setG rd.toNat (h0.paramRead bg a).1)) ∧
    (bg = true → (h0.paramRead bg a).1 = s.hub.readWord a) ∧
    (bg = false → ∀ x, s.hub.pk.cur = some x → s.hub.inStep = false →
      (h0.paramRead bg a).1 = ({ s.hub with regs := x.view, bank := x.viewBank }).readWord a) ∧
    -- PBRD
    (rs2 = 0 → named = false → 0x3FF < a0 → Traps (.pbrd p rd rs1 rs2 imm) s p p.vec limPlain 2) ∧
    (rs2 = 0 → named = true ∨ a0 ≤ 0x3FF → bg = true → Traps (.pbrd p rd rs1 rs2 imm) s p p.vec limPlain 0x0B) ∧
    (rs2 = 0 → named = true → bg = false → 0xFFFFFF < a0 → Traps (.pbrd p rd rs1 rs2 imm) s p p.vec limPlain 4) ∧
    (rs2 = 0 → named = true ∨ a0 ≤ 0x3FF → bg = false → a0 ≤ 0xFFFFFF →
      let rs (n : Nat) := (List.range n).map fun j => h0.paramRead false (a0 + j)
      let got (n : Nat) : Hub := (h0.appends ((rs n).map fun r => r.1)).rangeSeen false (decide (m < k) || (rs n).any fun r => r.2)
      (m ≤ room → Completes (.pbrd p rd rs1 rs2 imm) s p p.vec limPlain 1 (c.pc + 1) (got m)
        ((c.setG rd.toNat (BitVec.ofNat 32 m)).flags 0 (if m < k then csASAT else 0))) ∧
      (room < m → s.hub.may p p.vec limPlain 1 → Answers (.pbrd p rd rs1 rs2 imm) s fun h =>
        h = s.hub.settled (((got room).setBullCtx false (c.setG rd.toNat (BitVec.ofNat 32 room))).bullFails false 0x0A))) ∧
    -- PST
    (rd ≠ 0 → Traps (.pst p rd rs1 rs2 imm) s p p.vec limW 1) ∧
    (rd = 0 → named = false → a ≠ A.HUB_ADDR → Traps (.pst p rd rs1 rs2 imm) s p p.vec limW 2) ∧
    (rd = 0 → named = true → 0xFFFFFF < a → Traps (.pst p rd rs1 rs2 imm) s p p.vec limW 4) ∧
    (rd = 0 → named = true → a ≤ 0xFFFFFF → h0.writeExc bg a (c.gr rs2.toNat) ≠ 0 →
      Traps (.pst p rd rs1 rs2 imm) s p p.vec limW (h0.writeExc bg a (c.gr rs2.toNat))) ∧
    (rd = 0 → (named = true ∧ a ≤ 0xFFFFFF) ∨ a = A.HUB_ADDR → h0.writeExc bg a (c.gr rs2.toNat) = 0 →
      let base := h0.paramWrite bg a (c.gr rs2.toNat)
      base.mayGo p ((base.ctxAt p).pc + 1) → s.hub.mayGo p (c.pc + 1) →
      s.hub.may p p.vec limW 1 → Answers (.pst p rd rs1 rs2 imm) s fun h =>
        h = s.hub.settled (base.setBullCtx bg { (base.ctxAt p).go ((base.ctxAt p).pc + 1) with wait := .run })) ∧
    -- PBWR
    (¬ addressed → Traps (.pbwr p rd rs1 rs2 imm .ok) s p p.vec limW 2) ∧
    (addressed → 0xFFFFFF < a0 → Traps (.pbwr p rd rs1 rs2 imm .ok) s p p.vec limW 4) ∧
    (addressed → a0 ≤ 0xFFFFFF → 65536 < src + 4 * k → Traps (.pbwr p rd rs1 rs2 imm .ok) s p p.vec limW 4) ∧
    (addressed → a0 ≤ 0xFFFFFF → src + 4 * k ≤ 65536 → src % 4 ≠ 0 → Traps (.pbwr p rd rs1 rs2 imm .ok) s p p.vec limW 3) ∧
    (addressed → a0 ≤ 0xFFFFFF → src + 4 * k ≤ 65536 → src % 4 = 0 →
      let r := h0.writeBlock bg a0 0 ((List.range m).map fun j => s.hub.dataAt p (src / 4 + j))
      let base := r.1.rangeSeen bg (decide (m < k))
      let got (n : Nat) : Ctx := (base.ctxAt p).setG rd.toNat (BitVec.ofNat 32 n)
      (r.2.2 = 0 → (∀ j < m, src / 4 + j ∉ s.hub.bull.badD) → base.mayGo p ((base.ctxAt p).pc + 1) → s.hub.mayGo p (c.pc + 1) →
        s.hub.may p p.vec limW 1 → Answers (.pbwr p rd rs1 rs2 imm .ok) s fun h =>
          h = s.hub.settled (base.setBullCtx bg
            { ((got m).flags 0 (if m < k then csASAT else 0)).go ((base.ctxAt p).pc + 1) with wait := .run })) ∧
      (r.2.2 = 2 → s.hub.may p p.vec limW 1 → Answers (.pbwr p rd rs1 rs2 imm .ok) s fun h =>
        h = s.hub.settled ((base.setBullCtx bg (got r.2.1)).bullFails bg 2)) ∧
      (r.2.2 ≠ 0 → r.2.2 ≠ 2 → Traps (.pbwr p rd rs1 rs2 imm .ok) s p p.vec limW r.2.2))

/-- The other instructions of Bull (R188, R196, R221-R235, R404, R407): procedures and background tasks, result slots and the reply,
mode requests, snapshots and commits, STATUS bits and seals, with their exceptions. Readings and choices that it rests on:
notes/assumptions/30.md, 99.md, 100.md, 101.md. -/
def Obligations.SystemInstructions : Prop :=
  (∀ (s : State) (p : Place) (rd rs1 rs2 : BitVec 5) (imm : BitVec 10) (w : W8) (b : Bool) (hi : BitVec 8),
    onBull p.who = true → rs2 ≠ 0 →
    Traps (.call p rd rs1 rs2 w b) s p p.vec limReads 1 ∧ Traps (.rsltRead p rd rs1 rs2 w .ok) s p p.vec limReads 1 ∧
    Traps (.rput p rd rs1 rs2 imm) s p p.vec limPlain 1 ∧
    ∀ i ∈ ([.rfree p rd rs1 rs2 imm, .mode p rd rs1 rs2 imm, .snap p rd rs1 rs2 imm, .commit p rd rs1 rs2 imm,
        .ack p rd rs1 rs2 imm, .seal p rd rs1 rs2 b hi, .unseal p rd rs1 rs2 b hi, .swap p rd rs1 rs2 imm,
        .jlog p rd rs1 rs2 imm] : List Instr), Traps i s p p.vec { noAtomic := true } 1) ∧
  ∀ (s : State) (p : Place) (rd rs1 rs2 : BitVec 5) (imm : BitVec 10) (w : W8) (b : Bool) (hi : BitVec 8), onBull p.who = true →
    let c := s.hub.ctxAt p
    let bg := inBackground p.who
    let h0 := s.hub.ready p
    let limA : Limits := { noAtomic := true }
    let room := match s.hub.pk.cur with | some x => 4096 - x.reply.length | none => 0
    let entry := (s.hub.dataAt p w.toNat).toNat % 2 ^ 14
    let a := c.gr rs1.toNat
    let n := (c.gr rs2.toNat).toNat
    let go := c.pc + 1
    let plain (r : W32) : Ctx := c.setG rd.toNat r
    -- CALL and CALL_BACKGROUND
    (w.toNat ∉ s.hub.bull.badD →
      (entry ≠ 0 → Completes (.call p rd rs1 0 w b) s p p.vec limReads 1 entry h0 (c.setG 31 (BitVec.ofNat 32 go))) ∧
      (entry = 0 → Traps (.call p rd rs1 0 w b) s p p.vec limReads 8 ∧ Traps (.callBackground p rd rs1 rs2 w b) s p p.vec limA 8) ∧
      (entry ≠ 0 → 8 ≤ s.hub.bull.tasks.length ∨ s.hub.fld F.RSLOT_DESC_STATE (n % 16) = 1 →
        Traps (.callBackground p rd rs1 rs2 w b) s p p.vec limA 9) ∧
      (entry ≠ 0 → s.hub.bull.tasks.length < 8 → s.hub.fld F.RSLOT_DESC_STATE (n % 16) ≠ 1 →
        s.hub.may p p.vec limA 1 → s.hub.mayGo p go → Answers (.callBackground p rd rs1 rs2 w b) s fun h =>
          h.bull.tasks = s.hub.bull.tasks ++ [{ entry := entry, arg := a, slot := n % 16 }] ∧
          h.fld F.RSLOT_DESC_STATE (n % 16) = 1 ∧
          (∃ t : BitVec 12, t ≠ 0 ∧ h.bullCtx bg = (plain (BitVec.ofNat 32 t.toNat)).go go ∧
            Store.get (fun _ => (0 : BitVec 12)) h.bull.tags (n % 16) = t) ∧
          (∀ f, h.fld F.RSLOT_DESC_TAG f = s.hub.fld F.RSLOT_DESC_TAG f) ∧ h.bullCtx (!bg) = s.hub.bullCtx (!bg) ∧
          h.bull.dmem = s.hub.bull.dmem ∧ s.hub.sameWords h [F.RSLOT_DESC_STATE.addr (n % 16)])) ∧
    (w.toNat ∈ s.hub.bull.badD → s.hub.may p p.vec limReads 1 → Answers (.call p rd rs1 0 w b) s fun h =>
      h = s.hub.settled ((h0.wordError p.who false 1 w.toNat false).bullFails bg 5)) ∧
    -- result slots and the reply
    (let k := w.toNat % 16
      let ws : List W32 := s.hub.word (F.RSLOT_DESC_TAG.addr k) ::
        (List.range (min 32 (s.hub.fld F.RSLOT_DESC_WCOUNT k))).map fun j => s.hub.word (F.RSLOT_VAL_VALUE.addr (32 * k + j));
      (bg = true → Traps (.rsltRead p rd rs1 0 w .ok) s p p.vec limReads 0x0B ∧
        Traps (.rput p rd rs1 0 imm) s p p.vec limPlain 0x0B) ∧
      (bg = false → room < ws.length → Traps (.rsltRead p rd rs1 0 w .ok) s p p.vec limReads 0x0A) ∧
      (bg = false → ws.length ≤ room →
        Completes (.rsltRead p rd rs1 0 w .ok) s p p.vec limReads 1 go
          ((if s.hub.fld F.RSLOT_DESC_STATE k = 2 then h0 else h0.staleSeen).appends ws) (plain (ws.headD 0))) ∧
      (bg = false → room = 0 → Traps (.rput p rd rs1 0 imm) s p p.vec limPlain 0x0A) ∧
      (bg = false → room ≠ 0 → Completes (.rput p rd rs1 0 imm) s p p.vec limPlain 1 go (h0.appends [a]) c) ∧
      (32 < n → Traps (.rsltPost p rd rs1 rs2 w .ok) s p p.vec limA 4) ∧
      (n ≤ 32 → n ≠ 0 → 65536 < a.toNat + 4 * n → Traps (.rsltPost p rd rs1 rs2 w .ok) s p p.vec limA 4) ∧
      (n ≤ 32 → n ≠ 0 → a.toNat + 4 * n ≤ 65536 → a.toNat % 4 ≠ 0 → Traps (.rsltPost p rd rs1 rs2 w .ok) s p p.vec limA 3) ∧
      (n ≤ 32 → n = 0 ∨ (a.toNat + 4 * n ≤ 65536 ∧ a.toNat % 4 = 0) → (∀ j < n, a.toNat / 4 + j ∉ s.hub.bull.badD) →
        s.hub.may p p.vec limA 1 → s.hub.mayGo p go → Answers (.rsltPost p rd rs1 rs2 w .ok) s fun h =>
          h.fld F.RSLOT_DESC_STATE k = 2 ∧ h.fld F.RSLOT_DESC_WCOUNT k = n ∧ h.fld F.RSLOT_DESC_EXC k = 0 ∧
          (∀ j < n, h.word (F.RSLOT_VAL_VALUE.addr (32 * k + j)) = s.hub.dataAt p (a.toNat / 4 + j)) ∧
          h.bullCtx bg = c.go go ∧ h.bullCtx (!bg) = s.hub.bullCtx (!bg) ∧ h.bull.dmem = s.hub.bull.dmem)) ∧
    (let k := imm.toNat % 16;
      (s.hub.fld F.RSLOT_DESC_STATE k = 1 → Traps (.rfree p rd rs1 0 imm) s p p.vec limA 9) ∧
      (s.hub.fld F.RSLOT_DESC_STATE k ≠ 1 → Completes (.rfree p rd rs1 0 imm) s p p.vec limA 1 go (h0.slotFree k) c ∧
        (h0.slotFree k).word (F.RSLOT_DESC_TAG.addr k) = 0 ∧
        ∀ j < 32, (h0.slotFree k).word (F.RSLOT_VAL_VALUE.addr (32 * k + j)) = 0)) ∧
    -- MODE
    (let m := imm.toNat % 8;
      (5 < m → Traps (.mode p rd rs1 0 imm) s p p.vec limA 1) ∧
      (m ≤ 5 → s.hub.modeAllowed m = false → Traps (.mode p rd rs1 0 imm) s p p.vec limA 2) ∧
      (m ≤ 5 → m = s.hub.mode ∨ (m = mRun ∧ s.hub.mode = mDegraded) →
        Completes (.mode p rd rs1 0 imm) s p p.vec limA 1 go h0 (plain (BitVec.ofNat 32 s.hub.mode))) ∧
      (m ≤ 5 → s.hub.modeAllowed m = true → m ≠ s.hub.mode → ¬ (m = mRun ∧ s.hub.mode = mDegraded) →
        Completes (.mode p rd rs1 0 imm) s p p.vec limA 1 go { h0 with goose := { h0.goose with modeReq := some m } }
          { c with wait := .mode rd.toNat })) ∧
    -- SNAP and COMMIT
    (let d := (a.toNat + 2 ^ 24 - s.hub.slot.toNat % 2 ^ 24) % 2 ^ 24
      let t : W48 := if imm.toNat % 2 = 1 ∨ d = 0 ∨ 2 ^ 23 < d then s.hub.slot + 1#48 else s.hub.slot + BitVec.ofNat 48 d
      let tag : W32 := BitVec.ofNat 32 (t.toNat % 2 ^ 24);
      Completes (.snap p rd rs1 0 imm) s p p.vec limA 1 go
        (({ h0 with rooster := { h0.rooster with snapAt := some t } }).setFld F.SNAP_STAT_SCHED 0 1) (plain tag) ∧
      Completes (.commit p rd rs1 0 imm) s p p.vec limA 1 go
        (({ h0 with rooster := { h0.rooster with commitAt := some t } }).setFld F.COMMIT_STAT_SCHED 0 1) (plain tag)) ∧
    -- ACK
    (s.hub.may p p.vec limA 1 → s.hub.mayGo p go → Answers (.ack p rd rs1 0 imm) s fun h =>
      (∀ k, 2 ≤ k → k ≤ 14 → bit a.toNat k = true → (s.hub.flag F.RSTPIN_MASKED 0 = false ∨ k ≠ aResetStuck) →
        bit (h.fld F.ATTN_STAT_STICKY 0) (k - 2) = false) ∧
      (∀ k, 2 ≤ k → k ≤ 14 → bit a.toNat k = false →
        bit (h.fld F.ATTN_STAT_STICKY 0) (k - 2) = bit (s.hub.fld F.ATTN_STAT_STICKY 0) (k - 2)) ∧
      s.hub.sameWords h [A.ATTN_STAT] ∧ h.bullCtx bg = c.go go) ∧
    -- SEAL and UNSEAL
    (let es := (List.range 17).filter fun e => a.toNat.testBit e
      let bitOf : Fld := if b then F.OX_STAT_STBY_SEALED else F.OX_STAT_ACT_SEALED;
      (s.hub.may p p.vec limA 1 → s.hub.mayGo p go → Answers (Instr.seal p rd rs1 0 b hi) s fun h =>
        (∀ e < 17, h.flag bitOf e = (s.hub.flag bitOf e || decide (e ∈ es))) ∧ h.bullCtx bg = c.go go ∧ h.ox = s.hub.ox ∧
        s.hub.sameWords h (es.map fun e => bitOf.addr e)) ∧
      (b = false → s.hub.mode ≠ mSetup → es ≠ [] → Traps (.unseal p rd rs1 0 b hi) s p p.vec limA 2) ∧
      (b = true ∨ s.hub.mode = mSetup ∨ es = [] → s.hub.may p p.vec limA 1 → s.hub.mayGo p go →
        Answers (.unseal p rd rs1 0 b hi) s fun h =>
          (∀ e < 17, h.flag bitOf e = (s.hub.flag bitOf e && !decide (e ∈ es))) ∧ h.bullCtx bg = c.go go ∧ h.ox = s.hub.ox ∧
          s.hub.sameWords h (es.map fun e => bitOf.addr e)))

/-- SWAP and JLOG (R234, R235, R435): SWAP of a named engine with an unsealed standby bank raises SEAL, of one with a swap pending
BUSY, and neither schedules an engine; otherwise every named engine is scheduled and the register gets the tag of the slot. JLOG
clears every field of JNL_STEP and JNL_LANES and nothing else. -/
def Obligations.SwapAndJlog : Prop :=
  ∀ (s : State) (p : Place) (rd rs1 : BitVec 5) (imm : BitVec 10), onBull p.who = true →
    let c := s.hub.ctxAt p
    let bg := inBackground p.who
    let limA : Limits := { noAtomic := true }
    let a := c.gr rs1.toNat
    let go := c.pc + 1
    let es := (List.range 17).filter fun e => a.toNat.testBit e
    ((∃ e ∈ es, s.hub.flag F.OX_STAT_STBY_SEALED e = false) → Traps (.swap p rd rs1 0 imm) s p p.vec limA 7) ∧
    ((∀ e ∈ es, s.hub.flag F.OX_STAT_STBY_SEALED e = true) → (∃ e ∈ es, s.hub.flag F.OX_STAT_SWAP_PEND e = true) →
      Traps (.swap p rd rs1 0 imm) s p p.vec limA 9) ∧
    ((∀ e ∈ es, s.hub.flag F.OX_STAT_STBY_SEALED e = true ∧ s.hub.flag F.OX_STAT_SWAP_PEND e = false) →
      s.hub.may p p.vec limA 1 → s.hub.mayGo p go → Answers (.swap p rd rs1 0 imm) s fun h =>
        let t := if s.hub.running then s.hub.slot.toNat + (s.hub.fld F.RT_ORBIT_LEN 0 - s.hub.fld F.RT_ORBIT_POS 0)
          else s.hub.slot.toNat + 1
        (∀ e < 17, h.flag F.OX_STAT_SWAP_PEND e = (s.hub.flag F.OX_STAT_SWAP_PEND e || decide (e ∈ es))) ∧
        h.bullCtx bg = (c.setG rd.toNat (BitVec.ofNat 32 (t % 2 ^ 24))).go go ∧
        (∀ e, h.oxOf e = if e ∈ es then { s.hub.oxOf e with swapFrom := s.hub.slot } else s.hub.oxOf e) ∧
        s.hub.sameWords h (es.flatMap fun e =>
          [F.OX_STAT_SWAP_PEND.addr e, F.OX_PC_SPC.addr e, F.OX_CS_S_VSAT.addr e, F.OX_CS_B_VSAT.addr e])) ∧
    (imm ≠ 1 → Traps (.jlog p rd rs1 0 imm) s p p.vec limA 1) ∧
    (imm = 1 → s.hub.may p p.vec limA 1 → s.hub.mayGo p go → Answers (.jlog p rd rs1 0 imm) s fun h =>
      (∀ k < 10, h.word (A.JNL_STEP + k) = 0) ∧ h.word A.JNL_LANES = 0 ∧ h.bank = s.hub.bank ∧ h.bullCtx bg = c.go go ∧
      s.hub.sameWords h (A.JNL_LANES :: (List.range 10).map fun k => A.JNL_STEP + k))

/-- The vector, mask and data-move instructions of Ox (R190, R195, R197, R200, R236, R237): every lane that the predicate leaves in
gets the result and VSAT is set when one saturates; masks, lanes, 64-byte loads and stores, and reductions; ILLEGAL for a field that
must be zero and is not, in the other slot of the bundle, and on Bull. Readings and choices that it rests on:
notes/assumptions/26.md, 30.md. -/
def Obligations.VectorInstructions : Prop :=
  let satS (f : Int → Int → Int) : Nat → Nat → Nat × Bool := fun a b =>
    let r := f (signed 16 a) (signed 16 b)
    (field 16 (max (-32768) (min 32767 r)), decide (r < -32768 ∨ 32767 < r))
  let satU (f : Int → Int → Int) : Nat → Nat → Nat × Bool := fun a b =>
    let r := f a b
    ((max 0 (min 65535 r)).toNat, decide (r < 0 ∨ 65535 < r))
  let vec (c : Ctx) (r : BitVec 5) (k : Nat) : Nat := lane16 (Store.get (fun _ => (0 : Vec)) c.v r.toNat) k
  let msk (c : Ctx) (r : Nat) : W32 := Store.get (fun _ => (0 : W32)) c.m r
  let takes (c : Ctx) (pr : BitVec 3) (k : Nat) : Bool := !pr.getLsbD 2 || (msk c (pr.toNat % 4)).getLsbD k
  let preds (pr : BitVec 3) : Prop := pr.getLsbD 2 = true ∨ pr = 0
  (∀ x ∈ ([(.vadd, 1, fun a b => ((a + b) % 65536, false)), (.vadds, 1, satS fun a b => a + b), (.vaddu, 1, satU fun a b => a + b),
      (.vsub, 1, fun a b => ((a + 65536 - b) % 65536, false)), (.vsubs, 1, satS fun a b => a - b), (.vsubu, 1, satU fun a b => a - b),
      (.vmul, 2, fun a b => (a * b % 65536, false)), (.vmulr, 2, satS fun a b => roundDiv (a * b) 32768),
      (.vmin, 1, fun a b => (if signed 16 b < signed 16 a then b else a, false)),
      (.vmax, 1, fun a b => (if signed 16 a < signed 16 b then b else a, false)),
      (.vminu, 1, fun a b => (if b < a then b else a, false)), (.vmaxu, 1, fun a b => (if a < b then b else a, false)),
      (.vand, 1, fun a b => (a &&& b, false)), (.vor, 1, fun a b => (a ||| b, false)), (.vxor, 1, fun a b => (a ^^^ b, false)),
      (.vabsd, 1, fun a b => (if a < b then b - a else a - b, false)), (.vsll, 1, fun a b => (a * 2 ^ (b % 16) % 65536, false)),
      (.vsrl, 1, fun a b => (a / 2 ^ (b % 16), false)), (.vsra, 1, fun a b => (field 16 (signed 16 a / (2 ^ (b % 16) : Nat)), false)),
      (.vsrar, 1, fun a b => (field 16 (roundDiv (signed 16 a) (2 ^ (b % 16))), false)),
      (.vavg, 1, fun a b => ((a + b + 1) / 2, false))] : List (PredForm × Nat × (Nat → Nat → Nat × Bool))),
    ∀ (s : State) (p : Place) (rd rs1 rs2 : BitVec 5) (pr : BitVec 3), onBull p.who = false →
      let c := s.hub.ctxAt p
      let ok := rd.toNat < 8 ∧ rs1.toNat < 8 ∧ rs2.toNat < 8 ∧ preds pr
      (¬ ok → Traps (x.1 p rd rs1 rs2 pr) s p true {} 1) ∧
      (ok → ∃ v : Vec,
        (∀ k < 32, lane16 v k = if takes c pr k then (x.2.2 (vec c rs1 k) (vec c rs2 k)).1 else vec c rd k) ∧
        Completes (x.1 p rd rs1 rs2 pr) s p true {} x.2.1 (c.pc + 1) (s.hub.ready p) ((c.setV rd.toNat v).flags 0
          (if (List.range 32).any fun k => takes c pr k && (x.2.2 (vec c rs1 k) (vec c rs2 k)).2 then csVSAT else 0)))) ∧
  (∀ x ∈ ([(.mand, fun a b => a &&& b), (.mor, fun a b => a ||| b), (.mxor, fun a b => a ^^^ b), (.mandn, fun a b => a &&& ~~~b)] :
      List (PredForm × (W32 → W32 → W32))),
    ∀ (s : State) (p : Place) (rd rs1 rs2 : BitVec 5) (pr : BitVec 3), onBull p.who = false →
      let c := s.hub.ctxAt p
      let ok := rd.toNat < 4 ∧ rs1.toNat < 4 ∧ rs2.toNat < 4 ∧ pr = 0
      (¬ ok → Traps (x.1 p rd rs1 rs2 pr) s p true {} 1) ∧
      (ok → Completes (x.1 p rd rs1 rs2 pr) s p true {} 1 (c.pc + 1) (s.hub.ready p)
        (c.setM rd.toNat (x.2 (msk c rs1.toNat) (msk c rs2.toNat))))) ∧
  (∀ (s : State) (p : Place) (rd rs1 rs2 : BitVec 5) (pr : BitVec 3), onBull p.who = false →
    let c := s.hub.ctxAt p
    let m := msk c rs1.toNat
    let g (n : Nat) : Ctx := c.setG rd.toNat (BitVec.ofNat 32 n)
    (rd.toNat < 4 ∧ rs1.toNat < 4 ∧ rs2 = 0 ∧ pr = 0 → Completes (.mnot p rd rs1 rs2 pr) s p true {} 1 (c.pc + 1) (s.hub.ready p)
      (c.setM rd.toNat (~~~m))) ∧
    (¬ (rd.toNat < 4 ∧ rs1.toNat < 4 ∧ rs2 = 0 ∧ pr = 0) → Traps (.mnot p rd rs1 rs2 pr) s p true {} 1) ∧
    (rd.toNat < 4 ∧ rs2 = 0 ∧ pr = 0 → Completes (.mtm p rd rs1 rs2 pr) s p true {} 1 (c.pc + 1) (s.hub.ready p)
      (c.setM rd.toNat (c.gr rs1.toNat))) ∧
    (¬ (rd.toNat < 4 ∧ rs2 = 0 ∧ pr = 0) → Traps (.mtm p rd rs1 rs2 pr) s p true {} 1) ∧
    (¬ (rs1.toNat < 4 ∧ rs2 = 0 ∧ pr = 0) → ∀ i ∈ ([.mfm, .mcnt, .mfirst] : List PredForm), Traps (i p rd rs1 rs2 pr) s p true {} 1) ∧
    (rs1.toNat < 4 ∧ rs2 = 0 ∧ pr = 0 →
      Completes (.mfm p rd rs1 rs2 pr) s p true {} 1 (c.pc + 1) (s.hub.ready p) (c.setG rd.toNat m) ∧
      Completes (.mcnt p rd rs1 rs2 pr) s p true {} 1 (c.pc + 1) (s.hub.ready p)
        (g ((List.range 32).filter fun k => m.getLsbD k).length) ∧
      ∃ n : Nat, (m = 0 → n = 32) ∧ (m ≠ 0 → m.getLsbD n = true ∧ ∀ k < n, m.getLsbD k = false) ∧
        Completes (.mfirst p rd rs1 rs2 pr) s p true {} 1 (c.pc + 1) (s.hub.ready p) (g n))) ∧
  (∀ (s : State) (p : Place) (rd rs1 rs2 : BitVec 5) (pr : BitVec 3), onBull p.who = false →
    let c := s.hub.ctxAt p
    let ok := rs1.toNat < 8 ∧ rs2 = 0 ∧ preds pr
    let ls := (List.range 32).filter fun k => takes c pr k
    (¬ ok → ∀ i ∈ ([.vredSum, .vredSumu, .vredMaxu, .vredMaxidx] : List PredForm), Traps (i p rd rs1 rs2 pr) s p true {} 1) ∧
    (ok → Completes (.vredSum p rd rs1 rs2 pr) s p true {} 2 (c.pc + 1) (s.hub.ready p)
        (c.setG rd.toNat (BitVec.ofInt 32 ((ls.map fun k => signed 16 (vec c rs1 k)).sum))) ∧
      Completes (.vredSumu p rd rs1 rs2 pr) s p true {} 2 (c.pc + 1) (s.hub.ready p)
        (c.setG rd.toNat (BitVec.ofNat 32 ((ls.map fun k => vec c rs1 k).sum))) ∧
      Completes (.vredMaxu p rd rs1 rs2 pr) s p true {} 2 (c.pc + 1) (s.hub.ready p)
        (c.setG rd.toNat (BitVec.ofNat 32 ((ls.map fun k => vec c rs1 k).foldl max 0))) ∧
      ∃ n : Nat, (ls = [] → n = 32) ∧
        (ls ≠ [] → n ∈ ls ∧ ∀ k ∈ ls, vec c rs1 k ≤ vec c rs1 n ∧ (vec c rs1 k = vec c rs1 n → n ≤ k)) ∧
        Completes (.vredMaxidx p rd rs1 rs2 pr) s p true {} 2 (c.pc + 1) (s.hub.ready p) (c.setG rd.toNat (BitVec.ofNat 32 n)))) ∧
  (∀ (s : State) (p : Place) (rd rs1 rs2 : BitVec 5) (imm : BitVec 10), onBull p.who = false →
    let c := s.hub.ctxAt p
    let n := imm.toNat
    let okCmp := rd.toNat < 4 ∧ rs1.toNat < 8 ∧ rs2.toNat < 8 ∧ preds (BitVec.ofNat 3 (n / 128)) ∧ n / 8 % 16 = 0
    let rel (a b : Nat) : Prop := match n % 8 with
      | 0 => a = b
      | 1 => a ≠ b
      | 2 => signed 16 a < signed 16 b
      | 3 => a < b
      | 4 => signed 16 b ≤ signed 16 a
      | 5 => b ≤ a
      | 6 => signed 16 b < signed 16 a
      | _ => b < a
    let a := (c.gr rs1.toNat + imm.signExtend 32 * 64#32).toNat
    (¬ okCmp → Traps (.vcmp p rd rs1 rs2 imm) s p true {} 1) ∧
    (okCmp → ∃ w : W32,
      (∀ k < 32, w.getLsbD k = true ↔ takes c (BitVec.ofNat 3 (n / 128)) k = true ∧ rel (vec c rs1 k) (vec c rs2 k)) ∧
      Completes (.vcmp p rd rs1 rs2 imm) s p true {} 1 (c.pc + 1) (s.hub.ready p) (c.setM rd.toNat w)) ∧
    (rd.toNat < 8 ∧ rs2 = 0 ∧ imm = 0 → ∃ v : Vec, (∀ k < 32, lane16 v k = (c.gr rs1.toNat).toNat % 65536) ∧
      Completes (.vsplat p rd rs1 rs2 imm) s p true {} 1 (c.pc + 1) (s.hub.ready p) (c.setV rd.toNat v)) ∧
    (¬ (rd.toNat < 8 ∧ rs2 = 0 ∧ imm = 0) → Traps (.vsplat p rd rs1 rs2 imm) s p true {} 1) ∧
    (rs1.toNat < 8 ∧ rs2 = 0 ∧ n < 64 → Completes (.vext p rd rs1 rs2 imm) s p true {} 1 (c.pc + 1) (s.hub.ready p)
      (c.setG rd.toNat (if n < 32 then BitVec.ofNat 32 (vec c rs1 n) else BitVec.ofInt 32 (signed 16 (vec c rs1 (n - 32)))))) ∧
    (¬ (rs1.toNat < 8 ∧ rs2 = 0 ∧ n < 64) → Traps (.vext p rd rs1 rs2 imm) s p true {} 1) ∧
    (rd.toNat < 8 ∧ rs2 = 0 ∧ n < 32 → ∃ v : Vec,
      (∀ k < 32, lane16 v k = if k = n then (c.gr rs1.toNat).toNat % 65536 else vec c rd k) ∧
      Completes (.vins p rd rs1 rs2 imm) s p true {} 1 (c.pc + 1) (s.hub.ready p) (c.setV rd.toNat v)) ∧
    (¬ (rd.toNat < 8 ∧ rs2 = 0 ∧ n < 32) → Traps (.vins p rd rs1 rs2 imm) s p true {} 1) ∧
    (¬ (rd.toNat < 8 ∧ rs2 = 0) → Traps (.vld p rd rs1 rs2 imm .ok) s p true {} 1) ∧
    (¬ (rd = 0 ∧ rs2.toNat < 8) → Traps (.vst p rd rs1 rs2 imm) s p true {} 1) ∧
    (8192 < a + 64 → (rd.toNat < 8 ∧ rs2 = 0 → Traps (.vld p rd rs1 rs2 imm .ok) s p true {} 4) ∧
      (rd = 0 ∧ rs2.toNat < 8 → Traps (.vst p rd rs1 rs2 imm) s p true {} 4)) ∧
    (a + 64 ≤ 8192 → a % 64 ≠ 0 → (rd.toNat < 8 ∧ rs2 = 0 → Traps (.vld p rd rs1 rs2 imm .ok) s p true {} 3) ∧
      (rd = 0 ∧ rs2.toNat < 8 → Traps (.vst p rd rs1 rs2 imm) s p true {} 3)) ∧
    (a + 64 ≤ 8192 → a % 64 = 0 →
      (rd.toNat < 8 ∧ rs2 = 0 → (∀ j < 16, s.hub.isBad p.who false (dataIndex p (a / 4 + j)) = false) → ∃ v : Vec,
        (∀ k < 32, lane16 v k = s.hub.numberAt p (a + 2 * k) 2) ∧
        Completes (.vld p rd rs1 rs2 imm .ok) s p true {} 2 (c.pc + 1) (s.hub.ready p) (c.setV rd.toNat v)) ∧
      (rd = 0 ∧ rs2.toNat < 8 → s.hub.may p true {} 1 → s.hub.mayGo p (c.pc + 1) →
        Answers (.vst p rd rs1 rs2 imm) s fun h =>
          (∀ b, h.byteAt p b = if a ≤ b ∧ b < a + 64 then vec c rs2 ((b - a) / 2) / 256 ^ ((b - a) % 2) % 256
            else s.hub.byteAt p b) ∧
          ((s.hub.ready p).stores p.who ((List.range 16).map fun k => (a / 4 + k, h.dataAt p (a / 4 + k)))).leaves h p
            (c.go (c.pc + 1)) 1))) ∧
  (∀ (s : State) (p : Place) (rd rs1 rs2 : BitVec 5) (pr : BitVec 3) (imm : BitVec 10),
    (onBull p.who = false → Traps (.add p rd rs1 rs2) s p true {} 1 ∧ Traps (.vadd p rd rs1 rs2 pr) s p false {} 1) ∧
    (onBull p.who = true →
      (∀ i ∈ ([.vadd, .vadds, .vaddu, .vsub, .vsubs, .vsubu, .vmul, .vmulr, .vmin, .vmax, .vminu, .vmaxu, .vand, .vor, .vxor, .vabsd,
          .vsll, .vsrl, .vsra, .vsrar, .vavg, .mand, .mor, .mxor, .mandn, .mnot, .mtm, .mfm, .mcnt, .mfirst, .vredSum, .vredSumu,
          .vredMaxu, .vredMaxidx] : List PredForm), Traps (i p rd rs1 rs2 pr) s p p.vec {} 1) ∧
      ∀ i ∈ ([.vcmp, .vsplat, .vext, .vins, .vst, .hits, .win, .vthr, .vpeak, .hemit, fun p rd rs1 rs2 imm => .vld p rd rs1 rs2 imm .ok,
          fun p rd rs1 rs2 imm => .twalk p rd rs1 rs2 imm .ok] : List ImmForm), Traps (i p rd rs1 rs2 imm) s p p.vec {} 1))

/-- The assists (R113, R116, R210, R238-R243, R612): what HITS, WIN, VTHR, VPEAK and TWALK give for every lane, and the hit words
that HEMIT pushes; and the exceptions CONTEXT, ADDRESS and ILLEGAL. That TWALK's sum is kept in 17 bits with sign, and that a word
of HEMIT is an item of its own, are readings (notes/assumptions/12.md, 61.md). Readings and choices that it rests on:
notes/assumptions/30.md. -/
def Obligations.Assists : Prop :=
  ∀ (s : State) (p : Place) (rd rs1 rs2 : BitVec 5) (imm : BitVec 10), onBull p.who = false →
    let c := s.hub.ctxAt p
    let e := engineOf p.who
    let x := s.hub.oxOf e
    let n := imm.toNat
    let mk := n / 256
    let r := (c.gr rs1.toNat).toNat
    let vec (q : BitVec 5) (k : Nat) : Nat := lane16 (Store.get (fun _ => (0 : Vec)) c.v q.toNat) k
    let msk (q : Nat) : W32 := Store.get (fun _ => (0 : W32)) c.m q
    let hitOf (l : List Hit) (k : Nat) : Option Hit := l.find? fun y => y.ch % 32 == k
    -- HITS
    (let ok := rd.toNat < 8 ∧ rs1 = 0 ∧ rs2 = 0 ∧ n / 8 % 32 = 0 ∧ n % 8 < 6;
      let l := if 4 ≤ n % 8 then x.sec else x.prim;
      let value (y : Hit) : Nat := match n % 8 with
        | 0 => y.toa
        | 1 => y.tot
        | 2 => y.amp.toNat
        | 3 => (hitWord y (x.pile.getLsbD (y.ch % 32))).toNat / 2 ^ 8 % 16
        | 4 => y.toa
        | _ => y.tot;
      (¬ ok → Traps (.hits p rd rs1 rs2 imm) s p true {} 1) ∧
      (ok → inBackground p.who = true → Traps (.hits p rd rs1 rs2 imm) s p true {} 0x0B) ∧
      (ok → inBackground p.who = false → ∃ (v : Vec) (w : W32),
        (∀ k < 32, lane16 v k = ((hitOf l k).map value).getD 0 % 65536 ∧ w.getLsbD k = (hitOf l k).isSome) ∧
        Completes (.hits p rd rs1 rs2 imm) s p true {} 2 (c.pc + 1)
          (s.hub.setOx e { x with fetched := x.fetched || decide (4 ≤ n % 8) }) ((c.setV rd.toNat v).setM mk w))) ∧
    -- WIN
    (let ok := rd.toNat < 8 ∧ rs2 = 0 ∧ n / 2 % 128 = 0;
      (¬ ok → Traps (.win p rd rs1 rs2 imm) s p true {} 1) ∧
      (ok → 255 < r → Traps (.win p rd rs1 rs2 imm) s p true {} 4) ∧
      (ok → r ≤ 255 → ∃ (v : Vec) (w : W32),
        (∀ k < 32, let y := s.hub.captured (32 * e + k) r
          lane16 v k = (if n % 2 = 1 then y.2 else y.1) ∧ w.getLsbD k = decide (y.2 ≠ 0)) ∧
        Completes (.win p rd rs1 rs2 imm) s p true {} 2 (c.pc + 1) (s.hub.ready p) ((c.setV rd.toNat v).setM mk w))) ∧
    (∀ ch, (s.hub.chainOf ch).stored < r + 1 → s.hub.captured ch r = (0, 2)) ∧
    -- VTHR
    (let ok := rd.toNat < 4 ∧ rs1.toNat < 8 ∧ rs2.toNat < 8 ∧ n / 2 % 64 = 0;
      (¬ ok → Traps (.vthr p rd rs1 rs2 imm) s p true {} 1) ∧
      (ok → ∃ w : W32,
        (∀ k < 32, w.getLsbD k = true ↔
          (let d : Int := vec rs1 k - s.hub.fld F.CH_PED_PED (32 * e + k);
            signed 16 (vec rs2 k) < if n % 2 = 1 then |d| else d) ∧ (n / 128 % 2 = 1 → (msk mk).getLsbD k = true)) ∧
        Completes (.vthr p rd rs1 rs2 imm) s p true {} 1 (c.pc + 1) (s.hub.ready p) (c.setM rd.toNat w))) ∧
    -- VPEAK
    (let ok := rd.toNat < 8 ∧ rd.toNat % 2 = 0 ∧ rs2 = 0 ∧ n / 32 % 8 = 0;
      let len := n % 32 + 1;
      (¬ ok → Traps (.vpeak p rd rs1 rs2 imm) s p true {} 1) ∧
      (ok → 256 < r + len → Traps (.vpeak p rd rs1 rs2 imm) s p true {} 4) ∧
      (ok → r + len ≤ 256 → ∃ (v u : Vec) (w : W32),
        (∀ k < 32, let f (t : Nat) := s.hub.captured (32 * e + k) (r + len - 1 - t)
          (∀ t < len, (f t).1 ≤ lane16 v k) ∧ lane16 u k < len ∧ (f (lane16 u k)).1 = lane16 v k ∧
          (∀ t < lane16 u k, (f t).1 < lane16 v k) ∧ (w.getLsbD k = true ↔ ∃ t < len, (f t).2 = 3)) ∧
        Completes (.vpeak p rd rs1 rs2 imm) s p true {} (2 + (len + 7) / 8) (c.pc + 1) (s.hub.ready p)
          (((c.setV rd.toNat v).setV (rd.toNat + 1) u).setM mk w))) ∧
    -- TWALK
    (let ok := rd.toNat < 8 ∧ rs1.toNat < 8 ∧ rs2.toNat < 8 ∧ n / 8 % 2 = 0;
      let entry (i : Nat) : Int := signed 16 (s.hub.numberAt p (128 * (n / 16) + 2 * min i 63) 2);
      let walk (a : Nat) : Int :=
        let y := min (a / 2 ^ (n % 8)) 4095
        entry (y / 64) + roundDiv ((entry (y / 64 + 1) - entry (y / 64)) * (y % 64 : Nat)) 64
      let toa (k : Nat) : Int := signed 17 (field 17 (vec rs1 k - walk (vec rs2 k)))
      let top : Int := s.hub.toaMax;
      (¬ ok → Traps (.twalk p rd rs1 rs2 imm .ok) s p true {} 1) ∧
      (ok → (∀ j < 32, s.hub.isBad p.who false (dataIndex p (32 * (n / 16) + j)) = false) → ∃ v : Vec,
        (∀ k < 32, (lane16 v k : Int) = max 0 (min top (toa k))) ∧
        Completes (.twalk p rd rs1 rs2 imm .ok) s p true {} 2 (c.pc + 1) (s.hub.ready p) ((c.setV rd.toNat v).flags 0
          (if (List.range 32).any fun k => decide (toa k < 0) || decide (top < toa k) then csVSAT else 0)))) ∧
    -- HEMIT
    (let ok := rs1.toNat < 8 ∧ rs2.toNat < 8 ∧ n / 8 % 32 = 0;
      let sec := decide (n / 4 % 2 = 1);
      let l := if sec then x.sec else x.prim;
      let word (y : Hit) : W64 := hitWord { y with
        toa := if n % 2 = 1 then vec rs1 (y.ch % 32) % 2 ^ 15 else y.toa
        amp := if n / 2 % 2 = 1 then BitVec.ofNat 16 (vec rs2 (y.ch % 32)) else y.amp } (sec || x.pile.getLsbD (y.ch % 32))
      let ps : List Push := (List.range 32).filterMap fun k =>
        ((hitOf l k).filter fun y => (msk mk).getLsbD k && !y.gone).map fun y =>
          { q := rd.toNat, data := word y, last := true, hit := some (y.ch, sec) }
      let got := (s.hub.ready p).pushWords p.who ps;
      (¬ ok → Traps (.hemit p rd rs1 rs2 imm) s p true {} 1) ∧
      (ok → inBackground p.who = true → Traps (.hemit p rd rs1 rs2 imm) s p true {} 0x0B) ∧
      (ok → inBackground p.who = false → s.hub.fld F.Q_CFG_PROD rd.toNat ≠ 0x10 + e → Traps (.hemit p rd rs1 rs2 imm) s p true {} 6) ∧
      (ok → inBackground p.who = false → s.hub.fld F.Q_CFG_PROD rd.toNat = 0x10 + e →
        Completes (.hemit p rd rs1 rs2 imm) s p true {} (1 + ps.length) (c.pc + 1)
          (got.2.setOx e { got.2.oxOf e with fetched := x.fetched || sec }) (c.pushed got.1) ∧
        (∀ y : Hit, l = [y] → y.gone = false → (msk mk).getLsbD (y.ch % 32) = true → s.hub.queueRoom rd.toNat 1 →
          16 ≤ rd.toNat ∨ s.hub.hitWords = false →
          s.hub.may p true {} 2 → s.hub.mayGo p (c.pc + 1) → Answers (.hemit p rd rs1 rs2 imm) s fun h =>
            s.hub.queueGot h rd.toNat [word y] ∧
            ∀ z ∈ (if sec then (h.oxOf e).sec else (h.oxOf e).prim), z.gone = true)))
end

