-- ==== Sys2Proof/Laws/Store.lean ====
section
/-! SUPPORT. The laws of stores: a read after a write, and that every write keeps the canonical form. -/

namespace Sys2Proof.Machine

variable {α : Type}

theorem Store.get_del_same (d : Nat → α) (st : Store α) (k : Nat) : Store.get d (Store.del st k) k = d k := by
  induction st with
  | nil => rfl
  | cons e rest ih =>
    obtain ⟨j, v⟩ := e
    by_cases h : j = k <;> simp [Store.del, Store.get, h, ih]

theorem Store.get_del_other (d : Nat → α) (st : Store α) (k l : Nat) (hl : l ≠ k) :
    Store.get d (Store.del st k) l = Store.get d st l := by
  induction st with
  | nil => rfl
  | cons e rest ih =>
    obtain ⟨j, v⟩ := e
    by_cases h : j = k
    · simp [Store.del, Store.get, h, ih, Ne.symm hl]
    · simp [Store.del, Store.get, h, ih]

theorem Store.get_ins_other (d : Nat → α) (st : Store α) (k l : Nat) (v : α) (hl : l ≠ k) :
    Store.get d (Store.ins st k v) l = Store.get d st l := by
  induction st with
  | nil => simp [Store.ins, Store.get, Ne.symm hl]
  | cons e rest ih =>
    obtain ⟨j, w⟩ := e
    by_cases h : k < j
    · simp [Store.ins, Store.get, h, Ne.symm hl]
    · simp [Store.ins, Store.get, h, ih]

theorem Store.get_ins_del_same (d : Nat → α) (st : Store α) (k : Nat) (v : α) :
    Store.get d (Store.ins (Store.del st k) k v) k = v := by
  induction st with
  | nil => simp [Store.del, Store.ins, Store.get]
  | cons e rest ih =>
    obtain ⟨j, w⟩ := e
    by_cases h : j = k
    · simp [Store.del, h, ih]
    · by_cases hk : k < j <;> simp [Store.del, Store.ins, Store.get, h, hk, ih]

variable [DecidableEq α]

/-- A read of what has just been written. -/
@[simp] theorem Store.get_set_same (d : Nat → α) (st : Store α) (k : Nat) (v : α) :
    Store.get d (Store.set d st k v) k = v := by
  unfold Store.set
  split
  · next h => rw [h, Store.get_del_same]
  · exact Store.get_ins_del_same d st k v

/-- A write leaves every other key alone. -/
theorem Store.get_set_other (d : Nat → α) (st : Store α) (k l : Nat) (v : α) (hl : l ≠ k) :
    Store.get d (Store.set d st k v) l = Store.get d st l := by
  unfold Store.set
  split
  · exact Store.get_del_other d st k l hl
  · rw [Store.get_ins_other _ _ _ _ _ hl, Store.get_del_other _ _ _ _ hl]

theorem Store.get_set (d : Nat → α) (st : Store α) (k l : Nat) (v : α) :
    Store.get d (Store.set d st k v) l = if l = k then v else Store.get d st l := by
  by_cases h : l = k
  · simp [h]
  · simp [h, Store.get_set_other d st k l v h]

omit [DecidableEq α] in
theorem Store.above_del (st : Store α) (k l : Nat) (h : Store.above l st = true) : Store.above l (Store.del st k) = true := by
  induction st with
  | nil => rfl
  | cons e rest ih =>
    obtain ⟨j, v⟩ := e
    simp only [Store.above, List.all_cons, Bool.and_eq_true] at h ih ⊢
    by_cases hj : j = k
    · simpa [Store.del, hj] using ih h.2
    · simp [Store.del, hj, h.1, ih h.2]

omit [DecidableEq α] in
theorem Store.above_ins (st : Store α) (k l : Nat) (v : α) (hk : l < k) (h : Store.above l st = true) :
    Store.above l (Store.ins st k v) = true := by
  induction st with
  | nil => simp [Store.ins, Store.above, hk]
  | cons e rest ih =>
    obtain ⟨j, w⟩ := e
    simp only [Store.above, List.all_cons, Bool.and_eq_true] at h ih ⊢
    by_cases hj : k < j
    · simp only [Store.ins, hj, if_true, List.all_cons, Bool.and_eq_true]
      exact ⟨by simpa using hk, h.1, h.2⟩
    · simp only [Store.ins, hj, if_false, List.all_cons, Bool.and_eq_true]
      exact ⟨h.1, ih h.2⟩

theorem Store.wf_cons (d : Nat → α) (k : Nat) (v : α) (rest : Store α) :
    Store.wf d ((k, v) :: rest) = true ↔ v ≠ d k ∧ Store.above k rest = true ∧ Store.wf d rest = true := by
  simp [Store.wf, and_assoc]

theorem Store.wf_del (d : Nat → α) (st : Store α) (k : Nat) (h : Store.wf d st = true) :
    Store.wf d (Store.del st k) = true := by
  induction st with
  | nil => rfl
  | cons e rest ih =>
    obtain ⟨j, v⟩ := e
    rw [Store.wf_cons] at h
    by_cases hj : j = k
    · simpa [Store.del, hj] using ih h.2.2
    · simp only [Store.del, hj, if_false, Store.wf_cons]
      exact ⟨h.1, Store.above_del rest k j h.2.1, ih h.2.2⟩

theorem Store.wf_ins_del (d : Nat → α) (st : Store α) (k : Nat) (v : α) (hv : v ≠ d k) (h : Store.wf d st = true) :
    Store.wf d (Store.ins (Store.del st k) k v) = true := by
  induction st with
  | nil => simp [Store.del, Store.ins, Store.wf, Store.above, hv]
  | cons e rest ih =>
    obtain ⟨j, w⟩ := e
    rw [Store.wf_cons] at h
    by_cases hj : j = k
    · simpa [Store.del, hj] using ih h.2.2
    · by_cases hk : k < j
      · have hab : Store.above k ((j, w) :: Store.del rest k) = true := by
          have hr := Store.above_del rest k j h.2.1
          simp only [Store.above, List.all_cons, List.all_eq_true, Bool.and_eq_true, decide_eq_true_eq] at hr ⊢
          exact ⟨hk, fun x hx => Nat.lt_trans hk (hr x hx)⟩
        simp only [Store.del, hj, if_false, Store.ins, hk, if_true, Store.wf_cons]
        exact ⟨hv, hab, h.1, Store.above_del rest k j h.2.1, Store.wf_del d rest k h.2.2⟩
      · simp only [Store.del, hj, if_false, Store.ins, hk, Store.wf_cons]
        exact ⟨h.1, Store.above_ins _ k j v (by omega) (Store.above_del rest k j h.2.1), ih h.2.2⟩

/-- Every write keeps the canonical form. -/
theorem Store.wf_set (d : Nat → α) (st : Store α) (k : Nat) (v : α) (h : Store.wf d st = true) :
    Store.wf d (Store.set d st k v) = true := by
  unfold Store.set
  split
  · exact Store.wf_del d st k h
  · next hv => exact Store.wf_ins_del d st k v hv h

end Sys2Proof.Machine
end

