-- ==== Sys2Proof/Laws/State.lean ====
section
/-! SUPPORT. What each update of the hub leaves alone, field by field, so that no proof unfolds a record update. -/

namespace Sys2Proof.Machine

variable (h : Hub)

/-! `setWord` -/

@[simp] theorem Hub.setWord_snap (a : Nat) (w : W32) : (h.setWord a w).snap = h.snap := (rfl)
@[simp] theorem Hub.setWord_shadow (a : Nat) (w : W32) : (h.setWord a w).shadow = h.shadow := (rfl)
@[simp] theorem Hub.setWord_bank (a : Nat) (w : W32) : (h.setWord a w).bank = h.bank := (rfl)
@[simp] theorem Hub.setWord_rooster (a : Nat) (w : W32) : (h.setWord a w).rooster = h.rooster := (rfl)
@[simp] theorem Hub.setWord_start (a : Nat) (w : W32) : (h.setWord a w).start = h.start := (rfl)
@[simp] theorem Hub.setWord_goose (a : Nat) (w : W32) : (h.setWord a w).goose = h.goose := (rfl)
@[simp] theorem Hub.setWord_bull (a : Nat) (w : W32) : (h.setWord a w).bull = h.bull := (rfl)
@[simp] theorem Hub.setWord_pk (a : Nat) (w : W32) : (h.setWord a w).pk = h.pk := (rfl)
@[simp] theorem Hub.setWord_ox (a : Nat) (w : W32) : (h.setWord a w).ox = h.ox := (rfl)
@[simp] theorem Hub.setWord_tdc (a : Nat) (w : W32) : (h.setWord a w).tdc = h.tdc := (rfl)
@[simp] theorem Hub.setWord_hits (a : Nat) (w : W32) : (h.setWord a w).hits = h.hits := (rfl)
@[simp] theorem Hub.setWord_dead (a : Nat) (w : W32) : (h.setWord a w).dead = h.dead := (rfl)
@[simp] theorem Hub.setWord_chain (a : Nat) (w : W32) : (h.setWord a w).chain = h.chain := (rfl)
@[simp] theorem Hub.setWord_chainAt (a : Nat) (w : W32) : (h.setWord a w).chainAt = h.chainAt := (rfl)
@[simp] theorem Hub.setWord_chainSlots (a : Nat) (w : W32) : (h.setWord a w).chainSlots = h.chainSlots := (rfl)
@[simp] theorem Hub.setWord_lmem (a : Nat) (w : W32) : (h.setWord a w).lmem = h.lmem := (rfl)
@[simp] theorem Hub.setWord_l1as (a : Nat) (w : W32) : (h.setWord a w).l1as = h.l1as := (rfl)
@[simp] theorem Hub.setWord_trigs (a : Nat) (w : W32) : (h.setWord a w).trigs = h.trigs := (rfl)
@[simp] theorem Hub.setWord_answers (a : Nat) (w : W32) : (h.setWord a w).answers = h.answers := (rfl)
@[simp] theorem Hub.setWord_seeds (a : Nat) (w : W32) : (h.setWord a w).seeds = h.seeds := (rfl)
@[simp] theorem Hub.setWord_settings (a : Nat) (w : W32) : (h.setWord a w).settings = h.settings := (rfl)
@[simp] theorem Hub.setWord_reads (a : Nat) (w : W32) : (h.setWord a w).reads = h.reads := (rfl)
@[simp] theorem Hub.setWord_maskStop (a : Nat) (w : W32) : (h.setWord a w).maskStop = h.maskStop := (rfl)
@[simp] theorem Hub.setWord_queues (a : Nat) (w : W32) : (h.setWord a w).queues = h.queues := (rfl)
@[simp] theorem Hub.setWord_mule (a : Nat) (w : W32) : (h.setWord a w).mule = h.mule := (rfl)
@[simp] theorem Hub.setWord_cmp (a : Nat) (w : W32) : (h.setWord a w).cmp = h.cmp := (rfl)
@[simp] theorem Hub.setWord_hen (a : Nat) (w : W32) : (h.setWord a w).hen = h.hen := (rfl)
@[simp] theorem Hub.setWord_lanes (a : Nat) (w : W32) : (h.setWord a w).lanes = h.lanes := (rfl)
@[simp] theorem Hub.setWord_cal (a : Nat) (w : W32) : (h.setWord a w).cal = h.cal := (rfl)
@[simp] theorem Hub.setWord_rsv (a : Nat) (w : W32) : (h.setWord a w).rsv = h.rsv := (rfl)
@[simp] theorem Hub.setWord_twin (a : Nat) (w : W32) : (h.setWord a w).twin = h.twin := (rfl)
@[simp] theorem Hub.setWord_mon (a : Nat) (w : W32) : (h.setWord a w).mon = h.mon := (rfl)
@[simp] theorem Hub.setWord_ilk (a : Nat) (w : W32) : (h.setWord a w).ilk = h.ilk := (rfl)
@[simp] theorem Hub.setWord_tether (a : Nat) (w : W32) : (h.setWord a w).tether = h.tether := (rfl)
@[simp] theorem Hub.setWord_tap (a : Nat) (w : W32) : (h.setWord a w).tap = h.tap := (rfl)
@[simp] theorem Hub.setWord_free (a : Nat) (w : W32) : (h.setWord a w).free = h.free := (rfl)

/-! `setFld` -/

@[simp] theorem Hub.setFld_snap (f : Fld) (i v : Nat) : (h.setFld f i v).snap = h.snap := (rfl)
@[simp] theorem Hub.setFld_shadow (f : Fld) (i v : Nat) : (h.setFld f i v).shadow = h.shadow := (rfl)
@[simp] theorem Hub.setFld_bank (f : Fld) (i v : Nat) : (h.setFld f i v).bank = h.bank := (rfl)
@[simp] theorem Hub.setFld_rooster (f : Fld) (i v : Nat) : (h.setFld f i v).rooster = h.rooster := (rfl)
@[simp] theorem Hub.setFld_start (f : Fld) (i v : Nat) : (h.setFld f i v).start = h.start := (rfl)
@[simp] theorem Hub.setFld_goose (f : Fld) (i v : Nat) : (h.setFld f i v).goose = h.goose := (rfl)
@[simp] theorem Hub.setFld_bull (f : Fld) (i v : Nat) : (h.setFld f i v).bull = h.bull := (rfl)
@[simp] theorem Hub.setFld_pk (f : Fld) (i v : Nat) : (h.setFld f i v).pk = h.pk := (rfl)
@[simp] theorem Hub.setFld_ox (f : Fld) (i v : Nat) : (h.setFld f i v).ox = h.ox := (rfl)
@[simp] theorem Hub.setFld_tdc (f : Fld) (i v : Nat) : (h.setFld f i v).tdc = h.tdc := (rfl)
@[simp] theorem Hub.setFld_hits (f : Fld) (i v : Nat) : (h.setFld f i v).hits = h.hits := (rfl)
@[simp] theorem Hub.setFld_dead (f : Fld) (i v : Nat) : (h.setFld f i v).dead = h.dead := (rfl)
@[simp] theorem Hub.setFld_chain (f : Fld) (i v : Nat) : (h.setFld f i v).chain = h.chain := (rfl)
@[simp] theorem Hub.setFld_chainAt (f : Fld) (i v : Nat) : (h.setFld f i v).chainAt = h.chainAt := (rfl)
@[simp] theorem Hub.setFld_chainSlots (f : Fld) (i v : Nat) : (h.setFld f i v).chainSlots = h.chainSlots := (rfl)
@[simp] theorem Hub.setFld_lmem (f : Fld) (i v : Nat) : (h.setFld f i v).lmem = h.lmem := (rfl)
@[simp] theorem Hub.setFld_l1as (f : Fld) (i v : Nat) : (h.setFld f i v).l1as = h.l1as := (rfl)
@[simp] theorem Hub.setFld_trigs (f : Fld) (i v : Nat) : (h.setFld f i v).trigs = h.trigs := (rfl)
@[simp] theorem Hub.setFld_answers (f : Fld) (i v : Nat) : (h.setFld f i v).answers = h.answers := (rfl)
@[simp] theorem Hub.setFld_seeds (f : Fld) (i v : Nat) : (h.setFld f i v).seeds = h.seeds := (rfl)
@[simp] theorem Hub.setFld_settings (f : Fld) (i v : Nat) : (h.setFld f i v).settings = h.settings := (rfl)
@[simp] theorem Hub.setFld_reads (f : Fld) (i v : Nat) : (h.setFld f i v).reads = h.reads := (rfl)
@[simp] theorem Hub.setFld_maskStop (f : Fld) (i v : Nat) : (h.setFld f i v).maskStop = h.maskStop := (rfl)
@[simp] theorem Hub.setFld_queues (f : Fld) (i v : Nat) : (h.setFld f i v).queues = h.queues := (rfl)
@[simp] theorem Hub.setFld_mule (f : Fld) (i v : Nat) : (h.setFld f i v).mule = h.mule := (rfl)
@[simp] theorem Hub.setFld_cmp (f : Fld) (i v : Nat) : (h.setFld f i v).cmp = h.cmp := (rfl)
@[simp] theorem Hub.setFld_hen (f : Fld) (i v : Nat) : (h.setFld f i v).hen = h.hen := (rfl)
@[simp] theorem Hub.setFld_lanes (f : Fld) (i v : Nat) : (h.setFld f i v).lanes = h.lanes := (rfl)
@[simp] theorem Hub.setFld_cal (f : Fld) (i v : Nat) : (h.setFld f i v).cal = h.cal := (rfl)
@[simp] theorem Hub.setFld_rsv (f : Fld) (i v : Nat) : (h.setFld f i v).rsv = h.rsv := (rfl)
@[simp] theorem Hub.setFld_twin (f : Fld) (i v : Nat) : (h.setFld f i v).twin = h.twin := (rfl)
@[simp] theorem Hub.setFld_mon (f : Fld) (i v : Nat) : (h.setFld f i v).mon = h.mon := (rfl)
@[simp] theorem Hub.setFld_ilk (f : Fld) (i v : Nat) : (h.setFld f i v).ilk = h.ilk := (rfl)
@[simp] theorem Hub.setFld_tether (f : Fld) (i v : Nat) : (h.setFld f i v).tether = h.tether := (rfl)
@[simp] theorem Hub.setFld_tap (f : Fld) (i v : Nat) : (h.setFld f i v).tap = h.tap := (rfl)
@[simp] theorem Hub.setFld_free (f : Fld) (i v : Nat) : (h.setFld f i v).free = h.free := (rfl)

/-! `setFlag` -/

@[simp] theorem Hub.setFlag_snap (f : Fld) (i : Nat) (b : Bool) : (h.setFlag f i b).snap = h.snap := (rfl)
@[simp] theorem Hub.setFlag_shadow (f : Fld) (i : Nat) (b : Bool) : (h.setFlag f i b).shadow = h.shadow := (rfl)
@[simp] theorem Hub.setFlag_bank (f : Fld) (i : Nat) (b : Bool) : (h.setFlag f i b).bank = h.bank := (rfl)
@[simp] theorem Hub.setFlag_rooster (f : Fld) (i : Nat) (b : Bool) : (h.setFlag f i b).rooster = h.rooster := (rfl)
@[simp] theorem Hub.setFlag_start (f : Fld) (i : Nat) (b : Bool) : (h.setFlag f i b).start = h.start := (rfl)
@[simp] theorem Hub.setFlag_goose (f : Fld) (i : Nat) (b : Bool) : (h.setFlag f i b).goose = h.goose := (rfl)
@[simp] theorem Hub.setFlag_bull (f : Fld) (i : Nat) (b : Bool) : (h.setFlag f i b).bull = h.bull := (rfl)
@[simp] theorem Hub.setFlag_pk (f : Fld) (i : Nat) (b : Bool) : (h.setFlag f i b).pk = h.pk := (rfl)
@[simp] theorem Hub.setFlag_ox (f : Fld) (i : Nat) (b : Bool) : (h.setFlag f i b).ox = h.ox := (rfl)
@[simp] theorem Hub.setFlag_tdc (f : Fld) (i : Nat) (b : Bool) : (h.setFlag f i b).tdc = h.tdc := (rfl)
@[simp] theorem Hub.setFlag_hits (f : Fld) (i : Nat) (b : Bool) : (h.setFlag f i b).hits = h.hits := (rfl)
@[simp] theorem Hub.setFlag_dead (f : Fld) (i : Nat) (b : Bool) : (h.setFlag f i b).dead = h.dead := (rfl)
@[simp] theorem Hub.setFlag_chain (f : Fld) (i : Nat) (b : Bool) : (h.setFlag f i b).chain = h.chain := (rfl)
@[simp] theorem Hub.setFlag_chainAt (f : Fld) (i : Nat) (b : Bool) : (h.setFlag f i b).chainAt = h.chainAt := (rfl)
@[simp] theorem Hub.setFlag_chainSlots (f : Fld) (i : Nat) (b : Bool) : (h.setFlag f i b).chainSlots = h.chainSlots := (rfl)
@[simp] theorem Hub.setFlag_lmem (f : Fld) (i : Nat) (b : Bool) : (h.setFlag f i b).lmem = h.lmem := (rfl)
@[simp] theorem Hub.setFlag_l1as (f : Fld) (i : Nat) (b : Bool) : (h.setFlag f i b).l1as = h.l1as := (rfl)
@[simp] theorem Hub.setFlag_trigs (f : Fld) (i : Nat) (b : Bool) : (h.setFlag f i b).trigs = h.trigs := (rfl)
@[simp] theorem Hub.setFlag_answers (f : Fld) (i : Nat) (b : Bool) : (h.setFlag f i b).answers = h.answers := (rfl)
@[simp] theorem Hub.setFlag_seeds (f : Fld) (i : Nat) (b : Bool) : (h.setFlag f i b).seeds = h.seeds := (rfl)
@[simp] theorem Hub.setFlag_settings (f : Fld) (i : Nat) (b : Bool) : (h.setFlag f i b).settings = h.settings := (rfl)
@[simp] theorem Hub.setFlag_reads (f : Fld) (i : Nat) (b : Bool) : (h.setFlag f i b).reads = h.reads := (rfl)
@[simp] theorem Hub.setFlag_maskStop (f : Fld) (i : Nat) (b : Bool) : (h.setFlag f i b).maskStop = h.maskStop := (rfl)
@[simp] theorem Hub.setFlag_queues (f : Fld) (i : Nat) (b : Bool) : (h.setFlag f i b).queues = h.queues := (rfl)
@[simp] theorem Hub.setFlag_mule (f : Fld) (i : Nat) (b : Bool) : (h.setFlag f i b).mule = h.mule := (rfl)
@[simp] theorem Hub.setFlag_cmp (f : Fld) (i : Nat) (b : Bool) : (h.setFlag f i b).cmp = h.cmp := (rfl)
@[simp] theorem Hub.setFlag_hen (f : Fld) (i : Nat) (b : Bool) : (h.setFlag f i b).hen = h.hen := (rfl)
@[simp] theorem Hub.setFlag_lanes (f : Fld) (i : Nat) (b : Bool) : (h.setFlag f i b).lanes = h.lanes := (rfl)
@[simp] theorem Hub.setFlag_cal (f : Fld) (i : Nat) (b : Bool) : (h.setFlag f i b).cal = h.cal := (rfl)
@[simp] theorem Hub.setFlag_rsv (f : Fld) (i : Nat) (b : Bool) : (h.setFlag f i b).rsv = h.rsv := (rfl)
@[simp] theorem Hub.setFlag_twin (f : Fld) (i : Nat) (b : Bool) : (h.setFlag f i b).twin = h.twin := (rfl)
@[simp] theorem Hub.setFlag_mon (f : Fld) (i : Nat) (b : Bool) : (h.setFlag f i b).mon = h.mon := (rfl)
@[simp] theorem Hub.setFlag_ilk (f : Fld) (i : Nat) (b : Bool) : (h.setFlag f i b).ilk = h.ilk := (rfl)
@[simp] theorem Hub.setFlag_tether (f : Fld) (i : Nat) (b : Bool) : (h.setFlag f i b).tether = h.tether := (rfl)
@[simp] theorem Hub.setFlag_tap (f : Fld) (i : Nat) (b : Bool) : (h.setFlag f i b).tap = h.tap := (rfl)
@[simp] theorem Hub.setFlag_free (f : Fld) (i : Nat) (b : Bool) : (h.setFlag f i b).free = h.free := (rfl)

/-! `setS` -/

@[simp] theorem Hub.setS_snap (f : Fld) (i : Nat) (x : Int) : (h.setS f i x).snap = h.snap := (rfl)
@[simp] theorem Hub.setS_shadow (f : Fld) (i : Nat) (x : Int) : (h.setS f i x).shadow = h.shadow := (rfl)
@[simp] theorem Hub.setS_bank (f : Fld) (i : Nat) (x : Int) : (h.setS f i x).bank = h.bank := (rfl)
@[simp] theorem Hub.setS_rooster (f : Fld) (i : Nat) (x : Int) : (h.setS f i x).rooster = h.rooster := (rfl)
@[simp] theorem Hub.setS_start (f : Fld) (i : Nat) (x : Int) : (h.setS f i x).start = h.start := (rfl)
@[simp] theorem Hub.setS_goose (f : Fld) (i : Nat) (x : Int) : (h.setS f i x).goose = h.goose := (rfl)
@[simp] theorem Hub.setS_bull (f : Fld) (i : Nat) (x : Int) : (h.setS f i x).bull = h.bull := (rfl)
@[simp] theorem Hub.setS_pk (f : Fld) (i : Nat) (x : Int) : (h.setS f i x).pk = h.pk := (rfl)
@[simp] theorem Hub.setS_ox (f : Fld) (i : Nat) (x : Int) : (h.setS f i x).ox = h.ox := (rfl)
@[simp] theorem Hub.setS_tdc (f : Fld) (i : Nat) (x : Int) : (h.setS f i x).tdc = h.tdc := (rfl)
@[simp] theorem Hub.setS_hits (f : Fld) (i : Nat) (x : Int) : (h.setS f i x).hits = h.hits := (rfl)
@[simp] theorem Hub.setS_dead (f : Fld) (i : Nat) (x : Int) : (h.setS f i x).dead = h.dead := (rfl)
@[simp] theorem Hub.setS_chain (f : Fld) (i : Nat) (x : Int) : (h.setS f i x).chain = h.chain := (rfl)
@[simp] theorem Hub.setS_chainAt (f : Fld) (i : Nat) (x : Int) : (h.setS f i x).chainAt = h.chainAt := (rfl)
@[simp] theorem Hub.setS_chainSlots (f : Fld) (i : Nat) (x : Int) : (h.setS f i x).chainSlots = h.chainSlots := (rfl)
@[simp] theorem Hub.setS_lmem (f : Fld) (i : Nat) (x : Int) : (h.setS f i x).lmem = h.lmem := (rfl)
@[simp] theorem Hub.setS_l1as (f : Fld) (i : Nat) (x : Int) : (h.setS f i x).l1as = h.l1as := (rfl)
@[simp] theorem Hub.setS_trigs (f : Fld) (i : Nat) (x : Int) : (h.setS f i x).trigs = h.trigs := (rfl)
@[simp] theorem Hub.setS_answers (f : Fld) (i : Nat) (x : Int) : (h.setS f i x).answers = h.answers := (rfl)
@[simp] theorem Hub.setS_seeds (f : Fld) (i : Nat) (x : Int) : (h.setS f i x).seeds = h.seeds := (rfl)
@[simp] theorem Hub.setS_settings (f : Fld) (i : Nat) (x : Int) : (h.setS f i x).settings = h.settings := (rfl)
@[simp] theorem Hub.setS_reads (f : Fld) (i : Nat) (x : Int) : (h.setS f i x).reads = h.reads := (rfl)
@[simp] theorem Hub.setS_maskStop (f : Fld) (i : Nat) (x : Int) : (h.setS f i x).maskStop = h.maskStop := (rfl)
@[simp] theorem Hub.setS_queues (f : Fld) (i : Nat) (x : Int) : (h.setS f i x).queues = h.queues := (rfl)
@[simp] theorem Hub.setS_mule (f : Fld) (i : Nat) (x : Int) : (h.setS f i x).mule = h.mule := (rfl)
@[simp] theorem Hub.setS_cmp (f : Fld) (i : Nat) (x : Int) : (h.setS f i x).cmp = h.cmp := (rfl)
@[simp] theorem Hub.setS_hen (f : Fld) (i : Nat) (x : Int) : (h.setS f i x).hen = h.hen := (rfl)
@[simp] theorem Hub.setS_lanes (f : Fld) (i : Nat) (x : Int) : (h.setS f i x).lanes = h.lanes := (rfl)
@[simp] theorem Hub.setS_cal (f : Fld) (i : Nat) (x : Int) : (h.setS f i x).cal = h.cal := (rfl)
@[simp] theorem Hub.setS_rsv (f : Fld) (i : Nat) (x : Int) : (h.setS f i x).rsv = h.rsv := (rfl)
@[simp] theorem Hub.setS_twin (f : Fld) (i : Nat) (x : Int) : (h.setS f i x).twin = h.twin := (rfl)
@[simp] theorem Hub.setS_mon (f : Fld) (i : Nat) (x : Int) : (h.setS f i x).mon = h.mon := (rfl)
@[simp] theorem Hub.setS_ilk (f : Fld) (i : Nat) (x : Int) : (h.setS f i x).ilk = h.ilk := (rfl)
@[simp] theorem Hub.setS_tether (f : Fld) (i : Nat) (x : Int) : (h.setS f i x).tether = h.tether := (rfl)
@[simp] theorem Hub.setS_tap (f : Fld) (i : Nat) (x : Int) : (h.setS f i x).tap = h.tap := (rfl)
@[simp] theorem Hub.setS_free (f : Fld) (i : Nat) (x : Int) : (h.setS f i x).free = h.free := (rfl)

/-! `bump` -/

@[simp] theorem Hub.bump_snap (f : Fld) (i : Nat) : (h.bump f i).snap = h.snap := by unfold Hub.bump; split <;> simp only [Hub.setWord_snap, Hub.setFld_snap]
@[simp] theorem Hub.bump_shadow (f : Fld) (i : Nat) : (h.bump f i).shadow = h.shadow := by unfold Hub.bump; split <;> simp only [Hub.setWord_shadow, Hub.setFld_shadow]
@[simp] theorem Hub.bump_bank (f : Fld) (i : Nat) : (h.bump f i).bank = h.bank := by unfold Hub.bump; split <;> simp only [Hub.setWord_bank, Hub.setFld_bank]
@[simp] theorem Hub.bump_rooster (f : Fld) (i : Nat) : (h.bump f i).rooster = h.rooster := by unfold Hub.bump; split <;> simp only [Hub.setWord_rooster, Hub.setFld_rooster]
@[simp] theorem Hub.bump_start (f : Fld) (i : Nat) : (h.bump f i).start = h.start := by unfold Hub.bump; split <;> simp only [Hub.setWord_start, Hub.setFld_start]
@[simp] theorem Hub.bump_goose (f : Fld) (i : Nat) : (h.bump f i).goose = h.goose := by unfold Hub.bump; split <;> simp only [Hub.setWord_goose, Hub.setFld_goose]
@[simp] theorem Hub.bump_bull (f : Fld) (i : Nat) : (h.bump f i).bull = h.bull := by unfold Hub.bump; split <;> simp only [Hub.setWord_bull, Hub.setFld_bull]
@[simp] theorem Hub.bump_pk (f : Fld) (i : Nat) : (h.bump f i).pk = h.pk := by unfold Hub.bump; split <;> simp only [Hub.setWord_pk, Hub.setFld_pk]
@[simp] theorem Hub.bump_ox (f : Fld) (i : Nat) : (h.bump f i).ox = h.ox := by unfold Hub.bump; split <;> simp only [Hub.setWord_ox, Hub.setFld_ox]
@[simp] theorem Hub.bump_tdc (f : Fld) (i : Nat) : (h.bump f i).tdc = h.tdc := by unfold Hub.bump; split <;> simp only [Hub.setWord_tdc, Hub.setFld_tdc]
@[simp] theorem Hub.bump_hits (f : Fld) (i : Nat) : (h.bump f i).hits = h.hits := by unfold Hub.bump; split <;> simp only [Hub.setWord_hits, Hub.setFld_hits]
@[simp] theorem Hub.bump_dead (f : Fld) (i : Nat) : (h.bump f i).dead = h.dead := by unfold Hub.bump; split <;> simp only [Hub.setWord_dead, Hub.setFld_dead]
@[simp] theorem Hub.bump_chain (f : Fld) (i : Nat) : (h.bump f i).chain = h.chain := by unfold Hub.bump; split <;> simp only [Hub.setWord_chain, Hub.setFld_chain]
@[simp] theorem Hub.bump_chainAt (f : Fld) (i : Nat) : (h.bump f i).chainAt = h.chainAt := by unfold Hub.bump; split <;> simp only [Hub.setWord_chainAt, Hub.setFld_chainAt]
@[simp] theorem Hub.bump_chainSlots (f : Fld) (i : Nat) : (h.bump f i).chainSlots = h.chainSlots := by unfold Hub.bump; split <;> simp only [Hub.setWord_chainSlots, Hub.setFld_chainSlots]
@[simp] theorem Hub.bump_lmem (f : Fld) (i : Nat) : (h.bump f i).lmem = h.lmem := by unfold Hub.bump; split <;> simp only [Hub.setWord_lmem, Hub.setFld_lmem]
@[simp] theorem Hub.bump_l1as (f : Fld) (i : Nat) : (h.bump f i).l1as = h.l1as := by unfold Hub.bump; split <;> simp only [Hub.setWord_l1as, Hub.setFld_l1as]
@[simp] theorem Hub.bump_trigs (f : Fld) (i : Nat) : (h.bump f i).trigs = h.trigs := by unfold Hub.bump; split <;> simp only [Hub.setWord_trigs, Hub.setFld_trigs]
@[simp] theorem Hub.bump_answers (f : Fld) (i : Nat) : (h.bump f i).answers = h.answers := by unfold Hub.bump; split <;> simp only [Hub.setWord_answers, Hub.setFld_answers]
@[simp] theorem Hub.bump_seeds (f : Fld) (i : Nat) : (h.bump f i).seeds = h.seeds := by unfold Hub.bump; split <;> simp only [Hub.setWord_seeds, Hub.setFld_seeds]
@[simp] theorem Hub.bump_settings (f : Fld) (i : Nat) : (h.bump f i).settings = h.settings := by unfold Hub.bump; split <;> simp only [Hub.setWord_settings, Hub.setFld_settings]
@[simp] theorem Hub.bump_reads (f : Fld) (i : Nat) : (h.bump f i).reads = h.reads := by unfold Hub.bump; split <;> simp only [Hub.setWord_reads, Hub.setFld_reads]
@[simp] theorem Hub.bump_maskStop (f : Fld) (i : Nat) : (h.bump f i).maskStop = h.maskStop := by unfold Hub.bump; split <;> simp only [Hub.setWord_maskStop, Hub.setFld_maskStop]
@[simp] theorem Hub.bump_queues (f : Fld) (i : Nat) : (h.bump f i).queues = h.queues := by unfold Hub.bump; split <;> simp only [Hub.setWord_queues, Hub.setFld_queues]
@[simp] theorem Hub.bump_mule (f : Fld) (i : Nat) : (h.bump f i).mule = h.mule := by unfold Hub.bump; split <;> simp only [Hub.setWord_mule, Hub.setFld_mule]
@[simp] theorem Hub.bump_cmp (f : Fld) (i : Nat) : (h.bump f i).cmp = h.cmp := by unfold Hub.bump; split <;> simp only [Hub.setWord_cmp, Hub.setFld_cmp]
@[simp] theorem Hub.bump_hen (f : Fld) (i : Nat) : (h.bump f i).hen = h.hen := by unfold Hub.bump; split <;> simp only [Hub.setWord_hen, Hub.setFld_hen]
@[simp] theorem Hub.bump_lanes (f : Fld) (i : Nat) : (h.bump f i).lanes = h.lanes := by unfold Hub.bump; split <;> simp only [Hub.setWord_lanes, Hub.setFld_lanes]
@[simp] theorem Hub.bump_cal (f : Fld) (i : Nat) : (h.bump f i).cal = h.cal := by unfold Hub.bump; split <;> simp only [Hub.setWord_cal, Hub.setFld_cal]
@[simp] theorem Hub.bump_rsv (f : Fld) (i : Nat) : (h.bump f i).rsv = h.rsv := by unfold Hub.bump; split <;> simp only [Hub.setWord_rsv, Hub.setFld_rsv]
@[simp] theorem Hub.bump_twin (f : Fld) (i : Nat) : (h.bump f i).twin = h.twin := by unfold Hub.bump; split <;> simp only [Hub.setWord_twin, Hub.setFld_twin]
@[simp] theorem Hub.bump_mon (f : Fld) (i : Nat) : (h.bump f i).mon = h.mon := by unfold Hub.bump; split <;> simp only [Hub.setWord_mon, Hub.setFld_mon]
@[simp] theorem Hub.bump_ilk (f : Fld) (i : Nat) : (h.bump f i).ilk = h.ilk := by unfold Hub.bump; split <;> simp only [Hub.setWord_ilk, Hub.setFld_ilk]
@[simp] theorem Hub.bump_tether (f : Fld) (i : Nat) : (h.bump f i).tether = h.tether := by unfold Hub.bump; split <;> simp only [Hub.setWord_tether, Hub.setFld_tether]
@[simp] theorem Hub.bump_tap (f : Fld) (i : Nat) : (h.bump f i).tap = h.tap := by unfold Hub.bump; split <;> simp only [Hub.setWord_tap, Hub.setFld_tap]
@[simp] theorem Hub.bump_free (f : Fld) (i : Nat) : (h.bump f i).free = h.free := by unfold Hub.bump; split <;> simp only [Hub.setWord_free, Hub.setFld_free]

/-! `setSlot` -/

@[simp] theorem Hub.setSlot_snap (s : W48) : (h.setSlot s).snap = h.snap := by simp only [Hub.setSlot, Hub.setFld_snap]
@[simp] theorem Hub.setSlot_shadow (s : W48) : (h.setSlot s).shadow = h.shadow := by simp only [Hub.setSlot, Hub.setFld_shadow]
@[simp] theorem Hub.setSlot_bank (s : W48) : (h.setSlot s).bank = h.bank := by simp only [Hub.setSlot, Hub.setFld_bank]
@[simp] theorem Hub.setSlot_rooster (s : W48) : (h.setSlot s).rooster = h.rooster := by simp only [Hub.setSlot, Hub.setFld_rooster]
@[simp] theorem Hub.setSlot_start (s : W48) : (h.setSlot s).start = h.start := by simp only [Hub.setSlot, Hub.setFld_start]
@[simp] theorem Hub.setSlot_goose (s : W48) : (h.setSlot s).goose = h.goose := by simp only [Hub.setSlot, Hub.setFld_goose]
@[simp] theorem Hub.setSlot_bull (s : W48) : (h.setSlot s).bull = h.bull := by simp only [Hub.setSlot, Hub.setFld_bull]
@[simp] theorem Hub.setSlot_pk (s : W48) : (h.setSlot s).pk = h.pk := by simp only [Hub.setSlot, Hub.setFld_pk]
@[simp] theorem Hub.setSlot_ox (s : W48) : (h.setSlot s).ox = h.ox := by simp only [Hub.setSlot, Hub.setFld_ox]
@[simp] theorem Hub.setSlot_tdc (s : W48) : (h.setSlot s).tdc = h.tdc := by simp only [Hub.setSlot, Hub.setFld_tdc]
@[simp] theorem Hub.setSlot_hits (s : W48) : (h.setSlot s).hits = h.hits := by simp only [Hub.setSlot, Hub.setFld_hits]
@[simp] theorem Hub.setSlot_dead (s : W48) : (h.setSlot s).dead = h.dead := by simp only [Hub.setSlot, Hub.setFld_dead]
@[simp] theorem Hub.setSlot_chain (s : W48) : (h.setSlot s).chain = h.chain := by simp only [Hub.setSlot, Hub.setFld_chain]
@[simp] theorem Hub.setSlot_chainAt (s : W48) : (h.setSlot s).chainAt = h.chainAt := by simp only [Hub.setSlot, Hub.setFld_chainAt]
@[simp] theorem Hub.setSlot_chainSlots (s : W48) : (h.setSlot s).chainSlots = h.chainSlots := by simp only [Hub.setSlot, Hub.setFld_chainSlots]
@[simp] theorem Hub.setSlot_lmem (s : W48) : (h.setSlot s).lmem = h.lmem := by simp only [Hub.setSlot, Hub.setFld_lmem]
@[simp] theorem Hub.setSlot_l1as (s : W48) : (h.setSlot s).l1as = h.l1as := by simp only [Hub.setSlot, Hub.setFld_l1as]
@[simp] theorem Hub.setSlot_trigs (s : W48) : (h.setSlot s).trigs = h.trigs := by simp only [Hub.setSlot, Hub.setFld_trigs]
@[simp] theorem Hub.setSlot_answers (s : W48) : (h.setSlot s).answers = h.answers := by simp only [Hub.setSlot, Hub.setFld_answers]
@[simp] theorem Hub.setSlot_seeds (s : W48) : (h.setSlot s).seeds = h.seeds := by simp only [Hub.setSlot, Hub.setFld_seeds]
@[simp] theorem Hub.setSlot_settings (s : W48) : (h.setSlot s).settings = h.settings := by simp only [Hub.setSlot, Hub.setFld_settings]
@[simp] theorem Hub.setSlot_reads (s : W48) : (h.setSlot s).reads = h.reads := by simp only [Hub.setSlot, Hub.setFld_reads]
@[simp] theorem Hub.setSlot_maskStop (s : W48) : (h.setSlot s).maskStop = h.maskStop := by simp only [Hub.setSlot, Hub.setFld_maskStop]
@[simp] theorem Hub.setSlot_queues (s : W48) : (h.setSlot s).queues = h.queues := by simp only [Hub.setSlot, Hub.setFld_queues]
@[simp] theorem Hub.setSlot_mule (s : W48) : (h.setSlot s).mule = h.mule := by simp only [Hub.setSlot, Hub.setFld_mule]
@[simp] theorem Hub.setSlot_cmp (s : W48) : (h.setSlot s).cmp = h.cmp := by simp only [Hub.setSlot, Hub.setFld_cmp]
@[simp] theorem Hub.setSlot_hen (s : W48) : (h.setSlot s).hen = h.hen := by simp only [Hub.setSlot, Hub.setFld_hen]
@[simp] theorem Hub.setSlot_lanes (s : W48) : (h.setSlot s).lanes = h.lanes := by simp only [Hub.setSlot, Hub.setFld_lanes]
@[simp] theorem Hub.setSlot_cal (s : W48) : (h.setSlot s).cal = h.cal := by simp only [Hub.setSlot, Hub.setFld_cal]
@[simp] theorem Hub.setSlot_rsv (s : W48) : (h.setSlot s).rsv = h.rsv := by simp only [Hub.setSlot, Hub.setFld_rsv]
@[simp] theorem Hub.setSlot_twin (s : W48) : (h.setSlot s).twin = h.twin := by simp only [Hub.setSlot, Hub.setFld_twin]
@[simp] theorem Hub.setSlot_mon (s : W48) : (h.setSlot s).mon = h.mon := by simp only [Hub.setSlot, Hub.setFld_mon]
@[simp] theorem Hub.setSlot_ilk (s : W48) : (h.setSlot s).ilk = h.ilk := by simp only [Hub.setSlot, Hub.setFld_ilk]
@[simp] theorem Hub.setSlot_tether (s : W48) : (h.setSlot s).tether = h.tether := by simp only [Hub.setSlot, Hub.setFld_tether]
@[simp] theorem Hub.setSlot_tap (s : W48) : (h.setSlot s).tap = h.tap := by simp only [Hub.setSlot, Hub.setFld_tap]
@[simp] theorem Hub.setSlot_free (s : W48) : (h.setSlot s).free = h.free := by simp only [Hub.setSlot, Hub.setFld_free]

/-! `setLed` -/

@[simp] theorem Hub.setLed_snap (i v : Nat) : (h.setLed i v).snap = h.snap := by simp only [Hub.setLed, Hub.setFld_snap]
@[simp] theorem Hub.setLed_shadow (i v : Nat) : (h.setLed i v).shadow = h.shadow := by simp only [Hub.setLed, Hub.setFld_shadow]
@[simp] theorem Hub.setLed_bank (i v : Nat) : (h.setLed i v).bank = h.bank := by simp only [Hub.setLed, Hub.setFld_bank]
@[simp] theorem Hub.setLed_rooster (i v : Nat) : (h.setLed i v).rooster = h.rooster := by simp only [Hub.setLed, Hub.setFld_rooster]
@[simp] theorem Hub.setLed_start (i v : Nat) : (h.setLed i v).start = h.start := by simp only [Hub.setLed, Hub.setFld_start]
@[simp] theorem Hub.setLed_goose (i v : Nat) : (h.setLed i v).goose = h.goose := by simp only [Hub.setLed, Hub.setFld_goose]
@[simp] theorem Hub.setLed_bull (i v : Nat) : (h.setLed i v).bull = h.bull := by simp only [Hub.setLed, Hub.setFld_bull]
@[simp] theorem Hub.setLed_pk (i v : Nat) : (h.setLed i v).pk = h.pk := by simp only [Hub.setLed, Hub.setFld_pk]
@[simp] theorem Hub.setLed_ox (i v : Nat) : (h.setLed i v).ox = h.ox := by simp only [Hub.setLed, Hub.setFld_ox]
@[simp] theorem Hub.setLed_tdc (i v : Nat) : (h.setLed i v).tdc = h.tdc := by simp only [Hub.setLed, Hub.setFld_tdc]
@[simp] theorem Hub.setLed_hits (i v : Nat) : (h.setLed i v).hits = h.hits := by simp only [Hub.setLed, Hub.setFld_hits]
@[simp] theorem Hub.setLed_dead (i v : Nat) : (h.setLed i v).dead = h.dead := by simp only [Hub.setLed, Hub.setFld_dead]
@[simp] theorem Hub.setLed_chain (i v : Nat) : (h.setLed i v).chain = h.chain := by simp only [Hub.setLed, Hub.setFld_chain]
@[simp] theorem Hub.setLed_chainAt (i v : Nat) : (h.setLed i v).chainAt = h.chainAt := by simp only [Hub.setLed, Hub.setFld_chainAt]
@[simp] theorem Hub.setLed_chainSlots (i v : Nat) : (h.setLed i v).chainSlots = h.chainSlots := by simp only [Hub.setLed, Hub.setFld_chainSlots]
@[simp] theorem Hub.setLed_lmem (i v : Nat) : (h.setLed i v).lmem = h.lmem := by simp only [Hub.setLed, Hub.setFld_lmem]
@[simp] theorem Hub.setLed_l1as (i v : Nat) : (h.setLed i v).l1as = h.l1as := by simp only [Hub.setLed, Hub.setFld_l1as]
@[simp] theorem Hub.setLed_trigs (i v : Nat) : (h.setLed i v).trigs = h.trigs := by simp only [Hub.setLed, Hub.setFld_trigs]
@[simp] theorem Hub.setLed_answers (i v : Nat) : (h.setLed i v).answers = h.answers := by simp only [Hub.setLed, Hub.setFld_answers]
@[simp] theorem Hub.setLed_seeds (i v : Nat) : (h.setLed i v).seeds = h.seeds := by simp only [Hub.setLed, Hub.setFld_seeds]
@[simp] theorem Hub.setLed_settings (i v : Nat) : (h.setLed i v).settings = h.settings := by simp only [Hub.setLed, Hub.setFld_settings]
@[simp] theorem Hub.setLed_reads (i v : Nat) : (h.setLed i v).reads = h.reads := by simp only [Hub.setLed, Hub.setFld_reads]
@[simp] theorem Hub.setLed_maskStop (i v : Nat) : (h.setLed i v).maskStop = h.maskStop := by simp only [Hub.setLed, Hub.setFld_maskStop]
@[simp] theorem Hub.setLed_queues (i v : Nat) : (h.setLed i v).queues = h.queues := by simp only [Hub.setLed, Hub.setFld_queues]
@[simp] theorem Hub.setLed_mule (i v : Nat) : (h.setLed i v).mule = h.mule := by simp only [Hub.setLed, Hub.setFld_mule]
@[simp] theorem Hub.setLed_cmp (i v : Nat) : (h.setLed i v).cmp = h.cmp := by simp only [Hub.setLed, Hub.setFld_cmp]
@[simp] theorem Hub.setLed_hen (i v : Nat) : (h.setLed i v).hen = h.hen := by simp only [Hub.setLed, Hub.setFld_hen]
@[simp] theorem Hub.setLed_lanes (i v : Nat) : (h.setLed i v).lanes = h.lanes := by simp only [Hub.setLed, Hub.setFld_lanes]
@[simp] theorem Hub.setLed_cal (i v : Nat) : (h.setLed i v).cal = h.cal := by simp only [Hub.setLed, Hub.setFld_cal]
@[simp] theorem Hub.setLed_rsv (i v : Nat) : (h.setLed i v).rsv = h.rsv := by simp only [Hub.setLed, Hub.setFld_rsv]
@[simp] theorem Hub.setLed_twin (i v : Nat) : (h.setLed i v).twin = h.twin := by simp only [Hub.setLed, Hub.setFld_twin]
@[simp] theorem Hub.setLed_mon (i v : Nat) : (h.setLed i v).mon = h.mon := by simp only [Hub.setLed, Hub.setFld_mon]
@[simp] theorem Hub.setLed_ilk (i v : Nat) : (h.setLed i v).ilk = h.ilk := by simp only [Hub.setLed, Hub.setFld_ilk]
@[simp] theorem Hub.setLed_tether (i v : Nat) : (h.setLed i v).tether = h.tether := by simp only [Hub.setLed, Hub.setFld_tether]
@[simp] theorem Hub.setLed_tap (i v : Nat) : (h.setLed i v).tap = h.tap := by simp only [Hub.setLed, Hub.setFld_tap]
@[simp] theorem Hub.setLed_free (i v : Nat) : (h.setLed i v).free = h.free := by simp only [Hub.setLed, Hub.setFld_free]

/-! `setBank` -/

@[simp] theorem Hub.setBank_regs (k : Nat) (w : W32) : (h.setBank k w).regs = h.regs := (rfl)
@[simp] theorem Hub.setBank_snap (k : Nat) (w : W32) : (h.setBank k w).snap = h.snap := (rfl)
@[simp] theorem Hub.setBank_shadow (k : Nat) (w : W32) : (h.setBank k w).shadow = h.shadow := (rfl)
@[simp] theorem Hub.setBank_rooster (k : Nat) (w : W32) : (h.setBank k w).rooster = h.rooster := (rfl)
@[simp] theorem Hub.setBank_start (k : Nat) (w : W32) : (h.setBank k w).start = h.start := (rfl)
@[simp] theorem Hub.setBank_goose (k : Nat) (w : W32) : (h.setBank k w).goose = h.goose := (rfl)
@[simp] theorem Hub.setBank_bull (k : Nat) (w : W32) : (h.setBank k w).bull = h.bull := (rfl)
@[simp] theorem Hub.setBank_pk (k : Nat) (w : W32) : (h.setBank k w).pk = h.pk := (rfl)
@[simp] theorem Hub.setBank_ox (k : Nat) (w : W32) : (h.setBank k w).ox = h.ox := (rfl)
@[simp] theorem Hub.setBank_tdc (k : Nat) (w : W32) : (h.setBank k w).tdc = h.tdc := (rfl)
@[simp] theorem Hub.setBank_hits (k : Nat) (w : W32) : (h.setBank k w).hits = h.hits := (rfl)
@[simp] theorem Hub.setBank_dead (k : Nat) (w : W32) : (h.setBank k w).dead = h.dead := (rfl)
@[simp] theorem Hub.setBank_chain (k : Nat) (w : W32) : (h.setBank k w).chain = h.chain := (rfl)
@[simp] theorem Hub.setBank_chainAt (k : Nat) (w : W32) : (h.setBank k w).chainAt = h.chainAt := (rfl)
@[simp] theorem Hub.setBank_chainSlots (k : Nat) (w : W32) : (h.setBank k w).chainSlots = h.chainSlots := (rfl)
@[simp] theorem Hub.setBank_lmem (k : Nat) (w : W32) : (h.setBank k w).lmem = h.lmem := (rfl)
@[simp] theorem Hub.setBank_l1as (k : Nat) (w : W32) : (h.setBank k w).l1as = h.l1as := (rfl)
@[simp] theorem Hub.setBank_trigs (k : Nat) (w : W32) : (h.setBank k w).trigs = h.trigs := (rfl)
@[simp] theorem Hub.setBank_answers (k : Nat) (w : W32) : (h.setBank k w).answers = h.answers := (rfl)
@[simp] theorem Hub.setBank_seeds (k : Nat) (w : W32) : (h.setBank k w).seeds = h.seeds := (rfl)
@[simp] theorem Hub.setBank_settings (k : Nat) (w : W32) : (h.setBank k w).settings = h.settings := (rfl)
@[simp] theorem Hub.setBank_reads (k : Nat) (w : W32) : (h.setBank k w).reads = h.reads := (rfl)
@[simp] theorem Hub.setBank_maskStop (k : Nat) (w : W32) : (h.setBank k w).maskStop = h.maskStop := (rfl)
@[simp] theorem Hub.setBank_queues (k : Nat) (w : W32) : (h.setBank k w).queues = h.queues := (rfl)
@[simp] theorem Hub.setBank_mule (k : Nat) (w : W32) : (h.setBank k w).mule = h.mule := (rfl)
@[simp] theorem Hub.setBank_cmp (k : Nat) (w : W32) : (h.setBank k w).cmp = h.cmp := (rfl)
@[simp] theorem Hub.setBank_hen (k : Nat) (w : W32) : (h.setBank k w).hen = h.hen := (rfl)
@[simp] theorem Hub.setBank_lanes (k : Nat) (w : W32) : (h.setBank k w).lanes = h.lanes := (rfl)
@[simp] theorem Hub.setBank_cal (k : Nat) (w : W32) : (h.setBank k w).cal = h.cal := (rfl)
@[simp] theorem Hub.setBank_rsv (k : Nat) (w : W32) : (h.setBank k w).rsv = h.rsv := (rfl)
@[simp] theorem Hub.setBank_twin (k : Nat) (w : W32) : (h.setBank k w).twin = h.twin := (rfl)
@[simp] theorem Hub.setBank_mon (k : Nat) (w : W32) : (h.setBank k w).mon = h.mon := (rfl)
@[simp] theorem Hub.setBank_ilk (k : Nat) (w : W32) : (h.setBank k w).ilk = h.ilk := (rfl)
@[simp] theorem Hub.setBank_tether (k : Nat) (w : W32) : (h.setBank k w).tether = h.tether := (rfl)
@[simp] theorem Hub.setBank_tap (k : Nat) (w : W32) : (h.setBank k w).tap = h.tap := (rfl)
@[simp] theorem Hub.setBank_free (k : Nat) (w : W32) : (h.setBank k w).free = h.free := (rfl)

/-! `tookOpen` -/

@[simp] theorem Hub.tookOpen_regs : (h.tookOpen).regs = h.regs := (rfl)
@[simp] theorem Hub.tookOpen_snap : (h.tookOpen).snap = h.snap := (rfl)
@[simp] theorem Hub.tookOpen_shadow : (h.tookOpen).shadow = h.shadow := (rfl)
@[simp] theorem Hub.tookOpen_bank : (h.tookOpen).bank = h.bank := (rfl)
@[simp] theorem Hub.tookOpen_rooster : (h.tookOpen).rooster = h.rooster := (rfl)
@[simp] theorem Hub.tookOpen_start : (h.tookOpen).start = h.start := (rfl)
@[simp] theorem Hub.tookOpen_goose : (h.tookOpen).goose = h.goose := (rfl)
@[simp] theorem Hub.tookOpen_bull : (h.tookOpen).bull = h.bull := (rfl)
@[simp] theorem Hub.tookOpen_pk : (h.tookOpen).pk = h.pk := (rfl)
@[simp] theorem Hub.tookOpen_ox : (h.tookOpen).ox = h.ox := (rfl)
@[simp] theorem Hub.tookOpen_tdc : (h.tookOpen).tdc = h.tdc := (rfl)
@[simp] theorem Hub.tookOpen_hits : (h.tookOpen).hits = h.hits := (rfl)
@[simp] theorem Hub.tookOpen_dead : (h.tookOpen).dead = h.dead := (rfl)
@[simp] theorem Hub.tookOpen_chain : (h.tookOpen).chain = h.chain := (rfl)
@[simp] theorem Hub.tookOpen_chainAt : (h.tookOpen).chainAt = h.chainAt := (rfl)
@[simp] theorem Hub.tookOpen_chainSlots : (h.tookOpen).chainSlots = h.chainSlots := (rfl)
@[simp] theorem Hub.tookOpen_lmem : (h.tookOpen).lmem = h.lmem := (rfl)
@[simp] theorem Hub.tookOpen_l1as : (h.tookOpen).l1as = h.l1as := (rfl)
@[simp] theorem Hub.tookOpen_trigs : (h.tookOpen).trigs = h.trigs := (rfl)
@[simp] theorem Hub.tookOpen_answers : (h.tookOpen).answers = h.answers := (rfl)
@[simp] theorem Hub.tookOpen_seeds : (h.tookOpen).seeds = h.seeds := (rfl)
@[simp] theorem Hub.tookOpen_settings : (h.tookOpen).settings = h.settings := (rfl)
@[simp] theorem Hub.tookOpen_reads : (h.tookOpen).reads = h.reads := (rfl)
@[simp] theorem Hub.tookOpen_maskStop : (h.tookOpen).maskStop = h.maskStop := (rfl)
@[simp] theorem Hub.tookOpen_queues : (h.tookOpen).queues = h.queues := (rfl)
@[simp] theorem Hub.tookOpen_mule : (h.tookOpen).mule = h.mule := (rfl)
@[simp] theorem Hub.tookOpen_cmp : (h.tookOpen).cmp = h.cmp := (rfl)
@[simp] theorem Hub.tookOpen_hen : (h.tookOpen).hen = h.hen := (rfl)
@[simp] theorem Hub.tookOpen_lanes : (h.tookOpen).lanes = h.lanes := (rfl)
@[simp] theorem Hub.tookOpen_cal : (h.tookOpen).cal = h.cal := (rfl)
@[simp] theorem Hub.tookOpen_rsv : (h.tookOpen).rsv = h.rsv := (rfl)
@[simp] theorem Hub.tookOpen_twin : (h.tookOpen).twin = h.twin := (rfl)
@[simp] theorem Hub.tookOpen_mon : (h.tookOpen).mon = h.mon := (rfl)
@[simp] theorem Hub.tookOpen_ilk : (h.tookOpen).ilk = h.ilk := (rfl)
@[simp] theorem Hub.tookOpen_tether : (h.tookOpen).tether = h.tether := (rfl)
@[simp] theorem Hub.tookOpen_tap : (h.tookOpen).tap = h.tap := (rfl)

/-! `setOx` -/

@[simp] theorem Hub.setOx_snap (e : Nat) (x : Ox) : (h.setOx e x).snap = h.snap := by simp only [Hub.setOx, Hub.setFld_snap, Hub.setWord_snap]
@[simp] theorem Hub.setOx_shadow (e : Nat) (x : Ox) : (h.setOx e x).shadow = h.shadow := by simp only [Hub.setOx, Hub.setFld_shadow, Hub.setWord_shadow]
@[simp] theorem Hub.setOx_bank (e : Nat) (x : Ox) : (h.setOx e x).bank = h.bank := by simp only [Hub.setOx, Hub.setFld_bank, Hub.setWord_bank]
@[simp] theorem Hub.setOx_rooster (e : Nat) (x : Ox) : (h.setOx e x).rooster = h.rooster := by simp only [Hub.setOx, Hub.setFld_rooster, Hub.setWord_rooster]
@[simp] theorem Hub.setOx_start (e : Nat) (x : Ox) : (h.setOx e x).start = h.start := by simp only [Hub.setOx, Hub.setFld_start, Hub.setWord_start]
@[simp] theorem Hub.setOx_goose (e : Nat) (x : Ox) : (h.setOx e x).goose = h.goose := by simp only [Hub.setOx, Hub.setFld_goose, Hub.setWord_goose]
@[simp] theorem Hub.setOx_bull (e : Nat) (x : Ox) : (h.setOx e x).bull = h.bull := by simp only [Hub.setOx, Hub.setFld_bull, Hub.setWord_bull]
@[simp] theorem Hub.setOx_pk (e : Nat) (x : Ox) : (h.setOx e x).pk = h.pk := by simp only [Hub.setOx, Hub.setFld_pk, Hub.setWord_pk]
@[simp] theorem Hub.setOx_tdc (e : Nat) (x : Ox) : (h.setOx e x).tdc = h.tdc := by simp only [Hub.setOx, Hub.setFld_tdc, Hub.setWord_tdc]
@[simp] theorem Hub.setOx_hits (e : Nat) (x : Ox) : (h.setOx e x).hits = h.hits := by simp only [Hub.setOx, Hub.setFld_hits, Hub.setWord_hits]
@[simp] theorem Hub.setOx_dead (e : Nat) (x : Ox) : (h.setOx e x).dead = h.dead := by simp only [Hub.setOx, Hub.setFld_dead, Hub.setWord_dead]
@[simp] theorem Hub.setOx_chain (e : Nat) (x : Ox) : (h.setOx e x).chain = h.chain := by simp only [Hub.setOx, Hub.setFld_chain, Hub.setWord_chain]
@[simp] theorem Hub.setOx_chainAt (e : Nat) (x : Ox) : (h.setOx e x).chainAt = h.chainAt := by simp only [Hub.setOx, Hub.setFld_chainAt, Hub.setWord_chainAt]
@[simp] theorem Hub.setOx_chainSlots (e : Nat) (x : Ox) : (h.setOx e x).chainSlots = h.chainSlots := by simp only [Hub.setOx, Hub.setFld_chainSlots, Hub.setWord_chainSlots]
@[simp] theorem Hub.setOx_lmem (e : Nat) (x : Ox) : (h.setOx e x).lmem = h.lmem := by simp only [Hub.setOx, Hub.setFld_lmem, Hub.setWord_lmem]
@[simp] theorem Hub.setOx_l1as (e : Nat) (x : Ox) : (h.setOx e x).l1as = h.l1as := by simp only [Hub.setOx, Hub.setFld_l1as, Hub.setWord_l1as]
@[simp] theorem Hub.setOx_trigs (e : Nat) (x : Ox) : (h.setOx e x).trigs = h.trigs := by simp only [Hub.setOx, Hub.setFld_trigs, Hub.setWord_trigs]
@[simp] theorem Hub.setOx_answers (e : Nat) (x : Ox) : (h.setOx e x).answers = h.answers := by simp only [Hub.setOx, Hub.setFld_answers, Hub.setWord_answers]
@[simp] theorem Hub.setOx_seeds (e : Nat) (x : Ox) : (h.setOx e x).seeds = h.seeds := by simp only [Hub.setOx, Hub.setFld_seeds, Hub.setWord_seeds]
@[simp] theorem Hub.setOx_settings (e : Nat) (x : Ox) : (h.setOx e x).settings = h.settings := by simp only [Hub.setOx, Hub.setFld_settings, Hub.setWord_settings]
@[simp] theorem Hub.setOx_reads (e : Nat) (x : Ox) : (h.setOx e x).reads = h.reads := by simp only [Hub.setOx, Hub.setFld_reads, Hub.setWord_reads]
@[simp] theorem Hub.setOx_maskStop (e : Nat) (x : Ox) : (h.setOx e x).maskStop = h.maskStop := by simp only [Hub.setOx, Hub.setFld_maskStop, Hub.setWord_maskStop]
@[simp] theorem Hub.setOx_queues (e : Nat) (x : Ox) : (h.setOx e x).queues = h.queues := by simp only [Hub.setOx, Hub.setFld_queues, Hub.setWord_queues]
@[simp] theorem Hub.setOx_mule (e : Nat) (x : Ox) : (h.setOx e x).mule = h.mule := by simp only [Hub.setOx, Hub.setFld_mule, Hub.setWord_mule]
@[simp] theorem Hub.setOx_cmp (e : Nat) (x : Ox) : (h.setOx e x).cmp = h.cmp := by simp only [Hub.setOx, Hub.setFld_cmp, Hub.setWord_cmp]
@[simp] theorem Hub.setOx_hen (e : Nat) (x : Ox) : (h.setOx e x).hen = h.hen := by simp only [Hub.setOx, Hub.setFld_hen, Hub.setWord_hen]
@[simp] theorem Hub.setOx_lanes (e : Nat) (x : Ox) : (h.setOx e x).lanes = h.lanes := by simp only [Hub.setOx, Hub.setFld_lanes, Hub.setWord_lanes]
@[simp] theorem Hub.setOx_cal (e : Nat) (x : Ox) : (h.setOx e x).cal = h.cal := by simp only [Hub.setOx, Hub.setFld_cal, Hub.setWord_cal]
@[simp] theorem Hub.setOx_rsv (e : Nat) (x : Ox) : (h.setOx e x).rsv = h.rsv := by simp only [Hub.setOx, Hub.setFld_rsv, Hub.setWord_rsv]
@[simp] theorem Hub.setOx_twin (e : Nat) (x : Ox) : (h.setOx e x).twin = h.twin := by simp only [Hub.setOx, Hub.setFld_twin, Hub.setWord_twin]
@[simp] theorem Hub.setOx_mon (e : Nat) (x : Ox) : (h.setOx e x).mon = h.mon := by simp only [Hub.setOx, Hub.setFld_mon, Hub.setWord_mon]
@[simp] theorem Hub.setOx_ilk (e : Nat) (x : Ox) : (h.setOx e x).ilk = h.ilk := by simp only [Hub.setOx, Hub.setFld_ilk, Hub.setWord_ilk]
@[simp] theorem Hub.setOx_tether (e : Nat) (x : Ox) : (h.setOx e x).tether = h.tether := by simp only [Hub.setOx, Hub.setFld_tether, Hub.setWord_tether]
@[simp] theorem Hub.setOx_tap (e : Nat) (x : Ox) : (h.setOx e x).tap = h.tap := by simp only [Hub.setOx, Hub.setFld_tap, Hub.setWord_tap]
@[simp] theorem Hub.setOx_free (e : Nat) (x : Ox) : (h.setOx e x).free = h.free := by simp only [Hub.setOx, Hub.setFld_free, Hub.setWord_free]

/-! `setQueue` -/

@[simp] theorem Hub.setQueue_snap (q : Nat) (x : Queue) : (h.setQueue q x).snap = h.snap := by simp only [Hub.setQueue, Hub.setFld_snap, Hub.setFlag_snap]
@[simp] theorem Hub.setQueue_shadow (q : Nat) (x : Queue) : (h.setQueue q x).shadow = h.shadow := by simp only [Hub.setQueue, Hub.setFld_shadow, Hub.setFlag_shadow]
@[simp] theorem Hub.setQueue_bank (q : Nat) (x : Queue) : (h.setQueue q x).bank = h.bank := by simp only [Hub.setQueue, Hub.setFld_bank, Hub.setFlag_bank]
@[simp] theorem Hub.setQueue_rooster (q : Nat) (x : Queue) : (h.setQueue q x).rooster = h.rooster := by simp only [Hub.setQueue, Hub.setFld_rooster, Hub.setFlag_rooster]
@[simp] theorem Hub.setQueue_start (q : Nat) (x : Queue) : (h.setQueue q x).start = h.start := by simp only [Hub.setQueue, Hub.setFld_start, Hub.setFlag_start]
@[simp] theorem Hub.setQueue_goose (q : Nat) (x : Queue) : (h.setQueue q x).goose = h.goose := by simp only [Hub.setQueue, Hub.setFld_goose, Hub.setFlag_goose]
@[simp] theorem Hub.setQueue_bull (q : Nat) (x : Queue) : (h.setQueue q x).bull = h.bull := by simp only [Hub.setQueue, Hub.setFld_bull, Hub.setFlag_bull]
@[simp] theorem Hub.setQueue_pk (q : Nat) (x : Queue) : (h.setQueue q x).pk = h.pk := by simp only [Hub.setQueue, Hub.setFld_pk, Hub.setFlag_pk]
@[simp] theorem Hub.setQueue_ox (q : Nat) (x : Queue) : (h.setQueue q x).ox = h.ox := by simp only [Hub.setQueue, Hub.setFld_ox, Hub.setFlag_ox]
@[simp] theorem Hub.setQueue_tdc (q : Nat) (x : Queue) : (h.setQueue q x).tdc = h.tdc := by simp only [Hub.setQueue, Hub.setFld_tdc, Hub.setFlag_tdc]
@[simp] theorem Hub.setQueue_hits (q : Nat) (x : Queue) : (h.setQueue q x).hits = h.hits := by simp only [Hub.setQueue, Hub.setFld_hits, Hub.setFlag_hits]
@[simp] theorem Hub.setQueue_dead (q : Nat) (x : Queue) : (h.setQueue q x).dead = h.dead := by simp only [Hub.setQueue, Hub.setFld_dead, Hub.setFlag_dead]
@[simp] theorem Hub.setQueue_chain (q : Nat) (x : Queue) : (h.setQueue q x).chain = h.chain := by simp only [Hub.setQueue, Hub.setFld_chain, Hub.setFlag_chain]
@[simp] theorem Hub.setQueue_chainAt (q : Nat) (x : Queue) : (h.setQueue q x).chainAt = h.chainAt := by simp only [Hub.setQueue, Hub.setFld_chainAt, Hub.setFlag_chainAt]
@[simp] theorem Hub.setQueue_chainSlots (q : Nat) (x : Queue) : (h.setQueue q x).chainSlots = h.chainSlots := by simp only [Hub.setQueue, Hub.setFld_chainSlots, Hub.setFlag_chainSlots]
@[simp] theorem Hub.setQueue_lmem (q : Nat) (x : Queue) : (h.setQueue q x).lmem = h.lmem := by simp only [Hub.setQueue, Hub.setFld_lmem, Hub.setFlag_lmem]
@[simp] theorem Hub.setQueue_l1as (q : Nat) (x : Queue) : (h.setQueue q x).l1as = h.l1as := by simp only [Hub.setQueue, Hub.setFld_l1as, Hub.setFlag_l1as]
@[simp] theorem Hub.setQueue_trigs (q : Nat) (x : Queue) : (h.setQueue q x).trigs = h.trigs := by simp only [Hub.setQueue, Hub.setFld_trigs, Hub.setFlag_trigs]
@[simp] theorem Hub.setQueue_answers (q : Nat) (x : Queue) : (h.setQueue q x).answers = h.answers := by simp only [Hub.setQueue, Hub.setFld_answers, Hub.setFlag_answers]
@[simp] theorem Hub.setQueue_seeds (q : Nat) (x : Queue) : (h.setQueue q x).seeds = h.seeds := by simp only [Hub.setQueue, Hub.setFld_seeds, Hub.setFlag_seeds]
@[simp] theorem Hub.setQueue_settings (q : Nat) (x : Queue) : (h.setQueue q x).settings = h.settings := by simp only [Hub.setQueue, Hub.setFld_settings, Hub.setFlag_settings]
@[simp] theorem Hub.setQueue_reads (q : Nat) (x : Queue) : (h.setQueue q x).reads = h.reads := by simp only [Hub.setQueue, Hub.setFld_reads, Hub.setFlag_reads]
@[simp] theorem Hub.setQueue_maskStop (q : Nat) (x : Queue) : (h.setQueue q x).maskStop = h.maskStop := by simp only [Hub.setQueue, Hub.setFld_maskStop, Hub.setFlag_maskStop]
@[simp] theorem Hub.setQueue_mule (q : Nat) (x : Queue) : (h.setQueue q x).mule = h.mule := by simp only [Hub.setQueue, Hub.setFld_mule, Hub.setFlag_mule]
@[simp] theorem Hub.setQueue_cmp (q : Nat) (x : Queue) : (h.setQueue q x).cmp = h.cmp := by simp only [Hub.setQueue, Hub.setFld_cmp, Hub.setFlag_cmp]
@[simp] theorem Hub.setQueue_hen (q : Nat) (x : Queue) : (h.setQueue q x).hen = h.hen := by simp only [Hub.setQueue, Hub.setFld_hen, Hub.setFlag_hen]
@[simp] theorem Hub.setQueue_lanes (q : Nat) (x : Queue) : (h.setQueue q x).lanes = h.lanes := by simp only [Hub.setQueue, Hub.setFld_lanes, Hub.setFlag_lanes]
@[simp] theorem Hub.setQueue_cal (q : Nat) (x : Queue) : (h.setQueue q x).cal = h.cal := by simp only [Hub.setQueue, Hub.setFld_cal, Hub.setFlag_cal]
@[simp] theorem Hub.setQueue_rsv (q : Nat) (x : Queue) : (h.setQueue q x).rsv = h.rsv := by simp only [Hub.setQueue, Hub.setFld_rsv, Hub.setFlag_rsv]
@[simp] theorem Hub.setQueue_twin (q : Nat) (x : Queue) : (h.setQueue q x).twin = h.twin := by simp only [Hub.setQueue, Hub.setFld_twin, Hub.setFlag_twin]
@[simp] theorem Hub.setQueue_mon (q : Nat) (x : Queue) : (h.setQueue q x).mon = h.mon := by simp only [Hub.setQueue, Hub.setFld_mon, Hub.setFlag_mon]
@[simp] theorem Hub.setQueue_ilk (q : Nat) (x : Queue) : (h.setQueue q x).ilk = h.ilk := by simp only [Hub.setQueue, Hub.setFld_ilk, Hub.setFlag_ilk]
@[simp] theorem Hub.setQueue_tether (q : Nat) (x : Queue) : (h.setQueue q x).tether = h.tether := by simp only [Hub.setQueue, Hub.setFld_tether, Hub.setFlag_tether]
@[simp] theorem Hub.setQueue_tap (q : Nat) (x : Queue) : (h.setQueue q x).tap = h.tap := by simp only [Hub.setQueue, Hub.setFld_tap, Hub.setFlag_tap]
@[simp] theorem Hub.setQueue_free (q : Nat) (x : Queue) : (h.setQueue q x).free = h.free := by simp only [Hub.setQueue, Hub.setFld_free, Hub.setFlag_free]

/-! `setLane` -/

@[simp] theorem Hub.setLane_regs (l : Nat) (x : Lane) : (h.setLane l x).regs = h.regs := (rfl)
@[simp] theorem Hub.setLane_snap (l : Nat) (x : Lane) : (h.setLane l x).snap = h.snap := (rfl)
@[simp] theorem Hub.setLane_shadow (l : Nat) (x : Lane) : (h.setLane l x).shadow = h.shadow := (rfl)
@[simp] theorem Hub.setLane_bank (l : Nat) (x : Lane) : (h.setLane l x).bank = h.bank := (rfl)
@[simp] theorem Hub.setLane_rooster (l : Nat) (x : Lane) : (h.setLane l x).rooster = h.rooster := (rfl)
@[simp] theorem Hub.setLane_start (l : Nat) (x : Lane) : (h.setLane l x).start = h.start := (rfl)
@[simp] theorem Hub.setLane_goose (l : Nat) (x : Lane) : (h.setLane l x).goose = h.goose := (rfl)
@[simp] theorem Hub.setLane_bull (l : Nat) (x : Lane) : (h.setLane l x).bull = h.bull := (rfl)
@[simp] theorem Hub.setLane_pk (l : Nat) (x : Lane) : (h.setLane l x).pk = h.pk := (rfl)
@[simp] theorem Hub.setLane_ox (l : Nat) (x : Lane) : (h.setLane l x).ox = h.ox := (rfl)
@[simp] theorem Hub.setLane_tdc (l : Nat) (x : Lane) : (h.setLane l x).tdc = h.tdc := (rfl)
@[simp] theorem Hub.setLane_hits (l : Nat) (x : Lane) : (h.setLane l x).hits = h.hits := (rfl)
@[simp] theorem Hub.setLane_dead (l : Nat) (x : Lane) : (h.setLane l x).dead = h.dead := (rfl)
@[simp] theorem Hub.setLane_chain (l : Nat) (x : Lane) : (h.setLane l x).chain = h.chain := (rfl)
@[simp] theorem Hub.setLane_chainAt (l : Nat) (x : Lane) : (h.setLane l x).chainAt = h.chainAt := (rfl)
@[simp] theorem Hub.setLane_chainSlots (l : Nat) (x : Lane) : (h.setLane l x).chainSlots = h.chainSlots := (rfl)
@[simp] theorem Hub.setLane_lmem (l : Nat) (x : Lane) : (h.setLane l x).lmem = h.lmem := (rfl)
@[simp] theorem Hub.setLane_l1as (l : Nat) (x : Lane) : (h.setLane l x).l1as = h.l1as := (rfl)
@[simp] theorem Hub.setLane_trigs (l : Nat) (x : Lane) : (h.setLane l x).trigs = h.trigs := (rfl)
@[simp] theorem Hub.setLane_answers (l : Nat) (x : Lane) : (h.setLane l x).answers = h.answers := (rfl)
@[simp] theorem Hub.setLane_seeds (l : Nat) (x : Lane) : (h.setLane l x).seeds = h.seeds := (rfl)
@[simp] theorem Hub.setLane_settings (l : Nat) (x : Lane) : (h.setLane l x).settings = h.settings := (rfl)
@[simp] theorem Hub.setLane_reads (l : Nat) (x : Lane) : (h.setLane l x).reads = h.reads := (rfl)
@[simp] theorem Hub.setLane_maskStop (l : Nat) (x : Lane) : (h.setLane l x).maskStop = h.maskStop := (rfl)
@[simp] theorem Hub.setLane_queues (l : Nat) (x : Lane) : (h.setLane l x).queues = h.queues := (rfl)
@[simp] theorem Hub.setLane_mule (l : Nat) (x : Lane) : (h.setLane l x).mule = h.mule := (rfl)
@[simp] theorem Hub.setLane_cmp (l : Nat) (x : Lane) : (h.setLane l x).cmp = h.cmp := (rfl)
@[simp] theorem Hub.setLane_hen (l : Nat) (x : Lane) : (h.setLane l x).hen = h.hen := (rfl)
@[simp] theorem Hub.setLane_cal (l : Nat) (x : Lane) : (h.setLane l x).cal = h.cal := (rfl)
@[simp] theorem Hub.setLane_rsv (l : Nat) (x : Lane) : (h.setLane l x).rsv = h.rsv := (rfl)
@[simp] theorem Hub.setLane_twin (l : Nat) (x : Lane) : (h.setLane l x).twin = h.twin := (rfl)
@[simp] theorem Hub.setLane_mon (l : Nat) (x : Lane) : (h.setLane l x).mon = h.mon := (rfl)
@[simp] theorem Hub.setLane_ilk (l : Nat) (x : Lane) : (h.setLane l x).ilk = h.ilk := (rfl)
@[simp] theorem Hub.setLane_tether (l : Nat) (x : Lane) : (h.setLane l x).tether = h.tether := (rfl)
@[simp] theorem Hub.setLane_tap (l : Nat) (x : Lane) : (h.setLane l x).tap = h.tap := (rfl)
@[simp] theorem Hub.setLane_free (l : Nat) (x : Lane) : (h.setLane l x).free = h.free := (rfl)

/-! `setChild` -/

@[simp] theorem Hub.setChild_regs (k : Nat) (x : Child) : (h.setChild k x).regs = h.regs := (rfl)
@[simp] theorem Hub.setChild_snap (k : Nat) (x : Child) : (h.setChild k x).snap = h.snap := (rfl)
@[simp] theorem Hub.setChild_shadow (k : Nat) (x : Child) : (h.setChild k x).shadow = h.shadow := (rfl)
@[simp] theorem Hub.setChild_bank (k : Nat) (x : Child) : (h.setChild k x).bank = h.bank := (rfl)
@[simp] theorem Hub.setChild_rooster (k : Nat) (x : Child) : (h.setChild k x).rooster = h.rooster := (rfl)
@[simp] theorem Hub.setChild_start (k : Nat) (x : Child) : (h.setChild k x).start = h.start := (rfl)
@[simp] theorem Hub.setChild_goose (k : Nat) (x : Child) : (h.setChild k x).goose = h.goose := (rfl)
@[simp] theorem Hub.setChild_bull (k : Nat) (x : Child) : (h.setChild k x).bull = h.bull := (rfl)
@[simp] theorem Hub.setChild_pk (k : Nat) (x : Child) : (h.setChild k x).pk = h.pk := (rfl)
@[simp] theorem Hub.setChild_ox (k : Nat) (x : Child) : (h.setChild k x).ox = h.ox := (rfl)
@[simp] theorem Hub.setChild_tdc (k : Nat) (x : Child) : (h.setChild k x).tdc = h.tdc := (rfl)
@[simp] theorem Hub.setChild_hits (k : Nat) (x : Child) : (h.setChild k x).hits = h.hits := (rfl)
@[simp] theorem Hub.setChild_dead (k : Nat) (x : Child) : (h.setChild k x).dead = h.dead := (rfl)
@[simp] theorem Hub.setChild_chain (k : Nat) (x : Child) : (h.setChild k x).chain = h.chain := (rfl)
@[simp] theorem Hub.setChild_chainAt (k : Nat) (x : Child) : (h.setChild k x).chainAt = h.chainAt := (rfl)
@[simp] theorem Hub.setChild_chainSlots (k : Nat) (x : Child) : (h.setChild k x).chainSlots = h.chainSlots := (rfl)
@[simp] theorem Hub.setChild_lmem (k : Nat) (x : Child) : (h.setChild k x).lmem = h.lmem := (rfl)
@[simp] theorem Hub.setChild_l1as (k : Nat) (x : Child) : (h.setChild k x).l1as = h.l1as := (rfl)
@[simp] theorem Hub.setChild_trigs (k : Nat) (x : Child) : (h.setChild k x).trigs = h.trigs := (rfl)
@[simp] theorem Hub.setChild_answers (k : Nat) (x : Child) : (h.setChild k x).answers = h.answers := (rfl)
@[simp] theorem Hub.setChild_seeds (k : Nat) (x : Child) : (h.setChild k x).seeds = h.seeds := (rfl)
@[simp] theorem Hub.setChild_settings (k : Nat) (x : Child) : (h.setChild k x).settings = h.settings := (rfl)
@[simp] theorem Hub.setChild_reads (k : Nat) (x : Child) : (h.setChild k x).reads = h.reads := (rfl)
@[simp] theorem Hub.setChild_maskStop (k : Nat) (x : Child) : (h.setChild k x).maskStop = h.maskStop := (rfl)
@[simp] theorem Hub.setChild_queues (k : Nat) (x : Child) : (h.setChild k x).queues = h.queues := (rfl)
@[simp] theorem Hub.setChild_mule (k : Nat) (x : Child) : (h.setChild k x).mule = h.mule := (rfl)
@[simp] theorem Hub.setChild_cmp (k : Nat) (x : Child) : (h.setChild k x).cmp = h.cmp := (rfl)
@[simp] theorem Hub.setChild_lanes (k : Nat) (x : Child) : (h.setChild k x).lanes = h.lanes := (rfl)
@[simp] theorem Hub.setChild_cal (k : Nat) (x : Child) : (h.setChild k x).cal = h.cal := (rfl)
@[simp] theorem Hub.setChild_rsv (k : Nat) (x : Child) : (h.setChild k x).rsv = h.rsv := (rfl)
@[simp] theorem Hub.setChild_twin (k : Nat) (x : Child) : (h.setChild k x).twin = h.twin := (rfl)
@[simp] theorem Hub.setChild_mon (k : Nat) (x : Child) : (h.setChild k x).mon = h.mon := (rfl)
@[simp] theorem Hub.setChild_ilk (k : Nat) (x : Child) : (h.setChild k x).ilk = h.ilk := (rfl)
@[simp] theorem Hub.setChild_tether (k : Nat) (x : Child) : (h.setChild k x).tether = h.tether := (rfl)
@[simp] theorem Hub.setChild_tap (k : Nat) (x : Child) : (h.setChild k x).tap = h.tap := (rfl)
@[simp] theorem Hub.setChild_free (k : Nat) (x : Child) : (h.setChild k x).free = h.free := (rfl)

/-! `setTdc` -/

@[simp] theorem Hub.setTdc_regs (c : Nat) (x : Tdc) : (h.setTdc c x).regs = h.regs := (rfl)
@[simp] theorem Hub.setTdc_snap (c : Nat) (x : Tdc) : (h.setTdc c x).snap = h.snap := (rfl)
@[simp] theorem Hub.setTdc_shadow (c : Nat) (x : Tdc) : (h.setTdc c x).shadow = h.shadow := (rfl)
@[simp] theorem Hub.setTdc_bank (c : Nat) (x : Tdc) : (h.setTdc c x).bank = h.bank := (rfl)
@[simp] theorem Hub.setTdc_rooster (c : Nat) (x : Tdc) : (h.setTdc c x).rooster = h.rooster := (rfl)
@[simp] theorem Hub.setTdc_start (c : Nat) (x : Tdc) : (h.setTdc c x).start = h.start := (rfl)
@[simp] theorem Hub.setTdc_goose (c : Nat) (x : Tdc) : (h.setTdc c x).goose = h.goose := (rfl)
@[simp] theorem Hub.setTdc_bull (c : Nat) (x : Tdc) : (h.setTdc c x).bull = h.bull := (rfl)
@[simp] theorem Hub.setTdc_pk (c : Nat) (x : Tdc) : (h.setTdc c x).pk = h.pk := (rfl)
@[simp] theorem Hub.setTdc_ox (c : Nat) (x : Tdc) : (h.setTdc c x).ox = h.ox := (rfl)
@[simp] theorem Hub.setTdc_hits (c : Nat) (x : Tdc) : (h.setTdc c x).hits = h.hits := (rfl)
@[simp] theorem Hub.setTdc_dead (c : Nat) (x : Tdc) : (h.setTdc c x).dead = h.dead := (rfl)
@[simp] theorem Hub.setTdc_chain (c : Nat) (x : Tdc) : (h.setTdc c x).chain = h.chain := (rfl)
@[simp] theorem Hub.setTdc_chainAt (c : Nat) (x : Tdc) : (h.setTdc c x).chainAt = h.chainAt := (rfl)
@[simp] theorem Hub.setTdc_chainSlots (c : Nat) (x : Tdc) : (h.setTdc c x).chainSlots = h.chainSlots := (rfl)
@[simp] theorem Hub.setTdc_lmem (c : Nat) (x : Tdc) : (h.setTdc c x).lmem = h.lmem := (rfl)
@[simp] theorem Hub.setTdc_l1as (c : Nat) (x : Tdc) : (h.setTdc c x).l1as = h.l1as := (rfl)
@[simp] theorem Hub.setTdc_trigs (c : Nat) (x : Tdc) : (h.setTdc c x).trigs = h.trigs := (rfl)
@[simp] theorem Hub.setTdc_answers (c : Nat) (x : Tdc) : (h.setTdc c x).answers = h.answers := (rfl)
@[simp] theorem Hub.setTdc_seeds (c : Nat) (x : Tdc) : (h.setTdc c x).seeds = h.seeds := (rfl)
@[simp] theorem Hub.setTdc_settings (c : Nat) (x : Tdc) : (h.setTdc c x).settings = h.settings := (rfl)
@[simp] theorem Hub.setTdc_reads (c : Nat) (x : Tdc) : (h.setTdc c x).reads = h.reads := (rfl)
@[simp] theorem Hub.setTdc_maskStop (c : Nat) (x : Tdc) : (h.setTdc c x).maskStop = h.maskStop := (rfl)
@[simp] theorem Hub.setTdc_queues (c : Nat) (x : Tdc) : (h.setTdc c x).queues = h.queues := (rfl)
@[simp] theorem Hub.setTdc_mule (c : Nat) (x : Tdc) : (h.setTdc c x).mule = h.mule := (rfl)
@[simp] theorem Hub.setTdc_cmp (c : Nat) (x : Tdc) : (h.setTdc c x).cmp = h.cmp := (rfl)
@[simp] theorem Hub.setTdc_hen (c : Nat) (x : Tdc) : (h.setTdc c x).hen = h.hen := (rfl)
@[simp] theorem Hub.setTdc_lanes (c : Nat) (x : Tdc) : (h.setTdc c x).lanes = h.lanes := (rfl)
@[simp] theorem Hub.setTdc_cal (c : Nat) (x : Tdc) : (h.setTdc c x).cal = h.cal := (rfl)
@[simp] theorem Hub.setTdc_rsv (c : Nat) (x : Tdc) : (h.setTdc c x).rsv = h.rsv := (rfl)
@[simp] theorem Hub.setTdc_twin (c : Nat) (x : Tdc) : (h.setTdc c x).twin = h.twin := (rfl)
@[simp] theorem Hub.setTdc_mon (c : Nat) (x : Tdc) : (h.setTdc c x).mon = h.mon := (rfl)
@[simp] theorem Hub.setTdc_ilk (c : Nat) (x : Tdc) : (h.setTdc c x).ilk = h.ilk := (rfl)
@[simp] theorem Hub.setTdc_tether (c : Nat) (x : Tdc) : (h.setTdc c x).tether = h.tether := (rfl)
@[simp] theorem Hub.setTdc_tap (c : Nat) (x : Tdc) : (h.setTdc c x).tap = h.tap := (rfl)
@[simp] theorem Hub.setTdc_free (c : Nat) (x : Tdc) : (h.setTdc c x).free = h.free := (rfl)

/-! `setChain` -/

@[simp] theorem Hub.setChain_regs (c : Nat) (x : Chain) : (h.setChain c x).regs = h.regs := (rfl)
@[simp] theorem Hub.setChain_snap (c : Nat) (x : Chain) : (h.setChain c x).snap = h.snap := (rfl)
@[simp] theorem Hub.setChain_shadow (c : Nat) (x : Chain) : (h.setChain c x).shadow = h.shadow := (rfl)
@[simp] theorem Hub.setChain_bank (c : Nat) (x : Chain) : (h.setChain c x).bank = h.bank := (rfl)
@[simp] theorem Hub.setChain_rooster (c : Nat) (x : Chain) : (h.setChain c x).rooster = h.rooster := (rfl)
@[simp] theorem Hub.setChain_start (c : Nat) (x : Chain) : (h.setChain c x).start = h.start := (rfl)
@[simp] theorem Hub.setChain_goose (c : Nat) (x : Chain) : (h.setChain c x).goose = h.goose := (rfl)
@[simp] theorem Hub.setChain_bull (c : Nat) (x : Chain) : (h.setChain c x).bull = h.bull := (rfl)
@[simp] theorem Hub.setChain_pk (c : Nat) (x : Chain) : (h.setChain c x).pk = h.pk := (rfl)
@[simp] theorem Hub.setChain_ox (c : Nat) (x : Chain) : (h.setChain c x).ox = h.ox := (rfl)
@[simp] theorem Hub.setChain_tdc (c : Nat) (x : Chain) : (h.setChain c x).tdc = h.tdc := (rfl)
@[simp] theorem Hub.setChain_hits (c : Nat) (x : Chain) : (h.setChain c x).hits = h.hits := (rfl)
@[simp] theorem Hub.setChain_dead (c : Nat) (x : Chain) : (h.setChain c x).dead = h.dead := (rfl)
@[simp] theorem Hub.setChain_chainAt (c : Nat) (x : Chain) : (h.setChain c x).chainAt = h.chainAt := (rfl)
@[simp] theorem Hub.setChain_chainSlots (c : Nat) (x : Chain) : (h.setChain c x).chainSlots = h.chainSlots := (rfl)
@[simp] theorem Hub.setChain_lmem (c : Nat) (x : Chain) : (h.setChain c x).lmem = h.lmem := (rfl)
@[simp] theorem Hub.setChain_l1as (c : Nat) (x : Chain) : (h.setChain c x).l1as = h.l1as := (rfl)
@[simp] theorem Hub.setChain_trigs (c : Nat) (x : Chain) : (h.setChain c x).trigs = h.trigs := (rfl)
@[simp] theorem Hub.setChain_answers (c : Nat) (x : Chain) : (h.setChain c x).answers = h.answers := (rfl)
@[simp] theorem Hub.setChain_seeds (c : Nat) (x : Chain) : (h.setChain c x).seeds = h.seeds := (rfl)
@[simp] theorem Hub.setChain_settings (c : Nat) (x : Chain) : (h.setChain c x).settings = h.settings := (rfl)
@[simp] theorem Hub.setChain_reads (c : Nat) (x : Chain) : (h.setChain c x).reads = h.reads := (rfl)
@[simp] theorem Hub.setChain_maskStop (c : Nat) (x : Chain) : (h.setChain c x).maskStop = h.maskStop := (rfl)
@[simp] theorem Hub.setChain_queues (c : Nat) (x : Chain) : (h.setChain c x).queues = h.queues := (rfl)
@[simp] theorem Hub.setChain_mule (c : Nat) (x : Chain) : (h.setChain c x).mule = h.mule := (rfl)
@[simp] theorem Hub.setChain_cmp (c : Nat) (x : Chain) : (h.setChain c x).cmp = h.cmp := (rfl)
@[simp] theorem Hub.setChain_hen (c : Nat) (x : Chain) : (h.setChain c x).hen = h.hen := (rfl)
@[simp] theorem Hub.setChain_lanes (c : Nat) (x : Chain) : (h.setChain c x).lanes = h.lanes := (rfl)
@[simp] theorem Hub.setChain_cal (c : Nat) (x : Chain) : (h.setChain c x).cal = h.cal := (rfl)
@[simp] theorem Hub.setChain_rsv (c : Nat) (x : Chain) : (h.setChain c x).rsv = h.rsv := (rfl)
@[simp] theorem Hub.setChain_twin (c : Nat) (x : Chain) : (h.setChain c x).twin = h.twin := (rfl)
@[simp] theorem Hub.setChain_mon (c : Nat) (x : Chain) : (h.setChain c x).mon = h.mon := (rfl)
@[simp] theorem Hub.setChain_ilk (c : Nat) (x : Chain) : (h.setChain c x).ilk = h.ilk := (rfl)
@[simp] theorem Hub.setChain_tether (c : Nat) (x : Chain) : (h.setChain c x).tether = h.tether := (rfl)
@[simp] theorem Hub.setChain_tap (c : Nat) (x : Chain) : (h.setChain c x).tap = h.tap := (rfl)
@[simp] theorem Hub.setChain_free (c : Nat) (x : Chain) : (h.setChain c x).free = h.free := (rfl)

/-! `setBullCtx` -/

@[simp] theorem Hub.setBullCtx_regs (bg : Bool) (c : Ctx) : (h.setBullCtx bg c).regs = h.regs := by cases bg <;> exact (rfl)
@[simp] theorem Hub.setBullCtx_snap (bg : Bool) (c : Ctx) : (h.setBullCtx bg c).snap = h.snap := by cases bg <;> exact (rfl)
@[simp] theorem Hub.setBullCtx_shadow (bg : Bool) (c : Ctx) : (h.setBullCtx bg c).shadow = h.shadow := by cases bg <;> exact (rfl)
@[simp] theorem Hub.setBullCtx_bank (bg : Bool) (c : Ctx) : (h.setBullCtx bg c).bank = h.bank := by cases bg <;> exact (rfl)
@[simp] theorem Hub.setBullCtx_rooster (bg : Bool) (c : Ctx) : (h.setBullCtx bg c).rooster = h.rooster := by cases bg <;> exact (rfl)
@[simp] theorem Hub.setBullCtx_start (bg : Bool) (c : Ctx) : (h.setBullCtx bg c).start = h.start := by cases bg <;> exact (rfl)
@[simp] theorem Hub.setBullCtx_goose (bg : Bool) (c : Ctx) : (h.setBullCtx bg c).goose = h.goose := by cases bg <;> exact (rfl)
@[simp] theorem Hub.setBullCtx_pk (bg : Bool) (c : Ctx) : (h.setBullCtx bg c).pk = h.pk := by cases bg <;> exact (rfl)
@[simp] theorem Hub.setBullCtx_ox (bg : Bool) (c : Ctx) : (h.setBullCtx bg c).ox = h.ox := by cases bg <;> exact (rfl)
@[simp] theorem Hub.setBullCtx_tdc (bg : Bool) (c : Ctx) : (h.setBullCtx bg c).tdc = h.tdc := by cases bg <;> exact (rfl)
@[simp] theorem Hub.setBullCtx_hits (bg : Bool) (c : Ctx) : (h.setBullCtx bg c).hits = h.hits := by cases bg <;> exact (rfl)
@[simp] theorem Hub.setBullCtx_dead (bg : Bool) (c : Ctx) : (h.setBullCtx bg c).dead = h.dead := by cases bg <;> exact (rfl)
@[simp] theorem Hub.setBullCtx_chain (bg : Bool) (c : Ctx) : (h.setBullCtx bg c).chain = h.chain := by cases bg <;> exact (rfl)
@[simp] theorem Hub.setBullCtx_chainAt (bg : Bool) (c : Ctx) : (h.setBullCtx bg c).chainAt = h.chainAt := by cases bg <;> exact (rfl)
@[simp] theorem Hub.setBullCtx_chainSlots (bg : Bool) (c : Ctx) : (h.setBullCtx bg c).chainSlots = h.chainSlots := by cases bg <;> exact (rfl)
@[simp] theorem Hub.setBullCtx_lmem (bg : Bool) (c : Ctx) : (h.setBullCtx bg c).lmem = h.lmem := by cases bg <;> exact (rfl)
@[simp] theorem Hub.setBullCtx_l1as (bg : Bool) (c : Ctx) : (h.setBullCtx bg c).l1as = h.l1as := by cases bg <;> exact (rfl)
@[simp] theorem Hub.setBullCtx_trigs (bg : Bool) (c : Ctx) : (h.setBullCtx bg c).trigs = h.trigs := by cases bg <;> exact (rfl)
@[simp] theorem Hub.setBullCtx_answers (bg : Bool) (c : Ctx) : (h.setBullCtx bg c).answers = h.answers := by cases bg <;> exact (rfl)
@[simp] theorem Hub.setBullCtx_seeds (bg : Bool) (c : Ctx) : (h.setBullCtx bg c).seeds = h.seeds := by cases bg <;> exact (rfl)
@[simp] theorem Hub.setBullCtx_settings (bg : Bool) (c : Ctx) : (h.setBullCtx bg c).settings = h.settings := by cases bg <;> exact (rfl)
@[simp] theorem Hub.setBullCtx_reads (bg : Bool) (c : Ctx) : (h.setBullCtx bg c).reads = h.reads := by cases bg <;> exact (rfl)
@[simp] theorem Hub.setBullCtx_maskStop (bg : Bool) (c : Ctx) : (h.setBullCtx bg c).maskStop = h.maskStop := by cases bg <;> exact (rfl)
@[simp] theorem Hub.setBullCtx_queues (bg : Bool) (c : Ctx) : (h.setBullCtx bg c).queues = h.queues := by cases bg <;> exact (rfl)
@[simp] theorem Hub.setBullCtx_mule (bg : Bool) (c : Ctx) : (h.setBullCtx bg c).mule = h.mule := by cases bg <;> exact (rfl)
@[simp] theorem Hub.setBullCtx_cmp (bg : Bool) (c : Ctx) : (h.setBullCtx bg c).cmp = h.cmp := by cases bg <;> exact (rfl)
@[simp] theorem Hub.setBullCtx_hen (bg : Bool) (c : Ctx) : (h.setBullCtx bg c).hen = h.hen := by cases bg <;> exact (rfl)
@[simp] theorem Hub.setBullCtx_lanes (bg : Bool) (c : Ctx) : (h.setBullCtx bg c).lanes = h.lanes := by cases bg <;> exact (rfl)
@[simp] theorem Hub.setBullCtx_cal (bg : Bool) (c : Ctx) : (h.setBullCtx bg c).cal = h.cal := by cases bg <;> exact (rfl)
@[simp] theorem Hub.setBullCtx_rsv (bg : Bool) (c : Ctx) : (h.setBullCtx bg c).rsv = h.rsv := by cases bg <;> exact (rfl)
@[simp] theorem Hub.setBullCtx_twin (bg : Bool) (c : Ctx) : (h.setBullCtx bg c).twin = h.twin := by cases bg <;> exact (rfl)
@[simp] theorem Hub.setBullCtx_mon (bg : Bool) (c : Ctx) : (h.setBullCtx bg c).mon = h.mon := by cases bg <;> exact (rfl)
@[simp] theorem Hub.setBullCtx_ilk (bg : Bool) (c : Ctx) : (h.setBullCtx bg c).ilk = h.ilk := by cases bg <;> exact (rfl)
@[simp] theorem Hub.setBullCtx_tether (bg : Bool) (c : Ctx) : (h.setBullCtx bg c).tether = h.tether := by cases bg <;> exact (rfl)
@[simp] theorem Hub.setBullCtx_tap (bg : Bool) (c : Ctx) : (h.setBullCtx bg c).tap = h.tap := by cases bg <;> exact (rfl)
@[simp] theorem Hub.setBullCtx_free (bg : Bool) (c : Ctx) : (h.setBullCtx bg c).free = h.free := by cases bg <;> exact (rfl)

/-! What the updates write -/

@[simp] theorem Hub.setLane_lane (l : Nat) (x : Lane) : (h.setLane l x).lane l = x := by simp [Hub.setLane, Hub.lane]
theorem Hub.setLane_lane_other (l k : Nat) (x : Lane) (hk : k ≠ l) : (h.setLane l x).lane k = h.lane k := by
  simp [Hub.setLane, Hub.lane, Store.get_set, hk]
@[simp] theorem Hub.setOx_oxOf (e : Nat) (x : Ox) : (h.setOx e x).oxOf e = x := Store.get_set_same _ _ _ _
theorem Hub.setOx_oxOf_other (e k : Nat) (x : Ox) (hk : k ≠ e) : (h.setOx e x).oxOf k = h.oxOf k :=
  Store.get_set_other _ _ _ _ _ hk
@[simp] theorem Hub.setQueue_queue (q : Nat) (x : Queue) : (h.setQueue q x).queue q = x := Store.get_set_same _ _ _ _
theorem Hub.setQueue_queue_other (q k : Nat) (x : Queue) (hk : k ≠ q) : (h.setQueue q x).queue k = h.queue k :=
  Store.get_set_other _ _ _ _ _ hk
@[simp] theorem Hub.setChild_child (k : Nat) (x : Child) : (h.setChild k x).child k = x := Store.get_set_same _ _ _ _
@[simp] theorem Hub.setTdc_tdcOf (c : Nat) (x : Tdc) : (h.setTdc c x).tdcOf c = x := Store.get_set_same _ _ _ _
@[simp] theorem Hub.setChain_chainOf (c : Nat) (x : Chain) : (h.setChain c x).chainOf c = x := Store.get_set_same _ _ _ _
@[simp] theorem Hub.setBullCtx_bullCtx (bg : Bool) (c : Ctx) : (h.setBullCtx bg c).bullCtx bg = c := by cases bg <;> rfl
@[simp] theorem Hub.setBullCtx_bullCtx_other (bg : Bool) (c : Ctx) : (h.setBullCtx bg c).bullCtx (!bg) = h.bullCtx (!bg) := by
  cases bg <;> rfl

/-- A read of a word of the parameter space after a write of one. -/
theorem Hub.setWord_word (a b : Nat) (w : W32) : (h.setWord a w).word b = if b = a then w else h.word b := by
  simp [Hub.setWord, Hub.word, Store.get_set]

/-- A read of a word that a window shows after a write of one. -/
theorem Hub.setBank_bankWord (k j : Nat) (w : W32) : (h.setBank k w).bankWord j = if j = k then w else h.bankWord j := by
  simp [Hub.setBank, Hub.bankWord, Store.get_set]

end Sys2Proof.Machine
end

