-- ==== Sys2Proof/Laws/Memory.lean ====
section
/-! SUPPORT. Every operation on the parameter space, on the words that windows show and on the memories keeps the canonical form
of Hub.canonical. -/

namespace Sys2Proof.Machine

/-- The five stores of the canonical form. -/
theorem Hub.canonical_iff (h : Hub) : h.canonical = true ↔
    Store.wf loadWord h.regs = true ∧ Store.wf bankLoad h.bank = true ∧ Store.wf (fun _ => (0 : W32)) h.bull.imem = true ∧
      Store.wf (fun _ => (0 : W32)) h.bull.dmem = true ∧ Store.wf (fun _ => (0 : W64)) h.lmem = true := by
  simp [Hub.canonical, and_assoc]

/-- What leaves the five stores as they are keeps their form. -/
theorem Hub.canonical_congr {h h' : Hub} (hr : h'.regs = h.regs) (hb : h'.bank = h.bank) (hu : h'.bull.imem = h.bull.imem)
    (hd : h'.bull.dmem = h.bull.dmem) (hl : h'.lmem = h.lmem) (hc : h.canonical = true) : h'.canonical = true := by
  rw [Hub.canonical_iff] at hc ⊢
  rwa [hr, hb, hu, hd, hl]

theorem Hub.canonical_setWord (h : Hub) (a : Nat) (w : W32) (hc : h.canonical = true) : (h.setWord a w).canonical = true := by
  rw [Hub.canonical_iff] at hc ⊢
  exact ⟨Store.wf_set _ _ _ _ hc.1, hc.2⟩

theorem Hub.canonical_setFld (h : Hub) (f : Fld) (i v : Nat) (hc : h.canonical = true) : (h.setFld f i v).canonical = true :=
  h.canonical_setWord _ _ hc

theorem Hub.canonical_setFlag (h : Hub) (f : Fld) (i : Nat) (b : Bool) (hc : h.canonical = true) :
    (h.setFlag f i b).canonical = true := h.canonical_setFld _ _ _ hc

theorem Hub.canonical_setS (h : Hub) (f : Fld) (i : Nat) (x : Int) (hc : h.canonical = true) : (h.setS f i x).canonical = true :=
  h.canonical_setFld _ _ _ hc

theorem Hub.canonical_bump (h : Hub) (f : Fld) (i : Nat) (hc : h.canonical = true) : (h.bump f i).canonical = true := by
  unfold Hub.bump
  split
  · exact h.canonical_setWord _ _ hc
  · exact h.canonical_setFld _ _ _ hc

theorem Hub.canonical_setSlot (h : Hub) (s : W48) (hc : h.canonical = true) : (h.setSlot s).canonical = true :=
  Hub.canonical_setFld _ _ _ _ (h.canonical_setFld _ _ _ hc)

theorem Hub.canonical_setLed (h : Hub) (i v : Nat) (hc : h.canonical = true) : (h.setLed i v).canonical = true :=
  Hub.canonical_setFld _ _ _ _ (h.canonical_setFld _ _ _ hc)

theorem Hub.canonical_setBank (h : Hub) (k : Nat) (w : W32) (hc : h.canonical = true) : (h.setBank k w).canonical = true := by
  rw [Hub.canonical_iff] at hc ⊢
  exact ⟨hc.1, Store.wf_set _ _ _ _ hc.2.1, hc.2.2⟩

theorem Hub.canonical_setOx (h : Hub) (e : Nat) (x : Ox) (hc : h.canonical = true) : (h.setOx e x).canonical = true := by
  have h1 : ({ h with ox := Store.set (fun _ => ({} : Ox)) h.ox e x } : Hub).canonical = true := hc
  exact Hub.canonical_setFld _ _ _ _ (Hub.canonical_setWord _ _ _ (Hub.canonical_setWord _ _ _
    (Hub.canonical_setFld _ _ _ _ (Hub.canonical_setFld _ _ _ _ h1))))

theorem Hub.canonical_setQueue (h : Hub) (q : Nat) (x : Queue) (hc : h.canonical = true) : (h.setQueue q x).canonical = true := by
  have h1 : ({ h with queues := Store.set (fun _ => ({} : Queue)) h.queues q x } : Hub).canonical = true := hc
  exact Hub.canonical_setFld _ _ _ _ (Hub.canonical_setFld _ _ _ _ h1)

theorem Hub.canonical_setBullCtx (h : Hub) (bg : Bool) (c : Ctx) (hc : h.canonical = true) :
    (h.setBullCtx bg c).canonical = true := by
  cases bg <;> exact hc

/-- A write of a memory word, of an engine or of Bull, keeps the form. -/
theorem Hub.canonical_writeMem (h : Hub) (m : MemWord) (v : W32) (hc : h.canonical = true) : (h.writeMem m v).canonical = true := by
  cases m with
  | ox e i => exact h.canonical_setOx _ _ hc
  | imem i =>
    rw [Hub.canonical_iff] at hc ⊢
    exact ⟨hc.1, hc.2.1, Store.wf_set _ _ _ _ hc.2.2.1, hc.2.2.2⟩
  | dmem i =>
    rw [Hub.canonical_iff] at hc ⊢
    exact ⟨hc.1, hc.2.1, hc.2.2.1, Store.wf_set _ _ _ _ hc.2.2.2.1, hc.2.2.2.2⟩

/-- Folding an operation that keeps the form keeps it. -/
theorem Hub.canonical_each {α : Type} (l : List α) (f : α → Hub → Hub) (hf : ∀ x h, h.canonical = true → (f x h).canonical = true)
    (h : Hub) (hc : h.canonical = true) : (each l h f).canonical = true := by
  induction l generalizing h with
  | nil => exact hc
  | cons x rest ih => exact ih _ (hf x h hc)

end Sys2Proof.Machine
end

