-- ==== Sys2Proof/WellFormed.lean ====
section
/-! DEFINITION. Which commands are well formed: an operand that the spec does not let occur is refused here, by Instr.wf. The
machine answers every command; what it makes of one that is not well formed is no claim about the hardware. -/

namespace Sys2Proof

/-- A place exists: Bull has one slot a word, and the engines that execute are 0 to 15, the spare serving one of those groups
(R188, R200, R498). -/
def Place.wf (p : Place) : Bool :=
  match p.who with
  | .bullFg => !p.vec && p.ends
  | .bullBg => !p.vec && p.ends
  | .oxSlot e => decide (e.val < 16)
  | .oxBg e => decide (e.val < 16)

/-- A frame of a lane has 512 bits (R352). -/
def frameOk (bytes : List W8) : Bool := bytes.length == 64

/-- A record has a header and a trailer (R284). -/
def recordOk (words : List W64) : Bool := decide (2 ≤ words.length)

/-- An eye scan has 64 phase steps, each with the zero offset (R459). -/
def EyeScan.wf (x : EyeScan) : Bool := x.phases.length == 64 && x.phases.all fun p => !p.1.isEmpty

/-- What a procedure measured is complete: 128 bins, the CTLE values 0 to 15, 64 pulses, 16 points of every channel (15_calibration.md,
"Procedures on the channels"). -/
def CalResult.wf (r : CalResult) : Bool :=
  match r with
  | .offset _ _ _ _ _ _ => true
  | .tdc _ _ counts _ _ _ _ => counts.length == 128
  | .phase _ _ _ _ => true
  | .inj _ _ _ _ => true
  | .gain _ _ => true
  | .ratio _ _ _ _ => true
  | .thresh _ => true
  | .timeofs _ times centroids => times.length == 64 && centroids.length == 64
  | .walk _ chans => !chans.isEmpty && chans.all fun l => l.length == 16
  | .laneRx _ scans => scans.length == 16 && scans.all EyeScan.wf
  | .eye _ scan => scan.wf

/-- A self phase reports both lines, 128 bins each (R461). -/
def RollResult.wf (r : RollResult) : Bool :=
  match r with
  | .selfPhase _ _ counts0 counts1 _ _ _ _ _ => counts0.length == 128 && counts1.length == 128
  | .shadow _ _ _ _ => true

/-- Where a Belouz instruction stands. -/
def Instr.place (i : Instr) : Option Place :=
  match i with
  | .powerOn _ => none
  | .rstNAssert => none
  | .rstNRelease => none
  | .rstNMask => none
  | .rstNRearm => none
  | .wresetWrite _ => none
  | .warmReset => none
  | .s00PowerGood _ => none
  | .s01CrystalCheck _ _ _ => none
  | .s02PllLock _ _ _ => none
  | .startRerun => none
  | .s03LaneSearch _ _ _ _ => none
  | .s04GridPlace _ => none
  | .s05Address _ => none
  | .s06MemoryTest _ _ => none
  | .s07TdcCheck _ _ => none
  | .s08DigitiserTest _ _ => none
  | .s09StrapCheck _ _ _ => none
  | .laneSearchRepeat => none
  | .slotBoundary _ => none
  | .thetaAverage _ _ _ => none
  | .crystalFail => none
  | .bandFail _ => none
  | .bandSwitchHealth => none
  | .holdoverEntry => none
  | .holdoverEnd _ _ => none
  | .clockSourceWrite _ => none
  | .regrid => none
  | .fccfgWrite _ => none
  | .voteFix _ => none
  | .voteFail _ => none
  | .downlinkFrameReceive _ _ _ => none
  | .fcNop _ => none
  | .fcL1a _ _ _ => none
  | .fcSync _ => none
  | .fcOrbit _ => none
  | .fcHold _ => none
  | .fcCalPulse _ => none
  | .fcSnap _ => none
  | .fcCommit _ => none
  | .fcTwinTake _ => none
  | .syncAction => none
  | .orbitCheck => none
  | .calPulseFire => none
  | .snapshot => none
  | .commitApply => none
  | .counterClear _ _ => none
  | .feSettled _ => none
  | .discriminatorCrossing _ _ _ _ _ => none
  | .fallingCrossing _ _ _ _ => none
  | .totTimeout _ => none
  | .hitPresent _ => none
  | .triggerAccept => none
  | .recordReadStart => none
  | .latencyBankRead _ _ => none
  | .recordPartHandover => none
  | .maskRearm => none
  | .oxOverrun _ => none
  | .oxSlotStop _ => none
  | .oxBgRestart _ => none
  | .swapExchange _ => none
  | .hitBlockClose => none
  | .muleItemRecord _ => none
  | .muleHandover _ => none
  | .muleDrain => none
  | .ledgerBoundary => none
  | .compressRecord _ _ => none
  | .cmpStallResume _ _ => none
  | .contextReset _ => none
  | .henSendRecord => none
  | .uplinkFrameSend _ => none
  | .downlinkFrameSend _ => none
  | .uplinkFrameReceive _ _ _ => none
  | .auditFrameReceive _ _ => none
  | .audnow => none
  | .laneLos _ => none
  | .laneLosClear _ => none
  | .laneLol _ => none
  | .laneLolClear _ => none
  | .lossOfAlignment _ => none
  | .alignmentFound _ => none
  | .trainingEnd _ => none
  | .ackTimeout _ => none
  | .laneFence _ => none
  | .laneRoleWrite _ _ => none
  | .laneRoleApply => none
  | .prbsGenerator _ _ => none
  | .prbsChecker _ _ => none
  | .prbsLock _ _ => none
  | .errorInjection _ => none
  | .packetRoute _ _ => none
  | .packetAccept _ _ => none
  | .packetExecuteStart => none
  | .packetEnd => none
  | .packetTimeout => none
  | .atomicApply => none
  | .bgTaskStart => none
  | .bgTaskEnd => none
  | .modeChange => none
  | .holdEntry => none
  | .holdExit => none
  | .faultReport _ => none
  | .unitFence _ => none
  | .lockstepRecovery _ _ => none
  | .feclr => none
  | .ringclr => none
  | .gsUnfence _ => none
  | .calOffset _ _ => none
  | .calTdc _ _ => none
  | .calPhase _ _ => none
  | .calInj _ _ => none
  | .calGain _ _ => none
  | .calRatio _ _ => none
  | .calThresh _ _ => none
  | .calTimeofs _ _ => none
  | .calWalk _ _ => none
  | .calLaneRx _ _ => none
  | .calEye _ _ => none
  | .calAll _ _ => none
  | .calAbort => none
  | .calApply _ => none
  | .xoMeasure _ => none
  | .pathDelayMeasure _ _ _ _ => none
  | .rollingRecal _ _ => none
  | .wearEvaluate _ => none
  | .spareBringIn _ => none
  | .rsVetoWrite _ => none
  | .twinDelivery => none
  | .twinSyncReceive _ => none
  | .partnerLost => none
  | .takeover => none
  | .joinStart => none
  | .copyRecordReceive _ => none
  | .stepBoundary => none
  | .twinHealth _ _ _ => none
  | .rejoin => none
  | .hreq => none
  | .monitorEntryEnd _ => none
  | .monitorPassEnd => none
  | .monitorRun _ => none
  | .monitorRestart => none
  | .ilkInputChange _ _ => none
  | .discrepancyFault _ => none
  | .feedbackLockout _ => none
  | .testPulse _ _ => none
  | .rcCheck _ => none
  | .ilkInternalFault _ => none
  | .ilkReqWrite _ => none
  | .ilkOff _ => none
  | .ilkClr _ => none
  | .tetherFrame _ _ _ => none
  | .ttLenWrite _ => none
  | .portGo _ => none
  | .portAbort _ _ => none
  | .portTransferEnd _ _ => none
  | .portRdyTimeout _ _ => none
  | .gpioSet _ => none
  | .gpioClr _ => none
  | .tapReset => none
  | .extest _ _ => none
  | .idcode => none
  | .samplePreload _ _ => none
  | .clamp => none
  | .highz => none
  | .extestPulse _ _ => none
  | .extestTrain _ _ => none
  | .bypass => none
  | .registerWrite _ _ => none
  | .nop p => some p
  | .add p _ _ _ => some p
  | .sub p _ _ _ => some p
  | .and p _ _ _ => some p
  | .or p _ _ _ => some p
  | .xor p _ _ _ => some p
  | .andn p _ _ _ => some p
  | .sll p _ _ _ => some p
  | .srl p _ _ _ => some p
  | .sra p _ _ _ => some p
  | .ror p _ _ _ => some p
  | .slt p _ _ _ => some p
  | .sltu p _ _ _ => some p
  | .min p _ _ _ => some p
  | .max p _ _ _ => some p
  | .minu p _ _ _ => some p
  | .maxu p _ _ _ => some p
  | .mul p _ _ _ => some p
  | .mulh p _ _ _ => some p
  | .mulhu p _ _ _ => some p
  | .adds p _ _ _ => some p
  | .subs p _ _ _ => some p
  | .clz p _ _ _ => some p
  | .popc p _ _ _ => some p
  | .addi p _ _ _ _ => some p
  | .andi p _ _ _ _ => some p
  | .ori p _ _ _ _ => some p
  | .xori p _ _ _ _ => some p
  | .slli p _ _ _ _ => some p
  | .srli p _ _ _ _ => some p
  | .srai p _ _ _ _ => some p
  | .slti p _ _ _ _ => some p
  | .sltiu p _ _ _ _ => some p
  | .movl p _ _ _ => some p
  | .movh p _ _ _ => some p
  | .extu p _ _ _ _ => some p
  | .exts p _ _ _ _ => some p
  | .ins p _ _ _ _ => some p
  | .ld p _ _ _ _ _ => some p
  | .ldh p _ _ _ _ _ => some p
  | .ldhu p _ _ _ _ _ => some p
  | .ldb p _ _ _ _ _ => some p
  | .ldbu p _ _ _ _ _ => some p
  | .st p _ _ _ _ => some p
  | .sth p _ _ _ _ _ => some p
  | .stb p _ _ _ _ _ => some p
  | .beq p _ _ _ _ => some p
  | .bne p _ _ _ _ => some p
  | .blt p _ _ _ _ => some p
  | .bge p _ _ _ _ => some p
  | .bltu p _ _ _ _ => some p
  | .bgeu p _ _ _ _ => some p
  | .j p _ _ => some p
  | .jal p _ _ => some p
  | .jalr p _ _ _ _ => some p
  | .qpush p _ _ _ _ => some p
  | .qpushl p _ _ _ _ => some p
  | .qpop p _ _ _ _ => some p
  | .qflush p _ _ _ _ => some p
  | .qstat p _ _ _ _ => some p
  | .hdr p _ _ _ _ => some p
  | .gapw p _ _ _ _ => some p
  | .stag p _ _ _ _ => some p
  | .wslot p _ _ _ _ => some p
  | .wtrig p _ _ _ _ => some p
  | .pld p _ _ _ _ => some p
  | .pst p _ _ _ _ => some p
  | .pbrd p _ _ _ _ => some p
  | .pbwr p _ _ _ _ _ => some p
  | .call p _ _ _ _ _ => some p
  | .callBackground p _ _ _ _ _ => some p
  | .rsltRead p _ _ _ _ _ => some p
  | .rsltPost p _ _ _ _ _ => some p
  | .rfree p _ _ _ _ => some p
  | .rput p _ _ _ _ => some p
  | .mode p _ _ _ _ => some p
  | .snap p _ _ _ _ => some p
  | .commit p _ _ _ _ => some p
  | .ack p _ _ _ _ => some p
  | .seal p _ _ _ _ _ => some p
  | .unseal p _ _ _ _ _ => some p
  | .swap p _ _ _ _ => some p
  | .jlog p _ _ _ _ => some p
  | .mfcs p _ _ _ _ => some p
  | .mtcs p _ _ _ _ => some p
  | .vadd p _ _ _ _ => some p
  | .vadds p _ _ _ _ => some p
  | .vaddu p _ _ _ _ => some p
  | .vsub p _ _ _ _ => some p
  | .vsubs p _ _ _ _ => some p
  | .vsubu p _ _ _ _ => some p
  | .vmul p _ _ _ _ => some p
  | .vmulr p _ _ _ _ => some p
  | .vmin p _ _ _ _ => some p
  | .vmax p _ _ _ _ => some p
  | .vminu p _ _ _ _ => some p
  | .vmaxu p _ _ _ _ => some p
  | .vand p _ _ _ _ => some p
  | .vor p _ _ _ _ => some p
  | .vxor p _ _ _ _ => some p
  | .vabsd p _ _ _ _ => some p
  | .vsll p _ _ _ _ => some p
  | .vsrl p _ _ _ _ => some p
  | .vsra p _ _ _ _ => some p
  | .vsrar p _ _ _ _ => some p
  | .vavg p _ _ _ _ => some p
  | .vcmp p _ _ _ _ => some p
  | .mand p _ _ _ _ => some p
  | .mor p _ _ _ _ => some p
  | .mxor p _ _ _ _ => some p
  | .mandn p _ _ _ _ => some p
  | .mnot p _ _ _ _ => some p
  | .mtm p _ _ _ _ => some p
  | .mfm p _ _ _ _ => some p
  | .mcnt p _ _ _ _ => some p
  | .mfirst p _ _ _ _ => some p
  | .vsplat p _ _ _ _ => some p
  | .vext p _ _ _ _ => some p
  | .vins p _ _ _ _ => some p
  | .vld p _ _ _ _ _ => some p
  | .vst p _ _ _ _ => some p
  | .vredSum p _ _ _ _ => some p
  | .vredSumu p _ _ _ _ => some p
  | .vredMaxu p _ _ _ _ => some p
  | .vredMaxidx p _ _ _ _ => some p
  | .hits p _ _ _ _ => some p
  | .win p _ _ _ _ => some p
  | .vthr p _ _ _ _ => some p
  | .vpeak p _ _ _ _ => some p
  | .twalk p _ _ _ _ _ => some p
  | .hemit p _ _ _ _ => some p
  | .supplyBelowFallingThreshold => none
  | .vcoBandLocksAgain _ => none
  | .feLeakChange _ _ => none

/-- A command is well formed. -/
def Instr.wf (i : Instr) : Bool :=
  match i with
  | .powerOn _ => true
  | .rstNAssert => true
  | .rstNRelease => true
  | .rstNMask => true
  | .rstNRearm => true
  | .wresetWrite _ => true
  | .warmReset => true
  | .s00PowerGood _ => true
  | .s01CrystalCheck _ _ _ => true
  | .s02PllLock _ _ _ => true
  | .startRerun => true
  | .s03LaneSearch _ _ _ _ => true
  | .s04GridPlace _ => true
  | .s05Address _ => true
  | .s06MemoryTest rows _ => decide rows.Nodup
  | .s07TdcCheck bad _ => decide bad.Nodup
  | .s08DigitiserTest bad _ => decide bad.Nodup
  | .s09StrapCheck _ _ _ => true
  | .laneSearchRepeat => true
  | .slotBoundary x => decide (x.adc.map fun x => x.p).Nodup
  | .thetaAverage _ _ _ => true
  | .crystalFail => true
  | .bandFail _ => true
  | .bandSwitchHealth => true
  | .holdoverEntry => true
  | .holdoverEnd _ _ => true
  | .clockSourceWrite _ => true
  | .regrid => true
  | .fccfgWrite _ => true
  | .voteFix _ => true
  | .voteFail _ => true
  | .downlinkFrameReceive _ bytes _ => frameOk bytes
  | .fcNop _ => true
  | .fcL1a _ _ _ => true
  | .fcSync _ => true
  | .fcOrbit _ => true
  | .fcHold _ => true
  | .fcCalPulse _ => true
  | .fcSnap _ => true
  | .fcCommit _ => true
  | .fcTwinTake _ => true
  | .syncAction => true
  | .orbitCheck => true
  | .calPulseFire => true
  | .snapshot => true
  | .commitApply => true
  | .counterClear _ _ => true
  | .feSettled _ => true
  | .discriminatorCrossing _ _ _ _ charge => decide (0 ≤ charge)
  | .fallingCrossing _ _ _ _ => true
  | .totTimeout _ => true
  | .hitPresent _ => true
  | .triggerAccept => true
  | .recordReadStart => true
  | .latencyBankRead _ _ => true
  | .recordPartHandover => true
  | .maskRearm => true
  | .oxOverrun _ => true
  | .oxSlotStop _ => true
  | .oxBgRestart _ => true
  | .swapExchange _ => true
  | .hitBlockClose => true
  | .muleItemRecord _ => true
  | .muleHandover _ => true
  | .muleDrain => true
  | .ledgerBoundary => true
  | .compressRecord _ _ => true
  | .cmpStallResume _ _ => true
  | .contextReset _ => true
  | .henSendRecord => true
  | .uplinkFrameSend _ => true
  | .downlinkFrameSend _ => true
  | .uplinkFrameReceive _ bytes _ => frameOk bytes
  | .auditFrameReceive _ words => words.length == 7
  | .audnow => true
  | .laneLos _ => true
  | .laneLosClear _ => true
  | .laneLol _ => true
  | .laneLolClear _ => true
  | .lossOfAlignment _ => true
  | .alignmentFound _ => true
  | .trainingEnd _ => true
  | .ackTimeout _ => true
  | .laneFence _ => true
  | .laneRoleWrite _ _ => true
  | .laneRoleApply => true
  | .prbsGenerator _ _ => true
  | .prbsChecker _ _ => true
  | .prbsLock _ _ => true
  | .errorInjection _ => true
  | .packetRoute _ bytes => !bytes.isEmpty
  | .packetAccept _ bytes => !bytes.isEmpty
  | .packetExecuteStart => true
  | .packetEnd => true
  | .packetTimeout => true
  | .atomicApply => true
  | .bgTaskStart => true
  | .bgTaskEnd => true
  | .modeChange => true
  | .holdEntry => true
  | .holdExit => true
  | .faultReport _ => true
  | .unitFence _ => true
  | .lockstepRecovery _ _ => true
  | .feclr => true
  | .ringclr => true
  | .gsUnfence _ => true
  | .calOffset _ _ => true
  | .calTdc _ _ => true
  | .calPhase _ _ => true
  | .calInj _ _ => true
  | .calGain _ _ => true
  | .calRatio _ _ => true
  | .calThresh _ _ => true
  | .calTimeofs _ _ => true
  | .calWalk _ _ => true
  | .calLaneRx _ _ => true
  | .calEye _ _ => true
  | .calAll _ _ => true
  | .calAbort => true
  | .calApply results => results.all CalResult.wf
  | .xoMeasure _ => true
  | .pathDelayMeasure _ _ _ _ => true
  | .rollingRecal _ r => r.wf
  | .wearEvaluate _ => true
  | .spareBringIn _ => true
  | .rsVetoWrite _ => true
  | .twinDelivery => true
  | .twinSyncReceive words => recordOk words
  | .partnerLost => true
  | .takeover => true
  | .joinStart => true
  | .copyRecordReceive words => recordOk words
  | .stepBoundary => true
  | .twinHealth _ _ _ => true
  | .rejoin => true
  | .hreq => true
  | .monitorEntryEnd _ => true
  | .monitorPassEnd => true
  | .monitorRun _ => true
  | .monitorRestart => true
  | .ilkInputChange _ _ => true
  | .discrepancyFault _ => true
  | .feedbackLockout _ => true
  | .testPulse _ _ => true
  | .rcCheck _ => true
  | .ilkInternalFault _ => true
  | .ilkReqWrite _ => true
  | .ilkOff _ => true
  | .ilkClr _ => true
  | .tetherFrame edges words _ => words.length == (edges + 31) / 32
  | .ttLenWrite _ => true
  | .portGo _ => true
  | .portAbort _ rx => decide (rx.length ≤ 2048)
  | .portTransferEnd _ rx => decide (rx.length ≤ 2048)
  | .portRdyTimeout _ rx => decide (rx.length ≤ 2048)
  | .gpioSet _ => true
  | .gpioClr _ => true
  | .tapReset => true
  | .extest _ _ => true
  | .idcode => true
  | .samplePreload _ _ => true
  | .clamp => true
  | .highz => true
  | .extestPulse _ _ => true
  | .extestTrain _ _ => true
  | .bypass => true
  | .registerWrite _ _ => true
  | .nop p => p.wf
  | .add p _ _ _ => p.wf
  | .sub p _ _ _ => p.wf
  | .and p _ _ _ => p.wf
  | .or p _ _ _ => p.wf
  | .xor p _ _ _ => p.wf
  | .andn p _ _ _ => p.wf
  | .sll p _ _ _ => p.wf
  | .srl p _ _ _ => p.wf
  | .sra p _ _ _ => p.wf
  | .ror p _ _ _ => p.wf
  | .slt p _ _ _ => p.wf
  | .sltu p _ _ _ => p.wf
  | .min p _ _ _ => p.wf
  | .max p _ _ _ => p.wf
  | .minu p _ _ _ => p.wf
  | .maxu p _ _ _ => p.wf
  | .mul p _ _ _ => p.wf
  | .mulh p _ _ _ => p.wf
  | .mulhu p _ _ _ => p.wf
  | .adds p _ _ _ => p.wf
  | .subs p _ _ _ => p.wf
  | .clz p _ _ _ => p.wf
  | .popc p _ _ _ => p.wf
  | .addi p _ _ _ _ => p.wf
  | .andi p _ _ _ _ => p.wf
  | .ori p _ _ _ _ => p.wf
  | .xori p _ _ _ _ => p.wf
  | .slli p _ _ _ _ => p.wf
  | .srli p _ _ _ _ => p.wf
  | .srai p _ _ _ _ => p.wf
  | .slti p _ _ _ _ => p.wf
  | .sltiu p _ _ _ _ => p.wf
  | .movl p _ _ _ => p.wf
  | .movh p _ _ _ => p.wf
  | .extu p _ _ _ _ => p.wf
  | .exts p _ _ _ _ => p.wf
  | .ins p _ _ _ _ => p.wf
  | .ld p _ _ _ _ _ => p.wf
  | .ldh p _ _ _ _ _ => p.wf
  | .ldhu p _ _ _ _ _ => p.wf
  | .ldb p _ _ _ _ _ => p.wf
  | .ldbu p _ _ _ _ _ => p.wf
  | .st p _ _ _ _ => p.wf
  | .sth p _ _ _ _ _ => p.wf
  | .stb p _ _ _ _ _ => p.wf
  | .beq p _ _ _ _ => p.wf
  | .bne p _ _ _ _ => p.wf
  | .blt p _ _ _ _ => p.wf
  | .bge p _ _ _ _ => p.wf
  | .bltu p _ _ _ _ => p.wf
  | .bgeu p _ _ _ _ => p.wf
  | .j p _ _ => p.wf
  | .jal p _ _ => p.wf
  | .jalr p _ _ _ _ => p.wf
  | .qpush p _ _ _ _ => p.wf
  | .qpushl p _ _ _ _ => p.wf
  | .qpop p _ _ _ _ => p.wf
  | .qflush p _ _ _ _ => p.wf
  | .qstat p _ _ _ _ => p.wf
  | .hdr p _ _ _ _ => p.wf
  | .gapw p _ _ _ _ => p.wf
  | .stag p _ _ _ _ => p.wf
  | .wslot p _ _ _ _ => p.wf
  | .wtrig p _ _ _ _ => p.wf
  | .pld p _ _ _ _ => p.wf
  | .pst p _ _ _ _ => p.wf
  | .pbrd p _ _ _ _ => p.wf
  | .pbwr p _ _ _ _ _ => p.wf
  | .call p _ _ _ _ _ => p.wf
  | .callBackground p _ _ _ _ _ => p.wf
  | .rsltRead p _ _ _ _ _ => p.wf
  | .rsltPost p _ _ _ _ _ => p.wf
  | .rfree p _ _ _ _ => p.wf
  | .rput p _ _ _ _ => p.wf
  | .mode p _ _ _ _ => p.wf
  | .snap p _ _ _ _ => p.wf
  | .commit p _ _ _ _ => p.wf
  | .ack p _ _ _ _ => p.wf
  | .seal p _ _ _ _ _ => p.wf
  | .unseal p _ _ _ _ _ => p.wf
  | .swap p _ _ _ _ => p.wf
  | .jlog p _ _ _ _ => p.wf
  | .mfcs p _ _ _ _ => p.wf
  | .mtcs p _ _ _ _ => p.wf
  | .vadd p _ _ _ _ => p.wf
  | .vadds p _ _ _ _ => p.wf
  | .vaddu p _ _ _ _ => p.wf
  | .vsub p _ _ _ _ => p.wf
  | .vsubs p _ _ _ _ => p.wf
  | .vsubu p _ _ _ _ => p.wf
  | .vmul p _ _ _ _ => p.wf
  | .vmulr p _ _ _ _ => p.wf
  | .vmin p _ _ _ _ => p.wf
  | .vmax p _ _ _ _ => p.wf
  | .vminu p _ _ _ _ => p.wf
  | .vmaxu p _ _ _ _ => p.wf
  | .vand p _ _ _ _ => p.wf
  | .vor p _ _ _ _ => p.wf
  | .vxor p _ _ _ _ => p.wf
  | .vabsd p _ _ _ _ => p.wf
  | .vsll p _ _ _ _ => p.wf
  | .vsrl p _ _ _ _ => p.wf
  | .vsra p _ _ _ _ => p.wf
  | .vsrar p _ _ _ _ => p.wf
  | .vavg p _ _ _ _ => p.wf
  | .vcmp p _ _ _ _ => p.wf
  | .mand p _ _ _ _ => p.wf
  | .mor p _ _ _ _ => p.wf
  | .mxor p _ _ _ _ => p.wf
  | .mandn p _ _ _ _ => p.wf
  | .mnot p _ _ _ _ => p.wf
  | .mtm p _ _ _ _ => p.wf
  | .mfm p _ _ _ _ => p.wf
  | .mcnt p _ _ _ _ => p.wf
  | .mfirst p _ _ _ _ => p.wf
  | .vsplat p _ _ _ _ => p.wf
  | .vext p _ _ _ _ => p.wf
  | .vins p _ _ _ _ => p.wf
  | .vld p _ _ _ _ _ => p.wf
  | .vst p _ _ _ _ => p.wf
  | .vredSum p _ _ _ _ => p.wf
  | .vredSumu p _ _ _ _ => p.wf
  | .vredMaxu p _ _ _ _ => p.wf
  | .vredMaxidx p _ _ _ _ => p.wf
  | .hits p _ _ _ _ => p.wf
  | .win p _ _ _ _ => p.wf
  | .vthr p _ _ _ _ => p.wf
  | .vpeak p _ _ _ _ => p.wf
  | .twalk p _ _ _ _ _ => p.wf
  | .hemit p _ _ _ _ => p.wf
  | .supplyBelowFallingThreshold => true
  | .vcoBandLocksAgain _ => true
  | .feLeakChange _ _ => true

end Sys2Proof
end

