-- ==== Sys2Proof/Laws/PerInstr.lean ====
section
/-! SUPPORT. Per constructor of Instr: a well-formed instruction stands at a place that exists. -/

namespace Sys2Proof.Laws

/-- The place of a well-formed instruction exists; a command that is no Belouz instruction has none. -/
def Wf.Statement (i : Instr) : Prop := i.wf = true → ∀ p, i.place = some p → p.wf = true

/-- An instruction whose check is that of its place. -/
theorem Wf.of_place {i : Instr} {p : Place} (hw : i.wf = p.wf) (hp : i.place = some p) : Wf.Statement i := by
  intro h q hq
  rw [hp] at hq
  cases hq
  rwa [hw] at h

/-- A command that has no place. -/
theorem Wf.of_none {i : Instr} (hp : i.place = none) : Wf.Statement i := by
  intro _ q hq
  rw [hp] at hq
  cases hq

theorem Wf.powerOn (straps : BitVec 6) :
    Wf.Statement (Instr.powerOn straps) := Wf.of_none rfl
theorem Wf.rstNAssert :
    Wf.Statement (Instr.rstNAssert) := Wf.of_none rfl
theorem Wf.rstNRelease :
    Wf.Statement (Instr.rstNRelease) := Wf.of_none rfl
theorem Wf.rstNMask :
    Wf.Statement (Instr.rstNMask) := Wf.of_none rfl
theorem Wf.rstNRearm :
    Wf.Statement (Instr.rstNRearm) := Wf.of_none rfl
theorem Wf.wresetWrite (v : W32) :
    Wf.Statement (Instr.wresetWrite v) := Wf.of_none rfl
theorem Wf.warmReset :
    Wf.Statement (Instr.warmReset) := Wf.of_none rfl
theorem Wf.s00PowerGood (dur : Nat) :
    Wf.Statement (Instr.s00PowerGood dur) := Wf.of_none rfl
theorem Wf.s01CrystalCheck (okA : Bool) (okB : Bool) (dur : Nat) :
    Wf.Statement (Instr.s01CrystalCheck okA okB dur) := Wf.of_none rfl
theorem Wf.s02PllLock (okA : Bool) (okB : Bool) (dur : Nat) :
    Wf.Statement (Instr.s02PllLock okA okB dur) := Wf.of_none rfl
theorem Wf.startRerun :
    Wf.Statement (Instr.startRerun) := Wf.of_none rfl
theorem Wf.s03LaneSearch (framed : BitVec 24) (failed : BitVec 24) (found : Found) (dur : Nat) :
    Wf.Statement (Instr.s03LaneSearch framed failed found dur) := Wf.of_none rfl
theorem Wf.s04GridPlace (dur : Nat) :
    Wf.Statement (Instr.s04GridPlace dur) := Wf.of_none rfl
theorem Wf.s05Address (dur : Nat) :
    Wf.Statement (Instr.s05Address dur) := Wf.of_none rfl
theorem Wf.s06MemoryTest (rows : List (BitVec 10 × BitVec 11)) (dur : Nat) :
    Wf.Statement (Instr.s06MemoryTest rows dur) := Wf.of_none rfl
theorem Wf.s07TdcCheck (bad : List (Fin 544 × Bool)) (dur : Nat) :
    Wf.Statement (Instr.s07TdcCheck bad dur) := Wf.of_none rfl
theorem Wf.s08DigitiserTest (bad : List (Fin 544)) (dur : Nat) :
    Wf.Statement (Instr.s08DigitiserTest bad dur) := Wf.of_none rfl
theorem Wf.s09StrapCheck (read1 : BitVec 6) (read2 : BitVec 6) (dur : Nat) :
    Wf.Statement (Instr.s09StrapCheck read1 read2 dur) := Wf.of_none rfl
theorem Wf.laneSearchRepeat :
    Wf.Statement (Instr.laneSearchRepeat) := Wf.of_none rfl
theorem Wf.slotBoundary (x : SlotIn) :
    Wf.Statement (Instr.slotBoundary x) := Wf.of_none rfl
theorem Wf.thetaAverage (l : Fin 24) (port : Fin 2) (echoes : Nat) :
    Wf.Statement (Instr.thetaAverage l port echoes) := Wf.of_none rfl
theorem Wf.crystalFail :
    Wf.Statement (Instr.crystalFail) := Wf.of_none rfl
theorem Wf.bandFail (err : W32) :
    Wf.Statement (Instr.bandFail err) := Wf.of_none rfl
theorem Wf.bandSwitchHealth :
    Wf.Statement (Instr.bandSwitchHealth) := Wf.of_none rfl
theorem Wf.holdoverEntry :
    Wf.Statement (Instr.holdoverEntry) := Wf.of_none rfl
theorem Wf.holdoverEnd (l : Fin 24) (port : Fin 2) :
    Wf.Statement (Instr.holdoverEnd l port) := Wf.of_none rfl
theorem Wf.clockSourceWrite (src : BitVec 2) :
    Wf.Statement (Instr.clockSourceWrite src) := Wf.of_none rfl
theorem Wf.regrid :
    Wf.Statement (Instr.regrid) := Wf.of_none rfl
theorem Wf.fccfgWrite (v : W32) :
    Wf.Statement (Instr.fccfgWrite v) := Wf.of_none rfl
theorem Wf.voteFix (addr : W24) :
    Wf.Statement (Instr.voteFix addr) := Wf.of_none rfl
theorem Wf.voteFail (addr : W24) :
    Wf.Statement (Instr.voteFail addr) := Wf.of_none rfl
theorem Wf.downlinkFrameReceive (l : Fin 24) (bytes : List W8) (arrival : Nat) :
    Wf.Statement (Instr.downlinkFrameReceive l bytes arrival) := Wf.of_none rfl
theorem Wf.fcNop (q : W48) :
    Wf.Statement (Instr.fcNop q) := Wf.of_none rfl
theorem Wf.fcL1a (q : W48) (num : W24) (ok : Bool) :
    Wf.Statement (Instr.fcL1a q num ok) := Wf.of_none rfl
theorem Wf.fcSync (q : W48) :
    Wf.Statement (Instr.fcSync q) := Wf.of_none rfl
theorem Wf.fcOrbit (q : W48) :
    Wf.Statement (Instr.fcOrbit q) := Wf.of_none rfl
theorem Wf.fcHold (q : W48) :
    Wf.Statement (Instr.fcHold q) := Wf.of_none rfl
theorem Wf.fcCalPulse (q : W48) :
    Wf.Statement (Instr.fcCalPulse q) := Wf.of_none rfl
theorem Wf.fcSnap (q : W48) :
    Wf.Statement (Instr.fcSnap q) := Wf.of_none rfl
theorem Wf.fcCommit (q : W48) :
    Wf.Statement (Instr.fcCommit q) := Wf.of_none rfl
theorem Wf.fcTwinTake (q : W48) :
    Wf.Statement (Instr.fcTwinTake q) := Wf.of_none rfl
theorem Wf.syncAction :
    Wf.Statement (Instr.syncAction) := Wf.of_none rfl
theorem Wf.orbitCheck :
    Wf.Statement (Instr.orbitCheck) := Wf.of_none rfl
theorem Wf.calPulseFire :
    Wf.Statement (Instr.calPulseFire) := Wf.of_none rfl
theorem Wf.snapshot :
    Wf.Statement (Instr.snapshot) := Wf.of_none rfl
theorem Wf.commitApply :
    Wf.Statement (Instr.commitApply) := Wf.of_none rfl
theorem Wf.counterClear (addr : W24) (bits : W32) :
    Wf.Statement (Instr.counterClear addr bits) := Wf.of_none rfl
theorem Wf.feSettled (c : Fin 512) :
    Wf.Statement (Instr.feSettled c) := Wf.of_none rfl
theorem Wf.discriminatorCrossing (c : Fin 512) (coarse : Fin 64) (fine : Fin 128) (stby : Fin 128) (charge : Int) :
    Wf.Statement (Instr.discriminatorCrossing c coarse fine stby charge) := Wf.of_none rfl
theorem Wf.fallingCrossing (c : Fin 512) (coarse : Fin 64) (fine : Fin 128) (stby : Fin 128) :
    Wf.Statement (Instr.fallingCrossing c coarse fine stby) := Wf.of_none rfl
theorem Wf.totTimeout (c : Fin 512) :
    Wf.Statement (Instr.totTimeout c) := Wf.of_none rfl
theorem Wf.hitPresent (g : Fin 16) :
    Wf.Statement (Instr.hitPresent g) := Wf.of_none rfl
theorem Wf.triggerAccept :
    Wf.Statement (Instr.triggerAccept) := Wf.of_none rfl
theorem Wf.recordReadStart :
    Wf.Statement (Instr.recordReadStart) := Wf.of_none rfl
theorem Wf.latencyBankRead (g : Fin 16) (ecc : Ecc) :
    Wf.Statement (Instr.latencyBankRead g ecc) := Wf.of_none rfl
theorem Wf.recordPartHandover :
    Wf.Statement (Instr.recordPartHandover) := Wf.of_none rfl
theorem Wf.maskRearm :
    Wf.Statement (Instr.maskRearm) := Wf.of_none rfl
theorem Wf.oxOverrun (e : Fin 17) :
    Wf.Statement (Instr.oxOverrun e) := Wf.of_none rfl
theorem Wf.oxSlotStop (e : Fin 17) :
    Wf.Statement (Instr.oxSlotStop e) := Wf.of_none rfl
theorem Wf.oxBgRestart (e : Fin 17) :
    Wf.Statement (Instr.oxBgRestart e) := Wf.of_none rfl
theorem Wf.swapExchange (e : Fin 17) :
    Wf.Statement (Instr.swapExchange e) := Wf.of_none rfl
theorem Wf.hitBlockClose :
    Wf.Statement (Instr.hitBlockClose) := Wf.of_none rfl
theorem Wf.muleItemRecord (q : Fin 32) :
    Wf.Statement (Instr.muleItemRecord q) := Wf.of_none rfl
theorem Wf.muleHandover (ecc : Ecc) :
    Wf.Statement (Instr.muleHandover ecc) := Wf.of_none rfl
theorem Wf.muleDrain :
    Wf.Statement (Instr.muleDrain) := Wf.of_none rfl
theorem Wf.ledgerBoundary :
    Wf.Statement (Instr.ledgerBoundary) := Wf.of_none rfl
theorem Wf.compressRecord (upset : Option Nat) (upset2 : Option Nat) :
    Wf.Statement (Instr.compressRecord upset upset2) := Wf.of_none rfl
theorem Wf.cmpStallResume (upset : Option Nat) (upset2 : Option Nat) :
    Wf.Statement (Instr.cmpStallResume upset upset2) := Wf.of_none rfl
theorem Wf.contextReset (v : W32) :
    Wf.Statement (Instr.contextReset v) := Wf.of_none rfl
theorem Wf.henSendRecord :
    Wf.Statement (Instr.henSendRecord) := Wf.of_none rfl
theorem Wf.uplinkFrameSend (l : Fin 24) :
    Wf.Statement (Instr.uplinkFrameSend l) := Wf.of_none rfl
theorem Wf.downlinkFrameSend (l : Fin 24) :
    Wf.Statement (Instr.downlinkFrameSend l) := Wf.of_none rfl
theorem Wf.uplinkFrameReceive (l : Fin 24) (bytes : List W8) (arrival : Nat) :
    Wf.Statement (Instr.uplinkFrameReceive l bytes arrival) := Wf.of_none rfl
theorem Wf.auditFrameReceive (k : Fin 4) (words : List W64) :
    Wf.Statement (Instr.auditFrameReceive k words) := Wf.of_none rfl
theorem Wf.audnow :
    Wf.Statement (Instr.audnow) := Wf.of_none rfl
theorem Wf.laneLos (l : Fin 24) :
    Wf.Statement (Instr.laneLos l) := Wf.of_none rfl
theorem Wf.laneLosClear (l : Fin 24) :
    Wf.Statement (Instr.laneLosClear l) := Wf.of_none rfl
theorem Wf.laneLol (l : Fin 24) :
    Wf.Statement (Instr.laneLol l) := Wf.of_none rfl
theorem Wf.laneLolClear (l : Fin 24) :
    Wf.Statement (Instr.laneLolClear l) := Wf.of_none rfl
theorem Wf.lossOfAlignment (l : Fin 24) :
    Wf.Statement (Instr.lossOfAlignment l) := Wf.of_none rfl
theorem Wf.alignmentFound (l : Fin 24) :
    Wf.Statement (Instr.alignmentFound l) := Wf.of_none rfl
theorem Wf.trainingEnd (l : Fin 24) :
    Wf.Statement (Instr.trainingEnd l) := Wf.of_none rfl
theorem Wf.ackTimeout (l : Fin 24) :
    Wf.Statement (Instr.ackTimeout l) := Wf.of_none rfl
theorem Wf.laneFence (l : Fin 24) :
    Wf.Statement (Instr.laneFence l) := Wf.of_none rfl
theorem Wf.laneRoleWrite (l : Fin 24) (v : W32) :
    Wf.Statement (Instr.laneRoleWrite l v) := Wf.of_none rfl
theorem Wf.laneRoleApply :
    Wf.Statement (Instr.laneRoleApply) := Wf.of_none rfl
theorem Wf.prbsGenerator (l : Fin 24) (v : W32) :
    Wf.Statement (Instr.prbsGenerator l v) := Wf.of_none rfl
theorem Wf.prbsChecker (l : Fin 24) (v : W32) :
    Wf.Statement (Instr.prbsChecker l v) := Wf.of_none rfl
theorem Wf.prbsLock (l : Fin 24) (bits : List Bool) :
    Wf.Statement (Instr.prbsLock l bits) := Wf.of_none rfl
theorem Wf.errorInjection (l : Fin 24) :
    Wf.Statement (Instr.errorInjection l) := Wf.of_none rfl
theorem Wf.packetRoute (l : Fin 24) (bytes : List W8) :
    Wf.Statement (Instr.packetRoute l bytes) := Wf.of_none rfl
theorem Wf.packetAccept (src : Source) (bytes : List W8) :
    Wf.Statement (Instr.packetAccept src bytes) := Wf.of_none rfl
theorem Wf.packetExecuteStart :
    Wf.Statement (Instr.packetExecuteStart) := Wf.of_none rfl
theorem Wf.packetEnd :
    Wf.Statement (Instr.packetEnd) := Wf.of_none rfl
theorem Wf.packetTimeout :
    Wf.Statement (Instr.packetTimeout) := Wf.of_none rfl
theorem Wf.atomicApply :
    Wf.Statement (Instr.atomicApply) := Wf.of_none rfl
theorem Wf.bgTaskStart :
    Wf.Statement (Instr.bgTaskStart) := Wf.of_none rfl
theorem Wf.bgTaskEnd :
    Wf.Statement (Instr.bgTaskEnd) := Wf.of_none rfl
theorem Wf.modeChange :
    Wf.Statement (Instr.modeChange) := Wf.of_none rfl
theorem Wf.holdEntry :
    Wf.Statement (Instr.holdEntry) := Wf.of_none rfl
theorem Wf.holdExit :
    Wf.Statement (Instr.holdExit) := Wf.of_none rfl
theorem Wf.faultReport (r : CycleReports) :
    Wf.Statement (Instr.faultReport r) := Wf.of_none rfl
theorem Wf.unitFence (u : BitVec 16) :
    Wf.Statement (Instr.unitFence u) := Wf.of_none rfl
theorem Wf.lockstepRecovery (badA : Bool) (badB : Bool) :
    Wf.Statement (Instr.lockstepRecovery badA badB) := Wf.of_none rfl
theorem Wf.feclr :
    Wf.Statement (Instr.feclr) := Wf.of_none rfl
theorem Wf.ringclr :
    Wf.Statement (Instr.ringclr) := Wf.of_none rfl
theorem Wf.gsUnfence (u : BitVec 16) :
    Wf.Statement (Instr.gsUnfence u) := Wf.of_none rfl
theorem Wf.calOffset (gmask : BitVec 16) (apply : Bool) :
    Wf.Statement (Instr.calOffset gmask apply) := Wf.of_none rfl
theorem Wf.calTdc (gmask : BitVec 16) (apply : Bool) :
    Wf.Statement (Instr.calTdc gmask apply) := Wf.of_none rfl
theorem Wf.calPhase (gmask : BitVec 16) (apply : Bool) :
    Wf.Statement (Instr.calPhase gmask apply) := Wf.of_none rfl
theorem Wf.calInj (gmask : BitVec 16) (apply : Bool) :
    Wf.Statement (Instr.calInj gmask apply) := Wf.of_none rfl
theorem Wf.calGain (gmask : BitVec 16) (apply : Bool) :
    Wf.Statement (Instr.calGain gmask apply) := Wf.of_none rfl
theorem Wf.calRatio (gmask : BitVec 16) (apply : Bool) :
    Wf.Statement (Instr.calRatio gmask apply) := Wf.of_none rfl
theorem Wf.calThresh (gmask : BitVec 16) (apply : Bool) :
    Wf.Statement (Instr.calThresh gmask apply) := Wf.of_none rfl
theorem Wf.calTimeofs (gmask : BitVec 16) (apply : Bool) :
    Wf.Statement (Instr.calTimeofs gmask apply) := Wf.of_none rfl
theorem Wf.calWalk (gmask : BitVec 16) (apply : Bool) :
    Wf.Statement (Instr.calWalk gmask apply) := Wf.of_none rfl
theorem Wf.calLaneRx (l : Fin 24) (apply : Bool) :
    Wf.Statement (Instr.calLaneRx l apply) := Wf.of_none rfl
theorem Wf.calEye (l : Fin 24) (apply : Bool) :
    Wf.Statement (Instr.calEye l apply) := Wf.of_none rfl
theorem Wf.calAll (gmask : BitVec 16) (apply : Bool) :
    Wf.Statement (Instr.calAll gmask apply) := Wf.of_none rfl
theorem Wf.calAbort :
    Wf.Statement (Instr.calAbort) := Wf.of_none rfl
theorem Wf.calApply (results : List CalResult) :
    Wf.Statement (Instr.calApply results) := Wf.of_none rfl
theorem Wf.xoMeasure (ppm : BitVec 16) :
    Wf.Statement (Instr.xoMeasure ppm) := Wf.of_none rfl
theorem Wf.pathDelayMeasure (l : Fin 24) (tx : BitVec 16) (rx : BitVec 16) (deskew : W8) :
    Wf.Statement (Instr.pathDelayMeasure l tx rx deskew) := Wf.of_none rfl
theorem Wf.rollingRecal (g : Fin 16) (r : RollResult) :
    Wf.Statement (Instr.rollingRecal g r) := Wf.of_none rfl
theorem Wf.wearEvaluate (m : WearInput) :
    Wf.Statement (Instr.wearEvaluate m) := Wf.of_none rfl
theorem Wf.spareBringIn (copyBad : Bool) :
    Wf.Statement (Instr.spareBringIn copyBad) := Wf.of_none rfl
theorem Wf.rsVetoWrite (v : W32) :
    Wf.Statement (Instr.rsVetoWrite v) := Wf.of_none rfl
theorem Wf.twinDelivery :
    Wf.Statement (Instr.twinDelivery) := Wf.of_none rfl
theorem Wf.twinSyncReceive (words : List W64) :
    Wf.Statement (Instr.twinSyncReceive words) := Wf.of_none rfl
theorem Wf.partnerLost :
    Wf.Statement (Instr.partnerLost) := Wf.of_none rfl
theorem Wf.takeover :
    Wf.Statement (Instr.takeover) := Wf.of_none rfl
theorem Wf.joinStart :
    Wf.Statement (Instr.joinStart) := Wf.of_none rfl
theorem Wf.copyRecordReceive (words : List W64) :
    Wf.Statement (Instr.copyRecordReceive words) := Wf.of_none rfl
theorem Wf.stepBoundary :
    Wf.Statement (Instr.stepBoundary) := Wf.of_none rfl
theorem Wf.twinHealth (bist : W8) (scrub : W8) (drift : BitVec 18) :
    Wf.Statement (Instr.twinHealth bist scrub drift) := Wf.of_none rfl
theorem Wf.rejoin :
    Wf.Statement (Instr.rejoin) := Wf.of_none rfl
theorem Wf.hreq :
    Wf.Statement (Instr.hreq) := Wf.of_none rfl
theorem Wf.monitorEntryEnd (m : MonMeasure) :
    Wf.Statement (Instr.monitorEntryEnd m) := Wf.of_none rfl
theorem Wf.monitorPassEnd :
    Wf.Statement (Instr.monitorPassEnd) := Wf.of_none rfl
theorem Wf.monitorRun (run : Bool) :
    Wf.Statement (Instr.monitorRun run) := Wf.of_none rfl
theorem Wf.monitorRestart :
    Wf.Statement (Instr.monitorRestart) := Wf.of_none rfl
theorem Wf.ilkInputChange (pin : IlkPin) (level : Bool) :
    Wf.Statement (Instr.ilkInputChange pin level) := Wf.of_none rfl
theorem Wf.discrepancyFault (n : Fin 2) :
    Wf.Statement (Instr.discrepancyFault n) := Wf.of_none rfl
theorem Wf.feedbackLockout (n : Fin 2) :
    Wf.Statement (Instr.feedbackLockout n) := Wf.of_none rfl
theorem Wf.testPulse (n : Fin 2) (ok : Bool) :
    Wf.Statement (Instr.testPulse n ok) := Wf.of_none rfl
theorem Wf.rcCheck (tick : BitVec 16) :
    Wf.Statement (Instr.rcCheck tick) := Wf.of_none rfl
theorem Wf.ilkInternalFault (threeWay : Bool) :
    Wf.Statement (Instr.ilkInternalFault threeWay) := Wf.of_none rfl
theorem Wf.ilkReqWrite (v : W32) :
    Wf.Statement (Instr.ilkReqWrite v) := Wf.of_none rfl
theorem Wf.ilkOff (v : W32) :
    Wf.Statement (Instr.ilkOff v) := Wf.of_none rfl
theorem Wf.ilkClr (v : W32) :
    Wf.Statement (Instr.ilkClr v) := Wf.of_none rfl
theorem Wf.tetherFrame (edges : Nat) (words : List W32) (notReady : Bool) :
    Wf.Statement (Instr.tetherFrame edges words notReady) := Wf.of_none rfl
theorem Wf.ttLenWrite (v : W32) :
    Wf.Statement (Instr.ttLenWrite v) := Wf.of_none rfl
theorem Wf.portGo (n : Fin 2) :
    Wf.Statement (Instr.portGo n) := Wf.of_none rfl
theorem Wf.portAbort (n : Fin 2) (rx : List Bool) :
    Wf.Statement (Instr.portAbort n rx) := Wf.of_none rfl
theorem Wf.portTransferEnd (n : Fin 2) (rx : List Bool) :
    Wf.Statement (Instr.portTransferEnd n rx) := Wf.of_none rfl
theorem Wf.portRdyTimeout (n : Fin 2) (rx : List Bool) :
    Wf.Statement (Instr.portRdyTimeout n rx) := Wf.of_none rfl
theorem Wf.gpioSet (v : W32) :
    Wf.Statement (Instr.gpioSet v) := Wf.of_none rfl
theorem Wf.gpioClr (v : W32) :
    Wf.Statement (Instr.gpioClr v) := Wf.of_none rfl
theorem Wf.tapReset :
    Wf.Statement (Instr.tapReset) := Wf.of_none rfl
theorem Wf.extest (balls : BitVec 136) (shifted : BitVec 136) :
    Wf.Statement (Instr.extest balls shifted) := Wf.of_none rfl
theorem Wf.idcode :
    Wf.Statement (Instr.idcode) := Wf.of_none rfl
theorem Wf.samplePreload (balls : BitVec 136) (shifted : BitVec 136) :
    Wf.Statement (Instr.samplePreload balls shifted) := Wf.of_none rfl
theorem Wf.clamp :
    Wf.Statement (Instr.clamp) := Wf.of_none rfl
theorem Wf.highz :
    Wf.Statement (Instr.highz) := Wf.of_none rfl
theorem Wf.extestPulse (balls : BitVec 136) (shifted : BitVec 136) :
    Wf.Statement (Instr.extestPulse balls shifted) := Wf.of_none rfl
theorem Wf.extestTrain (balls : BitVec 136) (shifted : BitVec 136) :
    Wf.Statement (Instr.extestTrain balls shifted) := Wf.of_none rfl
theorem Wf.bypass :
    Wf.Statement (Instr.bypass) := Wf.of_none rfl
theorem Wf.registerWrite (addr : W24) (v : W32) :
    Wf.Statement (Instr.registerWrite addr v) := Wf.of_none rfl
theorem Wf.nop (p : Place) :
    Wf.Statement (Instr.nop p) := Wf.of_place rfl rfl
theorem Wf.add (p : Place) (rd : BitVec 5) (rs1 : BitVec 5) (rs2 : BitVec 5) :
    Wf.Statement (Instr.add p rd rs1 rs2) := Wf.of_place rfl rfl
theorem Wf.sub (p : Place) (rd : BitVec 5) (rs1 : BitVec 5) (rs2 : BitVec 5) :
    Wf.Statement (Instr.sub p rd rs1 rs2) := Wf.of_place rfl rfl
theorem Wf.and (p : Place) (rd : BitVec 5) (rs1 : BitVec 5) (rs2 : BitVec 5) :
    Wf.Statement (Instr.and p rd rs1 rs2) := Wf.of_place rfl rfl
theorem Wf.or (p : Place) (rd : BitVec 5) (rs1 : BitVec 5) (rs2 : BitVec 5) :
    Wf.Statement (Instr.or p rd rs1 rs2) := Wf.of_place rfl rfl
theorem Wf.xor (p : Place) (rd : BitVec 5) (rs1 : BitVec 5) (rs2 : BitVec 5) :
    Wf.Statement (Instr.xor p rd rs1 rs2) := Wf.of_place rfl rfl
theorem Wf.andn (p : Place) (rd : BitVec 5) (rs1 : BitVec 5) (rs2 : BitVec 5) :
    Wf.Statement (Instr.andn p rd rs1 rs2) := Wf.of_place rfl rfl
theorem Wf.sll (p : Place) (rd : BitVec 5) (rs1 : BitVec 5) (rs2 : BitVec 5) :
    Wf.Statement (Instr.sll p rd rs1 rs2) := Wf.of_place rfl rfl
theorem Wf.srl (p : Place) (rd : BitVec 5) (rs1 : BitVec 5) (rs2 : BitVec 5) :
    Wf.Statement (Instr.srl p rd rs1 rs2) := Wf.of_place rfl rfl
theorem Wf.sra (p : Place) (rd : BitVec 5) (rs1 : BitVec 5) (rs2 : BitVec 5) :
    Wf.Statement (Instr.sra p rd rs1 rs2) := Wf.of_place rfl rfl
theorem Wf.ror (p : Place) (rd : BitVec 5) (rs1 : BitVec 5) (rs2 : BitVec 5) :
    Wf.Statement (Instr.ror p rd rs1 rs2) := Wf.of_place rfl rfl
theorem Wf.slt (p : Place) (rd : BitVec 5) (rs1 : BitVec 5) (rs2 : BitVec 5) :
    Wf.Statement (Instr.slt p rd rs1 rs2) := Wf.of_place rfl rfl
theorem Wf.sltu (p : Place) (rd : BitVec 5) (rs1 : BitVec 5) (rs2 : BitVec 5) :
    Wf.Statement (Instr.sltu p rd rs1 rs2) := Wf.of_place rfl rfl
theorem Wf.min (p : Place) (rd : BitVec 5) (rs1 : BitVec 5) (rs2 : BitVec 5) :
    Wf.Statement (Instr.min p rd rs1 rs2) := Wf.of_place rfl rfl
theorem Wf.max (p : Place) (rd : BitVec 5) (rs1 : BitVec 5) (rs2 : BitVec 5) :
    Wf.Statement (Instr.max p rd rs1 rs2) := Wf.of_place rfl rfl
theorem Wf.minu (p : Place) (rd : BitVec 5) (rs1 : BitVec 5) (rs2 : BitVec 5) :
    Wf.Statement (Instr.minu p rd rs1 rs2) := Wf.of_place rfl rfl
theorem Wf.maxu (p : Place) (rd : BitVec 5) (rs1 : BitVec 5) (rs2 : BitVec 5) :
    Wf.Statement (Instr.maxu p rd rs1 rs2) := Wf.of_place rfl rfl
theorem Wf.mul (p : Place) (rd : BitVec 5) (rs1 : BitVec 5) (rs2 : BitVec 5) :
    Wf.Statement (Instr.mul p rd rs1 rs2) := Wf.of_place rfl rfl
theorem Wf.mulh (p : Place) (rd : BitVec 5) (rs1 : BitVec 5) (rs2 : BitVec 5) :
    Wf.Statement (Instr.mulh p rd rs1 rs2) := Wf.of_place rfl rfl
theorem Wf.mulhu (p : Place) (rd : BitVec 5) (rs1 : BitVec 5) (rs2 : BitVec 5) :
    Wf.Statement (Instr.mulhu p rd rs1 rs2) := Wf.of_place rfl rfl
theorem Wf.adds (p : Place) (rd : BitVec 5) (rs1 : BitVec 5) (rs2 : BitVec 5) :
    Wf.Statement (Instr.adds p rd rs1 rs2) := Wf.of_place rfl rfl
theorem Wf.subs (p : Place) (rd : BitVec 5) (rs1 : BitVec 5) (rs2 : BitVec 5) :
    Wf.Statement (Instr.subs p rd rs1 rs2) := Wf.of_place rfl rfl
theorem Wf.clz (p : Place) (rd : BitVec 5) (rs1 : BitVec 5) (rs2 : BitVec 5) :
    Wf.Statement (Instr.clz p rd rs1 rs2) := Wf.of_place rfl rfl
theorem Wf.popc (p : Place) (rd : BitVec 5) (rs1 : BitVec 5) (rs2 : BitVec 5) :
    Wf.Statement (Instr.popc p rd rs1 rs2) := Wf.of_place rfl rfl
theorem Wf.addi (p : Place) (rd : BitVec 5) (rs1 : BitVec 5) (rs2 : BitVec 5) (imm : BitVec 10) :
    Wf.Statement (Instr.addi p rd rs1 rs2 imm) := Wf.of_place rfl rfl
theorem Wf.andi (p : Place) (rd : BitVec 5) (rs1 : BitVec 5) (rs2 : BitVec 5) (imm : BitVec 10) :
    Wf.Statement (Instr.andi p rd rs1 rs2 imm) := Wf.of_place rfl rfl
theorem Wf.ori (p : Place) (rd : BitVec 5) (rs1 : BitVec 5) (rs2 : BitVec 5) (imm : BitVec 10) :
    Wf.Statement (Instr.ori p rd rs1 rs2 imm) := Wf.of_place rfl rfl
theorem Wf.xori (p : Place) (rd : BitVec 5) (rs1 : BitVec 5) (rs2 : BitVec 5) (imm : BitVec 10) :
    Wf.Statement (Instr.xori p rd rs1 rs2 imm) := Wf.of_place rfl rfl
theorem Wf.slli (p : Place) (rd : BitVec 5) (rs1 : BitVec 5) (rs2 : BitVec 5) (imm : BitVec 10) :
    Wf.Statement (Instr.slli p rd rs1 rs2 imm) := Wf.of_place rfl rfl
theorem Wf.srli (p : Place) (rd : BitVec 5) (rs1 : BitVec 5) (rs2 : BitVec 5) (imm : BitVec 10) :
    Wf.Statement (Instr.srli p rd rs1 rs2 imm) := Wf.of_place rfl rfl
theorem Wf.srai (p : Place) (rd : BitVec 5) (rs1 : BitVec 5) (rs2 : BitVec 5) (imm : BitVec 10) :
    Wf.Statement (Instr.srai p rd rs1 rs2 imm) := Wf.of_place rfl rfl
theorem Wf.slti (p : Place) (rd : BitVec 5) (rs1 : BitVec 5) (rs2 : BitVec 5) (imm : BitVec 10) :
    Wf.Statement (Instr.slti p rd rs1 rs2 imm) := Wf.of_place rfl rfl
theorem Wf.sltiu (p : Place) (rd : BitVec 5) (rs1 : BitVec 5) (rs2 : BitVec 5) (imm : BitVec 10) :
    Wf.Statement (Instr.sltiu p rd rs1 rs2 imm) := Wf.of_place rfl rfl
theorem Wf.movl (p : Place) (rd : BitVec 5) (hi : BitVec 4) (imm : BitVec 16) :
    Wf.Statement (Instr.movl p rd hi imm) := Wf.of_place rfl rfl
theorem Wf.movh (p : Place) (rd : BitVec 5) (hi : BitVec 4) (imm : BitVec 16) :
    Wf.Statement (Instr.movh p rd hi imm) := Wf.of_place rfl rfl
theorem Wf.extu (p : Place) (rd : BitVec 5) (rs1 : BitVec 5) (rs2 : BitVec 5) (imm : BitVec 10) :
    Wf.Statement (Instr.extu p rd rs1 rs2 imm) := Wf.of_place rfl rfl
theorem Wf.exts (p : Place) (rd : BitVec 5) (rs1 : BitVec 5) (rs2 : BitVec 5) (imm : BitVec 10) :
    Wf.Statement (Instr.exts p rd rs1 rs2 imm) := Wf.of_place rfl rfl
theorem Wf.ins (p : Place) (rd : BitVec 5) (rs1 : BitVec 5) (rs2 : BitVec 5) (imm : BitVec 10) :
    Wf.Statement (Instr.ins p rd rs1 rs2 imm) := Wf.of_place rfl rfl
theorem Wf.ld (p : Place) (rd : BitVec 5) (rs1 : BitVec 5) (rs2 : BitVec 5) (imm : BitVec 10) (ecc : Ecc) :
    Wf.Statement (Instr.ld p rd rs1 rs2 imm ecc) := Wf.of_place rfl rfl
theorem Wf.ldh (p : Place) (rd : BitVec 5) (rs1 : BitVec 5) (rs2 : BitVec 5) (imm : BitVec 10) (ecc : Ecc) :
    Wf.Statement (Instr.ldh p rd rs1 rs2 imm ecc) := Wf.of_place rfl rfl
theorem Wf.ldhu (p : Place) (rd : BitVec 5) (rs1 : BitVec 5) (rs2 : BitVec 5) (imm : BitVec 10) (ecc : Ecc) :
    Wf.Statement (Instr.ldhu p rd rs1 rs2 imm ecc) := Wf.of_place rfl rfl
theorem Wf.ldb (p : Place) (rd : BitVec 5) (rs1 : BitVec 5) (rs2 : BitVec 5) (imm : BitVec 10) (ecc : Ecc) :
    Wf.Statement (Instr.ldb p rd rs1 rs2 imm ecc) := Wf.of_place rfl rfl
theorem Wf.ldbu (p : Place) (rd : BitVec 5) (rs1 : BitVec 5) (rs2 : BitVec 5) (imm : BitVec 10) (ecc : Ecc) :
    Wf.Statement (Instr.ldbu p rd rs1 rs2 imm ecc) := Wf.of_place rfl rfl
theorem Wf.st (p : Place) (rd : BitVec 5) (rs1 : BitVec 5) (rs2 : BitVec 5) (imm : BitVec 10) :
    Wf.Statement (Instr.st p rd rs1 rs2 imm) := Wf.of_place rfl rfl
theorem Wf.sth (p : Place) (rd : BitVec 5) (rs1 : BitVec 5) (rs2 : BitVec 5) (imm : BitVec 10) (ecc : Ecc) :
    Wf.Statement (Instr.sth p rd rs1 rs2 imm ecc) := Wf.of_place rfl rfl
theorem Wf.stb (p : Place) (rd : BitVec 5) (rs1 : BitVec 5) (rs2 : BitVec 5) (imm : BitVec 10) (ecc : Ecc) :
    Wf.Statement (Instr.stb p rd rs1 rs2 imm ecc) := Wf.of_place rfl rfl
theorem Wf.beq (p : Place) (rd : BitVec 5) (rs1 : BitVec 5) (rs2 : BitVec 5) (imm : BitVec 10) :
    Wf.Statement (Instr.beq p rd rs1 rs2 imm) := Wf.of_place rfl rfl
theorem Wf.bne (p : Place) (rd : BitVec 5) (rs1 : BitVec 5) (rs2 : BitVec 5) (imm : BitVec 10) :
    Wf.Statement (Instr.bne p rd rs1 rs2 imm) := Wf.of_place rfl rfl
theorem Wf.blt (p : Place) (rd : BitVec 5) (rs1 : BitVec 5) (rs2 : BitVec 5) (imm : BitVec 10) :
    Wf.Statement (Instr.blt p rd rs1 rs2 imm) := Wf.of_place rfl rfl
theorem Wf.bge (p : Place) (rd : BitVec 5) (rs1 : BitVec 5) (rs2 : BitVec 5) (imm : BitVec 10) :
    Wf.Statement (Instr.bge p rd rs1 rs2 imm) := Wf.of_place rfl rfl
theorem Wf.bltu (p : Place) (rd : BitVec 5) (rs1 : BitVec 5) (rs2 : BitVec 5) (imm : BitVec 10) :
    Wf.Statement (Instr.bltu p rd rs1 rs2 imm) := Wf.of_place rfl rfl
theorem Wf.bgeu (p : Place) (rd : BitVec 5) (rs1 : BitVec 5) (rs2 : BitVec 5) (imm : BitVec 10) :
    Wf.Statement (Instr.bgeu p rd rs1 rs2 imm) := Wf.of_place rfl rfl
theorem Wf.j (p : Place) (rd : BitVec 5) (off : BitVec 20) :
    Wf.Statement (Instr.j p rd off) := Wf.of_place rfl rfl
theorem Wf.jal (p : Place) (rd : BitVec 5) (off : BitVec 20) :
    Wf.Statement (Instr.jal p rd off) := Wf.of_place rfl rfl
theorem Wf.jalr (p : Place) (rd : BitVec 5) (rs1 : BitVec 5) (rs2 : BitVec 5) (imm : BitVec 10) :
    Wf.Statement (Instr.jalr p rd rs1 rs2 imm) := Wf.of_place rfl rfl
theorem Wf.qpush (p : Place) (rd : BitVec 5) (rs1 : BitVec 5) (rs2 : BitVec 5) (imm : BitVec 10) :
    Wf.Statement (Instr.qpush p rd rs1 rs2 imm) := Wf.of_place rfl rfl
theorem Wf.qpushl (p : Place) (rd : BitVec 5) (rs1 : BitVec 5) (rs2 : BitVec 5) (imm : BitVec 10) :
    Wf.Statement (Instr.qpushl p rd rs1 rs2 imm) := Wf.of_place rfl rfl
theorem Wf.qpop (p : Place) (rd : BitVec 5) (rs1 : BitVec 5) (rs2 : BitVec 5) (imm : BitVec 10) :
    Wf.Statement (Instr.qpop p rd rs1 rs2 imm) := Wf.of_place rfl rfl
theorem Wf.qflush (p : Place) (rd : BitVec 5) (rs1 : BitVec 5) (rs2 : BitVec 5) (imm : BitVec 10) :
    Wf.Statement (Instr.qflush p rd rs1 rs2 imm) := Wf.of_place rfl rfl
theorem Wf.qstat (p : Place) (rd : BitVec 5) (rs1 : BitVec 5) (rs2 : BitVec 5) (imm : BitVec 10) :
    Wf.Statement (Instr.qstat p rd rs1 rs2 imm) := Wf.of_place rfl rfl
theorem Wf.hdr (p : Place) (rd : BitVec 5) (rs1 : BitVec 5) (rs2 : BitVec 5) (imm : BitVec 10) :
    Wf.Statement (Instr.hdr p rd rs1 rs2 imm) := Wf.of_place rfl rfl
theorem Wf.gapw (p : Place) (rd : BitVec 5) (rs1 : BitVec 5) (rs2 : BitVec 5) (imm : BitVec 10) :
    Wf.Statement (Instr.gapw p rd rs1 rs2 imm) := Wf.of_place rfl rfl
theorem Wf.stag (p : Place) (rd : BitVec 5) (rs1 : BitVec 5) (rs2 : BitVec 5) (imm : BitVec 10) :
    Wf.Statement (Instr.stag p rd rs1 rs2 imm) := Wf.of_place rfl rfl
theorem Wf.wslot (p : Place) (rd : BitVec 5) (rs1 : BitVec 5) (rs2 : BitVec 5) (imm : BitVec 10) :
    Wf.Statement (Instr.wslot p rd rs1 rs2 imm) := Wf.of_place rfl rfl
theorem Wf.wtrig (p : Place) (rd : BitVec 5) (rs1 : BitVec 5) (rs2 : BitVec 5) (imm : BitVec 10) :
    Wf.Statement (Instr.wtrig p rd rs1 rs2 imm) := Wf.of_place rfl rfl
theorem Wf.pld (p : Place) (rd : BitVec 5) (rs1 : BitVec 5) (rs2 : BitVec 5) (imm : BitVec 10) :
    Wf.Statement (Instr.pld p rd rs1 rs2 imm) := Wf.of_place rfl rfl
theorem Wf.pst (p : Place) (rd : BitVec 5) (rs1 : BitVec 5) (rs2 : BitVec 5) (imm : BitVec 10) :
    Wf.Statement (Instr.pst p rd rs1 rs2 imm) := Wf.of_place rfl rfl
theorem Wf.pbrd (p : Place) (rd : BitVec 5) (rs1 : BitVec 5) (rs2 : BitVec 5) (imm : BitVec 10) :
    Wf.Statement (Instr.pbrd p rd rs1 rs2 imm) := Wf.of_place rfl rfl
theorem Wf.pbwr (p : Place) (rd : BitVec 5) (rs1 : BitVec 5) (rs2 : BitVec 5) (imm : BitVec 10) (ecc : Ecc) :
    Wf.Statement (Instr.pbwr p rd rs1 rs2 imm ecc) := Wf.of_place rfl rfl
theorem Wf.call (p : Place) (rd : BitVec 5) (rs1 : BitVec 5) (rs2 : BitVec 5) (proc : W8) (hi : Bool) :
    Wf.Statement (Instr.call p rd rs1 rs2 proc hi) := Wf.of_place rfl rfl
theorem Wf.callBackground (p : Place) (rd : BitVec 5) (rs1 : BitVec 5) (rs2 : BitVec 5) (proc : W8) (hi : Bool) :
    Wf.Statement (Instr.callBackground p rd rs1 rs2 proc hi) := Wf.of_place rfl rfl
theorem Wf.rsltRead (p : Place) (rd : BitVec 5) (rs1 : BitVec 5) (rs2 : BitVec 5) (imm : W8) (ecc : Ecc) :
    Wf.Statement (Instr.rsltRead p rd rs1 rs2 imm ecc) := Wf.of_place rfl rfl
theorem Wf.rsltPost (p : Place) (rd : BitVec 5) (rs1 : BitVec 5) (rs2 : BitVec 5) (imm : W8) (ecc : Ecc) :
    Wf.Statement (Instr.rsltPost p rd rs1 rs2 imm ecc) := Wf.of_place rfl rfl
theorem Wf.rfree (p : Place) (rd : BitVec 5) (rs1 : BitVec 5) (rs2 : BitVec 5) (imm : BitVec 10) :
    Wf.Statement (Instr.rfree p rd rs1 rs2 imm) := Wf.of_place rfl rfl
theorem Wf.rput (p : Place) (rd : BitVec 5) (rs1 : BitVec 5) (rs2 : BitVec 5) (imm : BitVec 10) :
    Wf.Statement (Instr.rput p rd rs1 rs2 imm) := Wf.of_place rfl rfl
theorem Wf.mode (p : Place) (rd : BitVec 5) (rs1 : BitVec 5) (rs2 : BitVec 5) (imm : BitVec 10) :
    Wf.Statement (Instr.mode p rd rs1 rs2 imm) := Wf.of_place rfl rfl
theorem Wf.snap (p : Place) (rd : BitVec 5) (rs1 : BitVec 5) (rs2 : BitVec 5) (imm : BitVec 10) :
    Wf.Statement (Instr.snap p rd rs1 rs2 imm) := Wf.of_place rfl rfl
theorem Wf.commit (p : Place) (rd : BitVec 5) (rs1 : BitVec 5) (rs2 : BitVec 5) (imm : BitVec 10) :
    Wf.Statement (Instr.commit p rd rs1 rs2 imm) := Wf.of_place rfl rfl
theorem Wf.ack (p : Place) (rd : BitVec 5) (rs1 : BitVec 5) (rs2 : BitVec 5) (imm : BitVec 10) :
    Wf.Statement (Instr.ack p rd rs1 rs2 imm) := Wf.of_place rfl rfl
theorem Wf.seal (p : Place) (rd : BitVec 5) (rs1 : BitVec 5) (rs2 : BitVec 5) (standby : Bool) (hi : BitVec 8) :
    Wf.Statement (Instr.seal p rd rs1 rs2 standby hi) := Wf.of_place rfl rfl
theorem Wf.unseal (p : Place) (rd : BitVec 5) (rs1 : BitVec 5) (rs2 : BitVec 5) (standby : Bool) (hi : BitVec 8) :
    Wf.Statement (Instr.unseal p rd rs1 rs2 standby hi) := Wf.of_place rfl rfl
theorem Wf.swap (p : Place) (rd : BitVec 5) (rs1 : BitVec 5) (rs2 : BitVec 5) (imm : BitVec 10) :
    Wf.Statement (Instr.swap p rd rs1 rs2 imm) := Wf.of_place rfl rfl
theorem Wf.jlog (p : Place) (rd : BitVec 5) (rs1 : BitVec 5) (rs2 : BitVec 5) (imm : BitVec 10) :
    Wf.Statement (Instr.jlog p rd rs1 rs2 imm) := Wf.of_place rfl rfl
theorem Wf.mfcs (p : Place) (rd : BitVec 5) (rs1 : BitVec 5) (rs2 : BitVec 5) (imm : BitVec 10) :
    Wf.Statement (Instr.mfcs p rd rs1 rs2 imm) := Wf.of_place rfl rfl
theorem Wf.mtcs (p : Place) (rd : BitVec 5) (rs1 : BitVec 5) (rs2 : BitVec 5) (imm : BitVec 10) :
    Wf.Statement (Instr.mtcs p rd rs1 rs2 imm) := Wf.of_place rfl rfl
theorem Wf.vadd (p : Place) (rd : BitVec 5) (rs1 : BitVec 5) (rs2 : BitVec 5) (pr : BitVec 3) :
    Wf.Statement (Instr.vadd p rd rs1 rs2 pr) := Wf.of_place rfl rfl
theorem Wf.vadds (p : Place) (rd : BitVec 5) (rs1 : BitVec 5) (rs2 : BitVec 5) (pr : BitVec 3) :
    Wf.Statement (Instr.vadds p rd rs1 rs2 pr) := Wf.of_place rfl rfl
theorem Wf.vaddu (p : Place) (rd : BitVec 5) (rs1 : BitVec 5) (rs2 : BitVec 5) (pr : BitVec 3) :
    Wf.Statement (Instr.vaddu p rd rs1 rs2 pr) := Wf.of_place rfl rfl
theorem Wf.vsub (p : Place) (rd : BitVec 5) (rs1 : BitVec 5) (rs2 : BitVec 5) (pr : BitVec 3) :
    Wf.Statement (Instr.vsub p rd rs1 rs2 pr) := Wf.of_place rfl rfl
theorem Wf.vsubs (p : Place) (rd : BitVec 5) (rs1 : BitVec 5) (rs2 : BitVec 5) (pr : BitVec 3) :
    Wf.Statement (Instr.vsubs p rd rs1 rs2 pr) := Wf.of_place rfl rfl
theorem Wf.vsubu (p : Place) (rd : BitVec 5) (rs1 : BitVec 5) (rs2 : BitVec 5) (pr : BitVec 3) :
    Wf.Statement (Instr.vsubu p rd rs1 rs2 pr) := Wf.of_place rfl rfl
theorem Wf.vmul (p : Place) (rd : BitVec 5) (rs1 : BitVec 5) (rs2 : BitVec 5) (pr : BitVec 3) :
    Wf.Statement (Instr.vmul p rd rs1 rs2 pr) := Wf.of_place rfl rfl
theorem Wf.vmulr (p : Place) (rd : BitVec 5) (rs1 : BitVec 5) (rs2 : BitVec 5) (pr : BitVec 3) :
    Wf.Statement (Instr.vmulr p rd rs1 rs2 pr) := Wf.of_place rfl rfl
theorem Wf.vmin (p : Place) (rd : BitVec 5) (rs1 : BitVec 5) (rs2 : BitVec 5) (pr : BitVec 3) :
    Wf.Statement (Instr.vmin p rd rs1 rs2 pr) := Wf.of_place rfl rfl
theorem Wf.vmax (p : Place) (rd : BitVec 5) (rs1 : BitVec 5) (rs2 : BitVec 5) (pr : BitVec 3) :
    Wf.Statement (Instr.vmax p rd rs1 rs2 pr) := Wf.of_place rfl rfl
theorem Wf.vminu (p : Place) (rd : BitVec 5) (rs1 : BitVec 5) (rs2 : BitVec 5) (pr : BitVec 3) :
    Wf.Statement (Instr.vminu p rd rs1 rs2 pr) := Wf.of_place rfl rfl
theorem Wf.vmaxu (p : Place) (rd : BitVec 5) (rs1 : BitVec 5) (rs2 : BitVec 5) (pr : BitVec 3) :
    Wf.Statement (Instr.vmaxu p rd rs1 rs2 pr) := Wf.of_place rfl rfl
theorem Wf.vand (p : Place) (rd : BitVec 5) (rs1 : BitVec 5) (rs2 : BitVec 5) (pr : BitVec 3) :
    Wf.Statement (Instr.vand p rd rs1 rs2 pr) := Wf.of_place rfl rfl
theorem Wf.vor (p : Place) (rd : BitVec 5) (rs1 : BitVec 5) (rs2 : BitVec 5) (pr : BitVec 3) :
    Wf.Statement (Instr.vor p rd rs1 rs2 pr) := Wf.of_place rfl rfl
theorem Wf.vxor (p : Place) (rd : BitVec 5) (rs1 : BitVec 5) (rs2 : BitVec 5) (pr : BitVec 3) :
    Wf.Statement (Instr.vxor p rd rs1 rs2 pr) := Wf.of_place rfl rfl
theorem Wf.vabsd (p : Place) (rd : BitVec 5) (rs1 : BitVec 5) (rs2 : BitVec 5) (pr : BitVec 3) :
    Wf.Statement (Instr.vabsd p rd rs1 rs2 pr) := Wf.of_place rfl rfl
theorem Wf.vsll (p : Place) (rd : BitVec 5) (rs1 : BitVec 5) (rs2 : BitVec 5) (pr : BitVec 3) :
    Wf.Statement (Instr.vsll p rd rs1 rs2 pr) := Wf.of_place rfl rfl
theorem Wf.vsrl (p : Place) (rd : BitVec 5) (rs1 : BitVec 5) (rs2 : BitVec 5) (pr : BitVec 3) :
    Wf.Statement (Instr.vsrl p rd rs1 rs2 pr) := Wf.of_place rfl rfl
theorem Wf.vsra (p : Place) (rd : BitVec 5) (rs1 : BitVec 5) (rs2 : BitVec 5) (pr : BitVec 3) :
    Wf.Statement (Instr.vsra p rd rs1 rs2 pr) := Wf.of_place rfl rfl
theorem Wf.vsrar (p : Place) (rd : BitVec 5) (rs1 : BitVec 5) (rs2 : BitVec 5) (pr : BitVec 3) :
    Wf.Statement (Instr.vsrar p rd rs1 rs2 pr) := Wf.of_place rfl rfl
theorem Wf.vavg (p : Place) (rd : BitVec 5) (rs1 : BitVec 5) (rs2 : BitVec 5) (pr : BitVec 3) :
    Wf.Statement (Instr.vavg p rd rs1 rs2 pr) := Wf.of_place rfl rfl
theorem Wf.vcmp (p : Place) (rd : BitVec 5) (rs1 : BitVec 5) (rs2 : BitVec 5) (imm : BitVec 10) :
    Wf.Statement (Instr.vcmp p rd rs1 rs2 imm) := Wf.of_place rfl rfl
theorem Wf.mand (p : Place) (rd : BitVec 5) (rs1 : BitVec 5) (rs2 : BitVec 5) (pr : BitVec 3) :
    Wf.Statement (Instr.mand p rd rs1 rs2 pr) := Wf.of_place rfl rfl
theorem Wf.mor (p : Place) (rd : BitVec 5) (rs1 : BitVec 5) (rs2 : BitVec 5) (pr : BitVec 3) :
    Wf.Statement (Instr.mor p rd rs1 rs2 pr) := Wf.of_place rfl rfl
theorem Wf.mxor (p : Place) (rd : BitVec 5) (rs1 : BitVec 5) (rs2 : BitVec 5) (pr : BitVec 3) :
    Wf.Statement (Instr.mxor p rd rs1 rs2 pr) := Wf.of_place rfl rfl
theorem Wf.mandn (p : Place) (rd : BitVec 5) (rs1 : BitVec 5) (rs2 : BitVec 5) (pr : BitVec 3) :
    Wf.Statement (Instr.mandn p rd rs1 rs2 pr) := Wf.of_place rfl rfl
theorem Wf.mnot (p : Place) (rd : BitVec 5) (rs1 : BitVec 5) (rs2 : BitVec 5) (pr : BitVec 3) :
    Wf.Statement (Instr.mnot p rd rs1 rs2 pr) := Wf.of_place rfl rfl
theorem Wf.mtm (p : Place) (rd : BitVec 5) (rs1 : BitVec 5) (rs2 : BitVec 5) (pr : BitVec 3) :
    Wf.Statement (Instr.mtm p rd rs1 rs2 pr) := Wf.of_place rfl rfl
theorem Wf.mfm (p : Place) (rd : BitVec 5) (rs1 : BitVec 5) (rs2 : BitVec 5) (pr : BitVec 3) :
    Wf.Statement (Instr.mfm p rd rs1 rs2 pr) := Wf.of_place rfl rfl
theorem Wf.mcnt (p : Place) (rd : BitVec 5) (rs1 : BitVec 5) (rs2 : BitVec 5) (pr : BitVec 3) :
    Wf.Statement (Instr.mcnt p rd rs1 rs2 pr) := Wf.of_place rfl rfl
theorem Wf.mfirst (p : Place) (rd : BitVec 5) (rs1 : BitVec 5) (rs2 : BitVec 5) (pr : BitVec 3) :
    Wf.Statement (Instr.mfirst p rd rs1 rs2 pr) := Wf.of_place rfl rfl
theorem Wf.vsplat (p : Place) (rd : BitVec 5) (rs1 : BitVec 5) (rs2 : BitVec 5) (imm : BitVec 10) :
    Wf.Statement (Instr.vsplat p rd rs1 rs2 imm) := Wf.of_place rfl rfl
theorem Wf.vext (p : Place) (rd : BitVec 5) (rs1 : BitVec 5) (rs2 : BitVec 5) (imm : BitVec 10) :
    Wf.Statement (Instr.vext p rd rs1 rs2 imm) := Wf.of_place rfl rfl
theorem Wf.vins (p : Place) (rd : BitVec 5) (rs1 : BitVec 5) (rs2 : BitVec 5) (imm : BitVec 10) :
    Wf.Statement (Instr.vins p rd rs1 rs2 imm) := Wf.of_place rfl rfl
theorem Wf.vld (p : Place) (rd : BitVec 5) (rs1 : BitVec 5) (rs2 : BitVec 5) (imm : BitVec 10) (ecc : Ecc) :
    Wf.Statement (Instr.vld p rd rs1 rs2 imm ecc) := Wf.of_place rfl rfl
theorem Wf.vst (p : Place) (rd : BitVec 5) (rs1 : BitVec 5) (rs2 : BitVec 5) (imm : BitVec 10) :
    Wf.Statement (Instr.vst p rd rs1 rs2 imm) := Wf.of_place rfl rfl
theorem Wf.vredSum (p : Place) (rd : BitVec 5) (rs1 : BitVec 5) (rs2 : BitVec 5) (pr : BitVec 3) :
    Wf.Statement (Instr.vredSum p rd rs1 rs2 pr) := Wf.of_place rfl rfl
theorem Wf.vredSumu (p : Place) (rd : BitVec 5) (rs1 : BitVec 5) (rs2 : BitVec 5) (pr : BitVec 3) :
    Wf.Statement (Instr.vredSumu p rd rs1 rs2 pr) := Wf.of_place rfl rfl
theorem Wf.vredMaxu (p : Place) (rd : BitVec 5) (rs1 : BitVec 5) (rs2 : BitVec 5) (pr : BitVec 3) :
    Wf.Statement (Instr.vredMaxu p rd rs1 rs2 pr) := Wf.of_place rfl rfl
theorem Wf.vredMaxidx (p : Place) (rd : BitVec 5) (rs1 : BitVec 5) (rs2 : BitVec 5) (pr : BitVec 3) :
    Wf.Statement (Instr.vredMaxidx p rd rs1 rs2 pr) := Wf.of_place rfl rfl
theorem Wf.hits (p : Place) (rd : BitVec 5) (rs1 : BitVec 5) (rs2 : BitVec 5) (imm : BitVec 10) :
    Wf.Statement (Instr.hits p rd rs1 rs2 imm) := Wf.of_place rfl rfl
theorem Wf.win (p : Place) (rd : BitVec 5) (rs1 : BitVec 5) (rs2 : BitVec 5) (imm : BitVec 10) :
    Wf.Statement (Instr.win p rd rs1 rs2 imm) := Wf.of_place rfl rfl
theorem Wf.vthr (p : Place) (rd : BitVec 5) (rs1 : BitVec 5) (rs2 : BitVec 5) (imm : BitVec 10) :
    Wf.Statement (Instr.vthr p rd rs1 rs2 imm) := Wf.of_place rfl rfl
theorem Wf.vpeak (p : Place) (rd : BitVec 5) (rs1 : BitVec 5) (rs2 : BitVec 5) (imm : BitVec 10) :
    Wf.Statement (Instr.vpeak p rd rs1 rs2 imm) := Wf.of_place rfl rfl
theorem Wf.twalk (p : Place) (rd : BitVec 5) (rs1 : BitVec 5) (rs2 : BitVec 5) (imm : BitVec 10) (ecc : Ecc) :
    Wf.Statement (Instr.twalk p rd rs1 rs2 imm ecc) := Wf.of_place rfl rfl
theorem Wf.hemit (p : Place) (rd : BitVec 5) (rs1 : BitVec 5) (rs2 : BitVec 5) (imm : BitVec 10) :
    Wf.Statement (Instr.hemit p rd rs1 rs2 imm) := Wf.of_place rfl rfl
theorem Wf.supplyBelowFallingThreshold :
    Wf.Statement (Instr.supplyBelowFallingThreshold) := Wf.of_none rfl
theorem Wf.vcoBandLocksAgain (band : Bool) :
    Wf.Statement (Instr.vcoBandLocksAgain band) := Wf.of_none rfl
theorem Wf.feLeakChange (c : Fin 512) (leak : Bool) :
    Wf.Statement (Instr.feLeakChange c leak) := Wf.of_none rfl

end Sys2Proof.Laws
end

