-- ==== Sys2Proof/Laws/Registers.lean ====
section
/-! SUPPORT. Where the table of registers holds no row for a range of addresses, so that a search can pass its rows over. -/

namespace Sys2Proof.Machine

/-- A row's addresses lie below or above the `n` addresses from `lo` on. -/
def Row.apart (lo n : Nat) (r : Row) : Bool :=
  decide (lo + n ≤ r.base) || (decide (0 < r.stride) && decide (r.base + r.count * r.stride ≤ lo))

theorem Row.place_of_apart (r : Row) (lo n a : Nat) (h : r.apart lo n = true) (h1 : lo ≤ a) (h2 : a < lo + n) :
    r.place a = none := by
  simp only [Row.apart, Bool.or_eq_true, Bool.and_eq_true, decide_eq_true_eq] at h
  unfold Row.place
  split
  · rfl
  · rename_i hb
    rcases h with h | ⟨hs, ht⟩
    · omega
    · have hd : r.count ≤ (a - r.base) / r.stride := (Nat.le_div_iff_mul_le hs).2 (by omega)
      simp [Nat.not_lt.2 hd]

/-- Rows apart from a range hold none of its addresses. -/
theorem findRow_of_apart (rows : List Row) (lo n a : Nat) (h : rows.all (Row.apart lo n) = true) (h1 : lo ≤ a) (h2 : a < lo + n) :
    findRow rows a = none := by
  induction rows with
  | nil => rfl
  | cons r rest ih =>
    simp only [List.all_cons, Bool.and_eq_true] at h
    simp [findRow, r.place_of_apart lo n a h.1 h1 h2, ih h.2]

/-- A search passes over rows that do not hold the address. -/
theorem findRow_append (xs ys : List Row) (a : Nat) (h : findRow xs a = none) : findRow (xs ++ ys) a = findRow ys a := by
  induction xs with
  | nil => rfl
  | cons r rest ih =>
    simp only [List.cons_append, findRow] at h ⊢
    cases hp : r.place a with
    | some q => simp [hp] at h
    | none =>
      simp only [hp] at h
      exact ih h

/-- The search over a range begins at row `k` of the table when the rows before it are apart from the range. -/
theorem findRow_regRows (k lo n a : Nat) (h : (regRows.take k).all (Row.apart lo n) = true) (h1 : lo ≤ a) (h2 : a < lo + n) :
    findRow regRows a = findRow (regRows.drop k) a := by
  conv => lhs; rw [← List.take_append_drop k regRows]
  exact findRow_append _ _ a (findRow_of_apart _ lo n a h h1 h2)

/-- The Load value of a word, found from row `k` of the table on. -/
def loadWordFrom (k a : Nat) : W32 :=
  match findRow (regRows.drop k) a with
  | none => 0
  | some (r, i, w) => BitVec.ofNat 32 (r.loadWord i w)

theorem loadWord_from (k lo n a : Nat) (h : (regRows.take k).all (Row.apart lo n) = true) (h1 : lo ≤ a) (h2 : a < lo + n) :
    loadWord a = loadWordFrom k a := by
  have hf := findRow_regRows k lo n a h h1 h2
  unfold loadWord loadWordFrom
  rw [hf] <;> cases findRow (regRows.drop k) a <;> rfl

end Sys2Proof.Machine
end

