-- ==== Sys2Proof/Laws/Run.lean ====
section
/-! SUPPORT. What an instruction that may execute does, on either core: the checks ahead of its own pass, and its act takes
effect. -/

namespace Sys2Proof.Machine

/-- A fetch that finds no error, of a word that holds none. -/
theorem Hub.fetches_ok_bull (h : Hub) (w : Who) (vec : Bool) (pc : Nat) (hw : onBull w = true)
    (hb : pc < 0x4000 → pc ∉ h.bull.badI) : h.fetches w vec pc .ok = (false, h) := by
  unfold Hub.fetches Hub.checked Hub.isBad
  simp only [hw, if_true]
  split
  · rename_i hlt
    simp [hb hlt]
  · rfl

theorem Hub.fetches_ok_ox (h : Hub) (w : Who) (vec : Bool) (pc : Nat) (hw : onBull w = false)
    (hb : 2 * pc + b2n vec ∉ (h.oxOf (engineOf w)).bad) : h.fetches w vec pc .ok = (false, h) := by
  unfold Hub.fetches Hub.checked Hub.isBad
  simp [hw, hb]

/-- Noting the index of an instruction changes nothing but the packet in execution. -/
theorem Hub.notesIndex_bull (h : Hub) : h.notesIndex.bull = h.bull := by
  unfold Hub.notesIndex
  split <;> rfl

theorem Hub.notesIndex_regs (h : Hub) : h.notesIndex.regs = h.regs := by
  unfold Hub.notesIndex
  split <;> rfl

theorem Hub.bullCtx_notesIndex (h : Hub) (bg : Bool) : h.notesIndex.bullCtx bg = h.bullCtx bg := by
  unfold Hub.bullCtx
  rw [h.notesIndex_bull]

/-- It leaves the checks of R29, R401 and R511 as they were. -/
theorem Hub.bullGate_notesIndex (h : Hub) (bg : Bool) (lim : Limits) : h.notesIndex.bullGate bg lim = h.bullGate bg lim := by
  unfold Hub.notesIndex
  split
  · unfold Hub.bullGate Hub.inStep Hub.flag Hub.fld Hub.word
    cases h.pk.cur <;> rfl
  · rfl

/-- On Bull, an instruction that may execute issues from the hub as it finds it. -/
theorem Hub.runBull_of_may (h : Hub) (p : Place) (vec : Bool) (lim : Limits) (cyc : Nat) (ecc : Ecc)
    (f : Env → Act × (Hub → Hub)) (hw : onBull p.who = true) (hm : h.may p vec lim cyc) :
    h.runBull p.who p.fetch lim ecc f = (h.ready p).bullIssues p.who ecc f := by
  simp only [Hub.may, Hub.ctxAt, hw, if_true] at hm
  obtain ⟨hf, hr, hg, hb⟩ := hm
  unfold Hub.runBull Hub.ready
  simp only [hw, hf, hr, if_true, Bool.not_true]
  cases hbg : inBackground p.who
  · simp only [hbg, Bool.false_eq_true, if_false] at hg hb ⊢
    rw [Hub.fetches_ok_bull _ _ _ _ hw (by rw [Hub.bullCtx_notesIndex, Hub.notesIndex_bull]; exact hb)]
    simp [Hub.bullGate_notesIndex, hg]
  · simp only [hbg, if_true] at hg hb ⊢
    rw [Hub.fetches_ok_bull _ _ _ _ hw hb]
    simp [hg]

/-- On Ox, an instruction that may execute makes up its bundle alone: a background bundle waits when it does not fit into the slot,
and every other one ends. -/
theorem Hub.runOx_of_may (h : Hub) (p : Place) (vec : Bool) (lim : Limits) (cyc : Nat) (ecc : Ecc) (f : Env → Act)
    (hw : onBull p.who = false) (hm : h.may p vec lim cyc) :
    h.runOx p vec ecc f =
      let e := engineOf p.who
      let bg := inBackground p.who
      let x := h.oxOf e
      let r := h.dataChecked p.who (f { hub := h, who := p.who, ctx := x.ctxOf bg }) ecc
      let sv : Act × Act := if vec then ({}, r.1) else (r.1, {})
      if bg && !x.bgFits sv.1 sv.2 then h.setOx e (x.setCtx bg { x.ctxOf bg with half := none })
      else r.2.bundleEnds p.who sv.1 sv.2 := by
  simp only [Hub.may, Hub.ctxAt, hw, Bool.false_eq_true, if_false] at hm
  obtain ⟨hf, hr, hv, he, hh, hb, -⟩ := hm
  unfold Hub.runOx
  simp only [hr, hf, hv, he, hh, Bool.not_true, Option.map_none, Option.getD_none, if_true]
  rw [Hub.fetches_ok_ox _ _ _ _ hw hb]
  cases vec <;> simp

end Sys2Proof.Machine
end

