-- ==== Sys2Proof/Tests/Slice0.lean ====
section
/-! SUPPORT. Tests and witnesses. A witness names the statement whose hypotheses it meets, clause by clause, with the boundary
values of the clauses; where a line runs the command as well, it shows what the statement says of it. Expected values are worked
out from the spec's rules, not taken from the model. -/

namespace Sys2Proof.Machine

set_option Elab.async false

/-- The hub after a command, from a hub without commands that wait. -/
def run (i : Instr) (h : Hub) : Hub :=
  match exec i { hub := h, pending := [] } with
  | .next s => s.hub
  | _ => Hub.reset

/-- The registers at the words outside `l` are as they were. -/
def same (h h' : Hub) (l : List Nat) : Bool :=
  (h.regs.map Prod.fst ++ h'.regs.map Prod.fst).all fun a => decide (a ∈ l) || h'.word a == h.word a

/-- Nothing but the registers at the words of `l` has changed. -/
def only (h h' : Hub) (l : List Nat) : Bool := decide (h' = { h with regs := h'.regs }) && same h h' l

/-- The registers are as a reset leaves them, but for the words of `l`. -/
def kept (h h' : Hub) (l : List Nat) : Bool :=
  (h.regs.map Prod.fst ++ h'.regs.map Prod.fst).all fun a =>
    decide (a ∈ l) || h'.word a == (loadWord a &&& ~~~keepMask a) ||| (h.word a &&& keepMask a)

/-- A journal entry has been written. -/
def journal (h : Hub) (k outcome dur : Nat) : Bool :=
  h.fld F.JNL_STEP_OUTCOME k == outcome && h.fld F.JNL_STEP_RUN k == 1 && h.fld F.JNL_STEP_DUR k == min 0xFFFF (dur / 100)

/-- What a scan leaves in the boundary register. -/
def scanned (h : Hub) (balls shifted : BitVec 136) : Bool :=
  h.tap.captured == balls && h.tap.cells &&& ilkCells == balls &&& ilkCells &&
    h.tap.cells &&& ~~~ilkCells == shifted &&& ~~~ilkCells

/-- A counter has counted. -/
def counted (h h' : Hub) (f : Fld) (i n : Nat) : Bool := h'.fld f i == min (2 ^ f.width - 1) (h.fld f i + n)

/-- A unit as reports and fences name it. -/
def unitN (kind k : Nat) : BitVec 16 := BitVec.ofNat 16 (unitOf kind k)

/-- The bytes of a packet: its header, its words and their check. -/
def packet (hd : Nat) (ws : List W32) : List W8 :=
  let b := bytes64 (BitVec.ofNat 64 hd) ++ ws.flatMap bytes32
  b ++ bytes32 (crc32c b)

/-- A packet that has been taken, of `n` words. -/
def taken (src : Source) (n : Nat) : Pkt :=
  { src := src, dest := 0, seq := 7, broadcast := false, noReply := false, forward := false, atomic := false,
    code := List.replicate n 0, arrived := 0, hub := 0 }

/-- A packet in execution. -/
def executing (src : Source) (n : Nat) : Exec := { pkt := taken src n, start := 0, mode := mSetup, view := [], viewBank := [] }

/-- A sticky STATUS bit is set. -/
def stuck (h : Hub) (b : Nat) : Bool := bit (h.fld F.ATTN_STAT_STICKY 0) (b - 2)

/-- A queue is between items, with room for `n` words. -/
def room (h : Hub) (q n : Nat) : Bool :=
  !h.flag F.Q_STAT_DISCARD q && !(h.queue q).openItem && h.fld F.Q_STAT_PEND q == 0 && decide ((h.queue q).ws.length + n ≤ 16)

/-- A queue has got the words of an item, the last marked as its end. -/
def got (h h' : Hub) (q : Nat) (ws : List W64) : Bool :=
  (h'.queue q).ws.map (fun w => w.data) == (h.queue q).ws.map (fun w => w.data) ++ ws &&
  !(h'.queue q).openItem && ((h'.queue q).ws.getLast?).map (fun w => w.last) == some true

/-- A hub with address BAh and the first start counted, and registers set. -/
def hub (l : List (Fld × Nat × Nat)) : Hub :=
  l.foldl (fun h x => h.setFld x.1 x.2.1 x.2.2) { regs := [(A.HUB_ADDR, 0x100BA), (A.JNL_STAT, 0x10000)] }

/-! ### Statements over every state -/

theorem witness_EveryStepKeepsCanonical : State.reset.hub.canonical = true ∧ (hub []).canonical = true ∧
    (match step State.reset with
      | .next t => t.hub.canonical && t == State.reset
      | _ => false) = true := by
  decide +kernel

theorem witness_FieldWriteThenRead :
    (let f : Fld := ⟨5, 1, 31, 0⟩
     f.lo ≤ f.hi ∧ f.hi < 32 ∧ ((hub []).setFld f 2 0xFFFFFFFF).fld f 2 = 0xFFFFFFFF) ∧
    (let f : Fld := ⟨5, 1, 31, 31⟩
     f.lo ≤ f.hi ∧ f.hi < 32 ∧ ((hub []).setFld f 2 3).fld f 2 = 1) ∧ F.JNL_STAT_STEP.lo ≤ F.JNL_STAT_STEP.hi := by
  decide +kernel

theorem witness_RegisterZeroDiscards :
    (1 : Nat) ≠ 0 ∧ (({ pc := 9 } : Ctx).setG 1 7).gr 1 = 7 ∧ (({ pc := 9 } : Ctx).setG 0 7).gr 0 = 0 := by
  decide +kernel

theorem witness_EveryCommandKeepsBounds :
    (let h : Hub := { hub [(F.ILK_STAT_CHAIN, 0, 1), (F.ILK_STAT_S09OK, 0, 1)] with
       queues := [(7, { ws := List.replicate 15 { data := 5, last := true, gap := false, hit := false, slot := 0 } })]
       pk := { cur := some { executing .tether 5 with ilkKey := some 2 } } }
     let v : W32 := F.ILK_REQ_KEY.put (F.ILK_REQ_MASK.put 0 2) 0x9494
     let h' := run (.ilkReqWrite v) h
     h.twin.stepAt = none ∧ (h.queue 7).ws.length = 15 ∧ (h'.queue 7).ws.length = 15 ∧
     h.ilk.grant.getLsbD 1 = false ∧ h'.ilk.grant.getLsbD 1 = true ∧ mayEnable (.ilkReqWrite v) = true ∧ ofInterlock (.ilkReqWrite v) = true ∧
     h.ilkBit F.ILK_STAT_EN 1 = false ∧ h'.ilkBit F.ILK_STAT_EN 1 = true ∧ h'.flag F.ILK_STAT_CHAIN 0 = true) ∧
    mayEnable (.ilkOff 0) = false ∧ ofInterlock (.ilkOff 0) = true ∧ ofInterlock .atomicApply = false := by
  decide +kernel

theorem witness_CalPulseFires_engine :
    let h : Hub := { hub [(F.CAL_STAT_BUSY, 0, 1), (F.FE_STAT_PWR, 511, 1), (F.RT_SLOT_LO_COUNT, 0, 80)] with
      cal := { proc := 4, part := 4, gmask := 0x8000, fired := 15872 }, rooster := { lastCal := some 0 } }
    h.calTick.rooster ≠ h.rooster ∧ h.calTick.rooster.lastCal = some 80 ∧ (h.calTick.rooster.injected.map fun x => x.ch) = [511] := by
  decide +kernel

/-- Four samples for the last digitiser slot: the first is full, the last lies below the offset. -/
def someAdc : AdcIn := ⟨543, ⟨0xFFF, true, false, true⟩, ⟨0x400, false, false, false⟩, ⟨0x3FF, false, true, false⟩, ⟨0, false, false, false⟩⟩

/-- Channel 511 with its last spare serving, the front end on the high-gain path; offset 16, gain 2^20 and pedestal 3. -/
def chainHub : Hub :=
  { hub [(F.CHN_STAT_RUNNING, 0, 1), (F.RS_CHMAP_SERVE, 511, 33), (F.FE_CFG_RANGE, 511, 1), (F.ADC_OFS_OFS_HG, 543, 16),
      (F.ADC_GHG_GAIN, 543, 0x10000), (F.CH_CHAIN_SHIFT_A, 511, 0), (F.CH_PED_PED, 511, 3), (F.CH_SETTLE_K, 511, 6)] with start := {} }

theorem witness_SlotBoundaryCounts_chain :
    (chainHub.liveSlot 511 = some 543 ∧ chainHub.rangeMode 511 = 1 ∧ ([someAdc].find? fun a => a.p == 543) = some someAdc) ∧
    ((chainHub.stageA 511 543 someAdc.s0).1 = (BitVec.ofNat 16 (satU 16 (roundDiv ((0xFFF * 16 - 16) * 0x10000) (2 ^ 20) + 3)), 3) ∧
      (chainHub.stageA 511 543 someAdc.s3).1 = (2, 0)) ∧
    (let y (k : Nat) : BitVec 16 × BitVec 2 := (BitVec.ofNat 16 (1000 * k), BitVec.ofNat 2 k)
     let h' := ((chainHub.capture3 511 3072 (y 1)).capture3 511 3073 (y 2)).capture3 511 3074 (y 3)
     3072 % 3 = 0 ∧ chainHub.fld F.CH_SETTLE_K 511 ≤ 3072 ∧ (chainHub.chainOf 511).part = [] ∧
     Store.get (fun _ => (0 : W64)) h'.lmem (lmemKey 511 3072) =
       BitVec.ofNat 64 ((65536 + 1000) + (2 * 65536 + 2000) * 2 ^ 18 + (3 * 65536 + 3000) * 2 ^ 36) ∧
     (h'.chainOf 511).stored = 3075 ∧ h'.fld F.CH_SATCNT_COUNT 511 = 1) := by
  decide +kernel

/-! ### The start, at S07 and S08: no slot is on the repair list -/

/-- A hub at a step of its start. -/
def starting (step : Nat) : Hub := { regs := [(A.JNL_STAT, BitVec.ofNat 32 (0x10000 + 16 * step))], start := {} }

theorem starting_dslot (step p : Nat) (hp : p < 544) : (starting step).word (0x63400 + p) = loadWordFrom 238 (0x63400 + p) := by
  have h : (starting step).word (0x63400 + p) = loadWord (0x63400 + p) := by
    have : A.JNL_STAT ≠ 0x63400 + p := by simp only [A.JNL_STAT]; omega
    simp [Hub.word, starting, Store.get, this]
  rw [h, loadWord_from 238 0x63400 544 _ (by decide +kernel) (by omega) (by omega)]

theorem dslot_unlisted : ∀ p ∈ List.range 544, F.RS_DSLOT_TREP.get (loadWordFrom 238 (0x63400 + p)) = 0 ∧
    F.RS_DSLOT_DREP.get (loadWordFrom 238 (0x63400 + p)) = 0 := by
  decide +kernel

theorem witness_LateStartSteps_tests :
    ((starting 7).atStep 7 = true ∧ (starting 7).quick = false ∧ ∀ p, p < 544 → (starting 7).flag F.RS_DSLOT_TREP p = false) ∧
    ((starting 8).atStep 8 = true ∧ (starting 8).quick = false ∧ ∀ p, p < 544 → (starting 8).flag F.RS_DSLOT_DREP p = false) := by
  refine ⟨⟨by decide +kernel, by decide +kernel, fun p hp => ?_⟩, by decide +kernel, by decide +kernel, fun p hp => ?_⟩
  all_goals
    have h := dslot_unlisted p (List.mem_range.2 hp)
    simp only [Hub.flag, Hub.fld, Fld.addr, Nat.one_mul, bne_eq_false_iff_eq]
    rw [starting_dslot _ p hp]
  · exact h.1
  · exact h.2

/-! ### Commands -/

theorem witness_ResetsActAsStated :
    -- resets 1
    (let h : Hub := { hub [(F.JNL_STAT_STARTS, 0, 9)] with bull := { badI := [3] }, start := {} }
     h.start.pin = false ∨ (h.flag F.RSTPIN_MASKED 0 = true ∧ h.flag F.RSTPIN_LEVEL 0 = true)) ∧
    -- resets 1b
    (let h : Hub := { hub [(F.RSTPIN_MASKED, 0, 1), (F.RSTPIN_LEVEL, 0, 1)] with start := { pin := true } }
     h.start.pin = false ∨ (h.flag F.RSTPIN_MASKED 0 = true ∧ h.flag F.RSTPIN_LEVEL 0 = true)) ∧
    -- resets 2
    (
       let h : Hub := { hub [(F.RSTPIN_MASKED, 0, 1), (F.RSTPIN_LEVEL, 0, 0)] with start := { off := true, held := true, pin := true } }
     h.start.pin = true ∧ ¬ (h.flag F.RSTPIN_MASKED 0 = true ∧ h.flag F.RSTPIN_LEVEL 0 = true)) ∧
    -- resets 4
    (
       let h : Hub := { hub [(F.MODE_STAT_MODE, 0, mRun), (F.JNL_STEP_MARK, 1, 1), (F.RSTPIN_MASKED, 0, 0)] with bull := { badI := [3] }, start := {} }
     let h' := run (.rstNAssert) h
     (h.start.pin = false ∧ h.start.off = false ∧ h.canonical = true ∧ h.flag F.RSTPIN_MASKED 0 = false) ∧
       h'.start.held = true ∧ h'.start.pin = true ∧ h'.fld F.JNL_STAT_CAUSE 0 = 2 ∧ kept h h' [A.JNL_STAT] = true ∧
       h'.bull = {}) ∧
    -- resets 5
    (
       let h : Hub := { hub [(F.JNL_STAT_STARTS, 0, 0xFFFF), (F.RSTPIN_MASKED, 0, 0)] with start := { held := true, pin := true }, tap := {} }
     let h' := run (.rstNRelease) h
     (h.start.pin = true ∧ h.start.off = false ∧ h.tap.holds = false ∧ h.flag F.RSTPIN_MASKED 0 = false) ∧
       h'.start.held = false ∧ h'.start.pin = false ∧ h'.fld F.JNL_STAT_CAUSE 0 = 2 ∧ h'.ilk.owed = [] ∧
       counted h h' F.ILK_FLTCNT_COUNT 0 h.ilk.owed.length = true ∧
       h'.fld F.JNL_STAT_STARTS 0 = min 0xFFFF (h.fld F.JNL_STAT_STARTS 0 + 1) ∧
       (h.ilk.owed = [] → same h h' [A.JNL_STAT] = true)) ∧
    -- resets 6
    (
       let h : Hub := { hub [(F.JNL_STAT_STARTS, 0, 4), (F.RSTPIN_MASKED, 0, 0)] with start := { held := true, pin := true }, tap := {} }
     let h' := run (.rstNMask) h
     (h.start.pin = true ∧ h.start.off = false ∧ h.tap.holds = false ∧ h.flag F.RSTPIN_MASKED 0 = false) ∧
       h'.start.held = false ∧ h'.flag F.RSTPIN_MASKED 0 = true ∧ h'.fld F.JNL_STAT_CAUSE 0 = 3 ∧
       bit (h'.fld F.ATTN_STAT_STICKY 0) (aResetStuck - 2) = true ∧ (h.ilk.owed = [] → same h h' [A.JNL_STAT, A.RSTPIN,
       A.ATTN_STAT] = true)) ∧
    -- resets 7
    (let h : Hub := { hub [(F.RSTPIN_MASKED, 0, 1)] with start := { pin := true } }
     let h' := run (.rstNRearm) h
     (h.flag F.RSTPIN_MASKED 0 = true) ∧ h'.flag F.RSTPIN_MASKED 0 = false ∧ h'.start.pin = false ∧ same h h' [A.RSTPIN] = true) ∧
    -- resets 8
    (
       let h : Hub := { hub [(F.RSTPIN_MASKED, 0, 0), (F.JNL_CTL_QUICK, 0, 1), (F.MODE_STAT_MODE, 0, mSetup)] with pk := { reset := true }, mule := {}, hen := {} }
     let h' := run (.warmReset) h
     (h.pk.reset = true ∧ h.repliesLeft = true ∧ h.canonical = true ∧ h.flag F.RSTPIN_MASKED 0 = false) ∧
       h'.start.held = false ∧ h'.fld F.JNL_STAT_CAUSE 0 = 1 ∧ (h.ilk.owed = [] → kept h h' [A.JNL_STAT] = true ∧
       h'.queues = []) ∧ h'.bull = {} ∧ h'.pk = {} ∧ h'.mode = mUnloaded) ∧
    -- resets 9
    (let h : Hub := { hub [(F.MODE_STAT_MODE, 0, mSetup)] with pk := { reset := true, awaitTether := 1 } }
     h.pk.reset = false ∨ h.repliesLeft = false) := by
  refine ⟨?_, ?_, ?_, ?_, ?_, ?_, ?_, ?_, ?_⟩ <;> decide +kernel

theorem witness_EarlyStartSteps :
    -- start s00
    (let h : Hub := { hub [(F.JNL_STAT_STEP, 0, 0), (F.JNL_STAT_DONE, 0, 0)] with start := {} }
     h.atStep 0 = true) ∧
    -- start s01a
    (let h : Hub := { hub [(F.JNL_STAT_STEP, 0, 1), (F.JNL_STAT_DONE, 0, 0), (F.JNL_STEP_MARK, 1, 0)] with start := {} }
     let h' := run (.s01CrystalCheck true false 99) h
     (h.atStep 1 = true ∧ h.flag F.JNL_STEP_MARK 1 = false) ∧ journal h' 1 oPass 99 = true ∧ h'.fld F.RT_CLK_XO_SEL 0 = 0 ∧
       h'.fld F.JNL_STAT_STEP 0 = 2 ∧ same h h' [A.JNL_STAT, A.JNL_STEP + 1, A.RT_CLK] = true) ∧
    -- start s01b
    (let h : Hub := { hub [(F.JNL_STAT_STEP, 0, 1), (F.JNL_STAT_DONE, 0, 0), (F.JNL_STEP_MARK, 1, 1)] with start := {} }
     let h' := run (.s01CrystalCheck true true 99999999) h
     (h.atStep 1 = true ∧ h.flag F.JNL_STEP_MARK 1 = true) ∧ journal h' 1 oAlternate 99999999 = true ∧
       h'.fld F.RT_CLK_XO_SEL 0 = 1 ∧ h'.flag F.JNL_STEP_MARK 1 = true ∧ h'.fld F.JNL_STAT_STEP 0 = 2 ∧ same h h' [A.JNL_STAT,
       A.JNL_STEP + 1, A.RT_CLK] = true) ∧
    -- start s01c
    (let h : Hub := { hub [(F.JNL_STAT_STEP, 0, 1), (F.JNL_STAT_DONE, 0, 0)] with start := {} }
     let h' := run (.s01CrystalCheck false false 500) h
     (h.atStep 1 = true) ∧ journal h' 1 oFail 500 = true ∧ h'.start.failed = true ∧ h'.flag F.JNL_STEP_MARK 1 = true ∧
       h'.fld F.JNL_STAT_STEP 0 = 1 ∧ same h h' [A.JNL_STAT, A.JNL_STEP + 1, A.RT_CLK] = true) ∧
    -- start s02a
    (let h : Hub := { hub [(F.JNL_STAT_STEP, 0, 2), (F.JNL_STAT_DONE, 0, 0), (F.JNL_STEP_MARK, 2, 0)] with start := {} }
     let h' := run (.s02PllLock true false 500) h
     (h.atStep 2 = true ∧ h.flag F.JNL_STEP_MARK 2 = false) ∧ journal h' 2 oPass 500 = true ∧ h'.fld F.RT_CLK_BAND 0 = 0 ∧
       h'.fld F.RT_CLK_LOCK 0 = 1 ∧ h'.fld F.JNL_STAT_STEP 0 = 3 ∧ same h h' [A.JNL_STAT, A.JNL_STEP + 2, A.RT_CLK] = true) ∧
    -- start s02b
    (let h : Hub := { hub [(F.JNL_STAT_STEP, 0, 2), (F.JNL_STAT_DONE, 0, 0)] with start := {} }
     let h' := run (.s02PllLock false true 500) h
     (h.atStep 2 = true) ∧ journal h' 2 oAlternate 500 = true ∧ h'.fld F.RT_CLK_BAND 0 = 1 ∧ h'.fld F.RT_CLK_LOCK 0 = 1 ∧
       h'.fld F.JNL_STAT_STEP 0 = 3 ∧ same h h' [A.JNL_STAT, A.JNL_STEP + 2, A.RT_CLK] = true) ∧
    -- start s02c
    (let h : Hub := { hub [(F.JNL_STAT_STEP, 0, 2), (F.JNL_STAT_DONE, 0, 0), (F.JNL_STEP_MARK, 2, 1)] with start := {} }
     let h' := run (.s02PllLock true false 500) h
     (h.atStep 2 = true ∧ h.flag F.JNL_STEP_MARK 2 = true) ∧ journal h' 2 oFail 500 = true ∧ h'.start.failed = true ∧
       h'.fld F.JNL_STAT_STEP 0 = 2 ∧ same h h' [A.JNL_STAT, A.JNL_STEP + 2, A.RT_CLK] = true) ∧
    -- start s03
    (
       let h : Hub := { hub [(F.JNL_STAT_STEP, 0, 3), (F.JNL_STAT_DONE, 0, 0), (F.LANE_ROLE_ROLE, 2, roleAuto), (F.JNL_LANES_SKIP, 0, 0), (F.LN_STAT_FENCED, 2, 0)] with start := {} }
     h.atStep 3 = true ∧ h.start.again = 0 ∧ 2 ∈ h.autoLanes ∧ (4 : BitVec 24).getLsbD 2 = true ∧
       bit (h.fld F.JNL_LANES_SKIP 0) 2 = false) ∧
    -- start s03b
    (
       let h : Hub := { hub [(F.JNL_STAT_STEP, 0, 3), (F.JNL_STAT_DONE, 0, 0), (F.LANE_ROLE_ROLE, 2, roleAuto), (F.JNL_LANES_SKIP, 0, 2), (F.LN_STAT_FENCED, 2, 0)] with start := {} }
     h.atStep 3 = true ∧ h.start.again = 0 ∧ 2 ∈ h.autoLanes ∧ (0xFFFFFF : BitVec 24).getLsbD 2 = true ∧
       bit (h.fld F.JNL_LANES_SKIP 0) 2 = false) ∧
    -- start s04
    (let h : Hub := { hub [(F.JNL_STAT_STEP, 0, 4), (F.JNL_STAT_DONE, 0, 0), (F.RT_CLK_GRID, 0, 1)] with start := {} }
     let h' := run (.s04GridPlace 300) h
     (h.atStep 4 = true ∧ h.start.again = 0 ∧ h.flag F.RT_CLK_GRID 0 = true) ∧ journal h' 4 oPass 300 = true ∧
       h'.fld F.JNL_STAT_STEP 0 = 5 ∧ h'.flag F.RT_CLK_GRID 0 = true ∧ only h h' [A.JNL_STAT, A.JNL_STEP + 4] = true) ∧
    -- start s04b
    (
       let h : Hub := { hub [(F.JNL_STAT_STEP, 0, 4), (F.JNL_STAT_DONE, 0, 0), (F.RT_CLK_GRID, 0, 0), (F.RT_CLK_SRC, 0, 2)] with start := {} }
     let h' := run (.s04GridPlace 300) h
     (h.atStep 4 = true ∧ h.start.again = 0 ∧ h.onCrystal = true) ∧ journal h' 4 oPass 300 = true ∧
       h'.fld F.JNL_STAT_STEP 0 = 5 ∧ h'.flag F.RT_CLK_GRID 0 = true) ∧
    -- start s04c
    (
       let h : Hub := { hub [(F.JNL_STAT_STEP, 0, 4), (F.JNL_STAT_DONE, 0, 0), (F.RT_CLK_GRID, 0, 0), (F.RT_CLK_SRC, 0, 0), (F.LANE_ROLE_ACT_ROLE, 5, roleParent), (F.LN_STAT_ALIGNED, 5, 1), (F.LN_STAT_SIG, 5, 1), (F.LN_STAT_LOCK, 5, 1), (F.LANE_ROLE_ACT_PORT, 5, 0), (F.LN_STAT_FENCED, 5, 0), (F.HEN_UPSTAT_PORT, 0, 0), (F.RT_LANE_VALID, 5, 1)] with start := {}, lanes := [(5, { lastOk := true })] }
     let h' := run (.s04GridPlace 300) h
     (h.atStep 4 = true ∧ h.start.again = 0 ∧ h.timingLane.isSome = true) ∧ journal h' 4 oPass 300 = true ∧
       h'.fld F.JNL_STAT_STEP 0 = 5 ∧ h'.flag F.RT_CLK_GRID 0 = true) ∧
    -- start s05
    (let h : Hub := { hub [(F.JNL_STAT_STEP, 0, 5), (F.JNL_STAT_DONE, 0, 0), (F.HUB_ADDR_VALID, 0, 1)] with start := {} }
     let h' := run (.s05Address 300) h
     (h.atStep 5 = true ∧ h.flag F.HUB_ADDR_VALID 0 = true) ∧ journal h' 5 oPass 300 = true ∧ h'.fld F.JNL_STAT_STEP 0 = 6 ∧
       only h h' [A.JNL_STAT, A.JNL_STEP + 5] = true) := by
  refine ⟨?_, ?_, ?_, ?_, ?_, ?_, ?_, ?_, ?_, ?_, ?_, ?_, ?_⟩ <;> decide +kernel

theorem witness_LateStartSteps :
    -- start s06
    (
       let h : Hub := { hub [(F.JNL_STAT_STEP, 0, 6), (F.JNL_STAT_DONE, 0, 0), (F.JNL_CTL_QUICK, 0, 0)] with start := {}, bank := [] }
     let h' := run (.s06MemoryTest [] 250) h
     (h.atStep 6 = true ∧ h.quick = false ∧ h.bank = []) ∧ h'.fld F.JNL_STEP_RUN 6 = 1 ∧ h'.fld F.JNL_STEP_DUR 6 = 2 ∧
       h'.fld F.JNL_STAT_STEP 0 = 7 ∧ h'.fld F.JNL_STEP_OUTCOME 6 = oPass) ∧
    -- start s06q
    (
       let h : Hub := { hub [(F.JNL_STAT_STEP, 0, 6), (F.JNL_STAT_DONE, 0, 0), (F.JNL_CTL_QUICK, 0, 1), (F.JNL_STAT_CAUSE, 0, 1)] with start := {} }
     let h' := run (.s06MemoryTest [(3, 5)] 250) h
     (h.atStep 6 = true ∧ h.quick = true) ∧ h'.fld F.JNL_STEP_RUN 6 = 1 ∧ h'.fld F.JNL_STEP_DUR 6 = 2 ∧
       h'.fld F.JNL_STAT_STEP 0 = 7 ∧ h'.fld F.JNL_STEP_OUTCOME 6 = oSkipped) ∧
    -- start s08q
    (
       let h : Hub := { hub [(F.JNL_STAT_STEP, 0, 8), (F.JNL_STAT_DONE, 0, 0), (F.JNL_CTL_QUICK, 0, 1), (F.JNL_STAT_CAUSE, 0, 1)] with start := {} }
     h.atStep 8 = true ∧ h.quick = true) ∧
    -- start s07q
    (
       let h : Hub := { hub [(F.JNL_STAT_STEP, 0, 7), (F.JNL_STAT_DONE, 0, 0), (F.JNL_CTL_QUICK, 0, 1), (F.JNL_STAT_CAUSE, 0, 1)] with start := {} }
     h.atStep 7 = true ∧ h.quick = true) ∧
    -- start s09
    (
       let h : Hub := { hub [(F.JNL_STAT_STEP, 0, 9), (F.JNL_STAT_DONE, 0, 0), (F.ILK_STRAP_LATCHED, 0, 21), (F.JNL_STEP_OUTCOME, 3, oFail)] with start := {} }
     h.atStep 9 = true ∧ h.fld F.JNL_STEP_OUTCOME 3 ≠ oPass) ∧
    -- start s09b
    (let h : Hub := { hub [(F.JNL_STAT_STEP, 0, 9), (F.JNL_STAT_DONE, 0, 0), (F.ILK_STRAP_LATCHED, 0, 21)] with start := {} }
     h.atStep 9 = true) ∧
    -- start rerun
    (let h : Hub := { hub [(F.JNL_STEP_OUTCOME, 1, oFail), (F.JNL_STEP_RUN, 1, 1)] with start := { failed := true } }
     let h' := run (.startRerun) h
     (h.start.failed = true) ∧ h'.start.failed = false ∧ h'.fld F.JNL_STAT_STEP 0 = 1 ∧ (∀ k ∈ List.range 10,
       h'.fld F.JNL_STEP_RUN k = 0) ∧ (∀ k ∈ List.range 10, h'.fld F.JNL_STEP_OUTCOME k = h.fld F.JNL_STEP_OUTCOME k) ∧
       h'.fld F.JNL_STAT_STARTS 0 = h.fld F.JNL_STAT_STARTS 0 ∧ h'.fld F.JNL_STAT_CAUSE 0 = h.fld F.JNL_STAT_CAUSE 0) ∧
    -- start repeat4
    (
       let h : Hub := { hub [(F.JNL_STAT_STEP, 0, 4), (F.JNL_STAT_DONE, 0, 0), (F.JNL_STEP_RUN, 3, 1), (F.MODE_STAT_MODE, 0, mUnloaded)] with start := {}, lanes := [], rooster := { noParent := 1024 } }
     h.searchDue = true ∧ h.atStep 4 = true) ∧
    -- start repeat
    (
       let h : Hub := { hub [(F.JNL_STAT_STEP, 0, 0xF), (F.JNL_STAT_DONE, 0, 1), (F.JNL_STEP_RUN, 3, 1), (F.MODE_STAT_MODE, 0, mSetup), (F.LANE_ROLE_ROLE, 0, roleAuto)] with start := {}, lanes := [], rooster := { noParent := 1024 } }
     h.searchDue = true ∧ h.atStep 4 = false) := by
  refine ⟨?_, ?_, ?_, ?_, ?_, ?_, ?_, ?_, ?_⟩ <;> decide +kernel

theorem witness_TestPortInstructions :
    -- tap release
    (let h : Hub := { hub [(F.JNL_STAT_STARTS, 0, 5)] with tap := { ir := 0 }, start := { held := true } }
     let h' := run (.idcode) h
     (h.tap.holds = true ∧ h.start.off = false ∧ h.start.pin = false) ∧ h'.start.held = false ∧ h'.tap.ir = 0x01 ∧
       h'.fld F.JNL_STAT_CAUSE 0 = 2 ∧ h'.fld F.JNL_STAT_STARTS 0 = 6) ∧
    -- tap idcode
    (let h : Hub := { hub [] with tap := { ir := 0xFF, dr := 0 }, start := {} }
     let h' := run (.idcode) h
     (h.tap.holds = false ∧ h.start.off = false ∧ h.start.held = false) ∧
       h' = { h with tap := { h.tap with ir := 0x01, dr := 0x1512455F } }) ∧
    -- tap reset
    (let h : Hub := { hub [] with tap := { ir := 0xFF, dr := 0 }, start := {} }
     let h' := run (.tapReset) h
     (h.tap.holds = false ∧ h.start.off = false ∧ h.start.held = false) ∧
       h' = { h with tap := { h.tap with ir := 0x01, dr := 0x1512455F } }) ∧
    -- tap bypass
    (let h : Hub := { hub [] with tap := {}, start := {} }
     let h' := run (.bypass) h
     (h.tap.holds = false ∧ h.start.off = false ∧ h.start.held = false) ∧
       h' = { h with tap := { h.tap with ir := 0xFF, dr := 0 } }) ∧
    -- tap sample
    (let h : Hub := { hub [] with tap := {}, start := {} }
     let h' := run (.samplePreload 0x123456789ABCDEF0123456789ABCDEF012 0xFFFFFFFFFFFFFFFFFFFFFFFFFFFFFFFFFF) h
     (h.tap.holds = false ∧ h.start.off = false ∧ h.start.held = false) ∧ h'.tap.ir = 0x02 ∧
       scanned h' 0x123456789ABCDEF0123456789ABCDEF012 0xFFFFFFFFFFFFFFFFFFFFFFFFFFFFFFFFFF = true ∧
       h' = { h with tap := h'.tap }) ∧
    -- tap clamp
    (let h : Hub := { hub [] with tap := { cells := 5 }, start := {} }
     let h' := run (.clamp) h
     (h.tap.holds = false ∧ h.start.off = false ∧ h.start.held = false) ∧ h'.tap.ir = 0x04 ∧ h'.tap.dr = 0 ∧
       h'.tap.cells = h.tap.cells ∧ h'.start.held = true ∧ h'.fld F.JNL_STAT_CAUSE 0 = 2 ∧ h'.bull = {} ∧ h'.pk = {}) ∧
    -- tap highz
    (let h : Hub := { hub [] with tap := {}, start := {} }
     let h' := run (.highz) h
     (h.tap.holds = false ∧ h.start.off = false ∧ h.start.held = false) ∧ h'.tap.ir = 0x05 ∧ h'.tap.dr = 0 ∧
       h'.start.held = true ∧ h'.fld F.JNL_STAT_CAUSE 0 = 2 ∧ h'.bull = {} ∧ h'.pk = {}) ∧
    -- tap extest
    (let h : Hub := { hub [] with tap := {}, start := {} }
     let h' := run (.extest 0xFFFF 0xF0F0F0F0F0F0F0F0F0F0F0F0F0F0F0F0F0) h
     (h.tap.holds = false ∧ h.start.off = false ∧ h.start.held = false) ∧ h'.tap.ir = 0x00 ∧
       scanned h' 0xFFFF 0xF0F0F0F0F0F0F0F0F0F0F0F0F0F0F0F0F0 = true ∧ h'.start.held = true ∧ h'.fld F.JNL_STAT_CAUSE 0 = 2 ∧
       h'.bull = {} ∧ h'.pk = {}) ∧
    -- tap pulse
    (let h : Hub := { hub [] with tap := {}, start := {} }
     let h' := run (.extestPulse 0xFFFF 0xF0F0F0F0F0F0F0F0F0F0F0F0F0F0F0F0F0) h
     (h.tap.holds = false ∧ h.start.off = false ∧ h.start.held = false) ∧ h'.tap.ir = 0x10 ∧
       scanned h' 0xFFFF 0xF0F0F0F0F0F0F0F0F0F0F0F0F0F0F0F0F0 = true ∧ h'.start.held = true ∧ h'.fld F.JNL_STAT_CAUSE 0 = 2 ∧
       h'.bull = {} ∧ h'.pk = {}) ∧
    -- tap train
    (let h : Hub := { hub [] with tap := {}, start := {} }
     let h' := run (.extestTrain 0xFFFF 0xF0F0F0F0F0F0F0F0F0F0F0F0F0F0F0F0F0) h
     (h.tap.holds = false ∧ h.start.off = false ∧ h.start.held = false) ∧ h'.tap.ir = 0x11 ∧
       scanned h' 0xFFFF 0xF0F0F0F0F0F0F0F0F0F0F0F0F0F0F0F0F0 = true ∧ h'.start.held = true ∧ h'.fld F.JNL_STAT_CAUSE 0 = 2 ∧
       h'.bull = {} ∧ h'.pk = {}) := by
  refine ⟨?_, ?_, ?_, ?_, ?_, ?_, ?_, ?_, ?_, ?_⟩ <;> decide +kernel

theorem witness_ClockPartsGiveWay :
    -- clock crystal
    (let h : Hub := { hub [(F.RT_CLK_XO_SEL, 0, 1)] with goose := {}, start := {} }
     h.start.held = false ∧ h.fenced (unitOf 1 (1 - h.fld F.RT_CLK_XO_SEL 0)) = false) ∧
    -- clock crystal last
    (
       let h : Hub := { hub [(F.RT_CLK_XO_SEL, 0, 1), (F.RT_CLK_SRC, 0, 2), (F.MODE_STAT_MODE, 0, mRun)] with goose := { fenced := [unitOf 1 0] }, start := {} }
     h.start.held = false ∧ h.fenced (unitOf 1 (1 - h.fld F.RT_CLK_XO_SEL 0)) = true ∧
       h.fenced (unitOf 1 (h.fld F.RT_CLK_XO_SEL 0)) = false ∧ h.onCrystal = true) ∧
    -- clock band
    (let h : Hub := { hub [(F.RT_CLK_BAND, 0, 0)] with goose := {}, start := {} }
     h.start.held = false ∧ h.fenced (unitOf 1 (3 - h.fld F.RT_CLK_BAND 0)) = false) ∧
    -- clock band lost
    (let h : Hub := { hub [(F.RT_CLK_BAND, 0, 1), (F.RT_CLK_LOCK, 0, 1)] with goose := { fenced := [unitOf 1 2] }, start := {} }
     h.start.held = false ∧ h.fenced (unitOf 1 (3 - h.fld F.RT_CLK_BAND 0)) = true) ∧
    -- clock again
    (let h : Hub := { hub [(F.RT_CLK_BAND, 0, 1), (F.RT_CLK_LOCK, 0, 0)] with goose := { standing := [1, 3, 5] }, start := {} }
     let h' := run (.vcoBandLocksAgain true) h
     (h.start.held = false ∧ h.fld F.RT_CLK_BAND 0 = b2n true) ∧ 3 ∉ h'.goose.standing ∧ (∀ c ∈ List.range 16,
       c ≠ 3 → (c ∈ h'.goose.standing ↔ c ∈ h.goose.standing)) ∧ h'.flag F.RT_CLK_LOCK 0 = true ∧ same h h' [A.RT_CLK] = true) ∧
    -- clock again other
    (let h : Hub := { hub [(F.RT_CLK_BAND, 0, 1), (F.RT_CLK_LOCK, 0, 0)] with goose := { standing := [1, 3, 5] }, start := {} }
     h.start.held = false ∧ h.fld F.RT_CLK_BAND 0 ≠ b2n false) ∧
    -- clock health twin
    (let h : Hub := { hub [(F.TW_STAT_STATE, 0, 2)] with rooster := { band := some (0, 99) } }
     let lane := match h.timingLane with | some l => l | none => 0xFF
     let item : List W64 := [header tHealth 0 0 h.tag.toNat 0, healthWord1 3 lane 0 0, BitVec.ofNat 64 (99 * 2 ^ 32)]
     let h' := run (.bandSwitchHealth) h
     (h.rooster.band = some (0, 99) ∧ h.twinLocal = true) ∧ h'.rooster.band = none ∧ h'.twin.items = h.twin.items ++ [item] ∧
       h'.regs = h.regs) ∧
    -- clock health
    (
       let h : Hub := { hub [(F.TW_STAT_STATE, 0, 0), (F.Q_STAT_DISCARD, 30, 0), (F.Q_STAT_PEND, 30, 0)] with rooster := { band := some (0, 99) }, queues := [(30, { ws := [⟨5, true, false, false, 0, 0⟩] })] }
     h.rooster.band = some (0, 99) ∧ h.twinLocal = false ∧ room h 30 3 = true) := by
  refine ⟨?_, ?_, ?_, ?_, ?_, ?_, ?_, ?_⟩ <;> decide +kernel

theorem witness_AveragesAndHoldover :
    -- average
    (
       let h : Hub := { hub [(F.LANE_ROLE_ACT_ROLE, 23, roleParent), (F.LANE_ROLE_ACT_PORT, 23, 1)] with lanes := [(23, { avgN := 3, avgRtt := 1201, avgTheta := -7 })] }
     h.role 23 = roleParent ∧ h.lanePort 23 = 1 ∧ (h.lane 23).avgN = 3 ∧ (h.lane 23).avgN ≠ 0) ∧
    -- average other
    (let h : Hub := { hub [(F.LANE_ROLE_ACT_ROLE, 0, roleParent)] with lanes := [(0, { avgN := 0, avgRtt := 5 })] }
     let h' := run (.thetaAverage 0 0 0) h
     (h.role 0 ≠ roleParent ∨ h.lanePort 0 ≠ 0 ∨ (h.lane 0).avgN ≠ 0 ∨ 0 = 0) ∧ h' = h) ∧
    -- holdover entry
    (
       let h : Hub := { hub [(F.JNL_STAT_DONE, 0, 1), (F.RT_CLK_HOLDOVER, 0, 0), (F.RT_CLK_SRC, 0, 0)] with rooster := { noFrame := 2 } }
     2 ≤ h.rooster.noFrame ∧ h.pastS04 = true ∧ h.flag F.RT_CLK_HOLDOVER 0 = false ∧ h.onCrystal = false) ∧
    -- holdover end
    (
       let h : Hub := { hub [(F.RT_CLK_HOLDOVER, 0, 1), (F.RT_CLK_GRID, 0, 1), (F.RT_CLK_SRC, 0, 0), (F.JNL_STAT_DONE, 0, 1), (F.LANE_ROLE_ACT_ROLE, 4, roleParent), (F.LANE_ROLE_ACT_PORT, 4, 1), (F.HEN_UPSTAT_PORT, 0, 1), (F.RT_CLK_AMBIG, 0, 0), (F.LN_STAT_ALIGNED, 4, 1), (F.LN_STAT_LOCK, 4, 1), (F.LN_STAT_SIG, 4, 1), (F.LN_STAT_FENCED, 4, 0), (F.RT_RTT_RTT, 4, 9), (F.RT_LANE_VALID, 4, 1)] with rooster := { backAt := some 7600011, lossAt := 10, noFrame := 9, moved := 5 }, lanes := [(4, { echoed := true, averaged := true, fresh := true, lastOk := true, theta := -77 * 125 + 5 })] }
     let known := (h.laneAverages 4).refreshAges
     h.portInForce = 1 ∧ h.rooster.backAt = some 7600011 ∧ h.timingLane = some 4 ∧ h.flag F.RT_CLK_HOLDOVER 0 = true ∧
       known.timingLane = some 4 ∧ (known.lane 4).fresh = true ∧ h.onCrystal = false ∧ h.pastS03 = true ∧
       h.flag F.RT_CLK_GRID 0 = true) ∧
    -- holdover end short
    (
       let h : Hub := { hub [(F.RT_CLK_HOLDOVER, 0, 1), (F.RT_CLK_GRID, 0, 1), (F.RT_CLK_SRC, 0, 0), (F.JNL_STAT_DONE, 0, 1), (F.LANE_ROLE_ACT_ROLE, 4, roleParent), (F.LANE_ROLE_ACT_PORT, 4, 1), (F.HEN_UPSTAT_PORT, 0, 1), (F.RT_CLK_AMBIG, 0, 0), (F.LN_STAT_ALIGNED, 4, 1), (F.LN_STAT_LOCK, 4, 1), (F.LN_STAT_SIG, 4, 1), (F.LN_STAT_FENCED, 4, 0), (F.RT_RTT_RTT, 4, 9), (F.RT_LANE_VALID, 4, 1)] with rooster := { backAt := some 7600010, lossAt := 10, noFrame := 9, moved := 5 }, lanes := [(4, { echoed := true, averaged := true, fresh := true, lastOk := true, theta := 99999999 * 125 + 5 })] }
     let known := (h.laneAverages 4).refreshAges
     h.portInForce = 1 ∧ h.rooster.backAt = some 7600010 ∧ h.timingLane = some 4 ∧ h.flag F.RT_CLK_HOLDOVER 0 = true ∧
       known.timingLane = some 4 ∧ (known.lane 4).fresh = true ∧ h.onCrystal = false ∧ h.pastS03 = true ∧
       h.flag F.RT_CLK_GRID 0 = true) := by
  refine ⟨?_, ?_, ?_, ?_, ?_⟩ <;> decide +kernel

theorem witness_RoosterWrites :
    -- rooster src
    (let h : Hub := { hub [(F.MODE_STAT_MODE, 0, mSetup), (F.RT_CLK_HOLDOVER, 0, 1)] with goose := {} }
     let h' := run (.clockSourceWrite 2) h
     (h.mode = mSetup ∧ h.noCrystal = false) ∧ h'.fld F.RT_CLK_SRC 0 = 2 ∧ h'.flag F.RT_CLK_HOLDOVER 0 = false ∧
       h'.flag F.RT_CLK_GRID 0 = true ∧ same h h' [A.RT_CLK, A.RT_OFFSET] = true) ∧
    -- rooster src off
    (let h : Hub := hub [(F.MODE_STAT_MODE, 0, mSetup), (F.RT_CLK_SRC, 0, 2), (F.RT_CLK_GRID, 0, 1)]
     let h' := run (.clockSourceWrite 1) h
     (h.mode = mSetup ∧ h.onCrystal = true) ∧ h'.fld F.RT_CLK_SRC 0 = 1 ∧ h'.flag F.RT_CLK_GRID 0 = false ∧
       h'.flag F.RT_CLK_AMBIG 0 = false ∧ same h h' [A.RT_CLK, A.RT_OFFSET] = true) ∧
    -- rooster regrid
    (let h : Hub := hub [(F.MODE_STAT_MODE, 0, mSetup), (F.RT_CLK_SRC, 0, 0), (F.RT_CLK_GRID, 0, 1)]
     let h' := run (.regrid) h
     (h.mode = mSetup ∧ h.onCrystal = false) ∧ h'.flag F.RT_CLK_GRID 0 = false ∧ h'.flag F.RT_CLK_AMBIG 0 = false ∧
       only h h' [A.RT_CLK] = true) ∧
    -- rooster fccfg
    (
       let h : Hub := { hub [(F.MODE_STAT_MODE, 0, mSetup)] with rooster := { sched := [(.sync, 5), (.orbit, 6)], held := [(.snap, 7, 8, 0, true), (.l1a, 7, 8, 0, true)] } }
     h.mode = mSetup) ∧
    -- rooster fccfg2
    (let h : Hub := { hub [(F.MODE_STAT_MODE, 0, mSetup)] with rooster := { sched := [] } }
     h.mode = mSetup) ∧
    -- rooster other
    (let h : Hub := hub [(F.MODE_STAT_MODE, 0, mRun)]
     let h' := run (.clockSourceWrite 1) h
     (h.mode ≠ mSetup) ∧ h' = h ∧ run .regrid h = h ∧ run (.fccfgWrite 3) h = h) ∧
    -- vote fix
    (let h : Hub := { hub [(F.GS_CFG_LOGCOR, 0, 0)] with goose := {}, start := {} }
     h.start.held = false ∧ h.fenced (unitOf 1 4) = false ∧ h.flag F.GS_CFG_LOGCOR 0 = false) ∧
    -- vote fail
    (let h : Hub := { hub [(F.MODE_STAT_MODE, 0, mRun)] with goose := {}, start := {} }
     h.start.held = false ∧ h.fenced (unitOf 1 4) = false ∧ h.mode ≠ mUnloaded ∧ h.mode ≠ mHold) ∧
    -- clears
    (
       let h : Hub := { hub [(⟨0x61008, 1, 31, 0⟩, 0, 5), (⟨0x61008, 1, 31, 0⟩, 1, 6), (⟨0x61008, 1, 31, 0⟩, 3, 7)] with rooster := {}, start := {} }
     h.start.held = false ∧ h.rooster.clears = []) ∧
    -- clears rt
    (
       let h : Hub := { hub [(⟨0x1030, 1, 31, 0⟩, 0, 5), (⟨0x1030, 1, 31, 0⟩, 5, 6), (⟨0x1030, 1, 31, 0⟩, 3, 7)] with rooster := {}, start := {} }
     h.start.held = false ∧ h.rooster.clears = []) := by
  refine ⟨?_, ?_, ?_, ?_, ?_, ?_, ?_, ?_, ?_, ?_⟩ <;> decide +kernel

theorem witness_ScheduledFastCommands :
    -- fc held
    (let h : Hub := { hub [(F.RT_FCCFG_FC_LAT, 0, 20)] with start := {} }
     let q : W48 := h.slot + 5#48
     h.start.held = false ∧ reached h.slot (h.decodeSlot q) = false) ∧
    -- fc sched
    (let h : Hub := { hub [(F.RT_FCCFG_FC_LAT, 0, 0x3FF)] with start := {} }
     let q : W48 := h.slot - 30#48
     let act : W48 := h.originSlot q + BitVec.ofNat 48 (h.fld F.RT_FCCFG_FC_LAT 0)
     h.start.held = false ∧ reached h.slot (h.decodeSlot q) = true ∧ reached h.slot act = false) ∧
    -- fc late
    (let h : Hub := { hub [(F.RT_FCCFG_FC_LAT, 0, 1)] with start := {} }
     let q : W48 := h.slot - 3000#48
     let act : W48 := h.originSlot q + BitVec.ofNat 48 (h.fld F.RT_FCCFG_FC_LAT 0)
     h.start.held = false ∧ reached h.slot (h.decodeSlot q) = true ∧ reached h.slot act = true) ∧
    -- fc late snap sync
    (let h : Hub := { hub [(F.RT_FCCFG_FC_LAT, 0, 1)] with start := {} }
     let q : W48 := h.slot - 3000#48
     let act : W48 := h.originSlot q + BitVec.ofNat 48 (h.fld F.RT_FCCFG_FC_LAT 0)
     h.start.held = false ∧ reached h.slot (h.decodeSlot q) = true ∧ reached h.slot act = true) := by
  refine ⟨?_, ?_, ?_, ?_⟩ <;> decide +kernel

theorem witness_ImmediateFastCommands :
    -- fc nop
    (let h : Hub := { hub [] with start := {} }
     let q : W48 := h.slot - 3000#48
     let h' := run (.fcNop q) h
     (h.start.held = false ∧ reached h.slot (h.decodeSlot q) = true) ∧ h' = h) ∧
    -- fc l1a
    (let h : Hub := { hub [] with start := {}, rooster := { prevTrig := some 7 } }
     let q : W48 := h.slot - 3000#48
     let h' := run (.fcL1a q 10 true) h
     (h.start.held = false ∧ reached h.slot (h.decodeSlot q) = true) ∧ h'.rooster.prevTrig = some 10 ∧
       h'.l1as = h.l1as ++ [{ num := 10, inferred := false, origin := h.originSlot q, accept := h.slot + 2#48 }] ∧
       h'.hen.fc = h.hen.fc ++ [(0x4D#8, 10, h.slot + 1#48)] ∧ counted h h' F.RT_TRIGSKIP_COUNT 0 2 = true ∧
       same h h' [A.RT_TRIGSKIP] = true) ∧
    -- fc l1a back
    (let h : Hub := { hub [] with start := {}, rooster := { prevTrig := some 7 } }
     let q : W48 := h.slot - 3000#48
     let h' := run (.fcL1a q 5 true) h
     (h.start.held = false ∧ reached h.slot (h.decodeSlot q) = true) ∧ h'.rooster.prevTrig = some 5 ∧
       counted h h' F.RT_TRIGSKIP_COUNT 0 ((5#24 - 8#24).toNat) = true ∧ same h h' [A.RT_TRIGSKIP] = true) ∧
    -- fc l1a bad
    (let h : Hub := { hub [] with start := {}, rooster := { prevTrig := some 0xFFFFFF } }
     let q : W48 := h.slot - 3000#48
     let h' := run (.fcL1a q 10 false) h
     (h.start.held = false ∧ reached h.slot (h.decodeSlot q) = true) ∧ h'.rooster.prevTrig = some 0 ∧
       h'.l1as = h.l1as ++ [{ num := 0, inferred := true, origin := h.originSlot q, accept := h.slot + 2#48 }] ∧
       h'.hen.fc = h.hen.fc ++ [(0x4D#8, 0, h.slot + 1#48)] ∧ same h h' [A.RT_TRIGSKIP] = true) ∧
    -- fc hold run
    (let h : Hub := { hub [(F.MODE_STAT_MODE, 0, mRun)] with start := {} }
     let q : W48 := h.slot - 3000#48
     let h' := run (.fcHold q) h
     (h.start.held = false ∧ reached h.slot (h.decodeSlot q) = true ∧ h.mode ≠ mUnloaded ∧ h.mode ≠ mHold) ∧
       h'.goose = { h.goose with holdFc := true } ∧ h'.regs = h.regs) ∧
    -- fc hold hold
    (let h : Hub := { hub [(F.MODE_STAT_MODE, 0, mHold)] with start := {} }
     let q : W48 := h.slot - 3000#48
     let h' := run (.fcHold q) h
     (h.start.held = false ∧ reached h.slot (h.decodeSlot q) = true ∧ h.mode = mHold) ∧
       h'.goose = { h.goose with quietFrom := h.slot } ∧ h'.regs = h.regs) ∧
    -- fc hold unloaded
    (let h : Hub := { hub [(F.MODE_STAT_MODE, 0, mUnloaded)] with start := {} }
     let q : W48 := h.slot - 3000#48
     let h' := run (.fcHold q) h
     (h.start.held = false ∧ reached h.slot (h.decodeSlot q) = true ∧ h.mode = mUnloaded) ∧ h'.goose = h.goose ∧
       h'.regs = h.regs) ∧
    -- fc take
    (let h : Hub := { hub [(F.TW_STAT_STATE, 0, 4), (F.TW_STAT_HEALTHY, 0, 1)] with start := {} }
     let q : W48 := h.slot - 3000#48
     let h' := run (.fcTwinTake q) h
     (h.start.held = false ∧ reached h.slot (h.decodeSlot q) = true ∧ h.fld F.TW_STAT_STATE 0 = 4 ∧
       h.flag F.TW_STAT_HEALTHY 0 = true) ∧ h'.twin.take = true ∧ h'.regs = h.regs) ∧
    -- fc take ignored
    (let h : Hub := { hub [(F.TW_STAT_STATE, 0, 2), (F.TW_STAT_HEALTHY, 0, 1)] with start := {} }
     let q : W48 := h.slot - 3000#48
     let h' := run (.fcTwinTake q) h
     (h.start.held = false ∧ reached h.slot (h.decodeSlot q) = true ∧ h.fld F.TW_STAT_STATE 0 ≠ 4) ∧
       counted h h' F.TW_TAKEIGN_COUNT 0 1 = true ∧ h'.twin = h.twin) := by
  refine ⟨?_, ?_, ?_, ?_, ?_, ?_, ?_, ?_, ?_⟩ <;> decide +kernel

theorem witness_SyncAndOrbitAct :
    -- sync
    (
       let h : Hub := { hub [(F.RT_TSARM_ARM, 0, 0), (F.RT_ORBIT_POS, 0, 77)] with rooster := { sched := [(.sync, (hub []).slot)] } }
     let h' := run (.syncAction) h
     (h.fcDue .sync = true ∧ h.flag F.RT_TSARM_ARM 0 = false) ∧ h'.fld F.RT_ORBIT_POS 0 = 0 ∧
       h'.rooster.syncedAt = some h.slot ∧ h'.slot = h.slot ∧ h'.fcDue .sync = false) ∧
    -- sync armed
    (
       let h : Hub := { hub [(F.RT_TSARM_ARM, 0, 1), (F.MODE_STAT_MODE, 0, mSetup), (F.RT_SLOTSET_HI_V, 0, 0xFFFF), (F.RT_SLOTSET_LO_V, 0, 9)] with rooster := { sched := [(.sync, (hub []).slot)] } }
     let h' := run (.syncAction) h
     (h.fcDue .sync = true ∧ h.flag F.RT_TSARM_ARM 0 = true ∧ h.running = false) ∧ h'.fld F.RT_ORBIT_POS 0 = 0 ∧
       h'.slot = 0xFFFF00000009 ∧ h'.fld F.RT_TIME_NS_NS 0 = h.fld F.RT_TNSSET_V 0 ∧ h'.rooster.frac = 0 ∧
       h'.flag F.RT_TSARM_ARM 0 = false ∧ h'.flag F.RT_CLK_EPOCH 0 = true) ∧
    -- sync none
    (let h : Hub := { hub [] with rooster := {} }
     h.fcDue .sync = false) ∧
    -- cal pulse none
    (let h : Hub := { hub [] with rooster := {} }
     h.fcDue .calPulse = false) ∧
    -- orbit at
    (
       let h : Hub := { hub [(F.RT_ORBIT_LEN, 0, 100), (F.RT_ORBIT_POS, 0, 0)] with rooster := { sched := [(.orbit, (hub []).slot)] } }
     let h' := run (.orbitCheck) h
     (h.fcDue .orbit = true ∧ h.atOrbit = true) ∧ h'.fcDue .orbit = false ∧ h'.regs = h.regs) ∧
    -- orbit setup
    (
       let h : Hub := { hub [(F.MODE_STAT_MODE, 0, mSetup), (F.RT_ORBIT_LEN, 0, 100), (F.RT_ORBIT_POS, 0, 5)] with rooster := { sched := [(.orbit, (hub []).slot)] } }
     let h' := run (.orbitCheck) h
     (h.fcDue .orbit = true ∧ h.atOrbit = false) ∧ h'.fcDue .orbit = false ∧ h'.fld F.RT_ORBIT_POS 0 = 0 ∧
       same h h' [A.RT_ORBIT] = true) ∧
    -- orbit slip
    (
       let h : Hub := { hub [(F.MODE_STAT_MODE, 0, mDegraded), (F.RT_ORBIT_LEN, 0, 100), (F.RT_ORBIT_POS, 0, 5)] with start := {}, rooster := { sched := [(.orbit, (hub []).slot)] } }
     h.start.held = false ∧ h.fcDue .orbit = true ∧ h.atOrbit = false) := by
  refine ⟨?_, ?_, ?_, ?_, ?_, ?_, ?_⟩ <;> decide +kernel

theorem witness_FaultReportsByClass :
    -- report fatal
    (
       let h : Hub := { hub [(F.MODE_STAT_MODE, 0, mRun), (F.GS_RING_NEXT, 0, 31), (F.FE_W_W, 2, 0)] with goose := {}, start := {} }
     let r : Report := { code := 5, unit := unitN 1 4, master := 3, access := 2, addr := 0x1234 }
     h.start.held = false ∧ h.goose.found = [] ∧ faultClass r.code.toNat = some .fatal ∧ r.unit ∉ h.goose.fenced ∧
       bit (h.fld F.FE_W_W 2) 31 = false ∧ h.mode ≠ mUnloaded ∧ h.mode ≠ mHold) ∧
    -- report contained
    (
       let h : Hub := { hub [(F.MODE_STAT_MODE, 0, mRun), (F.GS_RING_NEXT, 0, 3), (F.FE_W_W, 2, 0x80000000)] with goose := {}, start := {} }
     let r : Report := { code := 0x22, unit := unitN 4 2, master := 3, access := 2, addr := 0x1234 }
     h.start.held = false ∧ h.goose.found = [] ∧ faultClass r.code.toNat = some .contained ∧ r.unit ∉ h.goose.fenced) ∧
    -- report corrected
    (let h : Hub := { hub [(F.GS_CORCNT_COUNT, 0, 0xFFFFFFFF)] with goose := {}, start := {} }
     let r : Report := { code := 0x04, unit := unitN 1 4, master := 3, access := 2, addr := 0x1234 }
     h.start.held = false ∧ h.goose.found = [] ∧ faultClass r.code.toNat = some .corrected ∧ r.unit ∉ h.goose.fenced) ∧
    -- report order
    (
       let h : Hub := { hub [(F.MODE_STAT_MODE, 0, mRun), (F.GS_RING_NEXT, 0, 31), (F.FE_W_W, 2, 0), (F.GS_CFG_LOGCOR, 0, 1)] with goose := {}, start := {} }
     let q : Report := { code := 4, unit := unitN 1 4, master := 3, access := 2, addr := 0x1234 }
     let r : Report := { code := 5, unit := unitN 1 4, master := 3, access := 2, addr := 0x1234 }
     h.start.held = false ∧ h.goose.found = [] ∧ faultClass q.code.toNat = some .corrected ∧
       faultClass r.code.toNat = some .fatal) ∧
    -- report fenced
    (let h : Hub := { hub [(F.MODE_STAT_MODE, 0, mRun)] with goose := { fenced := [unitN 1 4, unitN 10 0] }, start := {} }
     let r : Report := { code := 5, unit := unitN 1 4, master := 3, access := 2, addr := 0x1234 }
     let h' := run (.faultReport ⟨7, [r]⟩) h
     (r.code ≠ 0x08#8 ∧ r.code ≠ 0x03#8 ∧ h.start.held = false ∧ h.goose.found = [] ∧ r.unit ∈ h.goose.fenced ∧
       faultClass r.code.toNat = some .fatal) ∧ counted h h' F.GS_CODECNT_COUNT 5 1 = true ∧
       same h h' [F.GS_CODECNT_COUNT.addr 5, A.MODE_STAT] = true ∧ h'.goose = h.goose) ∧
    -- report all
    (let h : Hub := { hub [] with goose := { fenced := [3] }, start := {} }
     let codes := (List.range 256).filter fun k => (faultClass k).isSome
     h.start.held = false ∧ 0 < codes.length) ∧
    -- ring clear
    (let h : Hub := { hub [(F.GS_RING_NEXT, 0, 9)] with start := {} }
     h.start.held = false) ∧
    -- report unused
    (let h : Hub := { hub [] with start := {} }
     let h' := run (.faultReport ⟨0, [{ code := 0xFF, unit := 3, master := 0, access := 0, addr := 0 }]⟩) h
     (h.start.held = false ∧ faultClass 0xFF = none) ∧ same h h' [A.MODE_STAT] = true ∧ h'.goose = h.goose) := by
  refine ⟨?_, ?_, ?_, ?_, ?_, ?_, ?_, ?_⟩ <;> decide +kernel

theorem witness_FencesComeAndGo :
    -- fence due
    (let h : Hub := { hub [(F.MODE_STAT_MODE, 0, mRun)] with goose := { due := [unitN 7 1, unitN 4 5], fenced := [3] } }
     let h' := run (.unitFence (unitN 4 5)) h
     (unitN 4 5 ∈ h.goose.due ∧ h.fenceNow (unitN 4 5).toNat = true) ∧ unitN 4 5 ∉ h'.goose.due ∧ unitN 4 5 ∈ h'.goose.fenced ∧
       3 ∈ h'.goose.fenced) ∧
    -- fence due lane
    (let h : Hub := { hub [] with goose := { due := [unitN 8 5, unitN 5 40], fenced := [3] } }
     unitN 5 40 ∈ h.goose.due ∧ h.fenceNow (unitN 5 40).toNat = true) ∧
    -- fence line wait
    (
       let h : Hub := { hub [(F.MODE_STAT_MODE, 0, mRun), (F.RT_ORBIT_LEN, 0, 9), (F.RT_ORBIT_POS, 0, 5)] with goose := { due := [unitN 7 1] } }
     h.fenceNow (unitN 7 1).toNat = false) ∧
    -- unfence
    (let h : Hub := { hub [(F.MODE_STAT_MODE, 0, mSetup)] with goose := { fenced := [unitN 4 5, 3], retired := [unitN 4 5] } }
     let h' := run (.gsUnfence (unitN 4 5)) h
     (h.mode = mSetup ∧ bits (unitN 4 5).toNat 15 10 ≠ 8) ∧ unitN 4 5 ∉ h'.goose.fenced ∧ unitN 4 5 ∉ h'.goose.retired ∧
       3 ∈ h'.goose.fenced) ∧
    -- unfence lane
     (bits (unitN 8 5).toNat 15 10 = 8) ∧
    -- unfence all
    (
       let h : Hub := { hub [(F.MODE_STAT_MODE, 0, mSetup)] with goose := { fenced := (List.range 16).flatMap fun k => [unitN k 0, unitN k 1, unitN k 33] } }
     h.mode = mSetup) ∧
    -- unfence run
    (let h : Hub := hub [(F.MODE_STAT_MODE, 0, mRun)]
     let h' := run (.gsUnfence 7) h
     (h.mode ≠ mSetup) ∧ h' = h) ∧
    -- lockstep
    (let h : Hub := { hub [] with bull := { imem := [(3, 4)], pairA := 0, pairB := 2 }, goose := {}, start := {} }
     h.start.held = false ∧ h.bull.stopped = false ∧ h.bull.pairA ≠ h.bull.pairB ∧ h.fenced (unitOf 3 1) = false) ∧
    -- lockstep task
    (
       let h : Hub := { hub [] with bull := { imem := [(3, 4)], pairA := 1, pairB := 2, task := some { entry := 9, arg := 3, slot := 2 }, stopped := false }, goose := {}, start := {} }
     h.start.held = false ∧ h.bull.stopped = false ∧ h.bull.pairA ≠ h.bull.pairB ∧ h.fenced (unitOf 3 0) = false) ∧
    -- lockstep both
    (let h : Hub := { hub [] with bull := { pairA := 0, pairB := 1 }, goose := { fenced := [unitN 3 2] }, start := {} }
     h.start.held = false ∧ h.bull.stopped = false ∧ h.bull.pairA ≠ h.bull.pairB ∧ h.fenced (unitOf 3 2) = true) := by
  refine ⟨?_, ?_, ?_, ?_, ?_, ?_, ?_, ?_, ?_, ?_⟩ <;> decide +kernel

theorem witness_ModesChange :
    -- mode setup
    (
       let h : Hub := { hub [(F.MODE_STAT_MODE, 0, mRun)] with goose := { (hub []).goose with modeReq := some mSetup, fatal := false, demand := false, holdFc := false }, shadow := [(0x8001, 3)] }
     h.goose.modeReq = some mSetup ∧ h.goose.fatal = false ∧ h.goose.demand = false ∧ h.goose.holdFc = false ∧
       h.modeAllowed mSetup = true ∧ h.modeSame mSetup = false) ∧
    -- mode calibrate
    (
       let h : Hub := { hub [(F.MODE_STAT_MODE, 0, mSetup), (F.JNL_STAT_FATAL, 0, 0)] with goose := { (hub []).goose with modeReq := some mCalibrate, fatal := false, demand := false, holdFc := false } }
     h.goose.modeReq = some mCalibrate ∧ h.goose.fatal = false ∧ h.goose.demand = false ∧ h.goose.holdFc = false ∧
       h.modeAllowed mCalibrate = true ∧ h.modeSame mCalibrate = false) ∧
    -- mode run
    (
       let h : Hub := { hub ([(F.MODE_STAT_MODE, 0, mSetup), (F.JNL_STAT_FATAL, 0, 0)] ++ (List.range 17).map fun e => (F.OX_STAT_ACT_SEALED, e, 1)) with goose := { modeReq := some mRun } }
     h.goose.modeReq = some mRun ∧ h.goose.fatal = false ∧ h.goose.demand = false ∧ h.goose.holdFc = false ∧
       h.modeAllowed mRun = true ∧ h.modeSame mRun = false ∧ h.degraded = false) ∧
    -- mode degraded
    (
       let h : Hub := { hub ([(F.MODE_STAT_MODE, 0, mSetup), (F.JNL_STAT_FATAL, 0, 0)] ++ (List.range 17).map fun e => (F.OX_STAT_ACT_SEALED, e, 1)) with goose := { modeReq := some mRun, fenced := [unitN 1 4, unitN 10 0] } }
     h.goose.modeReq = some mRun ∧ h.goose.fatal = false ∧ h.goose.demand = false ∧ h.goose.holdFc = false ∧
       h.modeAllowed mRun = true ∧ h.modeSame mRun = false ∧ h.degraded = true) ∧
    -- mode hold
    (
       let h : Hub := { hub [(F.MODE_STAT_MODE, 0, mCalibrate)] with goose := { (hub []).goose with modeReq := some mHold, fatal := false, demand := false, holdFc := false } }
     h.goose.modeReq = some mHold ∧ h.goose.fatal = false ∧ h.goose.demand = false ∧ h.goose.holdFc = false ∧
       h.modeAllowed mHold = true ∧ h.modeSame mHold = false) ∧
    -- hold entry
    (
       let h : Hub := { hub [(F.MODE_STAT_MODE, 0, mRun)] with goose := { (hub []).goose with fatal := false, demand := true, holdFc := true } }
     h.mode ≠ mUnloaded ∧ h.mode ≠ mHold ∧ h.goose.fatal = false ∧ h.goose.demand = true) ∧
    -- hold entry fatal
    (let h : Hub := { hub [(F.MODE_STAT_MODE, 0, mSetup)] with goose := { (hub []).goose with fatal := true } }
     h.mode ≠ mUnloaded ∧ h.mode ≠ mHold ∧ h.goose.fatal = true) ∧
    -- hold exit setup
    (
       let h : Hub := { hub [(F.MODE_STAT_MODE, 0, mHold), (F.MODE_STAT_LEFT, 0, mSetup), (F.GS_CFG_RLIMIT, 0, 3), (F.GS_STAT_RECOV, 0, 2), (F.GS_STAT_STUCK, 0, 0), (F.GS_QUIET_MS, 0, 1), (F.RT_BCFREQ_FREQ, 0, 40000000), (F.MODE_STAT_HCAUSE, 0, 1)] with goose := { quietFrom := (hub []).slot - 40000#48 } }
     h.holdAsked = false ∧ h.goose.modeReq = none ∧ h.mayLeaveHold = true ∧ h.fld F.MODE_STAT_LEFT 0 = mSetup) ∧
    -- hold exit degraded
    (
       let h : Hub := { hub [(F.MODE_STAT_MODE, 0, mHold), (F.MODE_STAT_LEFT, 0, mRun), (F.GS_CFG_RLIMIT, 0, 3), (F.GS_STAT_RECOV, 0, 2), (F.GS_STAT_STUCK, 0, 0), (F.GS_QUIET_MS, 0, 1), (F.RT_BCFREQ_FREQ, 0, 40000000), (F.MODE_STAT_HCAUSE, 0, 1)] with goose := { quietFrom := (hub []).slot - 40000#48, fenced := [unitN 1 4, unitN 10 0] } }
     h.holdAsked = false ∧ h.goose.modeReq = none ∧ h.mayLeaveHold = true ∧ h.fld F.MODE_STAT_LEFT 0 = mRun ∧ h.degraded = true) ∧
    -- hold exit run
    (
       let h : Hub := { hub [(F.MODE_STAT_MODE, 0, mHold), (F.MODE_STAT_LEFT, 0, mCalibrate), (F.GS_CFG_RLIMIT, 0, 3), (F.GS_STAT_RECOV, 0, 0), (F.GS_STAT_STUCK, 0, 0), (F.GS_QUIET_MS, 0, 1), (F.RT_BCFREQ_FREQ, 0, 40000000), (F.MODE_STAT_HCAUSE, 0, 1)] with goose := { quietFrom := (hub []).slot - 40000#48 } }
     h.holdAsked = false ∧ h.goose.modeReq = none ∧ h.mayLeaveHold = true) ∧
    -- hold exit not
    (let h : Hub := { hub [(F.MODE_STAT_MODE, 0, mHold), (F.MODE_STAT_HCAUSE, 0, 4)] with goose := {} }
     h.holdAsked = false ∧ h.mayLeaveHold = false) := by
  refine ⟨?_, ?_, ?_, ?_, ?_, ?_, ?_, ?_, ?_, ?_, ?_⟩ <;> decide +kernel

theorem witness_SnapAndCommitAct :
    -- snapshot
    (
       let h : Hub := { hub [(F.FE_DISCCNT_COUNT, 7, 99), (F.SNAP_STAT_SCHED, 0, 1)] with rooster := { snapAt := some (hub []).slot } }
     let h' := run (.snapshot) h
     (h.canonical = true ∧ h.snapDue = true) ∧
       ((h.regs.map Prod.fst ++ h'.snap.map Prod.fst).all fun a => a == A.SNAP_STAT || (loadWord a &&& accBits .sn a != 0) || Store.get (fun _ => (0 : W32)) h'.snap a == h.word a &&& accBits .sn a) = true ∧
       h'.fld F.SNAP_STAT_LAST 0 = h.tag.toNat ∧ h'.snapDue = false ∧ same h h' [A.SNAP_STAT] = true) ∧
    -- snapshot none
    (let h : Hub := { hub [] with rooster := {} }
     let h' := run (.snapshot) h
     (h.snapDue = false) ∧ h' = h) ∧
    -- commit
    (
       let h : Hub := { hub [(F.COMMIT_STAT_PENDING, 0, 1)] with rooster := { commitAt := some (hub []).slot }, shadow := [(A.FE_THR + 0x40 * 5, 0x105), (A.TDC_AMPWIN, 0x22), (A.ATTN_EN, 0xFFFF)] }
     let h' := run (.commitApply) h
     (h.commitDue = true ∧ (h.shadow.map fun x => x.1).Nodup) ∧ h'.shadow = [] ∧ h'.flag F.COMMIT_STAT_PENDING 0 = false ∧
       h'.fld F.COMMIT_STAT_LAST 0 = h.tag.toNat ∧ h'.commitDue = false ∧
       (h.shadow.all fun x => h'.word x.1 &&& accBits .sh x.1 == x.2 &&& accBits .sh x.1) = true ∧
       (h.regs.all fun x => h.shadow.any (fun y => y.1 == x.1) || (h'.word x.1 &&& accBits .sh x.1 == h.word x.1 &&& accBits .sh x.1)) = true) ∧
    -- commit none
    (let h : Hub := { hub [] with rooster := {} }
     h.commitDue = false) := by
  refine ⟨?_, ?_, ?_, ?_⟩ <;> decide +kernel

theorem witness_FrontEndEvents :
    -- settled
    (let h : Hub := { hub [(F.FE_STAT_SETTLING, 511, 1)] with start := {} }
     h.flag F.FE_STAT_SETTLING 511 = true) ∧
    -- leak
    (let h : Hub := { hub [] with start := {} }
     let h' := run (.feLeakChange 511 true) h
     (h.start.held = false) ∧ h'.flag F.FE_STAT_LEAK 511 = true ∧ only h h' [F.FE_STAT_LEAK.addr 511] = true ∧
       h'.flag F.FE_STAT_PWR 511 = h.flag F.FE_STAT_PWR 511) ∧
    -- crossing counted
    (let h : Hub := { hub [(F.FE_STAT_PWR, 3, 1), (F.FE_THR_DISC_EN, 3, 0)] with cal := {} }
     let h' := run (.discriminatorCrossing 3 5 7 9 100000) h
     (h.flag F.FE_STAT_PWR 3 = true ∧ h.threshold 3 < 100000 ∧ h.flag F.FE_THR_DISC_EN 3 = false ∧ h.calPart 0 ≠ 7) ∧
       counted h h' F.FE_DISCCNT_COUNT 3 1 = true ∧ only h h' [F.FE_DISCCNT_COUNT.addr 3] = true) ∧
    -- crossing counted en
    (let h : Hub := hub [(F.FE_STAT_PWR, 3, 1), (F.FE_THR_DISC_EN, 3, 1)]
     h.flag F.FE_STAT_PWR 3 = true ∧ h.threshold 3 < 100000) ∧
    -- crossing below
    (let h : Hub := hub [(F.FE_STAT_PWR, 3, 1), (F.FE_GTHR_GTHR, 0, 100), (F.FE_THR_TRIM, 3, 2)]
     let h' := run (.discriminatorCrossing 3 5 7 9 104) h
     (104 ≤ h.threshold 3) ∧ h' = h) ∧
    -- crossing unpowered
    (let h : Hub := hub [(F.FE_STAT_PWR, 3, 0)]
     let h' := run (.discriminatorCrossing 3 5 7 9 99999) h
     (h.flag F.FE_STAT_PWR 3 = false) ∧ h' = h) ∧
    -- crossing no tot
    (
       let h : Hub := { hub [(F.FE_STAT_PWR, 3, 1), (F.FE_THR_DISC_EN, 3, 1), (F.TDC_CFG_EN, 3, 1), (F.TDC_STAT_ACTIVE, 3, 1), (F.TDC_CFG_TOT_EN, 3, 0), (F.TDC_OFS_OFS, 3, 0), (F.RS_CHMAP_SERVE, 3, 3), (F.RS_DSLOT_STATE, 3, 1), (F.RS_DSLOT_LINE, 3, 0), (F.MODE_STAT_MODE, 0, mRun)] with goose := {}, hits := [], cal := {}, rooster := { runFrom := some ((hub []).slot - 100#48) }, tdc := [(3, { lastFall := some ((hub []).slot - 3#48, 0) })] }
     let t := h.rawTime 3 false 5 7
     let x : Pulse := { slot := h.slot, rise := t, tc := roundDiv (t + h.sfld F.TDC_OFS_OFS 3 * 256) 256, p := 3, line := false, tot := false, done := true }
     h.flag F.FE_STAT_PWR 3 = true ∧ h.threshold 3 < 100000 ∧ h.flag F.FE_THR_DISC_EN 3 = true ∧ h.liveSlot 3 = some 3 ∧
       h.flag F.TDC_CFG_EN 3 = true ∧ h.flag F.TDC_STAT_ACTIVE 3 = true ∧
       (h.slotLen18 : Int) ≤ 5 * (circ 48 h.slot.toNat (h.slot - 3#48).toNat * h.slotLen18 + t) ∧
       h.hitsCount (h.hitOf 3 x 0).slot = true) ∧
    -- crossing dead
    (
       let h : Hub := { hub [(F.FE_STAT_PWR, 3, 1), (F.FE_THR_DISC_EN, 3, 1), (F.TDC_CFG_EN, 3, 1), (F.TDC_STAT_ACTIVE, 3, 1), (F.RS_CHMAP_SERVE, 3, 3), (F.RS_DSLOT_STATE, 3, 1), (F.RS_DSLOT_LINE, 3, 0), (F.MODE_STAT_MODE, 0, mRun)] with goose := {}, cal := {}, rooster := { runFrom := some ((hub []).slot - 100#48) }, tdc := [(3, { overLong := true })] }
     h.flag F.FE_STAT_PWR 3 = true ∧ h.threshold 3 < 100000 ∧ h.flag F.FE_THR_DISC_EN 3 = true ∧ h.liveSlot 3 = some 3 ∧
       h.flag F.TDC_CFG_EN 3 = true ∧ h.flag F.TDC_STAT_ACTIVE 3 = true ∧ h.hitsCount h.slot = true) := by
  refine ⟨?_, ?_, ?_, ?_, ?_, ?_, ?_, ?_⟩ <;> decide +kernel

theorem witness_CrossingsBecomeHits :
    -- crossing measured
    (
       let h : Hub := { hub [(F.FE_STAT_PWR, 3, 1), (F.FE_THR_DISC_EN, 3, 1), (F.TDC_CFG_EN, 3, 1), (F.TDC_STAT_ACTIVE, 3, 1), (F.TDC_CFG_TOT_EN, 3, 1), (F.RS_CHMAP_SERVE, 3, 3), (F.RS_DSLOT_STATE, 3, 1), (F.RS_DSLOT_LINE, 3, 0)] with goose := {} }
     h.flag F.FE_STAT_PWR 3 = true ∧ h.threshold 3 < 100000 ∧ h.flag F.FE_THR_DISC_EN 3 = true ∧ h.liveSlot 3 = some 3 ∧
       h.flag F.TDC_CFG_EN 3 = true ∧ h.flag F.TDC_STAT_ACTIVE 3 = true ∧ (h.tdcOf 3).pulse = none ∧
       (h.tdcOf 3).overLong = false ∧ (h.tdcOf 3).lastFall = none ∧ h.flag F.TDC_CFG_TOT_EN 3 = true) ∧
    -- falling
    (
       let h : Hub := let x : Pulse := { slot := (hub []).slot - 1#48, rise := 900000, tc := 3000, p := 3, line := false, tot := true, done := false }; { hub [(F.MODE_STAT_MODE, 0, mRun)] with tdc := [(3, { pulse := some x })], rooster := { runFrom := some ((hub []).slot - 100#48) }, hits := [(hub []).hitOf 3 x 0] }
     let x : Pulse := { slot := (hub []).slot - 1#48, rise := 900000, tc := 3000, p := 3, line := false, tot := true, done := false }
     (h.tdcOf 3).pulse = some x ∧ x.done = false) ∧
    -- falling free
    (let h : Hub := { hub [(F.MODE_STAT_MODE, 0, mSetup)] with tdc := [], hits := [] }
     (h.tdcOf 3).pulse = none ∧ (h.tdcOf 3).overLong = false) ∧
    -- tot timeout
    (
       let h : Hub := let x : Pulse := { slot := (hub []).slot - 1#48, rise := 900000, tc := 3000, p := 3, line := true, tot := true, done := false }; { hub [(F.MODE_STAT_MODE, 0, mRun)] with tdc := [(3, { pulse := some x })], rooster := { runFrom := some ((hub []).slot - 100#48) }, hits := [(hub []).hitOf 3 x 0] }
     let x : Pulse := { slot := (hub []).slot - 1#48, rise := 900000, tc := 3000, p := 3, line := true, tot := true, done := false }
     let timed (y : Hit) (l : List Hit) : List Hit := l.map fun z => if z.ch == y.ch && z.slot == y.slot && z.toa == y.toa && z.base == y.base && z.k0 == y.k0 then { z with tot := y.tot } else z
     let h' := run (.totTimeout 3) h
     ((h.tdcOf 3).pulse = some x ∧ x.done = false) ∧ (h'.tdcOf 3).pulse = none ∧ (h'.tdcOf 3).overLong = true ∧
       h'.hits = timed (h.hitOf 3 x 0xFFF) h.hits ∧ h'.regs = h.regs) := by
  refine ⟨?_, ?_, ?_, ?_⟩ <;> decide +kernel

theorem witness_CalPulseFires :
    -- cal pulse skip
    (
       let h : Hub := { hub [(F.CAL_STAT_BUSY, 0, 1)] with rooster := { sched := [(.calPulse, (hub []).slot)] }, cal := { part := 4 } }
     let h' := run (.calPulseFire) h
     (h.fcDue .calPulse = true ∧ h.injecting = true) ∧ h'.rooster.lastCal = h.rooster.lastCal ∧
       h'.rooster.injected = h.rooster.injected ∧ counted h h' F.CAL_FCSKIP_COUNT 0 1 = true ∧ h'.fcDue .calPulse = false ∧
       h'.fld F.FE_INJSKIP_COUNT 0 = h.fld F.FE_INJSKIP_COUNT 0) ∧
    -- cal pulse both
    (
       let h : Hub := { hub [(F.CAL_STAT_BUSY, 0, 1)] with rooster := { sched := [(.calPulse, (hub []).slot)], lastCal := some ((hub []).slot - 79#48) }, cal := { part := 4 } }
     h.fcDue .calPulse = true ∧ h.injecting = true ∧ slotsFrom (h.slot - 79#48) h.slot < 80) ∧
    -- cal pulse first
    (
       let h : Hub := { hub [(F.CAL_STAT_BUSY, 0, 0), (F.FE_STAT_PWR, 3, 1), (F.FE_INJ_INJ_EN, 3, 1), (F.FE_INJ_CODE, 3, 7), (F.FE_STAT_PWR, 511, 1), (F.FE_INJ_INJ_EN, 511, 1), (F.FE_INJ_CODE, 511, 1001), (F.FE_STAT_PWR, 9, 1), (F.FE_INJ_INJ_EN, 9, 1), (F.FE_INJ_CODE, 9, 8)] with rooster := { sched := [(.calPulse, (hub []).slot)] } }
     let h' := run (.calPulseFire) h
     (h.fcDue .calPulse = true ∧ h.injecting = false ∧ h.rooster.lastCal = none) ∧ h'.fcDue .calPulse = false ∧
       h'.rooster.lastCal = some h.slot ∧ h'.regs = h.regs ∧
       h'.rooster.injected.all (fun x => x.arrives == 1024 + 25 * h.fld F.FE_INJCFG_DELAY 0) = true ∧
       ((h'.rooster.injected.filter fun x => x.ch == 3 || x.ch == 9 || x.ch == 511).map fun x => (x.ch, x.charge)) = [(3, 8),
       (9, 8), (511, 1000)]) ∧
    -- cal pulse 80
    (
       let h : Hub := { hub [(F.CAL_STAT_BUSY, 0, 0)] with rooster := { sched := [(.calPulse, (hub []).slot)], lastCal := some ((hub []).slot - 80#48) } }
     let h' := run (.calPulseFire) h
     (h.fcDue .calPulse = true ∧ h.injecting = false ∧ 80 ≤ slotsFrom (h.slot - 80#48) h.slot) ∧ h'.fcDue .calPulse = false ∧
       h'.rooster.lastCal = some h.slot ∧ h'.regs = h.regs) ∧
    -- cal pulse 79
    (
       let h : Hub := { hub [(F.CAL_STAT_BUSY, 0, 0)] with rooster := { sched := [(.calPulse, (hub []).slot)], lastCal := some ((hub []).slot - 79#48) } }
     let h' := run (.calPulseFire) h
     (h.fcDue .calPulse = true ∧ h.injecting = false ∧ slotsFrom (h.slot - 79#48) h.slot < 80) ∧ h'.fcDue .calPulse = false ∧
       h'.rooster.lastCal = h.rooster.lastCal ∧ h'.rooster.injected = h.rooster.injected ∧
       counted h h' F.FE_INJSKIP_COUNT 0 1 = true) := by
  refine ⟨?_, ?_, ?_, ?_, ?_⟩ <;> decide +kernel

theorem witness_HitsArePresented :
    -- hits presented
    (
       let h : Hub := { hub [(F.MODE_STAT_MODE, 0, mRun), (F.OX_CFG_EN, 2, 1)] with dead := [], hits := [{ ch := 67, slot := (hub []).slot - 6#48, toa := 5, tot := 9, base := (hub []).slot - 6#48, k0 := 0 }, { ch := 67, slot := (hub []).slot - 6#48, toa := 50, tot := 8, base := (hub []).slot - 6#48, k0 := 0, gone := true }] }
     let h' := run (.hitPresent 2) h
     (h.live = true) ∧ h'.hits = [] ∧ ((h'.oxOf 2).prim.map fun z => (z.ch, z.toa, z.tot)) = [(67, 5, 9)] ∧
       ((h'.oxOf 2).sec.map fun z => (z.ch, z.toa, z.tot)) = [(67, 50, 8)] ∧ (∀ k ∈ List.range 32,
       bit (h'.oxOf 2).pile.toNat k = (k == 3)) ∧ (h'.oxOf 2).fetched = false ∧ ∀ e ∈ List.range 17,
       e ≠ 2 → h'.oxOf e = h.oxOf e) ∧
    -- hits presented all
    (
       let h : Hub := { hub [(F.MODE_STAT_MODE, 0, mRun), (F.OX_CFG_EN, 2, 1)] with dead := [], hits := [{ ch := 67, slot := (hub []).slot - 6#48, toa := 50, tot := 9, base := (hub []).slot - 6#48, k0 := 0 }, { ch := 70, slot := (hub []).slot - 6#48, toa := 8, tot := 9, base := (hub []).slot - 6#48, k0 := 0 }, { ch := 67, slot := (hub []).slot - 6#48, toa := 5, tot := 8, base := (hub []).slot - 6#48, k0 := 0 }, { ch := 3, slot := (hub []).slot - 6#48, toa := 8, tot := 9, base := (hub []).slot - 6#48, k0 := 0 }] }
     let mine := h.hits.filter fun z => z.ch / 32 == 2 && z.slot == h.slot - 6#48
     h.live = true ∧ mine ≠ []) := by
  refine ⟨?_, ?_⟩ <;> decide +kernel

theorem witness_EngineEvents :
    -- ox overrun
    (
       let h : Hub := { hub [(F.MODE_STAT_MODE, 0, mRun)] with ox := [(16, { done := false, cyc := 12, slot := { pc := 77 }, prim := [{ ch := 3, slot := 1, toa := 5, tot := 9, base := 1, k0 := 0 }], act := [(3, 4)] })] }
     h.live = true ∧ (h.oxOf 16).done = false) ∧
    -- ox overrun done
    (let h : Hub := { hub [(F.MODE_STAT_MODE, 0, mRun)] with ox := [(3, { done := true })] }
     let h' := run (.oxOverrun 3) h
     ((h.oxOf 3).done = true) ∧ h' = h) ∧
    -- ox stop
    (let h : Hub := { hub [(F.MODE_STAT_MODE, 0, mDegraded)] with start := {}, ox := [(3, { excNow := true, excRun := 255 })] }
     h.start.held = false ∧ h.live = true ∧ (h.oxOf 3).excNow = true ∧ 255 ≤ (h.oxOf 3).excRun ∧ (h.oxOf 3).stopped = false) ∧
    -- ox restart
    (
       let h : Hub := { hub [(F.MODE_STAT_MODE, 0, mRun), (F.OX_STAT_BG_HALT, 3, 1), (F.RT_ORBIT_LEN, 0, 100), (F.RT_ORBIT_POS, 0, 0)] with ox := [(3, { bg := { pc := 99, g := [(1, 5)] }, haltAt := (hub []).slot - 1#48 })] }
     h.atOrbit = true ∧ (h.oxOf 3).haltAt ≠ h.slot ∧ h.flag F.OX_STAT_BG_HALT 3 = true) ∧
    -- ox swap
    (
       let h : Hub := { hub [(F.MODE_STAT_MODE, 0, mSetup), (F.OX_STAT_SWAP_PEND, 3, 1), (F.OX_STAT_STBY_SEALED, 3, 1), (F.OX_STAT_ACT_SEALED, 3, 0)] with ox := [(3, { act := [(1, 5)], stby := [(2, 6)], dmem := [(9, 9)], slot := { pc := 99 }, swapFrom := (hub []).slot - 1#48 })] }
     h.running = false ∧ h.flag F.OX_STAT_SWAP_PEND 3 = true ∧ (h.oxOf 3).swapFrom ≠ h.slot) ∧
    -- ox swap orbit
    (
       let h : Hub := { hub [(F.MODE_STAT_MODE, 0, mRun), (F.OX_STAT_SWAP_PEND, 5, 1), (F.OX_STAT_STBY_SEALED, 5, 0), (F.OX_STAT_ACT_SEALED, 5, 1), (F.RT_ORBIT_LEN, 0, 100), (F.RT_ORBIT_POS, 0, 0)] with ox := Store.set (fun _ => ({} : Ox)) (hub []).ox 5 { act := [(1, 5)], stby := [(2, 6)], dmem := [(9, 9)], slot := { pc := 99 }, swapFrom := (hub []).slot - 1#48 } }
     h.atOrbit = true ∧ h.flag F.OX_STAT_SWAP_PEND 5 = true ∧ (h.oxOf 5).swapFrom ≠ h.slot) := by
  refine ⟨?_, ?_, ?_, ?_, ?_, ?_⟩ <;> decide +kernel

theorem witness_TriggersAreAccepted :
    -- trigger ignored
    (
       let h : Hub := { hub [(F.MODE_STAT_MODE, 0, mSetup)] with l1as := [{ num := 5, inferred := false, origin := (hub []).slot - 9#48, accept := (hub []).slot }], trigs := [] }
     let h' := run (.triggerAccept) h
     (h.live = false) ∧ h'.l1as = [] ∧ counted h h' F.ACQ_TRIGIGN_COUNT 0 1 = true ∧ h'.trigs = h.trigs ∧ h'.led 6 = h.led 6) ∧
    -- trigger not due
    (
       let h : Hub := { hub [(F.MODE_STAT_MODE, 0, mRun)] with l1as := [{ num := 5, inferred := false, origin := (hub []).slot - 9#48, accept := (hub []).slot + 1#48 }] }
     (h.l1as.all fun x => !reached h.slot x.accept) = true) ∧
    -- trigger held off
    (
       let h : Hub := { hub [(F.MODE_STAT_MODE, 0, mRun), (F.ACQ_HOLDOFF_T, 0, 4), (F.ACQ_LSEL_LPRESC, 0, 0)] with l1as := [{ num := 5, inferred := true, origin := (hub []).slot - 9#48, accept := (hub []).slot }, { num := 6, inferred := false, origin := (hub []).slot, accept := (hub []).slot + 2#48 }], reads := [(hub []).slot - 12#48], settings := [], trigs := [] }
     let st := h.settingsAt (h.slot - 9#48)
     h.live = true ∧ h.heldOff st false (h.slot - 9#48) = some 0) ∧
    -- trigger stopped
    (
       let h : Hub := { hub [(F.MODE_STAT_MODE, 0, mRun), (F.ACQ_MASKCTL_STOPPED, 0, 1), (F.ACQ_LSEL_LPRESC, 0, 3), (F.ACQ_LSEL_LPHASE, 0, 2)] with l1as := [{ num := 5, inferred := false, origin := (hub []).slot - 9#48, accept := (hub []).slot }], reads := [], settings := [], trigs := [] }
     let st := h.settingsAt (h.slot - 9#48)
     h.live = true ∧ h.heldOff st true (h.slot - 9#48) = some 3) ∧
    -- trigger read
    (
       let h : Hub := { hub [(F.MODE_STAT_MODE, 0, mRun), (F.ACQ_HOLDOFF_T, 0, 0), (F.ACQ_HOLDOFF_N, 0, 0), (F.ACQ_LSEL_LPRESC, 0, 0), (F.ACQ_LAT_LAT, 0, 17), (F.FE_CFG_EN, 3, 1), (F.ACQ_SWIN_POST, 0, 4), (F.ACQ_SWIN_PRE, 0, 2)] with l1as := [{ num := 5, inferred := false, origin := (hub []).slot - 9#48, accept := (hub []).slot }], reads := [], settings := [], trigs := [] }
     let st := h.settingsAt (h.slot - 9#48)
     h.live = true ∧ h.heldOff st false (h.slot - 9#48) = none) := by
  refine ⟨?_, ?_, ?_, ?_, ?_⟩ <;> decide +kernel

theorem witness_RecordsAreRead :
    -- read start
    (
       let h : Hub := { hub [(F.MULE_STAT_ACQ_STALL, 0, 0)] with queues := [], chain := [(3, { stored := 100 })], trigs := [{ num := 5, inferred := false, origin := 1, event := 1, long := false, pre := 2, post := 4, anchor := true, nt := 40, dtFirst := 0, started := false, sel := [], sects := [{ ch := 3 }] }] }
     let h' := run (.recordReadStart) h
     (h.acqBlocked = false ∧ (h.trigs.all fun t => !t.started && h.windowStored t) = true) ∧ (h'.trigs.map fun x => (x.num,
       x.started)) = [(5, true)]) ∧
    -- read start not
    (
       let h : Hub := { hub [(F.MULE_STAT_ACQ_STALL, 0, 0)] with queues := [], chain := [(3, { stored := 43 })], trigs := [{ num := 5, inferred := false, origin := 1, event := 1, long := false, pre := 2, post := 4, anchor := true, nt := 40, dtFirst := 0, started := false, sel := [], sects := [{ ch := 3 }] }] }
     h.acqBlocked = false ∧ (h.trigs.all fun t => !t.started && !h.windowStored t) = true) ∧
    -- read start blocked
    (
       let h : Hub := { hub [(F.MULE_STAT_ACQ_STALL, 0, 1)] with chain := [(3, { stored := 100 })], trigs := [{ num := 5, inferred := false, origin := 1, event := 1, long := false, pre := 2, post := 4, anchor := true, nt := 40, dtFirst := 0, started := false, sel := [], sects := [{ ch := 3 }] }] }
     h.acqBlocked = true) ∧
    -- bank read
    (
       let h : Hub := { hub [(F.MULE_STAT_ACQ_STALL, 0, 0)] with start := {}, queues := [], chain := [(3, { stored := 100 })], trigs := [{ num := 5, inferred := false, origin := 1, event := 1, long := false, pre := 2, post := 4, anchor := true, nt := 40, dtFirst := 0, started := true, sel := [], sects := [{ ch := 3, got := [.sample 1 0 false] }] }] }
     h.start.held = false ∧ h.acqBlocked = false ∧ (h.settle.nextRead 0 == some (39, 0,
       0) && !h.settle.overwritten 3 39) = true) ∧
    -- bank read bad
    (
       let h : Hub := { hub [(F.MULE_STAT_ACQ_STALL, 0, 0)] with start := {}, queues := [], chain := [(3, { stored := 100, holes := [(42, 42)] })], trigs := [{ num := 5, inferred := false, origin := 1, event := 1, long := false, pre := 2, post := 4, anchor := true, nt := 40, dtFirst := 0, started := true, sel := [], sects := [{ ch := 3, got := [.sample 1 0 false] }] }] }
     h.start.held = false ∧ h.acqBlocked = false ∧ (h.settle.nextRead 0 == some (39, 0,
       0) && !h.settle.overwritten 3 39) = true) := by
  refine ⟨?_, ?_, ?_, ?_, ?_⟩ <;> decide +kernel

theorem witness_PartsAreHandedOver :
    -- handover answer
    (
       let h : Hub := { hub [(F.MULE_STAT_ACQ_STALL, 0, 0)] with trigs := [], answers := [([header tHeldOff 1 40 5 2], true), ([9], false)], queues := [], mule := {} }
     h.mule.closing = none ∧ h.settle.answers = [([header tHeldOff 1 40 5 2], true), ([9], false)] ∧
       h.settle.roomFor .acq (blocksOf 2) = true ∧ (h.settle.queue 28).ws.length < 16) ∧
    -- handover part
    (
       let h : Hub := { hub [] with chain := [(3, { stored := 100 })], answers := [], queues := [], mule := {}, trigs := [{ num := 5, inferred := false, origin := 1, event := 1, long := false, pre := 1, post := 1, anchor := true, nt := 40, dtFirst := 0, started := true, sel := [], sects := [{ ch := 3, got := [.sample 1 0 false, .gap 4] }] }] }
     let p := (h.settle.trigs[0]?.bind fun t => h.settle.nextPart t).getD ([], [], false)
     h.mule.closing = none ∧ h.settle.answers = [] ∧ p.2.2 = true ∧ h.settle.roomFor .acq (blocksOf (p.1.length + 1)) = true ∧
       (h.settle.queue 28).ws.length < 16) ∧
    -- rearm
    (let h : Hub := { hub [(F.ACQ_MASKCTL_STOPPED, 0, 1)] with start := {} }
     let h' := run (.maskRearm) h
     (h.start.held = false) ∧ h'.flag F.ACQ_MASKCTL_STOPPED 0 = false ∧ only h h' [A.ACQ_MASKCTL] = true) := by
  refine ⟨?_, ?_, ?_⟩ <;> decide +kernel

theorem witness_ItemsBecomeRecords :
    -- block close
    (
       let h : Hub := { hub [(F.MULE_HBCFG_SPAN, 0, 8)] with queues := [], ox := [], mule := { span := some ((hub []).slot - 14#48), blocks := [{ b := (hub []).slot - 14#48, ws := [{ g := 0, kind := 0, w := 77, slot := (hub []).slot - 5#48, hit := true }] }, { b := (hub []).slot - 6#48 }] } }
     let h' := run (.hitBlockClose) h
     (reached h.slot (h.spanEnd (h.slot - 14#48)) = true ∧ h.spanWaits (h.slot - 14#48) = false) ∧
       h'.mule.recs = h.mule.recs ++ (h.mule.blocks.take 1).map (fun x => h.hitRecord x false) ∧
       h'.mule.span = some (h.slot - 14#48 + BitVec.ofNat 48 h.span) ∧ h'.queues = h.queues ∧ h'.ox = h.ox) ∧
    -- block not yet
    (let h : Hub := { hub [(F.MULE_HBCFG_SPAN, 0, 8)] with mule := { span := some ((hub []).slot - 13#48), blocks := [] } }
     let h' := run (.hitBlockClose) h
     (reached h.slot (h.spanEnd (h.slot - 13#48)) = false) ∧ h' = h) ∧
    -- drain end
    (let h : Hub := { hub [(F.MULE_STAT_DRAIN, 0, 1)] with mule := { drain := some 1, span := some 5, blocks := [{ b := 5 }] } }
     h.mule.drain = some 1) ∧
    -- drain end2
    (let h : Hub := { hub [(F.MULE_STAT_DRAIN, 0, 1)] with mule := { (hub []).mule with drain := some 4096 } }
     h.mule.drain = some 4096) ∧
    -- drain none
    (let h : Hub := { hub [] with mule := {} }
     let h' := run (.muleDrain) h
     (h.mule.drain = none) ∧ h' = h) ∧
    -- item record
    (
       let h : Hub := { hub [(F.Q_CFG_PROD, 16, 0x20), (F.Q_CFG_CONS, 16, 0)] with queues := [(16, { ws := [⟨header tTrigger 0 0 5 0, true, false, false, 0, 0⟩, ⟨7, true, false, false, 0, 0⟩] })], mule := {} }
     itemQueue 16 = true ∧ h.muleConsumes 16 = true ∧ h.itemOf 16 = [] ∧ h.roomFor .acq (blocksOf 2) = true ∧
       h.typeFits 16 tTrigger = true ∧ itemCls [⟨header tTrigger 0 0 5 0, true, false, false, 0, 0⟩] = .acq) ∧
    -- item record3
    (
       let h : Hub := { hub [(F.Q_CFG_PROD, 16, 0x30), (F.Q_CFG_CONS, 16, 0)] with queues := [(16, { ws := [⟨header tHealth 0 0 5 0, false, false, false, 0, 0⟩, ⟨8, false, false, false, 0, 0⟩, ⟨9, true, false, false, 0, 0⟩, ⟨7, true, false, false, 0, 0⟩] })], mule := {} }
     itemQueue 16 = true ∧ h.muleConsumes 16 = true ∧ h.itemOf 16 = [] ∧ h.roomFor (itemCls [⟨header tHealth 0 0 5 0, false,
       false, false, 0, 0⟩, ⟨8, false, false, false, 0, 0⟩, ⟨9, true, false, false, 0, 0⟩]) (blocksOf 4) = true ∧
       h.typeFits 16 tHealth = true) ∧
    -- item bad
    (
       let h : Hub := { hub [(F.Q_CFG_PROD, 16, 0x20), (F.Q_CFG_CONS, 16, 0)] with queues := [(16, { ws := [⟨header tHealth 0 0 5 0, true, false, false, 0, 0⟩, ⟨7, true, false, false, 0, 0⟩] })], mule := {} }
     h.muleConsumes 16 = true ∧ h.itemOf 16 = [] ∧ h.roomFor (itemCls [⟨header tHealth 0 0 5 0, true, false, false, 0,
       0⟩]) (blocksOf 2) = true ∧ h.typeFits 16 tHealth = false) ∧
    -- item bad3
    (
       let h : Hub := { hub [(F.Q_CFG_PROD, 16, 0x20), (F.Q_CFG_CONS, 16, 0)] with queues := [(16, { ws := [⟨header tHealth 0 0 5 0, false, false, false, 0, 0⟩, ⟨8, false, false, false, 0, 0⟩, ⟨9, true, false, false, 0, 0⟩, ⟨7, true, false, false, 0, 0⟩] })], mule := {} }
     h.muleConsumes 16 = true ∧ h.itemOf 16 = [] ∧ h.roomFor (itemCls [⟨header tHealth 0 0 5 0, false, false, false, 0, 0⟩, ⟨8,
       false, false, false, 0, 0⟩, ⟨9, true, false, false, 0, 0⟩]) (blocksOf 4) = true ∧ h.typeFits 16 tHealth = false) ∧
    -- item gap
    (
       let h : Hub := { hub [(F.Q_CFG_PROD, 31, 0x30), (F.Q_CFG_CONS, 31, 0)] with queues := [(31, { ws := [⟨0x10007, true, true, false, 99, 0⟩, ⟨7, true, false, false, 0, 0⟩] })], mule := {} }
     itemQueue 31 = true ∧ h.muleConsumes 31 = true ∧ h.itemOf 31 = [] ∧ h.roomFor .ctrl 1 = true) := by
  refine ⟨?_, ?_, ?_, ?_, ?_, ?_, ?_, ?_, ?_, ?_⟩ <;> decide +kernel

theorem witness_RecordsAndLedger :
    -- mule ledger
    (
       let h : Hub := { hub [] with cmp := {}, mule := { (hub []).mule with ledger := some [1, 2], recs := [{ ws := [5], cls := .acq }] } }
     let h' := run (.muleHandover .uncorrectable) h
     (h.cmpFree = true ∧ h.mule.ledger = some [1, 2]) ∧
       h'.cmp.waiting = [{ ws := withTrailer [1, 2] (h.word A.MULE_SEQ), cls := .ledger }] ∧
       h'.word A.MULE_SEQ = h.word A.MULE_SEQ + 1#32 ∧ h'.led 0xC = (h.led 0xC + 1) % 2 ^ 48 ∧ h'.mule.ledger = none ∧
       h'.mule.recs = h.mule.recs) ∧
    -- mule record
    (
       let h : Hub := { hub [] with cmp := {}, mule := { ledger := none, recs := [{ ws := [5, 6], cls := .hit, ann := some 28 }, { ws := [5], cls := .acq }] } }
     h.cmpFree = true ∧ h.mule.ledger = none ∧ h.mule.drain ≠ some 0) ∧
    -- mule record bad
    (
       let h : Hub := { hub [] with cmp := {}, mule := { ledger := none, recs := [{ ws := [5, 6], cls := .hit }, { ws := [5], cls := .acq }] } }
     h.cmpFree = true ∧ h.mule.ledger = none) ∧
    -- mule waits
    (
       let h : Hub := { hub [] with cmp := { waiting := [{ ws := [9], cls := .hit }] }, mule := { ledger := none, recs := [{ ws := [5, 6], cls := .hit }] } }
     h.cmpFree = false) ∧
    -- ledger boundary
    (
       let h : Hub := { hub [(F.MODE_STAT_MODE, 0, mRun), (F.RT_ORBIT_LEN, 0, 100), (F.RT_ORBIT_POS, 0, 0), (F.MULE_LEDCFG_PERIOD, 0, 0), (F.LED_LO_V, 3, 77), (F.MULE_SEQ_SEQ, 0, 0xFFFFFFFF)] with mule := { ledger := some [1] } }
     h.ledgerDue = true ∧ h.mule.ledger.isSome = true) ∧
    -- ledger not due
    (let h : Hub := { hub [(F.HUB_ADDR_VALID, 0, 0)] with mule := {} }
     let h' := run (.ledgerBoundary) h
     (h.ledgerDue = false) ∧ h' = h) := by
  refine ⟨?_, ?_, ?_, ?_, ?_, ?_⟩ <;> decide +kernel

theorem witness_CompressionHandsOn :
    -- cmp no context
    (
       let h : Hub := { hub ((List.range 32).map fun k => (F.CMP_CTXCFG_EN, k, 0)) with cmp := { waiting := [{ ws := [header tTrigger 1 0 3 3, 4, 5], cls := .acq }, { ws := [9], cls := .hit }] } }
     h.cmp.job = none ∧ h.cmpContext (header tTrigger 1 0 3 3) = none) ∧
    -- cmp fenced
    (
       let h : Hub := { hub [(F.CMP_CTXCFG_EN, 0, 1), (F.CMP_CTXCFG_TYPE, 0, 2), (F.CMP_STAT_FENCED, 0, 1)] with cmp := { waiting := [{ ws := [header 2 1 0 3 3, 4, 5], cls := .acq }] } }
     h.cmp.job = none ∧ (h.cmpContext (header 2 1 0 3 3)).isSome = true ∧ h.flag F.CMP_STAT_FENCED 0 = true) ∧
    -- cmp block
    (
       let h : Hub := { hub [(F.CMP_CTXCFG_EN, 0, 1), (F.CMP_CTXCFG_TYPE, 0, 2), (F.CMP_STAT_FENCED, 0, 0)] with cmp := { waiting := [{ ws := [header 2 1 0 3 8, 4, 5, 0, 0, 0, 0xFFFFFFFFFFFFFFFF, 7], cls := .acq }] } }
     h.cmp.job = none ∧ (h.cmpContext (header 2 1 0 3 8)).isSome = true ∧ h.flag F.CMP_STAT_FENCED 0 = false) ∧
    -- cmp block ok
    (
       let h : Hub := { hub [(F.CMP_CTXCFG_EN, 0, 1), (F.CMP_CTXCFG_TYPE, 0, 2), (F.CMP_STAT_FENCED, 0, 0)] with cmp := { waiting := [{ ws := [header 2 1 0 3 8, 4, 5, 0, 0, 0, 0xFFFFFFFFFFFFFFFF, 7], cls := .acq }] } }
     h.cmp.job = none ∧ (h.cmpContext (header 2 1 0 3 8)).isSome = true ∧ h.flag F.CMP_STAT_FENCED 0 = false) ∧
    -- cmp resume
    (
       let h : Hub := { hub [] with cmp := { job := some { src := { ws := [header 2 1 0 3 5, 4, 5, 0, 7], cls := .acq }, ctx := 0, fmt := false, reset := true, p := 0, rest := [4, 5, 0] } } }
     let h' := run (.cmpStallResume (some 9) none) h
     (h.cmp.job.isSome = true) ∧ (h'.cmp.job = none ∧
       h'.hen.pool.length = h.hen.pool.length + 1) ∨ ((h'.cmp.job.map fun j => j.src) = h.cmp.job.map (fun j => j.src) ∧
       h'.hen.pool = h.hen.pool)) ∧
    -- cmp resume fore
    (
       let h : Hub := { hub [] with cmp := { job := some { src := { ws := [header 2 1 0 3 5, 4, 5, 0, 7], cls := .acq }, ctx := 31, fmt := true, reset := false, p := 9, rest := [4, 5, 0], code := [(6, 5)], nbits := 6, blocks := 1 } } }
     let h' := run (.cmpStallResume (some 9) none) h
     (h.cmp.job.isSome = true) ∧ (h'.cmp.job = none ∧
       h'.hen.pool.length = h.hen.pool.length + 1) ∨ ((h'.cmp.job.map fun j => j.src) = h.cmp.job.map (fun j => j.src) ∧
       h'.hen.pool = h.hen.pool)) ∧
    -- cmp ctxrst
    (let h : Hub := { hub [] with start := {} }
     h.start.held = false) := by
  refine ⟨?_, ?_, ?_, ?_, ?_, ?_, ?_⟩ <;> decide +kernel

theorem witness_RecordsAreMerged :
    -- merge returned
    (
       let h : Hub := { hub [(F.LANE_ROLE_ACT_ROLE, 2, roleParent), (F.LANE_ROLE_ACT_PORT, 2, 0), (F.HEN_UPSTAT_PORT, 0, 0), (F.LN_STAT_TRAINED, 2, 1)] with lanes := [], hen := { front := [{ ws := [4, 5], cls := .hit }, { ws := [6], cls := .hit }] } }
     let l := h.laneFor.getD 0
     h.laneFor = some l) ∧
    -- merge none
    (let h : Hub := { hub [] with lanes := [] }
     h.laneFor = none) ∧
    -- merge waits
    (
       let h : Hub := { hub [(F.LANE_ROLE_ACT_ROLE, 2, roleParent), (F.LANE_ROLE_ACT_PORT, 2, 0), (F.HEN_UPSTAT_PORT, 0, 0), (F.LN_STAT_TRAINED, 2, 1), (F.HEN_CFG_HORIZON, 0, 100)] with lanes := [], hen := { child := [(1, { recs := [{ ws := [header tTrigger 1 0 ((hub []).tag.toNat) 2, 5], cls := .hit, enter := (hub []).slot }] })] } }
     let l := h.laneFor.getD 0
     let r := (h.oldest.map fun x => x.2).getD { ws := [], cls := .hit }
     let h' := run (.henSendRecord) h
     (h.laneFor = some l ∧ h.hen.front = [] ∧ h.oldest = some (1, r) ∧ h.allActive = false ∧
       h.age r < h.fld F.HEN_CFG_HORIZON 0) ∧ h'.flag F.HEN_STAT_WAIT 0 = true ∧ only h h' [A.HEN_STAT] = true) ∧
    -- merge no credit
    (
       let h : Hub := { hub [(F.LANE_ROLE_ACT_ROLE, 2, roleParent), (F.LANE_ROLE_ACT_PORT, 2, 0), (F.HEN_UPSTAT_PORT, 0, 0), (F.LN_STAT_TRAINED, 2, 1), (F.HEN_CFG_HORIZON, 0, 0), (F.HEN_UPSTAT_BAL, 0, 0)] with lanes := [], hen := { pool := [{ ws := [header tTrigger 1 0 ((hub []).tag.toNat) 2, 5], cls := .hit, enter := (hub []).slot }] } }
     let l := h.laneFor.getD 0
     let r := (h.oldest.map fun x => x.2).getD { ws := [], cls := .hit }
     h.laneFor = some l ∧ h.hen.front = [] ∧ h.oldest = some (4, r) ∧
       (!h.allActive && h.age r < h.fld F.HEN_CFG_HORIZON 0) = false ∧
       h.fld F.HEN_UPSTAT_BAL 0 < h.hen.reserved + (h.lane l).opens r.ws.length) ∧
    -- merge assigned
    (
       let h : Hub := { hub [(F.LANE_ROLE_ACT_ROLE, 2, roleParent), (F.LANE_ROLE_ACT_PORT, 2, 0), (F.HEN_UPSTAT_PORT, 0, 0), (F.LN_STAT_TRAINED, 2, 1), (F.HEN_CFG_HORIZON, 0, 0), (F.HEN_UPSTAT_BAL, 0, 9)] with lanes := [], hen := { pool := [{ ws := [header tTrigger 1 0 ((hub []).tag.toNat) 2, 5], cls := .hit, enter := (hub []).slot }], child := [(0, { recs := [{ ws := [header tTrigger 2 0 (((hub []).slot - 5#48).toNat % 2 ^ 24) 2, 5], cls := .hit, enter := (hub []).slot }] })] } }
     let l := h.laneFor.getD 0
     let r := (h.oldest.map fun x => x.2).getD { ws := [], cls := .hit }
     h.laneFor = some l ∧ h.hen.front = [] ∧ h.oldest = some (0, r) ∧
       (!h.allActive && h.age r < h.fld F.HEN_CFG_HORIZON 0) = false ∧
       h.hen.reserved + (h.lane l).opens r.ws.length ≤ h.fld F.HEN_UPSTAT_BAL 0) ∧
    -- merge pool
    (
       let h : Hub := { hub [(F.LANE_ROLE_ACT_ROLE, 2, roleParent), (F.LANE_ROLE_ACT_PORT, 2, 0), (F.HEN_UPSTAT_PORT, 0, 0), (F.LN_STAT_TRAINED, 2, 1), (F.HEN_CFG_HORIZON, 0, 0), (F.HEN_UPSTAT_BAL, 0, 9)] with lanes := [], hen := { pool := [{ ws := [header tTrigger 1 0 ((hub []).tag.toNat) 2, 5], cls := .hit, enter := (hub []).slot }] } }
     let l := h.laneFor.getD 0
     let r := (h.oldest.map fun x => x.2).getD { ws := [], cls := .hit }
     h.laneFor = some l ∧ h.hen.front = [] ∧ h.oldest = some (4, r) ∧
       (!h.allActive && h.age r < h.fld F.HEN_CFG_HORIZON 0) = false ∧
       h.hen.reserved + (h.lane l).opens r.ws.length ≤ h.fld F.HEN_UPSTAT_BAL 0) ∧
    -- audit now
    (let h : Hub := hub []
     let h' := run (.audnow) h
     (h.start.held = false) ∧ h' = { h with hen := { h.hen with audit := true } }) ∧
    -- audit held
    (let h : Hub := { hub [] with start := { held := true } }
     h.start.held = true ∧ run (.auditFrameReceive 3 [1, 2, 3]) h = h) ∧
    -- audit first
    (let h : Hub := { hub [] with hen := { (hub []).hen with child := [(3, { resync := true, malf := 4 })] } }
     h.start.held = false ∧ (h.child 3).resync = true) ∧
    -- audit differs
    (
       let h : Hub := { hub [(F.HEN_PRET_RETURNED, 3, 7), (F.TW_STAT_STATE, 0, 0)] with hen := { (hub []).hen with child := [(3, { resync := false, malf := 4 })] } }
     h.start.held = false ∧ (h.child 3).resync = false ∧ 0xFFFFFFFF ≠ (h.fld F.HEN_PRET_RETURNED 3 + 7) % 2 ^ 32) ∧
    -- audit differs twin
    (
       let h : Hub := { hub [(F.HEN_PRET_RETURNED, 3, 7)] with hen := { (hub []).hen with child := [(3, { resync := false, malf := 4 })] } }
     h.start.held = false ∧ (h.child 3).resync = false ∧ 0xFFFFFFFF ≠ (h.fld F.HEN_PRET_RETURNED 3 + 7) % 2 ^ 32) := by
  refine ⟨?_, ?_, ?_, ?_, ?_, ?_, ?_, ?_, ?_, ?_, ?_⟩ <;> decide +kernel

theorem witness_FramesAreSent :
    -- uplink not due
    (let h : Hub := { hub [] with start := { held := true } }
     let h' := run (.uplinkFrameSend 2) h
     (h.frameDue 2 = false) ∧ h' = h) ∧
    -- uplink train
    (
       let h : Hub := { hub [(F.RT_SLOT_LO_COUNT, 0, 8), (F.LANE_ROLE_ACT_ROLE, 2, roleParent), (F.LANE_ROLE_ACT_ROLE, 0, roleOff), (F.LANE_ROLE_ACT_ROLE, 1, roleOff), (F.LANE_ROLE_ACT_ROLE, 3, roleOff), (F.LANE_ROLE_ACT_ROLE, 4, roleOff), (F.LANE_ROLE_ACT_ROLE, 5, roleOff), (F.LANE_ROLE_ACT_ROLE, 6, roleOff), (F.LANE_ROLE_ACT_ROLE, 7, roleOff), (F.LANE_ROLE_ACT_ROLE, 8, roleOff), (F.LANE_ROLE_ACT_ROLE, 9, roleOff), (F.LANE_ROLE_ACT_ROLE, 10, roleOff), (F.LANE_ROLE_ACT_ROLE, 11, roleOff), (F.LANE_ROLE_ACT_ROLE, 12, roleOff), (F.LANE_ROLE_ACT_ROLE, 13, roleOff), (F.LANE_ROLE_ACT_ROLE, 14, roleOff), (F.LANE_ROLE_ACT_ROLE, 15, roleOff), (F.LANE_ROLE_ACT_ROLE, 16, roleOff), (F.LANE_ROLE_ACT_ROLE, 17, roleOff), (F.LANE_ROLE_ACT_ROLE, 18, roleOff), (F.LANE_ROLE_ACT_ROLE, 19, roleOff), (F.LANE_ROLE_ACT_ROLE, 20, roleOff), (F.LANE_ROLE_ACT_ROLE, 21, roleOff), (F.LANE_ROLE_ACT_ROLE, 22, roleOff), (F.LANE_ROLE_ACT_ROLE, 23, roleOff), (F.LN_STAT_ALIGNED, 2, 1), (F.LN_STAT_TRAINED, 2, 0)] with start := {}, lanes := [(2, { train := 1 })] }
     let h' := run (.uplinkFrameSend 2) h
     (h.frameDue 2 = true ∧ h.upLane 2 = true ∧ h.sendsPattern 2 = false ∧ h.flag F.LN_STAT_ALIGNED 2 = true ∧
       h.flag F.LN_STAT_TRAINED 2 = false ∧ (h.lane 2).train ≠ 0) ∧ (h'.lane 2).train = 0 ∧ (h'.lane 2).sentAt = some h.slot ∧
       h'.flag F.LN_STAT_TRAINED 2 = false) ∧
    -- uplink again
    (
       let h : Hub := { hub [(F.RT_SLOT_LO_COUNT, 0, 8), (F.LANE_ROLE_ACT_ROLE, 2, roleParent), (F.LANE_ROLE_ACT_ROLE, 0, roleOff), (F.LANE_ROLE_ACT_ROLE, 1, roleOff), (F.LANE_ROLE_ACT_ROLE, 3, roleOff), (F.LANE_ROLE_ACT_ROLE, 4, roleOff), (F.LANE_ROLE_ACT_ROLE, 5, roleOff), (F.LANE_ROLE_ACT_ROLE, 6, roleOff), (F.LANE_ROLE_ACT_ROLE, 7, roleOff), (F.LANE_ROLE_ACT_ROLE, 8, roleOff), (F.LANE_ROLE_ACT_ROLE, 9, roleOff), (F.LANE_ROLE_ACT_ROLE, 10, roleOff), (F.LANE_ROLE_ACT_ROLE, 11, roleOff), (F.LANE_ROLE_ACT_ROLE, 12, roleOff), (F.LANE_ROLE_ACT_ROLE, 13, roleOff), (F.LANE_ROLE_ACT_ROLE, 14, roleOff), (F.LANE_ROLE_ACT_ROLE, 15, roleOff), (F.LANE_ROLE_ACT_ROLE, 16, roleOff), (F.LANE_ROLE_ACT_ROLE, 17, roleOff), (F.LANE_ROLE_ACT_ROLE, 18, roleOff), (F.LANE_ROLE_ACT_ROLE, 19, roleOff), (F.LANE_ROLE_ACT_ROLE, 20, roleOff), (F.LANE_ROLE_ACT_ROLE, 21, roleOff), (F.LANE_ROLE_ACT_ROLE, 22, roleOff), (F.LANE_ROLE_ACT_ROLE, 23, roleOff), (F.LN_STAT_ALIGNED, 2, 1), (F.LN_STAT_TRAINED, 2, 1)] with start := {}, lanes := [(2, { again := [{ seq := 9, kind := 1, new := true, again := false, cell := [5], recs := [] }], kept := [{ seq := 9, kind := 1, new := true, again := false, cell := [5], recs := [] }] })] }
     h.frameDue 2 = true ∧ h.upLane 2 = true ∧ h.sendsPattern 2 = false ∧ h.flag F.LN_STAT_ALIGNED 2 = true ∧
       h.flag F.LN_STAT_TRAINED 2 = true ∧ (h.lane 2).again.length = 1 ∧ (h.lane 2).injLeft = 0) ∧
    -- uplink idle
    (
       let h : Hub := { hub [(F.RT_SLOT_LO_COUNT, 0, 8), (F.LANE_ROLE_ACT_ROLE, 2, roleParent), (F.LANE_ROLE_ACT_PORT, 2, 0), (F.HEN_UPSTAT_PORT, 0, 0), (F.LN_STAT_ALIGNED, 2, 1), (F.LN_STAT_TRAINED, 2, 1)] with start := {}, lanes := [], hen := {} }
     h.frameDue 2 = true ∧ h.upLane 2 = true ∧ h.sendsPattern 2 = false ∧ h.flag F.LN_STAT_ALIGNED 2 = true ∧
       h.flag F.LN_STAT_TRAINED 2 = true ∧ (h.lane 2).again = [] ∧ 2 ∈ h.bundle h.sendPort ∧ h.hen.audit = false ∧
       (h.lane 2).tx = []) ∧
    -- uplink data
    (
       let h : Hub := { hub [(F.RT_SLOT_LO_COUNT, 0, 8), (F.LANE_ROLE_ACT_ROLE, 2, roleParent), (F.LANE_ROLE_ACT_PORT, 2, 0), (F.HEN_UPSTAT_PORT, 0, 0), (F.LN_STAT_ALIGNED, 2, 1), (F.LN_STAT_TRAINED, 2, 1), (F.LN_STAT_TXSEQ, 2, 255), (F.HEN_UPSTAT_BAL, 0, 5)] with start := {}, lanes := [(2, { tx := [{ r := { ws := [4, 5, 6], cls := .hit, again := true }, sent := 1, reserved := 0 }, { r := { ws := [7, 8, 9], cls := .hit }, sent := 0, reserved := 1 }] })], hen := {} }
     h.frameDue 2 = true ∧ h.upLane 2 = true ∧ h.sendsPattern 2 = false ∧ h.flag F.LN_STAT_ALIGNED 2 = true ∧
       h.flag F.LN_STAT_TRAINED 2 = true ∧ (h.lane 2).again = [] ∧ 2 ∈ h.bundle h.sendPort ∧ h.hen.audit = false ∧
       (h.lane 2).tx ≠ [] ∧ (h.lane 2).kept.length < 255) ∧
    -- uplink audit
    (
       let h : Hub := { hub [(F.RT_SLOT_LO_COUNT, 0, 8), (F.LANE_ROLE_ACT_ROLE, 0, roleParent), (F.LANE_ROLE_ACT_PORT, 0, 0), (F.HEN_UPSTAT_PORT, 0, 0), (F.LN_STAT_ALIGNED, 0, 1), (F.LN_STAT_TRAINED, 0, 1), (F.HEN_UPSTAT_LOSTDL, 0, 5)] with start := {}, lanes := [(0, { tx := [{ r := { ws := [4, 5, 6], cls := .hit, again := true }, sent := 1, reserved := 0 }] })], hen := { audit := true } }
     h.frameDue 0 = true ∧ h.upLane 0 = true ∧ h.sendsPattern 0 = false ∧ h.flag F.LN_STAT_ALIGNED 0 = true ∧
       h.flag F.LN_STAT_TRAINED 0 = true ∧ (h.lane 0).again = [] ∧ 0 ∈ h.bundle h.sendPort ∧ h.hen.audit = true ∧
       (h.bundle h.sendPort).head? = some 0 ∧ (h.lane 0).kept.length < 255) ∧
    -- uplink copy
    (
       let h : Hub := { hub [(F.RT_SLOT_LO_COUNT, 0, 8), (F.LANE_ROLE_ACT_ROLE, 0, roleOff), (F.LANE_ROLE_ACT_ROLE, 1, roleOff), (F.LANE_ROLE_ACT_ROLE, 4, roleOff), (F.LANE_ROLE_ACT_ROLE, 5, roleOff), (F.LANE_ROLE_ACT_ROLE, 6, roleOff), (F.LANE_ROLE_ACT_ROLE, 7, roleOff), (F.LANE_ROLE_ACT_ROLE, 8, roleOff), (F.LANE_ROLE_ACT_ROLE, 9, roleOff), (F.LANE_ROLE_ACT_ROLE, 10, roleOff), (F.LANE_ROLE_ACT_ROLE, 11, roleOff), (F.LANE_ROLE_ACT_ROLE, 12, roleOff), (F.LANE_ROLE_ACT_ROLE, 13, roleOff), (F.LANE_ROLE_ACT_ROLE, 14, roleOff), (F.LANE_ROLE_ACT_ROLE, 15, roleOff), (F.LANE_ROLE_ACT_ROLE, 16, roleOff), (F.LANE_ROLE_ACT_ROLE, 17, roleOff), (F.LANE_ROLE_ACT_ROLE, 18, roleOff), (F.LANE_ROLE_ACT_ROLE, 19, roleOff), (F.LANE_ROLE_ACT_ROLE, 20, roleOff), (F.LANE_ROLE_ACT_ROLE, 21, roleOff), (F.LANE_ROLE_ACT_ROLE, 22, roleOff), (F.LANE_ROLE_ACT_ROLE, 23, roleOff), (F.LANE_ROLE_ACT_ROLE, 2, roleParent), (F.LANE_ROLE_ACT_PORT, 2, 1), (F.LANE_ROLE_ACT_ROLE, 3, roleParent), (F.LANE_ROLE_ACT_PORT, 3, 0), (F.HEN_UPSTAT_PORT, 0, 0), (F.LN_STAT_ALIGNED, 2, 1), (F.LN_STAT_TRAINED, 2, 1), (F.LN_STAT_TXSEQ, 2, 255)] with start := {}, rooster := {}, lanes := [(2, { copies := [{ seq := 9, kind := 1, new := true, again := false, cell := [5], recs := [] }] })] }
     h.frameDue 2 = true ∧ h.upLane 2 = true ∧ h.sendsPattern 2 = false ∧ h.flag F.LN_STAT_ALIGNED 2 = true ∧
       h.flag F.LN_STAT_TRAINED 2 = true ∧ (h.lane 2).again = [] ∧ ¬ 2 ∈ h.bundle h.sendPort) ∧
    -- uplink other idle
    (
       let h : Hub := { hub [(F.RT_SLOT_LO_COUNT, 0, 8), (F.LANE_ROLE_ACT_ROLE, 0, roleOff), (F.LANE_ROLE_ACT_ROLE, 1, roleOff), (F.LANE_ROLE_ACT_ROLE, 4, roleOff), (F.LANE_ROLE_ACT_ROLE, 5, roleOff), (F.LANE_ROLE_ACT_ROLE, 6, roleOff), (F.LANE_ROLE_ACT_ROLE, 7, roleOff), (F.LANE_ROLE_ACT_ROLE, 8, roleOff), (F.LANE_ROLE_ACT_ROLE, 9, roleOff), (F.LANE_ROLE_ACT_ROLE, 10, roleOff), (F.LANE_ROLE_ACT_ROLE, 11, roleOff), (F.LANE_ROLE_ACT_ROLE, 12, roleOff), (F.LANE_ROLE_ACT_ROLE, 13, roleOff), (F.LANE_ROLE_ACT_ROLE, 14, roleOff), (F.LANE_ROLE_ACT_ROLE, 15, roleOff), (F.LANE_ROLE_ACT_ROLE, 16, roleOff), (F.LANE_ROLE_ACT_ROLE, 17, roleOff), (F.LANE_ROLE_ACT_ROLE, 18, roleOff), (F.LANE_ROLE_ACT_ROLE, 19, roleOff), (F.LANE_ROLE_ACT_ROLE, 20, roleOff), (F.LANE_ROLE_ACT_ROLE, 21, roleOff), (F.LANE_ROLE_ACT_ROLE, 22, roleOff), (F.LANE_ROLE_ACT_ROLE, 23, roleOff), (F.LANE_ROLE_ACT_ROLE, 2, roleParent), (F.LANE_ROLE_ACT_PORT, 2, 1), (F.LANE_ROLE_ACT_ROLE, 3, roleParent), (F.LANE_ROLE_ACT_PORT, 3, 0), (F.HEN_UPSTAT_PORT, 0, 0), (F.LN_STAT_ALIGNED, 2, 1), (F.LN_STAT_TRAINED, 2, 1)] with start := {}, rooster := {}, lanes := [] }
     h.frameDue 2 = true ∧ h.upLane 2 = true ∧ h.sendsPattern 2 = false ∧ h.flag F.LN_STAT_ALIGNED 2 = true ∧
       h.flag F.LN_STAT_TRAINED 2 = true ∧ (h.lane 2).again = [] ∧ ¬ 2 ∈ h.bundle h.sendPort ∧ (h.lane 2).copies = []) ∧
    -- uplink window full
    (
       let h : Hub := { hub [(F.RT_SLOT_LO_COUNT, 0, 8), (F.LANE_ROLE_ACT_ROLE, 0, roleOff), (F.LANE_ROLE_ACT_ROLE, 1, roleOff), (F.LANE_ROLE_ACT_ROLE, 3, roleOff), (F.LANE_ROLE_ACT_ROLE, 4, roleOff), (F.LANE_ROLE_ACT_ROLE, 5, roleOff), (F.LANE_ROLE_ACT_ROLE, 6, roleOff), (F.LANE_ROLE_ACT_ROLE, 7, roleOff), (F.LANE_ROLE_ACT_ROLE, 8, roleOff), (F.LANE_ROLE_ACT_ROLE, 9, roleOff), (F.LANE_ROLE_ACT_ROLE, 10, roleOff), (F.LANE_ROLE_ACT_ROLE, 11, roleOff), (F.LANE_ROLE_ACT_ROLE, 12, roleOff), (F.LANE_ROLE_ACT_ROLE, 13, roleOff), (F.LANE_ROLE_ACT_ROLE, 14, roleOff), (F.LANE_ROLE_ACT_ROLE, 15, roleOff), (F.LANE_ROLE_ACT_ROLE, 16, roleOff), (F.LANE_ROLE_ACT_ROLE, 17, roleOff), (F.LANE_ROLE_ACT_ROLE, 18, roleOff), (F.LANE_ROLE_ACT_ROLE, 19, roleOff), (F.LANE_ROLE_ACT_ROLE, 20, roleOff), (F.LANE_ROLE_ACT_ROLE, 21, roleOff), (F.LANE_ROLE_ACT_ROLE, 22, roleOff), (F.LANE_ROLE_ACT_ROLE, 23, roleOff), (F.LANE_ROLE_ACT_ROLE, 2, roleParent), (F.LANE_ROLE_ACT_PORT, 2, 0), (F.HEN_UPSTAT_PORT, 0, 0), (F.LN_STAT_ALIGNED, 2, 1), (F.LN_STAT_TRAINED, 2, 1), (F.LN_STAT_WINFULL, 2, 0)] with start := {}, rooster := {}, hen := {}, lanes := [(2, { kept := List.replicate 255 { seq := 9, kind := 1, new := true, again := false, cell := [5], recs := [] }, tx := [{ r := { ws := [7, 8, 9], cls := .hit }, sent := 0, reserved := 1 }] })] }
     h.frameDue 2 = true ∧ h.upLane 2 = true ∧ h.sendsPattern 2 = false ∧ h.flag F.LN_STAT_ALIGNED 2 = true ∧
       h.flag F.LN_STAT_TRAINED 2 = true ∧ (h.lane 2).again = [] ∧ 2 ∈ h.bundle h.sendPort ∧ (h.lane 2).tx ≠ [] ∧
       255 ≤ (h.lane 2).kept.length) ∧
    -- uplink copy full
    (
       let h : Hub := { hub [(F.RT_SLOT_LO_COUNT, 0, 8), (F.LANE_ROLE_ACT_ROLE, 0, roleOff), (F.LANE_ROLE_ACT_ROLE, 1, roleOff), (F.LANE_ROLE_ACT_ROLE, 4, roleOff), (F.LANE_ROLE_ACT_ROLE, 5, roleOff), (F.LANE_ROLE_ACT_ROLE, 6, roleOff), (F.LANE_ROLE_ACT_ROLE, 7, roleOff), (F.LANE_ROLE_ACT_ROLE, 8, roleOff), (F.LANE_ROLE_ACT_ROLE, 9, roleOff), (F.LANE_ROLE_ACT_ROLE, 10, roleOff), (F.LANE_ROLE_ACT_ROLE, 11, roleOff), (F.LANE_ROLE_ACT_ROLE, 12, roleOff), (F.LANE_ROLE_ACT_ROLE, 13, roleOff), (F.LANE_ROLE_ACT_ROLE, 14, roleOff), (F.LANE_ROLE_ACT_ROLE, 15, roleOff), (F.LANE_ROLE_ACT_ROLE, 16, roleOff), (F.LANE_ROLE_ACT_ROLE, 17, roleOff), (F.LANE_ROLE_ACT_ROLE, 18, roleOff), (F.LANE_ROLE_ACT_ROLE, 19, roleOff), (F.LANE_ROLE_ACT_ROLE, 20, roleOff), (F.LANE_ROLE_ACT_ROLE, 21, roleOff), (F.LANE_ROLE_ACT_ROLE, 22, roleOff), (F.LANE_ROLE_ACT_ROLE, 23, roleOff), (F.LANE_ROLE_ACT_ROLE, 2, roleParent), (F.LANE_ROLE_ACT_PORT, 2, 1), (F.LANE_ROLE_ACT_ROLE, 3, roleParent), (F.LANE_ROLE_ACT_PORT, 3, 0), (F.HEN_UPSTAT_PORT, 0, 0), (F.LN_STAT_ALIGNED, 2, 1), (F.LN_STAT_TRAINED, 2, 1), (F.LN_STAT_WINFULL, 2, 0)] with start := {}, rooster := {}, lanes := [(2, { kept := List.replicate 255 { seq := 9, kind := 1, new := true, again := false, cell := [5], recs := [] }, copies := [{ seq := 9, kind := 1, new := true, again := false, cell := [5], recs := [] }] })] }
     h.frameDue 2 = true ∧ h.upLane 2 = true ∧ h.sendsPattern 2 = false ∧ h.flag F.LN_STAT_ALIGNED 2 = true ∧
       h.flag F.LN_STAT_TRAINED 2 = true ∧ (h.lane 2).again = [] ∧ ¬ 2 ∈ h.bundle h.sendPort ∧ (h.lane 2).copies ≠ [] ∧
       255 ≤ (h.lane 2).kept.length) ∧
    -- uplink no lane
    (let h : Hub := { hub [(F.RT_SLOT_LO_COUNT, 0, 8), (F.LANE_ROLE_ACT_ROLE, 2, roleChild)] with start := {} }
     h.frameDue 2 = true ∧ h.sendsPattern 2 = false ∧ h.role 2 ≠ roleTwin ∧ (h.upLane 2 && h.flag F.LN_STAT_ALIGNED 2) = false) ∧
    -- uplink pattern
    (
       let h : Hub := { hub [(F.RT_SLOT_LO_COUNT, 0, 8), (F.LANE_ROLE_ACT_ROLE, 2, roleOff), (F.LN_STAT_FENCED, 2, 0), (F.LN_PRBS_GEN_EN, 2, 1)] with start := {}, lanes := [(2, { genReg := 5 })] }
     h.sendsPattern 2 = true ∧ (h.lane 2).injLeft = 0) ∧
    -- uplink twin
    (
       let h : Hub := { hub [(F.RT_SLOT_LO_COUNT, 0, 8), (F.LANE_ROLE_ACT_ROLE, 2, roleTwin), (F.LN_STAT_TXSEQ, 2, 255)] with start := {}, lanes := [(2, { tx := [{ r := { ws := [7, 8, 9], cls := .hit }, sent := 1, reserved := 0 }] })] }
     h.frameDue 2 = true ∧ h.role 2 = roleTwin ∧ (h.lane 2).injLeft = 0) ∧
    -- uplink twin idle
    (
       let h : Hub := { hub [(F.RT_SLOT_LO_COUNT, 0, 8), (F.LANE_ROLE_ACT_ROLE, 2, roleTwin), (F.LN_STAT_TXSEQ, 2, 255)] with start := {}, lanes := [] }
     h.frameDue 2 = true ∧ h.role 2 = roleTwin ∧ (h.lane 2).injLeft = 0) ∧
    -- downlink not
    (let h : Hub := { hub [(F.LANE_ROLE_ACT_ROLE, 2, roleParent)] with start := {} }
     let h' := run (.downlinkFrameSend 2) h
     ((h.frameDue 2 && (h.role 2 == roleChild || h.comesAs 2 roleChild)) = false ∧ h.sendsPattern 2 = false) ∧ h' = h) ∧
    -- downlink
    (
       let h : Hub := { hub [(F.RT_SLOT_LO_COUNT, 0, 8), (F.LANE_ROLE_ACT_ROLE, 2, roleChild), (F.LANE_ROLE_ACT_PORT, 2, 3)] with start := {}, lanes := [(2, { nak := true, upSeq := 7 })] }
     h.frameDue 2 = true ∧ h.role 2 = roleChild) ∧
    -- downlink spare
    (
       let h : Hub := { hub [(F.RT_SLOT_LO_COUNT, 0, 8), (F.LANE_ROLE_ACT_ROLE, 2, roleSpare), (F.RS_LANE_LANE, 1, 2), (F.RS_LANE_ROLE, 1, roleChild), (F.LN_PRBS_GEN_EN, 2, 0)] with start := {}, lanes := [], rsv := { preps := [{ kind := 4, spare := 1, unit := 7, left := 0, since := 0, reactive := true }] } }
     h.frameDue 2 = true ∧ h.comesAs 2 roleChild = true ∧ h.sendsPattern 2 = false) ∧
    -- downlink second
    (
       let h : Hub := { hub [(F.RT_SLOT_LO_COUNT, 0, 8), (F.LANE_ROLE_ACT_ROLE, 2, roleChild), (F.LANE_ROLE_ACT_PORT, 2, 3), (F.LANE_ROLE_ACT_ROLE, 3, roleChild), (F.LANE_ROLE_ACT_PORT, 3, 3)] with start := {}, lanes := [], hen := { child := [(3, { fwd := [([1, 2, 3], true)] })] } }
     h.frameDue 3 = true ∧ h.role 3 = roleChild ∧
       (((h.child (h.lanePort 3)).fwdLane.filter fun m => (h.childLanes (h.lanePort 3)).contains m).orElse (fun _ => (h.childLanes (h.lanePort 3)).head?)) ≠ some 3) := by
  refine ⟨?_, ?_, ?_, ?_, ?_, ?_, ?_, ?_, ?_, ?_, ?_, ?_, ?_, ?_, ?_, ?_, ?_, ?_⟩ <;> decide +kernel

theorem witness_FramesAreReceived :
    -- up unaligned
    (let h : Hub := hub [(F.LN_STAT_ALIGNED, 2, 0)]
     let h' := run (.uplinkFrameReceive 2 [1, 2] 7) h
     (h.flag F.LN_STAT_ALIGNED 2 = false) ∧ h' = h) ∧
    -- up bad
    (
       let h : Hub := { hub [(F.LN_STAT_ALIGNED, 2, 1), (F.LN_STAT_SIG, 2, 1), (F.LN_STAT_LOCK, 2, 1), (F.LANE_ROLE_ACT_ROLE, 2, roleChild)] with start := {} }
     h.start.held = false ∧ h.flag F.LN_STAT_ALIGNED 2 = true ∧ h.signal 2 = true ∧ h.role 2 = roleChild ∧
       upOf (List.replicate 63 7) = none) ∧
    -- up expected
    (
       let h : Hub := { hub [(F.LN_STAT_ALIGNED, 2, 1), (F.LN_STAT_SIG, 2, 1), (F.LN_STAT_LOCK, 2, 1), (F.LANE_ROLE_ACT_ROLE, 2, roleChild)] with start := {}, lanes := [(2, { exp := some 255, nak := true })] }
     let u : Up := { seq := 255, kind := kData, new := true, again := false, low := 0, cell := [1, 2, 3, 4, 5, 6, 7] }
     h.start.held = false ∧ h.flag F.LN_STAT_ALIGNED 2 = true ∧ h.signal 2 = true ∧ h.role 2 = roleChild ∧
       upOf u.bytes = some (u, 0) ∧ (h.lane 2).exp = some 255) ∧
    -- up held
    (
       let h : Hub := { hub [(F.LN_STAT_ALIGNED, 2, 1), (F.LN_STAT_SIG, 2, 1), (F.LN_STAT_LOCK, 2, 1), (F.LANE_ROLE_ACT_ROLE, 2, roleChild), (F.LANE_ROLE_ACT_PORT, 2, 3), (F.TW_STAT_STATE, 0, 1)] with start := {}, lanes := [(2, { exp := some 255, nak := true })] }
     let u : Up := { seq := 255, kind := kData, new := true, again := false, low := 0, cell := [1, 2, 3, 4, 5, 6, 7] }
     h.start.held = false ∧ h.flag F.LN_STAT_ALIGNED 2 = true ∧ h.signal 2 = true ∧ h.role 2 = roleChild ∧
       upOf u.bytes = some (u, 0) ∧ (h.lane 2).exp = some 255 ∧ h.holdsFrames 2 = true) ∧
    -- up ahead
    (
       let h : Hub := { hub [(F.LN_STAT_ALIGNED, 2, 1), (F.LN_STAT_SIG, 2, 1), (F.LN_STAT_LOCK, 2, 1), (F.LANE_ROLE_ACT_ROLE, 2, roleChild)] with start := {}, lanes := [(2, { exp := some 250, nak := false })] }
     let u : Up := { seq := 255, kind := kAudit, new := true, again := false, low := 0, cell := [1, 2, 3, 4, 5, 6, 7] }
     h.start.held = false ∧ h.flag F.LN_STAT_ALIGNED 2 = true ∧ h.signal 2 = true ∧ h.role 2 = roleChild ∧
       upOf u.bytes = some (u, 0) ∧ (u.seq - 250#8).toNat < 128) ∧
    -- up behind
    (
       let h : Hub := { hub [(F.LN_STAT_ALIGNED, 2, 1), (F.LN_STAT_SIG, 2, 1), (F.LN_STAT_LOCK, 2, 1), (F.LANE_ROLE_ACT_ROLE, 2, roleChild)] with start := {}, lanes := [(2, { exp := some 5, nak := false })] }
     let u : Up := { seq := 133, kind := kData, new := true, again := false, low := 0, cell := [1, 2, 3, 4, 5, 6, 7] }
     h.start.held = false ∧ h.flag F.LN_STAT_ALIGNED 2 = true ∧ h.signal 2 = true ∧ h.role 2 = roleChild ∧
       upOf u.bytes = some (u, 0) ∧ 128 ≤ (u.seq - 5#8).toNat) ∧
    -- down unaligned
    (let h : Hub := hub [(F.LN_STAT_ALIGNED, 2, 0)]
     let h' := run (.downlinkFrameReceive 2 [1, 2] 7) h
     (h.flag F.LN_STAT_ALIGNED 2 = false) ∧ h' = h) ∧
    -- down bad
    (
       let h : Hub := { hub [(F.LANE_ROLE_ACT_ROLE, 0, roleOff), (F.LANE_ROLE_ACT_ROLE, 1, roleOff), (F.LANE_ROLE_ACT_ROLE, 2, roleOff), (F.LANE_ROLE_ACT_ROLE, 3, roleOff), (F.LANE_ROLE_ACT_ROLE, 4, roleOff), (F.LANE_ROLE_ACT_ROLE, 5, roleOff), (F.LANE_ROLE_ACT_ROLE, 6, roleOff), (F.LANE_ROLE_ACT_ROLE, 7, roleOff), (F.LANE_ROLE_ACT_ROLE, 8, roleOff), (F.LANE_ROLE_ACT_ROLE, 9, roleOff), (F.LANE_ROLE_ACT_ROLE, 10, roleOff), (F.LANE_ROLE_ACT_ROLE, 11, roleOff), (F.LANE_ROLE_ACT_ROLE, 12, roleOff), (F.LANE_ROLE_ACT_ROLE, 13, roleOff), (F.LANE_ROLE_ACT_ROLE, 14, roleOff), (F.LANE_ROLE_ACT_ROLE, 15, roleOff), (F.LANE_ROLE_ACT_ROLE, 16, roleOff), (F.LANE_ROLE_ACT_ROLE, 17, roleOff), (F.LANE_ROLE_ACT_ROLE, 18, roleOff), (F.LANE_ROLE_ACT_ROLE, 19, roleOff), (F.LANE_ROLE_ACT_ROLE, 20, roleOff), (F.LANE_ROLE_ACT_ROLE, 21, roleOff), (F.LANE_ROLE_ACT_ROLE, 22, roleOff), (F.LN_STAT_ALIGNED, 23, 1), (F.LN_STAT_SIG, 23, 1), (F.LN_STAT_LOCK, 23, 1), (F.LANE_ROLE_ACT_ROLE, 23, roleParent), (F.LANE_ROLE_ACT_PORT, 23, 1), (F.HEN_UPSTAT_PORT, 0, 1), (F.HEN_UPSTAT_LOSTDL, 0, 0x7FFF)] with start := {} }
     h.start.held = false ∧ h.flag F.LN_STAT_ALIGNED 23 = true ∧ h.signal 23 = true ∧ h.role 23 = roleParent ∧
       h.powered 23 = true ∧ h.timingLane ≠ some 23 ∧ downOf (List.replicate 63 7) = none) ∧
    -- down ok
    (
       let h : Hub := { hub [(F.LANE_ROLE_ACT_ROLE, 0, roleOff), (F.LANE_ROLE_ACT_ROLE, 1, roleOff), (F.LANE_ROLE_ACT_ROLE, 2, roleOff), (F.LANE_ROLE_ACT_ROLE, 3, roleOff), (F.LANE_ROLE_ACT_ROLE, 4, roleOff), (F.LANE_ROLE_ACT_ROLE, 5, roleOff), (F.LANE_ROLE_ACT_ROLE, 6, roleOff), (F.LANE_ROLE_ACT_ROLE, 7, roleOff), (F.LANE_ROLE_ACT_ROLE, 8, roleOff), (F.LANE_ROLE_ACT_ROLE, 9, roleOff), (F.LANE_ROLE_ACT_ROLE, 10, roleOff), (F.LANE_ROLE_ACT_ROLE, 11, roleOff), (F.LANE_ROLE_ACT_ROLE, 12, roleOff), (F.LANE_ROLE_ACT_ROLE, 13, roleOff), (F.LANE_ROLE_ACT_ROLE, 14, roleOff), (F.LANE_ROLE_ACT_ROLE, 15, roleOff), (F.LANE_ROLE_ACT_ROLE, 16, roleOff), (F.LANE_ROLE_ACT_ROLE, 17, roleOff), (F.LANE_ROLE_ACT_ROLE, 18, roleOff), (F.LANE_ROLE_ACT_ROLE, 19, roleOff), (F.LANE_ROLE_ACT_ROLE, 20, roleOff), (F.LANE_ROLE_ACT_ROLE, 21, roleOff), (F.LANE_ROLE_ACT_ROLE, 22, roleOff), (F.LN_STAT_ALIGNED, 23, 1), (F.LN_STAT_SIG, 23, 1), (F.LN_STAT_LOCK, 23, 1), (F.LANE_ROLE_ACT_ROLE, 23, roleParent), (F.LANE_ROLE_ACT_PORT, 23, 1), (F.HEN_UPSTAT_PORT, 0, 1), (F.HEN_UPSTAT_BAL, 0, 0xFFF0), (F.TW_STAT_STATE, 0, 0)] with start := {} }
     let d : Down := { ack := 7, grant := 200, claimP := true, nak := false, kind := 0, trig := 5, claim := 9, eseq := 1, edly := 3, pstart := false, plen := 0, pbytes := List.replicate 40 0 }
     h.start.held = false ∧ h.flag F.LN_STAT_ALIGNED 23 = true ∧ h.signal 23 = true ∧ h.role 23 = roleParent ∧
       h.powered 23 = true ∧ h.timingLane ≠ some 23 ∧ downOf (d.bytes 0x4D) = some (d, 0) ∧ h.twinLocal = false) ∧
    -- down other port
    (
       let h : Hub := { hub [(F.LANE_ROLE_ACT_ROLE, 0, roleOff), (F.LANE_ROLE_ACT_ROLE, 1, roleOff), (F.LANE_ROLE_ACT_ROLE, 2, roleOff), (F.LANE_ROLE_ACT_ROLE, 3, roleOff), (F.LANE_ROLE_ACT_ROLE, 4, roleOff), (F.LANE_ROLE_ACT_ROLE, 5, roleOff), (F.LANE_ROLE_ACT_ROLE, 6, roleOff), (F.LANE_ROLE_ACT_ROLE, 7, roleOff), (F.LANE_ROLE_ACT_ROLE, 8, roleOff), (F.LANE_ROLE_ACT_ROLE, 9, roleOff), (F.LANE_ROLE_ACT_ROLE, 10, roleOff), (F.LANE_ROLE_ACT_ROLE, 11, roleOff), (F.LANE_ROLE_ACT_ROLE, 12, roleOff), (F.LANE_ROLE_ACT_ROLE, 13, roleOff), (F.LANE_ROLE_ACT_ROLE, 14, roleOff), (F.LANE_ROLE_ACT_ROLE, 15, roleOff), (F.LANE_ROLE_ACT_ROLE, 16, roleOff), (F.LANE_ROLE_ACT_ROLE, 17, roleOff), (F.LANE_ROLE_ACT_ROLE, 18, roleOff), (F.LANE_ROLE_ACT_ROLE, 19, roleOff), (F.LANE_ROLE_ACT_ROLE, 20, roleOff), (F.LANE_ROLE_ACT_ROLE, 21, roleOff), (F.LANE_ROLE_ACT_ROLE, 22, roleOff), (F.LN_STAT_ALIGNED, 23, 1), (F.LN_STAT_SIG, 23, 1), (F.LN_STAT_LOCK, 23, 1), (F.LANE_ROLE_ACT_ROLE, 23, roleParent), (F.LANE_ROLE_ACT_PORT, 23, 0), (F.HEN_UPSTAT_PORT, 0, 1), (F.HEN_UPSTAT_BAL, 0, 0xFFF0), (F.TW_STAT_STATE, 0, 0)] with start := {} }
     let d : Down := { ack := 7, grant := 200, claimP := true, nak := false, kind := 0, trig := 5, claim := 9, eseq := 1, edly := 3, pstart := true, plen := 12, pbytes := List.replicate 40 0 }
     h.start.held = false ∧ h.flag F.LN_STAT_ALIGNED 23 = true ∧ h.signal 23 = true ∧ h.role 23 = roleParent ∧
       h.powered 23 = true ∧ h.timingLane ≠ some 23 ∧ downOf (d.bytes 0x4D) = some (d, 0) ∧ h.twinLocal = false) ∧
    -- down kind
    (
       let h : Hub := { hub [(F.LANE_ROLE_ACT_ROLE, 0, roleOff), (F.LANE_ROLE_ACT_ROLE, 1, roleOff), (F.LANE_ROLE_ACT_ROLE, 2, roleOff), (F.LANE_ROLE_ACT_ROLE, 3, roleOff), (F.LANE_ROLE_ACT_ROLE, 4, roleOff), (F.LANE_ROLE_ACT_ROLE, 5, roleOff), (F.LANE_ROLE_ACT_ROLE, 6, roleOff), (F.LANE_ROLE_ACT_ROLE, 7, roleOff), (F.LANE_ROLE_ACT_ROLE, 8, roleOff), (F.LANE_ROLE_ACT_ROLE, 9, roleOff), (F.LANE_ROLE_ACT_ROLE, 10, roleOff), (F.LANE_ROLE_ACT_ROLE, 11, roleOff), (F.LANE_ROLE_ACT_ROLE, 12, roleOff), (F.LANE_ROLE_ACT_ROLE, 13, roleOff), (F.LANE_ROLE_ACT_ROLE, 14, roleOff), (F.LANE_ROLE_ACT_ROLE, 15, roleOff), (F.LANE_ROLE_ACT_ROLE, 16, roleOff), (F.LANE_ROLE_ACT_ROLE, 17, roleOff), (F.LANE_ROLE_ACT_ROLE, 18, roleOff), (F.LANE_ROLE_ACT_ROLE, 19, roleOff), (F.LANE_ROLE_ACT_ROLE, 20, roleOff), (F.LANE_ROLE_ACT_ROLE, 21, roleOff), (F.LANE_ROLE_ACT_ROLE, 22, roleOff), (F.LN_STAT_ALIGNED, 23, 1), (F.LN_STAT_SIG, 23, 1), (F.LN_STAT_LOCK, 23, 1), (F.LANE_ROLE_ACT_ROLE, 23, roleParent), (F.LANE_ROLE_ACT_PORT, 23, 1), (F.HEN_UPSTAT_PORT, 0, 1)] with start := {} }
     let d : Down := { ack := 7, grant := 200, claimP := true, nak := false, kind := 5, trig := 5, claim := 9, eseq := 1, edly := 3, pstart := false, plen := 0, pbytes := List.replicate 40 0 }
     h.start.held = false ∧ h.flag F.LN_STAT_ALIGNED 23 = true ∧ h.signal 23 = true ∧ h.role 23 = roleParent ∧
       h.powered 23 = true ∧ h.timingLane ≠ some 23 ∧ downOf (d.bytes 0x4D) = some (d, 0)) := by
  refine ⟨?_, ?_, ?_, ?_, ?_, ?_, ?_, ?_, ?_, ?_, ?_⟩ <;> decide +kernel

theorem witness_LanesAreWatched :
    -- lane los
    (let h : Hub := { hub [(F.LANE_ROLE_ACT_ROLE, 2, roleChild)] with lanes := [(2, { cause := 4 })] }
     let h' := run (.laneLos 2) h
     (h.role 2 = roleChild) ∧ h'.flag F.LN_STAT_SIG 2 = false ∧ h'.flag F.LN_STAT_ALIGNED 2 = false ∧ (h'.lane 2).cause = 1 ∧
       same h h' [F.LN_STAT_SIG.addr 2] = true) ∧
    -- lane los off
    (let h : Hub := { hub [(F.LANE_ROLE_ACT_ROLE, 2, roleOff)] with lanes := [(2, { cause := 4 })] }
     let h' := run (.laneLos 2) h
     (h.role 2 = roleOff) ∧ h'.flag F.LN_STAT_SIG 2 = false ∧ h'.flag F.LN_STAT_ALIGNED 2 = false ∧ (h'.lane 2).cause = 4 ∧
       same h h' [F.LN_STAT_SIG.addr 2] = true) ∧
    -- lane los clear
    (let h : Hub := { hub [] with start := {} }
     let h' := run (.laneLosClear 2) h
     (h.start.held = false) ∧ h'.flag F.LN_STAT_SIG 2 = true ∧ only h h' [F.LN_STAT_SIG.addr 2] = true) ∧
    -- lane lol
    (let h : Hub := { hub [(F.LANE_ROLE_ACT_ROLE, 2, roleTwin)] with lanes := [(2, { cause := 1 })] }
     let h' := run (.laneLol 2) h
     (h.role 2 = roleTwin) ∧ h'.flag F.LN_STAT_LOCK 2 = false ∧ h'.flag F.LN_STAT_ALIGNED 2 = false ∧ (h'.lane 2).cause = 1 ∧
       same h h' [F.LN_STAT_SIG.addr 2] = true) ∧
    -- lane lol2
    (let h : Hub := { hub [(F.LANE_ROLE_ACT_ROLE, 2, roleParent)] with lanes := [(2, { cause := 3 })] }
     let h' := run (.laneLol 2) h
     (h.role 2 = roleParent) ∧ h'.flag F.LN_STAT_LOCK 2 = false ∧ h'.flag F.LN_STAT_ALIGNED 2 = false ∧ (h'.lane 2).cause = 2 ∧
       same h h' [F.LN_STAT_SIG.addr 2] = true) ∧
    -- lane lol clear
    (let h : Hub := { hub [] with start := {} }
     let h' := run (.laneLolClear 2) h
     (h.start.held = false) ∧ h'.flag F.LN_STAT_LOCK 2 = true ∧ only h h' [F.LN_STAT_SIG.addr 2] = true) ∧
    -- lane los clear held
    (let h : Hub := { hub [] with start := { held := true } }
     h.start.held = true) ∧
    -- lane lost
    (
       let h : Hub := { hub [(F.LANE_ROLE_ACT_ROLE, 2, roleParent), (F.LN_STAT_ALIGNED, 2, 1), (F.LANE_ROLE_RATE, 2, 0)] with lanes := [(2, { fails := 4, cause := 5 })] }
     let h' := run (.lossOfAlignment 2) h
     (h.flag F.LN_STAT_ALIGNED 2 = true ∧ 2 ≤ (h.lane 2).fails ∧ 4 ≤ (h.lane 2).fails * h.framePeriod 2 ∧
       h.role 2 = roleParent) ∧ h'.flag F.LN_STAT_ALIGNED 2 = false ∧ (h'.lane 2).cause = 3) ∧
    -- lane not lost
    (let h : Hub := { hub [(F.LANE_ROLE_RATE, 2, 0), (F.LN_STAT_ALIGNED, 2, 1)] with lanes := [(2, { fails := 3 })] }
     let h' := run (.lossOfAlignment 2) h
     ((h.lane 2).fails < 2 ∨ (h.lane 2).fails * h.framePeriod 2 < 4) ∧ h' = h) ∧
    -- lane found
    (
       let h : Hub := { hub [(F.LANE_ROLE_ACT_ROLE, 2, roleParent), (F.LANE_ROLE_ACT_ROLE, 0, roleOff), (F.LANE_ROLE_ACT_ROLE, 1, roleOff), (F.LANE_ROLE_ACT_ROLE, 3, roleOff), (F.LANE_ROLE_ACT_ROLE, 4, roleOff), (F.LANE_ROLE_ACT_ROLE, 5, roleOff), (F.LANE_ROLE_ACT_ROLE, 6, roleOff), (F.LANE_ROLE_ACT_ROLE, 7, roleOff), (F.LANE_ROLE_ACT_ROLE, 8, roleOff), (F.LANE_ROLE_ACT_ROLE, 9, roleOff), (F.LANE_ROLE_ACT_ROLE, 10, roleOff), (F.LANE_ROLE_ACT_ROLE, 11, roleOff), (F.LANE_ROLE_ACT_ROLE, 12, roleOff), (F.LANE_ROLE_ACT_ROLE, 13, roleOff), (F.LANE_ROLE_ACT_ROLE, 14, roleOff), (F.LANE_ROLE_ACT_ROLE, 15, roleOff), (F.LANE_ROLE_ACT_ROLE, 16, roleOff), (F.LANE_ROLE_ACT_ROLE, 17, roleOff), (F.LANE_ROLE_ACT_ROLE, 18, roleOff), (F.LANE_ROLE_ACT_ROLE, 19, roleOff), (F.LANE_ROLE_ACT_ROLE, 20, roleOff), (F.LANE_ROLE_ACT_ROLE, 21, roleOff), (F.LANE_ROLE_ACT_ROLE, 22, roleOff), (F.LANE_ROLE_ACT_ROLE, 23, roleOff), (F.LN_STAT_ALIGNED, 2, 0), (F.LN_STAT_SIG, 2, 1), (F.LN_STAT_LOCK, 2, 1)] with lanes := [(2, { fails := 4 })] }
     h.flag F.LN_STAT_ALIGNED 2 = false ∧ h.signal 2 = true ∧ h.powered 2 = true ∧ h.upLane 2 = true) ∧
    -- lane found child
    (
       let h : Hub := { hub [(F.LANE_ROLE_ACT_ROLE, 2, roleChild), (F.LN_STAT_ALIGNED, 2, 0), (F.LN_STAT_SIG, 2, 1), (F.LN_STAT_LOCK, 2, 1)] with lanes := [(2, { fails := 4 })] }
     let h' := run (.alignmentFound 2) h
     (h.flag F.LN_STAT_ALIGNED 2 = false ∧ h.signal 2 = true ∧ h.powered 2 = true ∧ h.upLane 2 = false) ∧
       h'.flag F.LN_STAT_ALIGNED 2 = true ∧ (h'.lane 2).fails = 0) ∧
    -- lane not found
    (let h : Hub := hub [(F.LN_STAT_ALIGNED, 2, 0), (F.LN_STAT_SIG, 2, 0)]
     let h' := run (.alignmentFound 2) h
     (h.signal 2 = false) ∧ h' = h) ∧
    -- lane not powered
    (let h : Hub := hub [(F.LANE_ROLE_ACT_ROLE, 2, roleOff), (F.LANE_ROLE_ROLE, 2, roleOff), (F.LN_PRBS_GEN_EN, 2, 0),
       (F.LN_PRBS_CHK_EN, 2, 0)]
     h.powered 2 = false) ∧
    -- lane found already
    (let h : Hub := hub [(F.LN_STAT_ALIGNED, 2, 1)]
     h.flag F.LN_STAT_ALIGNED 2 = true) ∧
    -- lane trained
    (
       let h : Hub := { hub [(F.LANE_ROLE_ACT_ROLE, 0, roleOff), (F.LANE_ROLE_ACT_ROLE, 1, roleOff), (F.LANE_ROLE_ACT_ROLE, 3, roleOff), (F.LANE_ROLE_ACT_ROLE, 4, roleOff), (F.LANE_ROLE_ACT_ROLE, 5, roleOff), (F.LANE_ROLE_ACT_ROLE, 6, roleOff), (F.LANE_ROLE_ACT_ROLE, 7, roleOff), (F.LANE_ROLE_ACT_ROLE, 8, roleOff), (F.LANE_ROLE_ACT_ROLE, 9, roleOff), (F.LANE_ROLE_ACT_ROLE, 10, roleOff), (F.LANE_ROLE_ACT_ROLE, 11, roleOff), (F.LANE_ROLE_ACT_ROLE, 12, roleOff), (F.LANE_ROLE_ACT_ROLE, 13, roleOff), (F.LANE_ROLE_ACT_ROLE, 14, roleOff), (F.LANE_ROLE_ACT_ROLE, 15, roleOff), (F.LANE_ROLE_ACT_ROLE, 16, roleOff), (F.LANE_ROLE_ACT_ROLE, 17, roleOff), (F.LANE_ROLE_ACT_ROLE, 18, roleOff), (F.LANE_ROLE_ACT_ROLE, 19, roleOff), (F.LANE_ROLE_ACT_ROLE, 20, roleOff), (F.LANE_ROLE_ACT_ROLE, 21, roleOff), (F.LANE_ROLE_ACT_ROLE, 22, roleOff), (F.LANE_ROLE_ACT_ROLE, 23, roleOff), (F.LANE_ROLE_ACT_ROLE, 2, roleParent), (F.LN_STAT_ALIGNED, 2, 1), (F.LN_STAT_TRAINED, 2, 0)] with lanes := [(2, { train := 0 })] }
     let h' := run (.trainingEnd 2) h
     (h.upLane 2 = true ∧ h.flag F.LN_STAT_ALIGNED 2 = true ∧ h.flag F.LN_STAT_TRAINED 2 = false ∧ (h.lane 2).train = 0) ∧
       h'.flag F.LN_STAT_TRAINED 2 = true ∧ (h'.lane 2).trainedAt = h.slot ∧ same h h' [F.LN_STAT_SIG.addr 2] = true) ∧
    -- lane trained spare
    (
       let h : Hub := { hub [(F.LANE_ROLE_ACT_ROLE, 2, roleSpare), (F.RS_LANE_LANE, 1, 2), (F.RS_LANE_ROLE, 1, roleParent), (F.LN_STAT_ALIGNED, 2, 1), (F.LN_STAT_TRAINED, 2, 0)] with lanes := [(2, { train := 0 })], rsv := { preps := [{ kind := 4, spare := 1, unit := 7, left := 0, since := 0, reactive := true }] } }
     h.upLane 2 = true ∧ h.flag F.LN_STAT_ALIGNED 2 = true ∧ h.flag F.LN_STAT_TRAINED 2 = false ∧ (h.lane 2).train = 0) ∧
    -- lane trained not
    (
       let h : Hub := { hub [(F.LANE_ROLE_ACT_ROLE, 2, roleSpare), (F.LN_STAT_ALIGNED, 2, 1), (F.LN_STAT_TRAINED, 2, 0)] with lanes := [], rsv := {} }
     h.upLane 2 = false) ∧
    -- lane training
    (let h : Hub := { hub [] with lanes := [(2, { train := 1 })] }
     let h' := run (.trainingEnd 2) h
     ((h.lane 2).train ≠ 0) ∧ h' = h) ∧
    -- lane ack
    (
       let h : Hub := { hub [(F.LANE_ROLE_ACT_ROLE, 2, roleParent)] with lanes := [(2, { cause := 5, kept := [{ seq := 9, kind := 1, new := true, again := false, cell := [5], recs := [] }], ackSlot := (hub []).slot - 512#48 })] }
     let h' := run (.ackTimeout 2) h
     (h.role 2 = roleParent ∧ (h.lane 2).kept ≠ [] ∧ 512 ≤ slotsFrom (h.lane 2).ackSlot h.slot) ∧ (h'.lane 2).cause = 4 ∧
       h'.regs = h.regs) ∧
    -- lane ack none
    (let h : Hub := { hub [] with lanes := [(2, { kept := [] })] }
     let h' := run (.ackTimeout 2) h
     ((h.lane 2).kept = []) ∧ h' = h) ∧
    -- lane fence
    (
       let h : Hub := { hub [(F.LANE_ROLE_ACT_ROLE, 2, roleParent), (F.LANE_ROLE_ACT_PORT, 2, 1), (F.HEN_UPSTAT_PORT, 0, 1)] with lanes := [(2, { cause := 3, kept := [{ seq := 9, kind := 1, new := true, again := false, cell := [5], recs := [{ ws := [1, 2, 3, 4], cls := .hit }] }], tx := [{ r := { ws := [1, 2, 3, 4], cls := .hit }, sent := 2, reserved := 1 }] })], goose := {} }
     (h.lane 2).cause ≠ 0 ∧ h.role 2 = roleParent ∧ h.lanePort 2 = h.portInForce) ∧
    -- lane fence child
    (
       let h : Hub := { hub [(F.LANE_ROLE_ACT_ROLE, 2, roleChild), (F.LANE_ROLE_ACT_PORT, 2, 1), (F.HEN_UPSTAT_PORT, 0, 1)] with lanes := [(2, { cause := 1, rx := [3, 4] })], goose := {} }
     (h.lane 2).cause ≠ 0 ∧ h.role 2 = roleChild) ∧
    -- lane fence twin
    (let h : Hub := { hub [(F.LANE_ROLE_ACT_ROLE, 2, roleTwin)] with lanes := [(2, { cause := 2 })] }
     (h.lane 2).cause ≠ 0 ∧ h.role 2 = roleTwin) ∧
    -- lane fence none
    (let h : Hub := { hub [] with lanes := [(2, { cause := 0 })] }
     let h' := run (.laneFence 2) h
     ((h.lane 2).cause = 0) ∧ h' = h.standbys) := by
  refine ⟨?_, ?_, ?_, ?_, ?_, ?_, ?_, ?_, ?_, ?_, ?_, ?_, ?_, ?_, ?_, ?_, ?_, ?_, ?_, ?_, ?_, ?_, ?_, ?_⟩ <;> decide +kernel

theorem witness_LaneRolesAreTaken :
    -- role not setup
    (let h : Hub := hub [(F.MODE_STAT_MODE, 0, mRun)]
     let h' := run (.laneRoleWrite 5 3) h
     (h.mode ≠ mSetup) ∧ h' = h) ∧
    -- role waits
    (
       let h : Hub := { hub [(F.MODE_STAT_MODE, 0, mSetup)] with pk := { cur := some { pkt := { src := .tether, dest := 0, seq := 1, broadcast := false, noReply := false, forward := false, atomic := false, code := [0], arrived := 0, hub := 0 }, start := 0, mode := 1, view := [], viewBank := [], roles := [(7, 1)] } } }
     let h' := run (.laneRoleWrite 5 0x101) h
     (h.start.held = false ∧ h.mode = mSetup ∧ h.pk.cur.isSome = true) ∧ (h'.pk.cur.map fun y => y.roles) = some [(7, 1), (5,
       h.takenAs (F.LANE_ROLE_ROLE.addr 5) 0x101)] ∧ h'.regs = h.regs ∧ h'.lanes = h.lanes) ∧
    -- role alone bad
    (
       let h : Hub := { (((List.range 24).foldl (fun (h : Hub) l => (h.setFld F.LANE_ROLE_ROLE l roleOff).setFld F.LANE_ROLE_ACT_ROLE l roleOff) (hub [])).setFld F.MODE_STAT_MODE 0 mSetup) with pk := {}, start := {} }
     let breaks (h : Hub) (ws : List (Nat × W32)) : Bool := let all := (List.range 24).map fun l => h.roleAfter ws l; let ofPort (k : Nat) := all.filter fun x => x.1 == roleChild && x.2.1 == k; decide (12 < (all.filter fun x => x.1 == roleParent).length) || decide (8 < (all.filter fun x => x.1 == roleChild).length) || decide (1 < (all.filter fun x => x.1 == roleTwin).length) || (List.range 4).any (fun k => decide (2 < (ofPort k).length)) || all.any (fun x => all.any fun y => x.1 == roleParent && y.1 == roleParent && x.2.2 != y.2.2) || (List.range 4).any (fun k => (ofPort k).any fun x => (ofPort k).any fun y => x.2.2 != y.2.2) || all.any (fun x => x.1 == roleChild && x.2.2 == 2)
     h.mode = mSetup ∧ h.start.held = false ∧ h.pk.cur = none ∧ breaks h [(5,
       h.takenAs (F.LANE_ROLE_ROLE.addr 5) 0x202)] = true) ∧
    -- role alone
    (
       let h : Hub := { (((List.range 24).foldl (fun (h : Hub) l => (h.setFld F.LANE_ROLE_ROLE l roleOff).setFld F.LANE_ROLE_ACT_ROLE l roleOff) (hub [])).setFld F.MODE_STAT_MODE 0 mSetup) with pk := {}, start := {} }
     let breaks (h : Hub) (ws : List (Nat × W32)) : Bool := let all := (List.range 24).map fun l => h.roleAfter ws l; let ofPort (k : Nat) := all.filter fun x => x.1 == roleChild && x.2.1 == k; decide (12 < (all.filter fun x => x.1 == roleParent).length) || decide (8 < (all.filter fun x => x.1 == roleChild).length) || decide (1 < (all.filter fun x => x.1 == roleTwin).length) || (List.range 4).any (fun k => decide (2 < (ofPort k).length)) || all.any (fun x => all.any fun y => x.1 == roleParent && y.1 == roleParent && x.2.2 != y.2.2) || (List.range 4).any (fun k => (ofPort k).any fun x => (ofPort k).any fun y => x.2.2 != y.2.2) || all.any (fun x => x.1 == roleChild && x.2.2 == 2)
     h.mode = mSetup ∧ h.start.held = false ∧ h.pk.cur = none ∧ breaks h [(5,
       h.takenAs (F.LANE_ROLE_ROLE.addr 5) 0x102)] = false) ∧
    -- role held
    (let h : Hub := { hub [(F.MODE_STAT_MODE, 0, mSetup)] with start := { held := true } }
     h.start.held = true) ∧
    -- role check
    (
       let h : Hub := let x : Exec := { executing (.lane 3) 1 with reply := [7], roles := [(5, 0x002), (6, 0x002), (7, 0x012)], roleAt := 4 }; { (((List.range 24).foldl (fun (h : Hub) l => (h.setFld F.LANE_ROLE_ROLE l roleOff).setFld F.LANE_ROLE_ACT_ROLE l roleOff) (hub [])).setFld F.MODE_STAT_MODE 0 mSetup) with pk := { cur := some x }, bull := { fg := { pc := 0x4001, wait := .run } }, start := {} }
     let x : Exec := { executing (.lane 3) 1 with reply := [7], roles := [(5, 0x002), (6, 0x002), (7, 0x012)], roleAt := 4 }
     let breaks (h : Hub) (ws : List (Nat × W32)) : Bool := let all := (List.range 24).map fun l => h.roleAfter ws l; let ofPort (k : Nat) := all.filter fun x => x.1 == roleChild && x.2.1 == k; decide (12 < (all.filter fun x => x.1 == roleParent).length) || decide (8 < (all.filter fun x => x.1 == roleChild).length) || decide (1 < (all.filter fun x => x.1 == roleTwin).length) || (List.range 4).any (fun k => decide (2 < (ofPort k).length)) || all.any (fun x => all.any fun y => x.1 == roleParent && y.1 == roleParent && x.2.2 != y.2.2) || (List.range 4).any (fun k => (ofPort k).any fun x => (ofPort k).any fun y => x.2.2 != y.2.2) || all.any (fun x => x.1 == roleChild && x.2.2 == 2)
     h.packetOver x = true ∧ breaks h (h.pk.roles ++ x.roles) = false) ∧
    -- role check bad
    (
       let h : Hub := let x : Exec := { executing (.lane 3) 1 with reply := [7], roles := [(5, 0x002), (6, 0x002), (7, 0x002)], roleAt := 4 }; { (((List.range 24).foldl (fun (h : Hub) l => (h.setFld F.LANE_ROLE_ROLE l roleOff).setFld F.LANE_ROLE_ACT_ROLE l roleOff) (hub [])).setFld F.MODE_STAT_MODE 0 mSetup) with pk := { cur := some x }, bull := { fg := { pc := 0x4001, wait := .run } }, start := {} }
     let x : Exec := { executing (.lane 3) 1 with reply := [7], roles := [(5, 0x002), (6, 0x002), (7, 0x002)], roleAt := 4 }
     let breaks (h : Hub) (ws : List (Nat × W32)) : Bool := let all := (List.range 24).map fun l => h.roleAfter ws l; let ofPort (k : Nat) := all.filter fun x => x.1 == roleChild && x.2.1 == k; decide (12 < (all.filter fun x => x.1 == roleParent).length) || decide (8 < (all.filter fun x => x.1 == roleChild).length) || decide (1 < (all.filter fun x => x.1 == roleTwin).length) || (List.range 4).any (fun k => decide (2 < (ofPort k).length)) || all.any (fun x => all.any fun y => x.1 == roleParent && y.1 == roleParent && x.2.2 != y.2.2) || (List.range 4).any (fun k => (ofPort k).any fun x => (ofPort k).any fun y => x.2.2 != y.2.2) || all.any (fun x => x.1 == roleChild && x.2.2 == 2)
     h.packetOver x = true ∧ breaks h (h.pk.roles ++ x.roles) = true) ∧
    -- role none
    (let h : Hub := { hub [] with pk := {} }
     h.pk.roles = []) ∧
    -- role not left
    (let h : Hub := { hub [] with pk := { roles := [(5, 0x11)], awaitTether := 1 } }
     h.repliesLeft = false) ∧
    -- role applied
    (let h : Hub := { hub [(F.LN_STAT_FENCED, 5, 1)] with pk := { roles := [(5, 0x11)] } }
     h.repliesLeft = true ∧ h.pk.roles = [(5, 0x11)]) ∧
    -- role applied all
    (let h : Hub := { hub [(F.LN_STAT_FENCED, 5, 1)] with pk := { roles := [(5, 0x232)] } }
     h.repliesLeft = true ∧ True) := by
  refine ⟨?_, ?_, ?_, ?_, ?_, ?_, ?_, ?_, ?_, ?_, ?_⟩ <;> decide +kernel

theorem witness_LaneTestsAct :
    -- prbs gen
    (
       let h : Hub := { hub [(F.LANE_ROLE_ACT_ROLE, 5, roleOff), (F.LN_STAT_FENCED, 5, 0), (F.LN_PRBS_CHK_EN, 5, 0), (F.LN_BERR_ERRORS, 5, 9), (F.LN_BITS_LO_V, 5, 7)] with start := {} }
     h.start.held = false ∧ (h.role 5 = roleOff ∧ h.flag F.LN_STAT_FENCED 5 = false)) ∧
    -- prbs turned away
    (let h : Hub := { hub [(F.LANE_ROLE_ACT_ROLE, 5, roleParent)] with start := {} }
     let v : W32 := 0xFFFFFFFF
     let h' := run (.prbsChecker 5 v) h
     (h.start.held = false ∧ F.LN_PRBS_GEN_EN.get v = 1 ∧ h.role 5 = roleParent) ∧ h' = h ∧ run (.prbsGenerator 5 v) h = h) ∧
    -- prbs off
    (let h : Hub := { hub [(F.LANE_ROLE_ACT_ROLE, 5, roleParent)] with start := {} }
     let h' := run (.prbsChecker 5 0) h
     (h.start.held = false ∧ F.LN_PRBS_GEN_EN.get 0 ≠ 1) ∧ h'.fld F.LN_PRBS_PAT 5 = 0 ∧ h'.fld F.LN_PRBS_GEN_EN 5 = 0 ∧
       h'.fld F.LN_PRBS_CHK_EN 5 = 0) ∧
    -- prbs lock off
    (let h : Hub := hub [(F.LN_PRBS_CHK_EN, 5, 0)]
     let h' := run (.prbsLock 5 [true]) h
     ((h.patternLane 5 && h.flag F.LN_PRBS_CHK_EN 5 && h.signal 5) = false) ∧ h' = h) ∧
    -- prbs lock
    (
       let h : Hub := { hub [(F.LANE_ROLE_ACT_ROLE, 5, roleOff), (F.LN_STAT_FENCED, 5, 0), (F.LN_STAT_SIG, 5, 1), (F.LN_STAT_LOCK, 5, 1), (F.LN_PRBS_CHK_EN, 5, 1), (F.LN_PRBS_PAT, 5, 0), (F.LN_PRBS_INV, 5, 0), (F.LN_PRBS_CHK_LOCK, 5, 0)] with lanes := [(5, { prbsRun := 63, chkReg := 0x41 })] }
     let h' := run (.prbsLock 5 [true]) h
     ((h.patternLane 5 && h.flag F.LN_PRBS_CHK_EN 5 && h.signal 5) = true ∧ h.flag F.LN_PRBS_CHK_LOCK 5 = false ∧
       prbsNext 0 0x41 = true) ∧ h'.flag F.LN_PRBS_CHK_LOCK 5 = true ∧ (h'.lane 5).chkReg = takeBit 0x41 true ∧
       h'.fld F.LN_BITS_LO_V 5 = h.fld F.LN_BITS_LO_V 5 ∧ h'.fld F.LN_BERR_ERRORS 5 = h.fld F.LN_BERR_ERRORS 5) ∧
    -- prbs no lock
    (
       let h : Hub := { hub [(F.LANE_ROLE_ACT_ROLE, 5, roleOff), (F.LN_STAT_FENCED, 5, 0), (F.LN_STAT_SIG, 5, 1), (F.LN_STAT_LOCK, 5, 1), (F.LN_PRBS_CHK_EN, 5, 1), (F.LN_PRBS_PAT, 5, 0), (F.LN_PRBS_INV, 5, 1), (F.LN_PRBS_CHK_LOCK, 5, 0)] with lanes := [(5, { prbsRun := 63, chkReg := 0x41 })] }
     (h.patternLane 5 && h.flag F.LN_PRBS_CHK_EN 5 && h.signal 5) = true ∧ h.flag F.LN_PRBS_CHK_LOCK 5 = false) ∧
    -- prbs counts
    (
       let h : Hub := { hub [(F.LANE_ROLE_ACT_ROLE, 5, roleOff), (F.LN_STAT_FENCED, 5, 0), (F.LN_STAT_SIG, 5, 1), (F.LN_STAT_LOCK, 5, 1), (F.LN_PRBS_CHK_EN, 5, 1), (F.LN_PRBS_PAT, 5, 0), (F.LN_PRBS_INV, 5, 0), (F.LN_PRBS_CHK_LOCK, 5, 1), (F.LN_BITS_LO_V, 5, 0xFFFFFFFF), (F.LN_BERR_ERRORS, 5, 0xFFFF)] with lanes := [(5, { chkReg := 0x41 })] }
     let h' := run (.prbsLock 5 [false]) h
     ((h.patternLane 5 && h.flag F.LN_PRBS_CHK_EN 5 && h.signal 5) = true ∧ h.flag F.LN_PRBS_CHK_LOCK 5 = true) ∧
       h'.fld F.LN_BITS_LO_V 5 = 0 ∧ counted h h' F.LN_BERR_ERRORS 5 1 = true ∧ h'.flag F.LN_PRBS_CHK_LOCK 5 = true) ∧
    -- prbs counts many
    (
       let h : Hub := { hub [(F.LANE_ROLE_ACT_ROLE, 5, roleOff), (F.LN_STAT_FENCED, 5, 0), (F.LN_STAT_SIG, 5, 1), (F.LN_STAT_LOCK, 5, 1), (F.LN_PRBS_CHK_EN, 5, 1), (F.LN_PRBS_PAT, 5, 0), (F.LN_PRBS_INV, 5, 0), (F.LN_PRBS_CHK_LOCK, 5, 1)] with lanes := [(5, { chkReg := 0x41, prbsWin := List.replicate 16 false ++ List.replicate 40 true })] }
     (h.patternLane 5 && h.flag F.LN_PRBS_CHK_EN 5 && h.signal 5) = true ∧ h.flag F.LN_PRBS_CHK_LOCK 5 = true) ∧
    -- inject
    (let h : Hub := { hub [(F.LN_STAT_INJ_BUSY, 5, 0), (F.LN_INJ_MODE, 5, 2)] with start := {} }
     let h' := run (.errorInjection 5) h
     (h.start.held = false ∧ h.flag F.LN_STAT_INJ_BUSY 5 = false ∧ h.fld F.LN_INJ_MODE 5 ≠ 0) ∧
       h'.flag F.LN_STAT_INJ_BUSY 5 = true ∧ (h'.lane 5).injMode = h.fld F.LN_INJ_MODE 5 ∧
       (h'.lane 5).injLeft = h.fld F.LN_INJ_LEN 5 ∧ same h h' [F.LN_STAT_SIG.addr 5] = true) ∧
    -- inject busy
    (let h : Hub := hub [(F.LN_STAT_INJ_BUSY, 5, 1)]
     let h' := run (.errorInjection 5) h
     (h.flag F.LN_STAT_INJ_BUSY 5 = true) ∧ h' = h) := by
  refine ⟨?_, ?_, ?_, ?_, ?_, ?_, ?_, ?_, ?_, ?_⟩ <;> decide +kernel

theorem witness_PacketsAreTaken :
    -- packet no source
    (let h : Hub := hub [(F.LANE_ROLE_ACT_ROLE, 3, roleChild)]
     let h' := run (.packetRoute 3 [1, 2, 3]) h
     (h.takesPackets 3 = false) ∧ h' = h ∧ run (.packetAccept (.lane 3) [1, 2]) h = h) ∧
    -- packet short
    (
       let h : Hub := { hub [(F.LANE_ROLE_ACT_ROLE, 3, roleParent), (F.LANE_ROLE_ACT_PORT, 3, 0), (F.HEN_UPSTAT_PORT, 0, 0)] with start := {} }
     h.takesPackets 3 = true) ∧
    -- packet unreadable
    (
       let h : Hub := { hub [(F.LANE_ROLE_ACT_ROLE, 3, roleParent), (F.LANE_ROLE_ACT_PORT, 3, 0), (F.HEN_UPSTAT_PORT, 0, 0)] with start := {} }
     h.takesPackets 3 = true ∧ pkUnreadable (pkHeader (packet 0x00BA007004010000 [])) = true) ∧
    -- packet truncated
    (
       let h : Hub := { hub [(F.LANE_ROLE_ACT_ROLE, 3, roleParent), (F.LANE_ROLE_ACT_PORT, 3, 0), (F.HEN_UPSTAT_PORT, 0, 0)] with start := {} }
     let b := (packet 0x00BA007000020000 [5, 6]).dropLast
     h.takesPackets 3 = true ∧ 8 ≤ b.length ∧ pkUnreadable (pkHeader b) = false ∧ b.length < pkLength (pkHeader b)) ∧
    -- packet unroutable
    (
       let h : Hub := { hub [(F.LANE_ROLE_ACT_ROLE, 3, roleParent), (F.LANE_ROLE_ACT_PORT, 3, 0), (F.HEN_UPSTAT_PORT, 0, 0)] with start := {} }
     let b := packet 0x0BB0007000020000 [5, 6]
     h.takesPackets 3 = true ∧ b.length = pkLength (pkHeader b) ∧ pkUnreadable (pkHeader b) = false ∧
       h.pkMine (pkHeader b) = false ∧ h.routePorts (pkHeader b) = []) ∧
    -- packet forwarded
    (
       let h : Hub := { hub [(F.LANE_ROLE_ACT_ROLE, 3, roleParent), (F.LANE_ROLE_ACT_PORT, 3, 0), (F.HEN_UPSTAT_PORT, 0, 0), (F.LANE_ROLE_ACT_ROLE, 9, roleChild), (F.LANE_ROLE_ACT_PORT, 9, 2), (F.ROUTE_LO, 2, 0x0BB0), (F.ROUTE_HI, 2, 0x0BB0), (F.ROUTE_LO, 0, 1), (F.ROUTE_HI, 0, 0), (F.ROUTE_LO, 1, 1), (F.ROUTE_HI, 1, 0)] with start := {}, hen := {} }
     let b := packet 0x0BB0007200020000 [5, 6]
     let h' := run (.packetRoute 3 b) h
     (h.takesPackets 3 = true ∧ b.length = pkLength (pkHeader b) ∧ pkUnreadable (pkHeader b) = false ∧
       h.pkMine (pkHeader b) = false ∧ h.routePorts (pkHeader b) = [2] ∧ (h.child 2).fwd.length + h.forwardComing 3 2 < 8) ∧
       (h'.child 2).fwd = [(b, true)] ∧ counted h h' F.CP_FWD_COUNT 0 1 = true ∧ h'.pk = h.pk) ∧
    -- packet forward full
    (
       let h : Hub := { hub [(F.LANE_ROLE_ACT_ROLE, 3, roleParent), (F.LANE_ROLE_ACT_PORT, 3, 0), (F.HEN_UPSTAT_PORT, 0, 0), (F.LANE_ROLE_ACT_ROLE, 9, roleChild), (F.LANE_ROLE_ACT_PORT, 9, 2), (F.ROUTE_LO, 2, 0x0BB0), (F.ROUTE_HI, 2, 0x0BB0), (F.ROUTE_LO, 0, 1), (F.ROUTE_HI, 0, 0), (F.ROUTE_LO, 1, 1), (F.ROUTE_HI, 1, 0)] with start := {}, hen := { child := [(2, { fwd := List.replicate 8 ([1], true) })] } }
     let b := packet 0x0BB0007200020000 [5, 6]
     h.takesPackets 3 = true ∧ b.length = pkLength (pkHeader b) ∧ pkUnreadable (pkHeader b) = false ∧
       h.pkMine (pkHeader b) = false ∧ h.routePorts (pkHeader b) = [2] ∧ 8 ≤ (h.child 2).fwd.length + h.forwardComing 3 2) ∧
    -- packet bad crc
    (let h : Hub := { hub [(F.HUB_ADDR_VALID, 0, 1)] with start := {} }
     let b := (packet 0x00BA007000020000 [5, 6]).set 9 1
     h.start.held = false ∧ b.length = pkLength (pkHeader b) ∧ pkUnreadable (pkHeader b) = false ∧
       h.pkMine (pkHeader b) = true ∧ BitVec.ofNat 32 (ofBytes (b.drop 16)) ≠ crc32c (b.take 16)) ∧
    -- packet again
    (
       let h : Hub := { hub [(F.LANE_ROLE_ACT_ROLE, 3, roleParent), (F.LANE_ROLE_ACT_PORT, 3, 0), (F.HEN_UPSTAT_PORT, 0, 0)] with start := {}, pk := { laneReply := some { seq := 7, slot := 0, ws := [1, 2, 3] } } }
     let b := packet 0x00BA007000020000 [5, 6]
     h.takesPackets 3 = true ∧ h.start.held = false ∧ b.length = pkLength (pkHeader b) ∧ pkUnreadable (pkHeader b) = false ∧
       h.pkMine (pkHeader b) = true ∧ BitVec.ofNat 32 (ofBytes (b.drop 16)) = crc32c (b.take 16) ∧
       ((h.stored (.lane 3)).any fun r => r.seq.toNat == pkSeq (pkHeader b)) = true) ∧
    -- packet full
    (
       let h : Hub := { hub [(F.LANE_ROLE_ACT_ROLE, 3, roleParent), (F.LANE_ROLE_ACT_PORT, 3, 0), (F.HEN_UPSTAT_PORT, 0, 0)] with start := {}, pk := { waiting := List.replicate 4 (taken .tether 1) } }
     let b := packet 0x00BA007000020000 [5, 6]
     h.takesPackets 3 = true ∧ h.start.held = false ∧ b.length = pkLength (pkHeader b) ∧ pkUnreadable (pkHeader b) = false ∧
       h.pkMine (pkHeader b) = true ∧ BitVec.ofNat 32 (ofBytes (b.drop 16)) = crc32c (b.take 16) ∧ h.stored (.lane 3) = none ∧
       4 ≤ h.pk.waiting.length) ∧
    -- packet taken
    (
       let h : Hub := { hub [(F.LANE_ROLE_ACT_ROLE, 3, roleParent), (F.LANE_ROLE_ACT_PORT, 3, 0), (F.HEN_UPSTAT_PORT, 0, 0)] with start := {}, pk := { waiting := List.replicate 3 (taken .tether 1) } }
     let b := packet 0x00BA007500020000 [5, 6]
     h.takesPackets 3 = true ∧ h.start.held = false ∧ b.length = pkLength (pkHeader b) ∧ pkUnreadable (pkHeader b) = false ∧
       h.pkMine (pkHeader b) = true ∧ BitVec.ofNat 32 (ofBytes (b.drop 16)) = crc32c (b.take 16) ∧ h.stored (.lane 3) = none ∧
       h.pk.waiting.length < 4) := by
  refine ⟨?_, ?_, ?_, ?_, ?_, ?_, ?_, ?_, ?_, ?_, ?_⟩ <;> decide +kernel

theorem witness_PacketsAreExecuted :
    -- execute start
    (
       let h : Hub := { hub [] with start := {}, pk := { waiting := [{ taken (.lane 3) 2 with arrived := (hub []).slot - 1#48 }, taken (.lane 3) 1] } }
     (h.pk.waiting.head?.map fun p => h.mayStart p) = some true) ∧
    -- execute not yet
    (let h : Hub := { hub [] with start := {}, pk := { waiting := [{ taken (.lane 3) 2 with arrived := (hub []).slot }] } }
     let h' := run (.packetExecuteStart) h
     ((h.pk.waiting.head?.map fun p => h.mayStart p) = some false) ∧ h' = h) ∧
    -- execute goes on
    (
       let h : Hub := { hub [(F.CP_CFG_LIMIT, 0, 9)] with bull := { fg := { pc := 0x4001 } }, pk := { cur := some (executing (.lane 3) 5) } }
     let h' := run (.packetEnd) h
     (h.packetOver (executing (.lane 3) 5) = false) ∧ h' = h ∧ run .packetTimeout h = h) ∧
    -- execute timeout
    (
       let h : Hub := { hub [(F.CP_CFG_LIMIT, 0, 9)] with bull := { fg := { pc := 0x4003 } }, pk := { cur := some { executing (.lane 3) 5 with slots := 9, reply := [77] } } }
     (h.pk.cur.map fun x => h.packetOver x) = some false ∧ h.fld F.CP_CFG_LIMIT 0 ≤ 9 ∧ h.bull.fg.wait = .run) ∧
    -- execute timeout any
    (
       let h : Hub := { hub [(F.CP_CFG_LIMIT, 0, 9)] with bull := { fg := { pc := 0x4003 } }, pk := { cur := some { executing .tether 5 with slots := 9, reply := [77], held := [(0x54003, 4, 1)] } } }
     (h.pk.cur.map fun x => h.packetOver x) = some false ∧ h.fld F.CP_CFG_LIMIT 0 ≤ 9 ∧ h.bull.fg.wait = .run) ∧
    -- execute stopped
    (
       let h : Hub := { hub [] with bull := { fg := { pc := 0x4003 } }, pk := { cur := some { executing (.lane 3) 5 with stop := some (0x81, 4), reply := [77] } } }
     (h.pk.cur.map fun x => (h.packetOver x, x.pkt.atomic)) = some (true, false)) ∧
    -- execute stopped roles
    (
       let h : Hub := { hub [] with bull := { fg := { pc := 0x4003 } }, pk := { cur := some { executing .tether 5 with stop := some (0x81, 4), reply := [77], wkey := 2, roles := [(5, 0x11)], held := [(0x54003, 4, 1)] } } }
     (h.pk.cur.map fun x => h.packetOver x) = some true) ∧
    -- execute end
    (
       let h : Hub := { hub [] with bull := { fg := { pc := 0x4005 } }, pk := { cur := some { executing (.lane 3) 5 with reply := [77] } } }
     (h.pk.cur.map fun x => h.packetOver x) = some true) ∧
    -- execute end atomic
    (
       let h : Hub := { hub [] with bull := { fg := { pc := 0x4005 } }, pk := { cur := some { executing (.lane 3) 5 with held := [(0x54003, 4, 1)] } } }
     (h.pk.cur.map fun x => h.packetOver x) = some true) ∧
    -- atomic none
    (let h : Hub := { hub [] with pk := {} }
     let h' := run (.atomicApply) h
     (h.pk.apply = none) ∧ h' = h) ∧
    -- atomic mode
    (
       let h : Hub := { hub [(F.MODE_STAT_MODE, 0, mRun)] with pk := { apply := some { executing (.lane 3) 5 with held := [(0x54003, 4, 1)] } } }
     h.mode ≠ mSetup) ∧
    -- atomic applies
    (
       let h : Hub := { hub [(F.MODE_STAT_MODE, 0, mSetup)] with pk := { apply := some { executing .tether 5 with held := [(0x54000 + 0x3FFF, 4, 1)] } } }
     h.mode = mSetup) ∧
    -- atomic any
    (
       let h : Hub := { hub [(F.MODE_STAT_MODE, 0, mSetup)] with pk := { apply := some { executing .tether 5 with held := [(F.GPIO_DIR_DIR.addr 0, 4, 1), (F.RT_TNSSET_V.addr 0, 4, 2), (A.ATTN_STAT, 0xFFFF, 3), (F.FE_THR_TRIM.addr 3, 4, 5), (A.GPIO_IN, 4, 5)] } } }
     h.pk.apply.isSome = true) ∧
    -- atomic rejected
    (
       let h : Hub := { hub [(F.MODE_STAT_MODE, 0, mSetup), (F.LANE_ROLE_ACT_ROLE, 3, roleParent)] with pk := { apply := some { executing .tether 5 with held := [(0x54003, 4, 1), (F.LN_PRBS_PAT.addr 3, 0xFFFFFFFF, 7)] } } }
     let x := { executing .tether 5 with held := [(0x54003, 4, 1), (F.LN_PRBS_PAT.addr 3, 0xFFFFFFFF, 7)] }
     h.mode = x.mode ∧ h.heldRejected x ≠ none) ∧
    -- wreset none
    (let h : Hub := { hub [] with pk := {} }
     h.pk.cur = none) ∧
    -- wreset key
    (let h : Hub := { hub [] with pk := { cur := some { executing .tether 5 with wkey := 1 } } }
     h.pk.cur.isSome = true) := by
  refine ⟨?_, ?_, ?_, ?_, ?_, ?_, ?_, ?_, ?_, ?_, ?_, ?_, ?_, ?_, ?_, ?_⟩ <;> decide +kernel

theorem witness_RegistersAreWritten :
    -- write rejected
    (let h : Hub := hub [(F.MODE_STAT_MODE, 0, mRun)]
     let h' := run (.registerWrite 0x50003 7) h
     (h.rejects 0x50003 7 ≠ 0) ∧ h' = h) ∧
    -- write held
    (let h : Hub := { hub [(F.MODE_STAT_MODE, 0, mSetup)] with start := { held := true } }
     h.start.held = true) ∧
    -- write plain
    (let h : Hub := { hub [(F.MODE_STAT_MODE, 0, mSetup)] with start := {}, pk := {} }
     let h' := run (.registerWrite (BitVec.ofNat 24 (F.GPIO_DIR_DIR.addr 0)) 0xFFFFFFA5) h
     (h.start.held = false ∧ h.rejects (F.GPIO_DIR_DIR.addr 0) 0xFFFFFFA5 = 0) ∧ h'.fld F.GPIO_DIR_DIR 0 = 0xA5 ∧
       only h h' [F.GPIO_DIR_DIR.addr 0] = true) ∧
    -- write plain rooster
    (let h : Hub := { hub [(F.MODE_STAT_MODE, 0, mSetup)] with start := {}, pk := {} }
     let h' := run (.registerWrite (BitVec.ofNat 24 (F.RT_SLOTSET_HI_V.addr 0)) 0xFFFFFFA5) h
     (h.start.held = false ∧ h.rejects (F.RT_SLOTSET_HI_V.addr 0) 0xFFFFFFA5 = 0) ∧ h'.fld F.RT_SLOTSET_HI_V 0 = 0xFFA5 ∧
       only h h' [F.RT_SLOTSET_HI_V.addr 0] = true ∧
       only h (run (.registerWrite (BitVec.ofNat 24 (F.RT_TNSSET_V.addr 0)) 9) h) [F.RT_TNSSET_V.addr 0] = true ∧
       (run (.registerWrite (BitVec.ofNat 24 (F.RT_TNSSET_V.addr 0)) 9) h).fld F.RT_TNSSET_V 0 = 9 ∧
       (run (.registerWrite (BitVec.ofNat 24 (F.RT_SLOTSET_LO_V.addr 0)) 9) h).fld F.RT_SLOTSET_LO_V 0 = 9) ∧
    -- write shadow
    (let h : Hub := { hub [(F.MODE_STAT_MODE, 0, mDegraded), (F.FE_THR_TRIM, 511, 3)] with start := {} }
     let h' := run (.registerWrite (BitVec.ofNat 24 (F.FE_THR_TRIM.addr 511)) 0x1F) h
     (h.start.held = false ∧ h.rejects (F.FE_THR_TRIM.addr 511) 0x1F = 0 ∧ h.mode = mDegraded) ∧ h'.fld F.FE_THR_TRIM 511 = 3 ∧
       F.FE_THR_TRIM.get (Store.get (fun _ => 0) h'.shadow (F.FE_THR_TRIM.addr 511)) = 0x1F ∧
       h'.flag F.COMMIT_STAT_PENDING 0 = true) ∧
    -- write shadow setup
    (let h : Hub := { hub [(F.MODE_STAT_MODE, 0, mCalibrate), (F.FE_THR_TRIM, 511, 3)] with start := {} }
     let h' := run (.registerWrite (BitVec.ofNat 24 (F.FE_THR_TRIM.addr 511)) 0x1F) h
     (h.start.held = false ∧ h.rejects (F.FE_THR_TRIM.addr 511) 0x1F = 0 ∧ h.mode ≠ mRun ∧ h.mode ≠ mDegraded) ∧
       h'.fld F.FE_THR_TRIM 511 = 0x1F) ∧
    -- write memory
    (let h : Hub := { hub [(F.MODE_STAT_MODE, 0, mSetup)] with start := {}, bull := { dmem := [(3, 4)], imem := [(3, 4)] } }
     let h' := run (.registerWrite 0x57FFF 9) h
     (h.start.held = false ∧ h.mode = mSetup) ∧ Store.get (fun _ => 0) h'.bull.dmem 0x3FFF = 9 ∧ h'.regs = h.regs ∧
       Store.get (fun _ => 0) h'.bull.dmem 3 = 4 ∧ (run (.registerWrite 0x50003 0) h).bull.imem = [] ∧
       (run (.registerWrite 0x50003 0) h).regs = h.regs) ∧
    -- write codes
    (let h : Hub := hub [(F.MODE_STAT_MODE, 0, mRun), (F.JNL_STAT_STARTS, 0, 3)]
     h.start.held = false) := by
  refine ⟨?_, ?_, ?_, ?_, ?_, ?_, ?_, ?_⟩ <;> decide +kernel

theorem witness_TasksRun :
    -- task start
    (
       let h : Hub := { hub [] with bull := { tasks := [{ entry := 9, arg := 0xFFFFFFFF, slot := 15 }, { entry := 1, arg := 0, slot := 0 }] }, pk := {} }
     let h' := run (.bgTaskStart) h
     (h.bull.task = none ∧ h.fgYields = true) ∧ h'.bull.task = some { entry := 9, arg := 0xFFFFFFFF, slot := 15 } ∧
       h'.bull.tasks = [{ entry := 1, arg := 0, slot := 0 }] ∧ h'.bull.bg.pc = 9 ∧ h'.bull.bg.wait = .run ∧
       (∀ r ∈ List.range 32,
       Store.get (fun _ => (0 : W32)) h'.bull.bg.g r = if r = 1 then 0xFFFFFFFF#32 else if r = 2 then 15#32 else if r = 31 then 0x4400#32 else 0) ∧
       h'.regs = h.regs ∧ h'.bull.fg = h.bull.fg) ∧
    -- task not started
    (
       let h : Hub := { hub [] with bull := { tasks := [{ entry := 9, arg := 0xFFFFFFFF, slot := 15 }], fg := {} }, pk := { cur := some (executing .tether 3) } }
     h.fgYields = false) ∧
    -- task end busy
    (
       let h : Hub := { hub [(F.RSLOT_DESC_STATE, 15, 1), (F.RSLOT_DESC_WCOUNT, 15, 9)] with bull := { task := some { entry := 9, arg := 0, slot := 15 }, bg := { pc := 0x4400 }, tags := [(15, 77)] } }
     h.bull.bg.pc = 0x4400 ∧ h.fld F.RSLOT_DESC_STATE 15 = 1) ∧
    -- task end done
    (
       let h : Hub := { hub [(F.RSLOT_DESC_STATE, 15, 2)] with bull := { task := some { entry := 9, arg := 0, slot := 15 }, bg := { pc := 0x4400 } } }
     let h' := run (.bgTaskEnd) h
     (h.bull.bg.pc = 0x4400 ∧ h.fld F.RSLOT_DESC_STATE 15 ≠ 1) ∧ h'.bull.task = none ∧ h'.regs = h.regs) ∧
    -- task goes on
    (
       let h : Hub := { hub [] with bull := { task := some { entry := 9, arg := 0, slot := 15 }, bg := { pc := 0x4400, wait := .slots 1 } } }
     h.bull.bg.wait ≠ .run) := by
  refine ⟨?_, ?_, ?_, ?_, ?_⟩ <;> decide +kernel

theorem witness_CalibrationStartsAndStops :
    -- cal start
    (
       let h : Hub := { hub [(F.MODE_STAT_MODE, 0, mCalibrate), (F.CAL_STAT_BUSY, 0, 0), (F.CAL_STAT_FAIL, 0, 1), (F.CAL_STAT_NFAIL, 0, 9)] with start := {} }
     h.start.held = false ∧ h.mode = mCalibrate ∧ h.flag F.CAL_STAT_BUSY 0 = false) ∧
    -- cal start all
    (
       let h : Hub := { hub [(F.MODE_STAT_MODE, 0, mCalibrate), (F.CAL_STAT_BUSY, 0, 0), (F.CAL_STAT_FAIL, 0, 1), (F.CAL_STAT_NFAIL, 0, 9)] with start := {} }
     let all : List (Instr × Nat) := [(.calOffset 5 true, 1), (.calTdc 5 true, 2), (.calPhase 5 true, 3), (.calInj 5 true, 4),
       (.calGain 5 true, 5), (.calRatio 5 true, 6), (.calThresh 5 true, 7), (.calTimeofs 5 true, 8), (.calWalk 5 true, 9),
       (.calAll 5 true, 15)]
     let h' := run (.calAll 5 true) h
     (h.start.held = false ∧ h.mode = mCalibrate ∧ h.flag F.CAL_STAT_BUSY 0 = false) ∧ h'.flag F.CAL_STAT_BUSY 0 = true ∧
       (all.all fun x => let y := run x.1 h; y.cal == { h.cal with proc := x.2, apply := true, gmask := 5, lane := 0, part := if x.2 = 15 then 1 else x.2, ticks := 0, fired := 0, counts := [] } && y.flag F.CAL_STAT_BUSY 0 && y.fld F.CAL_STAT_PROC 0 == x.2 && !y.flag F.CAL_STAT_FAIL 0 && y.fld F.CAL_STAT_NFAIL 0 == 0 && same h y [A.CAL_STAT]) = true) ∧
    -- cal turned away
    (let h : Hub := { hub [(F.MODE_STAT_MODE, 0, mSetup), (F.CAL_STAT_BUSY, 0, 0)] with start := {} }
     let all : List Instr := [.calOffset 5 true, .calTdc 5 true, .calPhase 5 true, .calInj 5 true, .calGain 5 true,
       .calRatio 5 true, .calThresh 5 true, .calTimeofs 5 true, .calWalk 5 true]
     let h' := run (.calAll 5 true) h
     (h.start.held = false ∧ h.mode ≠ mCalibrate) ∧ h'.flag F.CAL_STAT_REJ 0 = true ∧
       h'.flag F.CAL_STAT_BUSY 0 = h.flag F.CAL_STAT_BUSY 0 ∧ only h h' [A.CAL_STAT] = true ∧
       (all.all fun i => decide (run i h = h')) = true) ∧
    -- cal busy
    (let h : Hub := { hub [(F.MODE_STAT_MODE, 0, mCalibrate), (F.CAL_STAT_BUSY, 0, 1)] with start := {} }
     let h' := run (.calWalk 5 true) h
     (h.start.held = false ∧ h.flag F.CAL_STAT_BUSY 0 = true) ∧ h'.flag F.CAL_STAT_REJ 0 = true ∧
       h'.flag F.CAL_STAT_BUSY 0 = true ∧ only h h' [A.CAL_STAT] = true) ∧
    -- cal lane
    (
       let h : Hub := { hub [(F.CAL_STAT_BUSY, 0, 0), (F.LANE_ROLE_ACT_ROLE, 23, roleOff), (F.LN_STAT_FENCED, 23, 0)] with start := {} }
     let h' := run (.calLaneRx 23 true) h
     (h.start.held = false ∧ h.flag F.CAL_STAT_BUSY 0 = false ∧ h.laneRxOk 23 = true) ∧
       h'.cal = { h.cal with proc := 10, apply := true, gmask := 0, lane := 23, part := 10, ticks := 0, fired := 0, counts := [] } ∧
       h'.flag F.CAL_STAT_BUSY 0 = true ∧ same h h' [A.CAL_STAT] = true) ∧
    -- cal lane no
    (let h : Hub := { hub [(F.CAL_STAT_BUSY, 0, 0), (F.LANE_ROLE_ACT_ROLE, 0, roleParent)] with start := {} }
     let h' := run (.calLaneRx 0 true) h
     (h.start.held = false ∧ h.flag F.CAL_STAT_BUSY 0 = false ∧ h.laneRxOk 0 = false) ∧ h'.flag F.CAL_STAT_REJ 0 = true ∧
       only h h' [A.CAL_STAT] = true) ∧
    -- cal eye
    (let h : Hub := { hub [(F.CAL_STAT_BUSY, 0, 0)] with start := {} }
     h.start.held = false ∧ h.flag F.CAL_STAT_BUSY 0 = false) ∧
    -- cal abort
    (let h : Hub := hub [(F.CAL_STAT_BUSY, 0, 1)]
     let h' := run (.calAbort) h
     (h.flag F.CAL_STAT_BUSY 0 = true) ∧ h'.flag F.CAL_STAT_BUSY 0 = false ∧ h'.flag F.CAL_STAT_ABORTED 0 = true ∧
       only h h' [A.CAL_STAT] = true) ∧
    -- cal abort none
    (let h : Hub := hub [(F.CAL_STAT_BUSY, 0, 0)]
     let h' := run (.calAbort) h
     (h.flag F.CAL_STAT_BUSY 0 = false) ∧ h' = h ∧ run (.calApply [.eye 3 { phases := [([0], [0])] }]) h = h) := by
  refine ⟨?_, ?_, ?_, ?_, ?_, ?_, ?_, ?_, ?_⟩ <;> decide +kernel

theorem witness_CalibrationResults :
    -- cal ends
    (let h : Hub := { hub [(F.CAL_STAT_BUSY, 0, 1)] with cal := { proc := 11, lane := 3 } }
     h.flag F.CAL_STAT_BUSY 0 = true) ∧
    -- cal offset
    (
       let h : Hub := { hub [(F.MODE_STAT_MODE, 0, mCalibrate), (F.CAL_STAT_BUSY, 0, 1)] with cal := { proc := 1, apply := true, gmask := 0x8000 } }
     let h' := run (.calApply [.offset 543 0xFFFF 0x1234 7 8 true]) h
     (h.flag F.CAL_STAT_BUSY 0 = true ∧ h.mode = mCalibrate ∧ h.cal.gmask.getLsbD (543 / 34) = true) ∧
       h'.flag F.CAL_STAT_BUSY 0 = false ∧ h'.flag F.CAL_STAT_DONE 0 = true ∧ h'.qual 0 543 5 = 0x1234FFFF ∧
       h'.qual 0 543 3 = 7 + 8 * 65536 ∧ h'.fld F.ADC_OFS_OFS_HG 543 = 0xFFFF ∧ h'.fld F.ADC_OFS_OFS_LG 543 = 0x1234) ∧
    -- cal offset no apply
    (
       let h : Hub := { hub [(F.MODE_STAT_MODE, 0, mCalibrate), (F.CAL_STAT_BUSY, 0, 1), (F.ADC_OFS_OFS_HG, 5, 77)] with cal := { proc := 1, apply := false, gmask := 0x8001 } }
     let h' := run (.calApply [.offset 5 0xFFFF 0x1234 7 8 true]) h
     (h.flag F.CAL_STAT_BUSY 0 = true ∧ h.mode = mCalibrate ∧ h.cal.gmask.getLsbD (5 / 34) = true) ∧
       h'.flag F.CAL_STAT_BUSY 0 = false ∧ h'.flag F.CAL_STAT_DONE 0 = true ∧ h'.qual 0 5 5 = 0x1234FFFF ∧
       h'.qual 0 5 3 = 7 + 8 * 65536 ∧ h'.fld F.ADC_OFS_OFS_HG 5 = 77) ∧
    -- cal timeofs
    (
       let h : Hub := { hub [(F.MODE_STAT_MODE, 0, mCalibrate), (F.CAL_STAT_BUSY, 0, 1), (F.CAL_REF_TREF, 0, 100), (F.RT_BCFREQ_FREQ, 0, 40000000)] with cal := { proc := 8, apply := true, gmask := 0x8001 } }
     let ts := (List.range 64).map fun j => (64 * (4096 + 400 * j + 77) : Int)
     h.flag F.CAL_STAT_BUSY 0 = true ∧ h.mode = mCalibrate ∧ h.cal.gmask.getLsbD (5 / 32) = true ∧ h.delayMean 100 (-1) ts = 23) ∧
    -- xo
    (
       let h : Hub := { hub [(F.RT_CLK_LOCK, 0, 1), (F.RT_CLK_SRC, 0, 0), (F.RT_CLK_HOLDOVER, 0, 0), (F.JNL_STAT_DONE, 0, 1)] with start := {} }
     let h' := run (.xoMeasure 0x8001) h
     (h.start.held = false ∧ h.flag F.RT_CLK_LOCK 0 = true ∧ h.crystalRef = false) ∧ h'.fld F.CAL_XO_PPM 0 = 0x8001 ∧
       h'.flag F.CAL_XO_VALID 0 = true ∧ only h h' [A.CAL_XO] = true) ∧
    -- xo holdover
    (let h : Hub := { hub [(F.RT_CLK_LOCK, 0, 1), (F.RT_CLK_HOLDOVER, 0, 1)] with start := {} }
     let h' := run (.xoMeasure 0x8001) h
     (h.start.held = false ∧ h.crystalRef = true) ∧ h'.fld F.CAL_XO_PPM 0 = h.fld F.CAL_XO_PPM 0 ∧
       h'.flag F.CAL_XO_VALID 0 = false ∧ only h h' [A.CAL_XO] = true) ∧
    -- path
    (let h : Hub := { hub [(F.LANE_ROLE_ACT_ROLE, 23, roleSpare)] with start := {} }
     let h' := run (.pathDelayMeasure 23 0xFFFF 1 0xFF) h
     (h.start.held = false ∧ h.role 23 ≠ roleOff) ∧ h'.qual 2 23 1 = 0x1FFFF ∧ h'.qual 2 23 2 = 0xFF ∧ h'.regs = h.regs) ∧
    -- path off
    (let h : Hub := { hub [(F.LANE_ROLE_ACT_ROLE, 23, roleOff)] with start := {} }
     let h' := run (.pathDelayMeasure 23 0xFFFF 1 0xFF) h
     (h.start.held = false ∧ h.role 23 = roleOff) ∧ h' = h) ∧
    -- roll good
    (
       let h : Hub := { hub [(F.MODE_STAT_MODE, 0, mDegraded), (F.RT_ORBIT_LEN, 0, 100), (F.RT_ORBIT_POS, 0, 0), (F.CAL_ROLL_SELFORB, 0, 2)] with cal := { roll := [(15, some { ch := 480, home := 30, spare := 32, stage := 1, orbits := 2 })] } }
     h.taking = true ∧ h.atOrbit = true ∧ h.fld F.CAL_ROLL_SELFORB 0 ≤ 2) ∧
    -- roll bad
    (
       let h : Hub := { hub [(F.MODE_STAT_MODE, 0, mDegraded), (F.RT_ORBIT_LEN, 0, 100), (F.RT_ORBIT_POS, 0, 0), (F.CAL_ROLL_SELFORB, 0, 2)] with cal := { roll := [(15, some { ch := 480, home := 30, spare := 32, stage := 4, orbits := 2 })] } }
     h.taking = true ∧ h.atOrbit = true ∧ h.fld F.CAL_ROLL_SELFORB 0 ≤ 2) ∧
    -- roll early
    (
       let h : Hub := { hub [(F.MODE_STAT_MODE, 0, mDegraded), (F.RT_ORBIT_LEN, 0, 100), (F.RT_ORBIT_POS, 0, 0), (F.CAL_ROLL_SELFORB, 0, 2)] with cal := { roll := [(15, some { ch := 480, home := 30, spare := 32, stage := 4, orbits := 1 })] } }
     h.taking = true ∧ 1 < h.fld F.CAL_ROLL_SELFORB 0) ∧
    -- roll shadow bad
    (
       let h : Hub := { hub [(F.MODE_STAT_MODE, 0, mDegraded), (F.RT_ORBIT_LEN, 0, 100), (F.RT_ORBIT_POS, 0, 0), (F.CAL_ROLL_SELFORB, 0, 2)] with cal := { roll := [(15, some { ch := 480, home := 30, spare := 32, stage := 2, orbits := 0, bad := true })] } }
     h.taking = true) ∧
    -- roll shadow far
    (
       let h : Hub := { hub [(F.MODE_STAT_MODE, 0, mDegraded), (F.RT_ORBIT_LEN, 0, 100), (F.RT_ORBIT_POS, 0, 0), (F.CAL_ROLL_SELFORB, 0, 2)] with cal := { roll := [(15, some { ch := 480, home := 30, spare := 32, stage := 5, orbits := 1, seen := { orbits := 1, hits := 61, toa := 1088 } })] } }
     h.taking = true ∧ h.atOrbit = true ∧ (({ orbits := 1, hits := 61, toa := 1088 } : Compared).more 3 0 3 0).within = false) ∧
    -- roll shadow on
    (
       let h : Hub := { hub [(F.MODE_STAT_MODE, 0, mDegraded), (F.RT_ORBIT_LEN, 0, 100), (F.RT_ORBIT_POS, 0, 0), (F.CAL_ROLL_SELFORB, 0, 2)] with cal := { roll := [(15, some { ch := 480, home := 30, spare := 32, stage := 2, orbits := 1, seen := { orbits := 1, hits := 61, toa := 1000 } })] } }
     h.taking = true ∧ h.atOrbit = true) ∧
    -- roll shadow out
    (
       let h : Hub := { hub [(F.MODE_STAT_MODE, 0, mDegraded), (F.RT_ORBIT_LEN, 0, 100), (F.RT_ORBIT_POS, 0, 0), (F.CAL_ROLL_SELFORB, 0, 2)] with cal := { roll := [(15, some { ch := 480, home := 30, spare := 32, stage := 2, orbits := 1, seen := { orbits := 1, hits := 61, toa := 1000 } })] } }
     h.taking = true ∧ h.atOrbit = true) ∧
    -- roll shadow back
    (
       let h : Hub := { hub [(F.MODE_STAT_MODE, 0, mDegraded), (F.RT_ORBIT_LEN, 0, 100), (F.RT_ORBIT_POS, 0, 0), (F.CAL_ROLL_SELFORB, 0, 2)] with cal := { roll := [(15, some { ch := 480, home := 30, spare := 32, stage := 5, orbits := 8 })] } }
     h.taking = true ∧ h.atOrbit = true) ∧
    -- roll none
    (let h : Hub := { hub [] with cal := {}, rsv := {} }
     let h' := run (.rollingRecal 3 (.shadow 5 4 3 0)) h
     (h.rollOf 3 = none ∧ h.rsv.preps = []) ∧ only h h' [A.MODE_STAT] = true) := by
  refine ⟨?_, ?_, ?_, ?_, ?_, ?_, ?_, ?_, ?_, ?_, ?_, ?_, ?_, ?_, ?_, ?_, ?_⟩ <;> decide +kernel

theorem witness_WearAndSpares :
    -- wear hold
    (let h : Hub := hub [(F.MODE_STAT_MODE, 0, mHold)]
     let h' := run (.wearEvaluate (.leak 3 0xFFFF)) h
     (h.mode = mHold) ∧ h' = h) ∧
    -- wear held
    (let h : Hub := { hub [(F.MODE_STAT_MODE, 0, mRun)] with start := { held := true } }
     h.start.held = true) ∧
    -- wear leak
    (let h : Hub := { hub [(F.MODE_STAT_MODE, 0, mRun), (F.RS_THR_LEAK, 0, 10)] with start := {}, rsv := {} }
     h.start.held = false ∧ h.mode ≠ mHold ∧ (1, 0) ∉ h.rsv.reached ∧ h.fld F.RS_THR_LEAK 0 * 10 ≤ 100) ∧
    -- wear eye
    (
       let h : Hub := { hub [(F.MODE_STAT_MODE, 0, mRun), (F.LANE_ROLE_ACT_ROLE, 5, roleChild), (F.RS_POLICY_EYEMIN, 0, 20)] with start := {}, rsv := {} }
     h.start.held = false ∧ h.mode ≠ mHold ∧ h.laneServes 5 = true ∧ 39 < 2 * h.fld F.RS_POLICY_EYEMIN 0 ∧ (6,
       5) ∉ h.rsv.reached) ∧
    -- wear eye good
    (
       let h : Hub := { hub [(F.MODE_STAT_MODE, 0, mRun), (F.LANE_ROLE_ACT_ROLE, 5, roleParent), (F.RS_POLICY_EYEMIN, 0, 20)] with start := {}, rsv := { reached := [(6, 5), (6, 4)] } }
     h.start.held = false ∧ h.mode ≠ mHold ∧ h.laneServes 5 = true ∧ 2 * h.fld F.RS_POLICY_EYEMIN 0 ≤ 40) ∧
    -- wear dslot first
    (let h : Hub := { hub [(F.MODE_STAT_MODE, 0, mRun)] with start := {}, rsv := {} }
     h.start.held = false ∧ h.mode ≠ mHold ∧ Store.get (fun _ => none) h.rsv.firstA 543 = none) ∧
    -- wear dslot
    (
       let h : Hub := { hub [(F.MODE_STAT_MODE, 0, mRun), (F.RS_POLICY_ADRIFT, 0, 16)] with start := {}, rsv := { firstA := [(543, some 5)] } }
     h.start.held = false ∧ h.mode ≠ mHold ∧ (5, 543) ∉ h.rsv.reached ∧ h.fld F.RS_POLICY_ADRIFT 0 < 17) ∧
    -- wear dose
    (let h : Hub := { hub [(F.MODE_STAT_MODE, 0, mRun), (F.RS_DOSEREF_REF, 7, 1000000)] with start := {}, rsv := {} }
     h.start.held = false ∧ h.mode ≠ mHold ∧ h.fld F.RS_DOSEREF_REF 7 ≠ 0) ∧
    -- spare not now
    (
       let h : Hub := { hub [(F.MODE_STAT_MODE, 0, mRun), (F.RT_ORBIT_LEN, 0, 100), (F.RT_ORBIT_POS, 0, 5)] with rsv := { preps := [{ kind := kRow, unit := 16 * 65536 + 2047, spare := 127, left := 0, since := 0, reactive := true }] } }
     let h' := run (.spareBringIn true) h
     (h.running = true ∧ h.atOrbit = false) ∧ only h h' [A.MODE_STAT] = true) ∧
    -- spare not in hold
    (
       let h : Hub := { hub [(F.MODE_STAT_MODE, 0, mHold)] with rsv := { preps := [{ kind := kRow, unit := 16 * 65536 + 2047, spare := 127, left := 0, since := 0, reactive := true }], returns := [(5, 5)] } }
     h.mode = mHold) ∧
    -- spare row
    (
       let h : Hub := { hub [(F.MODE_STAT_MODE, 0, mSetup), (F.RS_VETO_ROW, 0, 0), (F.RS_STAT_LOADWAIT, 0, 0)] with rsv := { preps := [{ kind := kRow, unit := 16 * 65536 + 2047, spare := 127, left := 0, since := 0, reactive := true }] } }
     h.rsv.returns = [] ∧ h.mode = mSetup ∧ h.vetoed kRow = false ∧ h.flag F.RS_STAT_LOADWAIT 0 = false ∧ 127 < spareRows 16) ∧
    -- spare row ox
    (
       let h : Hub := { hub [(F.MODE_STAT_MODE, 0, mSetup), (F.RS_STAT_LOADWAIT, 0, 0), (F.RS_VETO_ROW, 0, 0)] with rsv := { preps := [{ kind := kRow, unit := 0x40 * 65536 + 3, spare := 3, left := 1, since := 0, reactive := true }] } }
     h.rsv.returns = [] ∧ h.mode = mSetup ∧ h.vetoed kRow = false ∧ h.flag F.RS_STAT_LOADWAIT 0 = false ∧ 3 < spareRows 0x40) ∧
    -- spare line
    (
       let h : Hub := { hub [(F.MODE_STAT_MODE, 0, mSetup), (F.RS_VETO_TDC, 0, 0), (F.RS_STAT_LOADWAIT, 0, 0), (F.RS_DSLOT_LINE, 543, 1)] with rsv := { preps := [{ kind := kLine, unit := 2 * 543 + 1, spare := 0, left := 0, since := 0, reactive := true }] } }
     h.mode = mSetup ∧ h.rsv.returns = [] ∧ h.vetoed kLine = false ∧ h.flag F.RS_STAT_LOADWAIT 0 = false) ∧
    -- spare line setup
    (
       let h : Hub := { hub [(F.MODE_STAT_MODE, 0, mSetup), (F.RS_VETO_TDC, 0, 0), (F.RS_STAT_LOADWAIT, 0, 0)] with rsv := { preps := [{ kind := kLine, unit := 2 * 5, spare := 1, left := 0, since := 0, reactive := true }] } }
     h.rsv.returns = [] ∧ h.mode = mSetup ∧ h.vetoed kLine = false ∧ h.flag F.RS_STAT_LOADWAIT 0 = false) ∧
    -- spare slot
    (
       let h : Hub := { hub [(F.MODE_STAT_MODE, 0, mSetup), (F.RS_VETO_DSLOT, 0, 0), (F.RS_STAT_LOADWAIT, 0, 0)] with rsv := { preps := [{ kind := kDslot, unit := 511, spare := 33, left := 0, since := 0, reactive := true }] } }
     h.rsv.returns = [] ∧ 511 / 32 ∉ h.rsv.moved ∧ h.mode = mSetup ∧ h.vetoed kDslot = false ∧
       h.flag F.RS_STAT_LOADWAIT 0 = false) ∧
    -- spare ox
    (
       let h : Hub := { hub [(F.MODE_STAT_MODE, 0, mSetup), (F.RS_VETO_OX, 0, 0), (F.RS_STAT_LOADWAIT, 0, 0)] with rsv := { preps := [{ kind := kOx, unit := 15, spare := 16, left := 0, since := 0, reactive := true }] }, ox := [(15, { act := [(3, 7#32)], stby := [(4, 8#32)], dmem := [(5, 9#32)], slot := { pc := 77 } })] }
     h.mode = mSetup ∧ h.rsv.returns = [] ∧ h.vetoed kOx = false ∧ h.flag F.RS_STAT_LOADWAIT 0 = false ∧ (h.oxOf 15).bad = []) ∧
    -- spare ox bad
    (
       let h : Hub := { hub [(F.MODE_STAT_MODE, 0, mSetup), (F.RS_VETO_OX, 0, 0), (F.RS_STAT_LOADWAIT, 0, 0)] with rsv := { preps := [{ kind := kOx, unit := 15, spare := 16, left := 0, since := 0, reactive := true }] } }
     h.mode = mSetup ∧ h.rsv.returns = [] ∧ h.vetoed kOx = false ∧ h.flag F.RS_STAT_LOADWAIT 0 = false) ∧
    -- spare lane
    (
       let h : Hub := { hub [(F.MODE_STAT_MODE, 0, mSetup), (F.RS_VETO_LANE, 0, 0), (F.RS_STAT_LOADWAIT, 0, 0), (F.RS_LANE_LANE, 7, 23), (F.LANE_ROLE_ACT_ROLE, 0, roleParent), (F.LANE_ROLE_ACT_PORT, 0, 3)] with rsv := { preps := [{ kind := kLane, unit := 0, spare := 7, left := 0, since := 0, reactive := true }] } }
     h.mode = mSetup ∧ h.rsv.returns = [] ∧ h.vetoed kLane = false ∧ h.flag F.RS_STAT_LOADWAIT 0 = false ∧
       h.fld F.RS_LANE_LANE 7 = 23 ∧ h.laneServes 0 = true) := by
  refine ⟨?_, ?_, ?_, ?_, ?_, ?_, ?_, ?_, ?_, ?_, ?_, ?_, ?_, ?_, ?_, ?_, ?_, ?_⟩ <;> decide +kernel

theorem witness_TwinActs :
    -- takeover
    (
       let h : Hub := { hub [(F.TW_STAT_STATE, 0, 4), (F.TW_CFG_EN, 0, 1), (F.TW_CFG_AUTO, 0, 1), (F.MODE_STAT_MODE, 0, mRun), (F.LANE_ROLE_ACT_ROLE, 0, roleParent), (F.LN_STAT_ALIGNED, 0, 1), (F.TW_STAT_PCLAIM, 0, 0x3FFF)] with lanes := [(0, { lastOk := true })], twin := { take := true } }
     h.takesOver = true) ∧
    -- takeover not
    (let h : Hub := hub [(F.TW_STAT_STATE, 0, 2)]
     let h' := run (.takeover) h
     (h.takesOver = false) ∧ h' = h) ∧
    -- partner there
    (let h : Hub := { hub [(F.LANE_ROLE_ACT_ROLE, 9, roleTwin)] with twin := { lastSeen := some (hub []).slot } }
     let h' := run (.partnerLost) h
     (h.peerLost = false ∧ h.twin.peerFatal = false) ∧ h' = h) ∧
    -- partner lost joining
    (let h : Hub := { hub [(F.TW_STAT_STATE, 0, 3)] with twin := { lastSeen := some ((hub []).slot - 9#48) } }
     h.peerLost = true ∧ h.fld F.TW_STAT_STATE 0 = 3) ∧
    -- partner lost active
    (let h : Hub := { hub [(F.TW_STAT_STATE, 0, 2), (F.TW_CLAIM_CUR, 0, 0x4005)] with twin := {} }
     h.peerLost = true ∧ h.fld F.TW_STAT_STATE 0 = 2) ∧
    -- rejoin
    (let h : Hub := { hub [] with start := {} }
     let h' := run (.rejoin) h
     (h.start.held = false) ∧ h' = { h with twin := { h.twin with wantJoin := true } } ∧
       run .hreq h = { h with twin := { h.twin with hreq := true } }) ∧
    -- twin sync not
    (let h : Hub := { hub [(F.TW_CFG_EN, 0, 0)] with start := {} }
     let h' := run (.twinSyncReceive [1, 2, 3]) h
     (h.start.held = false ∧ h.parked = false) ∧ h' = { h with twin := { h.twin with lastSeen := some h.slot } }) ∧
    -- twin sync join
    (let h : Hub := { hub [(F.TW_CFG_EN, 0, 1)] with start := {} }
     let h' := run (.twinSyncReceive [1, 0x2000000000000000, 3]) h
     (h.start.held = false ∧ h.parked = true) ∧ h'.twin.peerJoin = true ∧ h'.twin.lastSeen = some h.slot ∧ h'.regs = h.regs) ∧
    -- twin sync
    (let h : Hub := { hub [(F.TW_CFG_EN, 0, 1)] with start := {} }
     h.start.held = false ∧ h.parked = true) ∧
    -- twin sync zero
    (let h : Hub := { hub [(F.TW_CFG_EN, 0, 1)] with start := {} }
     h.start.held = false ∧ h.parked = true) ∧
    -- delivery not
    (let h : Hub := hub [(F.TW_CFG_EN, 0, 0)]
     let h' := run (.twinDelivery) h
     (h.parked = false) ∧ h' = h) ∧
    -- delivery
    (
       let h : Hub := { hub [(F.TW_CFG_EN, 0, 1), (F.TW_STAT_STATE, 0, 2), (F.TW_CFG_ALIGN, 0, 8)] with lanes := [], twin := { events := [((hub []).slot - 8#48, true, 0x1005, [])] } }
     h.parked = true ∧ h.fld F.TW_STAT_STATE 0 = 2 ∧ reached (h.slot - BitVec.ofNat 48 h.twinAlign) (h.slot - 8#48) = true) ∧
    -- delivery item
    (
       let h : Hub := { hub [(F.Q_STAT_DISCARD, 30, 0), (F.Q_STAT_PEND, 30, 0), (F.TW_CFG_EN, 0, 1), (F.TW_STAT_STATE, 0, 2), (F.TW_CFG_ALIGN, 0, 8)] with lanes := [], queues := [], twin := { events := [((hub []).slot - 8#48, true, 0x1005, [7, 8, 9])] } }
     h.parked = true ∧ h.fld F.TW_STAT_STATE 0 = 2 ∧ reached (h.slot - BitVec.ofNat 48 h.twinAlign) (h.slot - 8#48) = true ∧
       room h 30 3 = true) ∧
    -- delivery wait down
    (
       let h : Hub := { hub [(F.TW_CFG_EN, 0, 1), (F.TW_STAT_STATE, 0, 2), (F.TW_CFG_ALIGN, 0, 8)] with lanes := [(9, { hold := [{ slot := (hub []).slot - 7#48, up := false, port := 1, q := 5, bytes := List.replicate 55 0, named := true }] })], twin := {} }
     h.parked = true ∧ h.fld F.TW_STAT_STATE 0 = 2 ∧ reached (h.slot - BitVec.ofNat 48 h.twinAlign) (h.slot - 7#48) = false) ∧
    -- delivery held down
    (
       let h : Hub := { hub [(F.TW_CFG_EN, 0, 1), (F.TW_STAT_STATE, 0, 2), (F.TW_CFG_ALIGN, 0, 8)] with lanes := [(9, { hold := [{ slot := (hub []).slot - 8#48, up := false, port := 1, q := 5, bytes := List.replicate 55 0, named := true }] })], twin := {} }
     let e : Held := { slot := (hub []).slot - 8#48, up := false, port := 1, q := 5, bytes := List.replicate 55 0, named := true }
     h.parked = true ∧ h.fld F.TW_STAT_STATE 0 = 2 ∧ reached (h.slot - BitVec.ofNat 48 h.twinAlign) e.slot = true) ∧
    -- delivery wait up
    (
       let h : Hub := { hub [(F.TW_CFG_EN, 0, 1), (F.TW_STAT_STATE, 0, 1), (F.TW_CFG_ALIGN, 0, 8)] with lanes := [(9, { hold := [{ slot := (hub []).slot - 7#48, up := true, port := 3, bytes := List.replicate 58 0, named := true }] })], twin := {} }
     h.parked = true ∧ h.fld F.TW_STAT_STATE 0 = 1 ∧ reached (h.slot - BitVec.ofNat 48 h.twinAlign) (h.slot - 7#48) = false) ∧
    -- delivery held up
    (
       let h : Hub := { hub [(F.TW_CFG_EN, 0, 1), (F.TW_STAT_STATE, 0, 1), (F.TW_CFG_ALIGN, 0, 8)] with lanes := [(9, { hold := [{ slot := (hub []).slot - 8#48, up := true, port := 3, bytes := List.replicate 58 0, named := true }] })], twin := {} }
     let e : Held := { slot := (hub []).slot - 8#48, up := true, port := 3, bytes := List.replicate 58 0, named := true }
     h.parked = true ∧ h.fld F.TW_STAT_STATE 0 = 1 ∧ reached (h.slot - BitVec.ofNat 48 h.twinAlign) e.slot = true) ∧
    -- delivery mask
    (
       let h : Hub := { hub [(F.TW_CFG_EN, 0, 1), (F.TW_STAT_STATE, 0, 4), (F.TW_CFG_ALIGN, 0, 8)] with lanes := [(9, { hold := [{ slot := (hub []).slot - 8#48, up := true, port := 3, bytes := List.replicate 58 0, named := true }] })], twin := { masks := [((hub []).slot - 8#48, 0x200, icrc [{ slot := (hub []).slot - 8#48, up := true, port := 3, bytes := List.replicate 58 0, named := true }])] } }
     let e : Held := { slot := (hub []).slot - 8#48, up := true, port := 3, bytes := List.replicate 58 0, named := true }
     h.parked = true ∧ h.fld F.TW_STAT_STATE 0 = 4 ∧ h.slot - BitVec.ofNat 48 h.twinAlign = e.slot) ∧
    -- delivery mask bad
    (
       let h : Hub := { hub [(F.TW_CFG_EN, 0, 1), (F.TW_STAT_STATE, 0, 4), (F.TW_CFG_ALIGN, 0, 8)] with lanes := [(9, { hold := [{ slot := (hub []).slot - 8#48, up := false, port := 1, q := 5, bytes := List.replicate 55 0, named := true }] })], twin := { masks := [((hub []).slot - 8#48, 0x200, icrc [{ slot := (hub []).slot - 8#48, up := false, port := 1, q := 5, bytes := List.replicate 55 0, named := true }] + 1)] } }
     let e : Held := { slot := (hub []).slot - 8#48, up := false, port := 1, q := 5, bytes := List.replicate 55 0, named := true }
     h.parked = true ∧ h.fld F.TW_STAT_STATE 0 = 4 ∧ h.slot - BitVec.ofNat 48 h.twinAlign = e.slot) ∧
    -- delivery missed
    (
       let h : Hub := { hub [(F.TW_CFG_EN, 0, 1), (F.TW_STAT_STATE, 0, 4), (F.TW_CFG_ALIGN, 0, 8)] with lanes := [], twin := { masks := [((hub []).slot - 8#48, 0x800000, 0)] } }
     h.parked = true ∧ h.fld F.TW_STAT_STATE 0 = 4 ∧ h.slot - BitVec.ofNat 48 h.twinAlign = h.slot - 8#48) ∧
    -- delivery unnamed 16
    (
       let h : Hub := { hub [(F.TW_CFG_EN, 0, 1), (F.TW_STAT_STATE, 0, 4), (F.TW_CFG_ALIGN, 0, 8)] with lanes := [(9, { hold := [{ slot := (hub []).slot - 16#48, up := true, port := 3, bytes := List.replicate 58 0, named := true }] })], twin := { masks := [((hub []).slot - 8#48, 0, 0)] } }
     h.parked = true ∧ h.fld F.TW_STAT_STATE 0 = 4 ∧ h.slot - BitVec.ofNat 48 h.twinAlign = h.slot - 8#48) ∧
    -- delivery unnamed 8
    (
       let h : Hub := { hub [(F.TW_CFG_EN, 0, 1), (F.TW_STAT_STATE, 0, 4), (F.TW_CFG_ALIGN, 0, 8)] with lanes := [(9, { hold := [{ slot := (hub []).slot - 8#48, up := true, port := 3, bytes := List.replicate 58 0, named := true }] })], twin := { masks := [((hub []).slot - 8#48, 0, 0)] } }
     h.parked = true ∧ h.fld F.TW_STAT_STATE 0 = 4 ∧ h.slot - BitVec.ofNat 48 h.twinAlign = h.slot - 8#48) ∧
    -- delivery early
    (
       let h : Hub := { hub [(F.TW_CFG_EN, 0, 1), (F.TW_STAT_STATE, 0, 2), (F.TW_CFG_ALIGN, 0, 8)] with lanes := [], twin := { events := [((hub []).slot - 7#48, true, 0x1005, [])] } }
     h.parked = true ∧ h.fld F.TW_STAT_STATE 0 = 2 ∧ reached (h.slot - BitVec.ofNat 48 h.twinAlign) (h.slot - 7#48) = false) ∧
    -- twin health not
    (let h : Hub := { hub [(F.TW_STAT_STATE, 0, 2)] with twin := { healthDue := false } }
     let h' := run (.twinHealth 1 2 3) h
     (h.twin.healthDue = false) ∧ h' = h) ∧
    -- twin health
    (let h : Hub := { hub [(F.TW_STAT_STATE, 0, 4)] with twin := { (hub []).twin with healthDue := true, cor := 9, cont := 3 } }
     let h' := run (.twinHealth 1 2 3) h
     (h.twin.healthDue = true ∧ h.twinLocal = true) ∧ h'.twin.healthDue = false ∧ h'.twin.cor = 0 ∧ h'.twin.cont = 0 ∧
       h'.regs = h.regs ∧ (h'.twin.items.map fun l => l.length) = (h.twin.items.map fun l => l.length) ++ [4] ∧
       h'.twin.items.dropLast = h.twin.items) := by
  refine ⟨?_, ?_, ?_, ?_, ?_, ?_, ?_, ?_, ?_, ?_, ?_, ?_, ?_, ?_, ?_, ?_, ?_, ?_, ?_, ?_, ?_, ?_, ?_, ?_, ?_⟩ <;> decide +kernel

theorem witness_TwinJoins :
    -- join not
    (let h : Hub := hub [(F.RT_ORBIT_LEN, 0, 100), (F.RT_ORBIT_POS, 0, 5)]
     let h' := run (.joinStart) h
     (h.atOrbit = false) ∧ h' = h) ∧
    -- join
    (
       let h : Hub := { hub [(F.RT_ORBIT_LEN, 0, 100), (F.RT_ORBIT_POS, 0, 0), (F.TW_CFG_EN, 0, 1), (F.MODE_STAT_MODE, 0, mRun), (F.TW_STAT_STATE, 0, 0), (F.LANE_ROLE_ACT_ROLE, 9, roleTwin)] with twin := { wantJoin := true, joinSent := true, peerState := 1, lastSeen := some (hub []).slot, image := [(3, 4)] } }
     h.atOrbit = true ∧ h.wantsJoin = true ∧ h.twin.joinSent = true ∧ h.twin.peerState = 1 ∧ h.peerLost = false) ∧
    -- join partner
    (
       let h : Hub := { hub [(F.RT_ORBIT_LEN, 0, 100), (F.RT_ORBIT_POS, 0, 0), (F.TW_CFG_EN, 0, 1), (F.MODE_STAT_MODE, 0, mRun), (F.TW_STAT_STATE, 0, 1), (F.LANE_ROLE_ACT_ROLE, 9, roleTwin)] with twin := { peerJoin := true, lastSeen := some (hub []).slot } }
     h.atOrbit = true ∧ h.fld F.TW_STAT_STATE 0 = 1 ∧ h.twin.peerJoin = true ∧ h.twin.joinAt = none ∧ h.peerLost = false) ∧
    -- copy not
    (let h : Hub := hub [(F.TW_STAT_STATE, 0, 2)]
     let h' := run (.copyRecordReceive [1, 2, 3]) h
     (h.fld F.TW_STAT_STATE 0 ≠ 3) ∧ h' = h) ∧
    -- copy
    (let h : Hub := { hub [(F.TW_STAT_STATE, 0, 3), (F.TW_COPY_WORDS, 0, 0xFFFFF)] with twin := { image := [(3, 4)] } }
     h.fld F.TW_STAT_STATE 0 = 3) ∧
    -- step not
    (let h : Hub := { hub [] with twin := {} }
     let h' := run (.stepBoundary) h
     (h.twin.stepAt ≠ some h.tag) ∧ h' = h) ∧
    -- step join
    (
       let h : Hub := { hub [(F.TW_STAT_STATE, 0, 3)] with twin := { stepAt := some (hub []).tag, joinAt := some 3, image := [(0x70, 5)] } }
     h.twin.stepAt = some h.tag ∧ h.fld F.TW_STAT_STATE 0 = 3) ∧
    -- step copied
    (
       let h : Hub := { hub [(F.TW_STAT_STATE, 0, 3)] with twin := { stepAt := some (hub []).tag, joinAt := some 3, image := ({ (hub [(F.ACQ_LAT_LAT, 0, 77)]) with bull := { dmem := [(3, 4), (0x3FFF, 9)] } } : Hub).copyImage } }
     let p : Hub := { (hub [(F.ACQ_LAT_LAT, 0, 77)]) with bull := { dmem := [(3, 4), (0x3FFF, 9)] } }
     p.canonical = true ∧ h.fld F.TW_STAT_STATE 0 = 3 ∧ h.twin.stepAt = some h.tag ∧ h.twin.image = p.copyImage) ∧
    -- step partner
    (let h : Hub := { hub [(F.TW_STAT_STATE, 0, 1)] with twin := { stepAt := some (hub []).tag, joinAt := some 3 } }
     h.twin.stepAt = some h.tag ∧ h.fld F.TW_STAT_STATE 0 = 1) := by
  refine ⟨?_, ?_, ?_, ?_, ?_, ?_, ?_, ?_, ?_⟩ <;> decide +kernel

theorem witness_MonitorMeasures :
    -- mon stop
    (let h : Hub := { hub [(F.MON_CTL_RUN, 0, 1), (F.MON_STAT_PHASE, 0, 2)] with start := {}, mon := { due := true } }
     h.start.held = false) ∧
    -- mon start
    (
       let h : Hub := { hub [(F.MON_CTL_RUN, 0, 0), (F.MON_CTL_LEN, 0, 3), (F.MON_SEQ_EN, 0, 1), (F.MON_SEQ_CHAN, 0, 1), (F.MON_SEQ_MODE, 0, 0)] with start := {}, mon := {} }
     h.start.held = false ∧ h.flag F.MON_CTL_RUN 0 = false ∧ 0 < h.fld F.MON_CTL_LEN 0 ∧ h.flag F.MON_SEQ_EN 0 = true ∧
       monCfgErr (h.word (F.MON_SEQ_CHAN.addr 0)) = false) ∧
    -- mon restart
    (let h : Hub := { hub [(F.MON_CTL_RUN, 0, 0), (F.MON_RES_VALUE, 31, 5), (F.MON_ESTAT_INBAND, 31, 0)] with start := {} }
     h.start.held = false ∧ h.flag F.MON_CTL_RUN 0 = false) ∧
    -- mon idle
    (let h : Hub := hub [(F.MON_STAT_PHASE, 0, 0), (F.MON_CTL_RUN, 0, 0)]
     let h' := run (.monitorEntryEnd { vinA := 5, vinB := 5, vref := 7, moved := 0, excLow := 10, excHigh := 20, compLow := 0, compHigh := 2000, railRun := 0 }) h
     (h.monIdle = true ∧ h.flag F.MON_CTL_RUN 0 = false) ∧ h' = h) ∧
    -- mon entry
    (
       let h : Hub := { hub [(F.MON_STAT_PHASE, 0, 1), (F.MON_STAT_ENTRY, 0, 31), (F.MON_RES_SEQ, 31, 15)] with start := {}, mon := { entry := F.MON_SEQ_REF.put 1 1, len := 32 } }
     let x := (monRaw h.mon.entry (-1200000000) 1250000000).getD 0
     monCurrent h.mon.entry = false ∧ h.start.held = false ∧ h.monIdle = false ∧ monTwo h.mon.entry = false ∧
       monRaw h.mon.entry (-1200000000) 1250000000 = some x ∧ F.MON_SEQ_WEN.get h.mon.entry = 0) ∧
    -- mon entry over
    (
       let h : Hub := { hub [(F.MON_EXC_EN, 0, 1), (F.MON_EXC_CURR, 0, 5), (F.MON_STAT_PHASE, 0, 3), (F.MON_STAT_ENTRY, 0, 2), (F.MON_CTL_RUN, 0, 0), (F.MON_RES_SEQ, 2, 4)] with start := {}, mon := { entry := 0x00000001, len := 32 } }
     let x := (monRaw h.mon.entry 1300000000 1250000000).getD 0
     monCurrent h.mon.entry = true ∧ h.mon.excBad = false ∧ h.flag F.MON_EXC_EN 0 = true ∧ 5 ≤ h.fld F.MON_EXC_CURR 0 ∧
       h.start.held = false ∧ h.monIdle = false ∧ monTwo h.mon.entry = false ∧ F.MON_SEQ_WEN.get h.mon.entry = 0 ∧ 0x7FFFFE < x) ∧
    -- mon break rail
    (
       let h : Hub := { hub [(F.MON_STAT_PHASE, 0, 4), (F.MON_STAT_ENTRY, 0, 31), (F.MON_REC_ON_BRK, 0, 0)] with start := {}, mon := { entry := F.MON_SEQ_REF.put (F.MON_SEQ_BRKCHK.put (F.MON_SEQ_CHAN.put 0 3) 0) 1, len := 32 } }
     h.start.held = false ∧ h.monIdle = false ∧ F.MON_SEQ_WEN.get h.mon.entry = 0 ∧ h.flag F.MON_REC_ON_BRK 0 = false ∧
       F.MON_SEQ_BRKCHK.get h.mon.entry = 0 ∧ monCurrent h.mon.entry = false) ∧
    -- mon break current
    (
       let h : Hub := { hub [(F.MON_STAT_PHASE, 0, 4), (F.MON_STAT_ENTRY, 0, 31), (F.MON_REC_ON_BRK, 0, 0), (F.MON_EXC_EN, 0, 0)] with start := {}, mon := { entry := F.MON_SEQ_REF.put (F.MON_SEQ_BRKCHK.put (F.MON_SEQ_CHAN.put 0 3) 1) 0, len := 32 } }
     h.start.held = false ∧ h.monIdle = false ∧ F.MON_SEQ_WEN.get h.mon.entry = 0 ∧ h.flag F.MON_REC_ON_BRK 0 = false ∧
       monCurrent h.mon.entry = true ∧ h.flag F.MON_EXC_EN 0 = false) ∧
    -- mon break burn
    (
       let h : Hub := { hub [(F.MON_STAT_PHASE, 0, 4), (F.MON_STAT_ENTRY, 0, 31), (F.MON_REC_ON_BRK, 0, 0)] with start := {}, mon := { entry := F.MON_SEQ_REF.put (F.MON_SEQ_BRKCHK.put (F.MON_SEQ_CHAN.put 0 3) 1) 1, len := 32 } }
     h.start.held = false ∧ h.monIdle = false ∧ F.MON_SEQ_WEN.get h.mon.entry = 0 ∧ h.flag F.MON_REC_ON_BRK 0 = false ∧
       monPin h.mon.entry = true ∧ F.MON_SEQ_BRKCHK.get h.mon.entry = 1 ∧ monCurrent h.mon.entry = false) ∧
    -- mon pass not
    (let h : Hub := { hub [] with mon := {} }
     h.mon.due = false) ∧
    -- mon pass
    (
       let h : Hub := { hub [(F.MON_STAT_PASSES, 0, 0xFFFF), (F.MON_CTL_RUN, 0, 0)] with start := {}, mon := { due := true, since := 4 } }
     let h' := run (.monitorPassEnd) h
     (h.start.held = false ∧ h.mon.due = true ∧ h.flag F.MON_CTL_RUN 0 = false) ∧ h'.fld F.MON_STAT_PASSES 0 = 0 ∧
       h'.mon.due = false) ∧
    -- mon pass run
    (
       let h : Hub := { hub [(F.MON_STAT_PASSES, 0, 7), (F.MON_CTL_RUN, 0, 1)] with start := {}, mon := { due := true, since := 4 } }
     h.start.held = false ∧ h.mon.due = true) ∧
    -- mon held
    (let h : Hub := { hub [(F.MON_CTL_RUN, 0, 0)] with start := { held := true } }
     h.start.held = true) := by
  refine ⟨?_, ?_, ?_, ?_, ?_, ?_, ?_, ?_, ?_, ?_, ?_, ?_, ?_⟩ <;> decide +kernel

theorem witness_InterlockActs :
    -- ilk contact
    (
       let h : Hub := { hub [(F.ILK_STAT_CONTACTS, 0, 15), (F.ILK_STAT_CHAIN, 0, 1), (F.ILK_STAT_EN, 0, 3)] with ilk := { known := 0x3FF, grant := 3 } }
     h.flag F.ILK_STAT_CHAIN 0 = true) ∧
    -- ilk discrepancy
    (
       let h : Hub := { hub [(F.RT_CLK_LOCK, 0, 1), (F.RT_BCFREQ_FREQ, 0, 40000000), (F.ILK_STAT_CONTACTS, 0, 0b0100), (F.ILK_STRAP_LATCHED, 0, 0b010000), (F.ILK_STAT_DISC, 0, 0), (F.ILK_STRAP_STRAPF, 0, 1)] with ilk := { known := 0x3FF, apart1 := 40000000 } }
     h.discMay 1 = true ∧ h.strapWatches 1 = true ∧ h.disagree 1 = true ∧ h.ilkBit F.ILK_STAT_DISC 1 = false ∧
       h.flag F.ILK_STRAP_STRAPF 0 = true) ∧
    -- ilk discrepancy early
    (
       let h : Hub := { hub [(F.RT_CLK_LOCK, 0, 1), (F.RT_BCFREQ_FREQ, 0, 40000000), (F.ILK_STAT_CONTACTS, 0, 0b0100), (F.ILK_STRAP_LATCHED, 0, 0b010000)] with start := {}, ilk := { known := 0x3FF, apart1 := 700000 } }
     h.discMay 1 = false) ∧
    -- ilk no discrepancy
    (let h : Hub := { hub [(F.ILK_STAT_CONTACTS, 0, 0b1100)] with ilk := { known := 0x3FF } }
     let h' := run (.discrepancyFault 1) h
     (h.disagree 1 = false) ∧ h' = h) ∧
    -- ilk feedback
    (
       let h : Hub := { hub [(F.RT_CLK_LOCK, 0, 1), (F.RT_BCFREQ_FREQ, 0, 40000000), (F.ILK_STAT_LOCK, 0, 0), (F.ILK_STAT_FB, 0, 1), (F.ILK_STAT_EN, 0, 3)] with ilk := { grant := 3, off1 := 4300000 } }
     h.ilkBit F.ILK_STAT_LOCK 1 = false ∧ h.offMay 1 = true) ∧
    -- ilk feedback early
    (
       let h : Hub := { hub [(F.RT_CLK_LOCK, 0, 1), (F.RT_BCFREQ_FREQ, 0, 40000000), (F.ILK_STAT_LOCK, 0, 0), (F.ILK_STAT_FB, 0, 1), (F.ILK_STAT_EN, 0, 3)] with start := {}, ilk := { grant := 3, off1 := 3700000 } }
     h.ilkBit F.ILK_STAT_LOCK 1 = false ∧ h.offMay 1 = false) ∧
    -- ilk feedback ok
    (let h : Hub := { hub [(F.ILK_STAT_LOCK, 0, 0), (F.ILK_STAT_FB, 0, 1), (F.ILK_STAT_EN, 0, 3)] with ilk := { grant := 3 } }
     let h' := run (.feedbackLockout 0) h
     (h.ilkBit F.ILK_STAT_LOCK 0 = false ∧ h.offMay 0 = false) ∧ h' = h) ∧
    -- ilk pulse
    (let h : Hub := { hub [(F.ILK_STAT_LOCK, 0, 0), (F.ILK_STAT_EN, 0, 1)] with ilk := { grant := 1 } }
     h.ilkBit F.ILK_STAT_LOCK 0 = false ∧ h.ilkBit F.ILK_STAT_EN 0 = true) ∧
    -- ilk pulse ok
    (let h : Hub := { hub [(F.ILK_STAT_EN, 0, 2)] with ilk := { grant := 2 } }
     let h' := run (.testPulse 1 true) h
     (h.ilkBit F.ILK_STAT_EN 1 = true) ∧ h'.regs = h.regs ∧ h'.ilk.grant = 2 ∧ 0 < h'.ilk.pause1 ∧
       run (.testPulse 0 true) h = h ∧ run (.testPulse 0 false) h = h) ∧
    -- ilk rc
    (let h : Hub := { hub [(F.RT_BCFREQ_FREQ, 0, 40000000)] with start := {} }
     let h' := run (.rcCheck 6400) h
     (h.start.held = false ∧ 9 * (16 * h.fld F.RT_BCFREQ_FREQ 0) ≤ 6400 * 1000000 ∧
       6400 * 1000000 ≤ 11 * (16 * h.fld F.RT_BCFREQ_FREQ 0)) ∧ h'.fld F.ILK_RC_TICK 0 = 6400 ∧ only h h' [A.ILK_RC] = true) ∧
    -- ilk rc bad
    (let h : Hub := { hub [(F.RT_BCFREQ_FREQ, 0, 40000000), (F.RT_CLK_LOCK, 0, 1)] with start := {} }
     h.start.held = false ∧ h.flag F.RT_CLK_LOCK 0 = true ∧ 5759 * 1000000 < 9 * (16 * h.fld F.RT_BCFREQ_FREQ 0)) ∧
    -- ilk vote
    (let h : Hub := { hub [(F.ILK_VOTEFIX_COUNT, 0, 0xFFFF)] with start := {} }
     let h' := run (.ilkInternalFault false) h
     (h.start.held = false) ∧ counted h h' F.ILK_VOTEFIX_COUNT 0 1 = true ∧ only h h' [A.ILK_VOTEFIX] = true) ∧
    -- ilk internal
    (let h : Hub := hub [(F.ILK_STAT_INTF, 0, 0)]
     h.flag F.ILK_STAT_INTF 0 = false) ∧
    -- ilk req none
    (let h : Hub := { hub [] with pk := {} }
     h.pk.cur = none) ∧
    -- ilk req first
    (let v : W32 := F.ILK_REQ_KEY.put (F.ILK_REQ_MASK.put 0 2) 0x6B6B
     F.ILK_REQ_KEY.get v = 0x6B6B) ∧
    -- ilk req second
    (
       let h : Hub := { hub [(F.ILK_STAT_CHAIN, 0, 1), (F.ILK_STAT_S09OK, 0, 1), (F.ILK_STAT_LOCK, 0, 1)] with pk := { cur := some { executing .tether 5 with ilkKey := some 2 } } }
     let v : W32 := F.ILK_REQ_KEY.put (F.ILK_REQ_MASK.put 0 2) 0x9494
     F.ILK_REQ_KEY.get v = 0x9494 ∧ F.ILK_REQ_MASK.get v = 2 ∧ h.flag F.ILK_STAT_CHAIN 0 = true ∧
       h.flag F.ILK_STAT_S09OK 0 = true ∧ BitVec.ofNat 2 (h.fld F.ILK_STAT_LOCK 0) &&& 2 = 0) ∧
    -- ilk req refused
    (let h : Hub := { hub [(F.ILK_STAT_CHAIN, 0, 0)] with pk := { cur := some { executing .tether 5 with ilkKey := some 2 } } }
     let v : W32 := F.ILK_REQ_KEY.put (F.ILK_REQ_MASK.put 0 2) 0x9494
     let h' := run (.ilkReqWrite v) h
     (F.ILK_REQ_KEY.get v = 0x9494 ∧ h.flag F.ILK_STAT_CHAIN 0 = false) ∧ counted h h' F.ILK_REFCNT_COUNT 0 1 = true ∧
       h'.ilk = h.ilk) ∧
    -- ilk req other mask
    (let h : Hub := { hub [(F.ILK_STAT_CHAIN, 0, 1)] with pk := { cur := some { executing .tether 5 with ilkKey := some 1 } } }
     let v : W32 := F.ILK_REQ_KEY.put (F.ILK_REQ_MASK.put 0 2) 0x9494
     let h' := run (.ilkReqWrite v) h
     (F.ILK_REQ_KEY.get v = 0x9494) ∧ h'.ilk = h.ilk ∧ h'.regs = h.regs) ∧
    -- ilk off
    (let h : Hub := { hub [(F.ILK_STAT_EN, 0, 3)] with start := {}, ilk := { grant := 3 } }
     let h' := run (.ilkOff 2) h
     (h.start.held = false) ∧ h'.ilkBit F.ILK_STAT_EN 1 = false ∧ h'.ilk.grant.getLsbD 1 = false ∧
       h'.ilkBit F.ILK_STAT_EN 0 = h.ilkBit F.ILK_STAT_EN 0) ∧
    -- ilk clear
    (
       let h : Hub := { hub [(F.ILK_STAT_LOCK, 0, 3), (F.ILK_STAT_EN, 0, 0), (F.ILK_STAT_FB, 0, 0), (F.RT_BCFREQ_FREQ, 0, 40000000)] with start := {}, ilk := { fbLow0 := 4200000 } }
     h.start.held = false ∧ F.ILK_CLR_MASK.get 1 = 1 ∧ h.ilkBit F.ILK_STAT_LOCK 0 = true ∧ h.ilkBit F.ILK_STAT_EN 0 = false ∧
       h.ilkBit F.ILK_STAT_FB 0 = false ∧ 105000000 ≤ h.ilk.fbLow0 * h.slotLen / 1024) ∧
    -- ilk clear early
    (
       let h : Hub := { hub [(F.ILK_STAT_LOCK, 0, 3), (F.ILK_STAT_EN, 0, 0), (F.ILK_STAT_FB, 0, 0), (F.RT_BCFREQ_FREQ, 0, 40000000)] with start := {}, ilk := { fbLow1 := 3700000 } }
     h.start.held = false ∧ h.ilkBit F.ILK_STAT_LOCK 1 = true ∧ h.ilk.fbLow1 * h.slotLen / 1024 < 95000000) ∧
    -- ilk clear 1
    (
       let h : Hub := { hub [(F.ILK_STAT_LOCK, 0, 3), (F.ILK_STAT_EN, 0, 0), (F.ILK_STAT_FB, 0, 1), (F.RT_BCFREQ_FREQ, 0, 40000000)] with start := {}, ilk := { fbLow1 := 4200000 } }
     h.start.held = false ∧ bit (F.ILK_CLR_MASK.get 3) 1 = true ∧ h.ilkBit F.ILK_STAT_LOCK 1 = true ∧
       h.ilkBit F.ILK_STAT_EN 1 = false ∧ h.ilkBit F.ILK_STAT_FB 1 = false ∧ 105000000 ≤ h.ilk.fbLow1 * h.slotLen / 1024) ∧
    -- ilk clear not
    (let h : Hub := { hub [(F.ILK_STAT_LOCK, 0, 3), (F.ILK_STAT_EN, 0, 0), (F.ILK_STAT_FB, 0, 1)] with start := {} }
     let h' := run (.ilkClr 1) h
     (h.start.held = false ∧ h.ilkBit F.ILK_STAT_LOCK 0 = true ∧ h.ilkBit F.ILK_STAT_FB 0 = true) ∧
       h'.ilkBit F.ILK_STAT_LOCK 0 = true) := by
  refine ⟨?_, ?_, ?_, ?_, ?_, ?_, ?_, ?_, ?_, ?_, ?_, ?_, ?_, ?_, ?_, ?_, ?_, ?_, ?_, ?_, ?_, ?_, ?_⟩ <;> decide +kernel

theorem witness_PortsAct :
    -- tether held
    (let h : Hub := hub [(F.JNL_STAT_DONE, 0, 0), (F.JNL_STAT_STEP, 0, 2)]
     let h' := run (.tetherFrame 256 [1, 2, 3, 4, 5, 6, 7, 8] false) h
     (h.pastS02 = false) ∧ h' = h) ∧
    -- tether edges
    (let h : Hub := { hub [(F.JNL_STAT_DONE, 0, 0), (F.JNL_STAT_STEP, 0, 3)] with start := {}, tether := {} }
     h.start.held = false ∧ h.pastS02 = true ∧ h.tether.lenNext = none ∧ h.tetherReject 257 1 (([2, 3, 4, 5, 6, 7,
       8] : List W32).flatMap bytes32) false = 1) ∧
    -- tether short
    (let h : Hub := { hub [(F.JNL_STAT_DONE, 0, 0), (F.JNL_STAT_STEP, 0, 3)] with start := {}, tether := {} }
     h.start.held = false ∧ h.pastS02 = true ∧ h.tether.lenNext = none ∧ h.tetherReject 224 1 (([2, 3, 4, 5, 6, 7,
       8] : List W32).flatMap bytes32) true = 2) ∧
    -- tether long
    (let h : Hub := { hub [(F.JNL_STAT_DONE, 0, 0), (F.JNL_STAT_STEP, 0, 3)] with start := {}, tether := {} }
     h.start.held = false ∧ h.pastS02 = true ∧ h.tether.lenNext = none ∧ h.tetherReject 288 1 (([2, 3, 4, 5, 6, 7,
       8] : List W32).flatMap bytes32) false = 3) ∧
    -- tether ok
    (let h : Hub := { hub [(F.JNL_STAT_DONE, 0, 0), (F.JNL_STAT_STEP, 0, 3)] with start := {}, tether := {} }
     h.start.held = false ∧ h.pastS02 = true ∧ h.tether.lenNext = none ∧ h.tetherReject 256 0x80000004 (([2, 3, 4, 5, 6, 7,
       8] : List W32).flatMap bytes32) false = 0) ∧
    -- tether resp
    (
       let h : Hub := { hub [(F.JNL_STAT_DONE, 0, 0), (F.JNL_STAT_STEP, 0, 3)] with start := {}, tether := { out := [([1, 2, 3, 4, 5], false)], ready := 1 } }
     h.start.held = false ∧ h.pastS02 = true ∧ h.tether.lenNext = none ∧ h.tetherReject 256 0x80000004 (([2, 3, 4, 5, 6, 7,
       8] : List W32).flatMap bytes32) false = 0) ∧
    -- tether len
    (let h : Hub := { hub [] with start := {}, pk := {}, tether := {} }
     let h' := run (.ttLenWrite 0xFFFFFFFF) h
     (h.start.held = false ∧ h.pk.cur = none) ∧
       h'.fld F.TT_LEN_LEN 0 = max 32 (min 4096 (F.TT_LEN_LEN.get 0xFFFFFFFF / 32 * 32)) ∧ h'.tether.len = h.tether.len ∧
       h'.tether.lenNext = some (h'.fld F.TT_LEN_LEN 0) ∧ h'.tether.lenLate = false ∧
       (run (.ttLenWrite 95) h).fld F.TT_LEN_LEN 0 = 64 ∧ (run (.ttLenWrite 0) h).fld F.TT_LEN_LEN 0 = 32) ∧
    -- tether len packet
    (let h : Hub := { hub [] with start := {}, pk := { cur := some (executing .tether 5) } }
     let h' := run (.ttLenWrite 95) h
     (h.start.held = false ∧ h.pk.cur.isSome = true) ∧ h'.fld F.TT_LEN_LEN 0 = 64 ∧
       (h'.pk.cur.map fun x => x.ttLen) = some (some 64) ∧ h'.tether = h.tether) ∧
    -- port go
    (let h : Hub := { hub [(F.PN_STAT_BUSY, 1, 0), (F.PN_STAT_DONE, 1, 1), (F.PN_STAT_BITS, 1, 9)] with start := {} }
     h.start.held = false ∧ h.flag F.PN_STAT_BUSY 1 = false) ∧
    -- port go busy
    (let h : Hub := { hub [(F.PN_STAT_BUSY, 1, 1)] with start := {} }
     let h' := run (.portGo 1) h
     (h.start.held = false ∧ h.flag F.PN_STAT_BUSY 1 = true) ∧ only h h' [F.PN_STAT_BUSY.addr 1] = true ∧
       h'.flag F.PN_STAT_BUSY 1 = true ∧ h'.flag F.PN_STAT_GOERR 1 = true) ∧
    -- port idle
    (let h : Hub := hub [(F.PN_STAT_BUSY, 0, 0)]
     let h' := run (.portAbort 0 [true]) h
     (h.flag F.PN_STAT_BUSY 0 = false) ∧ h' = h ∧ run (.portTransferEnd 0 [true]) h = h ∧ run (.portRdyTimeout 0 [true]) h = h) ∧
    -- port abort
    (let h : Hub := hub [(F.PN_STAT_BUSY, 0, 1), (F.PN_LEN_BITS, 0, 3)]
     h.flag F.PN_STAT_BUSY 0 = true) ∧
    -- port end
    (let h : Hub := hub [(F.PN_STAT_BUSY, 0, 1), (F.PN_LEN_BITS, 0, 35)]
     h.flag F.PN_STAT_BUSY 0 = true) ∧
    -- port end short
    (let h : Hub := hub [(F.PN_STAT_BUSY, 0, 1), (F.PN_LEN_BITS, 0, 4096)]
     h.flag F.PN_STAT_BUSY 0 = true) ∧
    -- port timeout
    (let h : Hub := hub [(F.PN_STAT_BUSY, 0, 1), (F.PN_LEN_BITS, 0, 3), (F.PN_CFG_RDY_EN, 0, 1)]
     h.flag F.PN_STAT_BUSY 0 = true ∧ h.flag F.PN_CFG_RDY_EN 0 = true) ∧
    -- gpio
    (let h : Hub := { hub [(F.GPIO_OUT_OUT, 0, 0x5A)] with start := {} }
     let h' := run (.gpioSet 0xFFFFFF0F) h
     (h.start.held = false) ∧ h'.fld F.GPIO_OUT_OUT 0 = 0x5F ∧ only h h' [A.GPIO_OUT] = true ∧
       (run (.gpioClr 0xFFFFFF0F) h).fld F.GPIO_OUT_OUT 0 = 0x50 ∧ only h (run (.gpioClr 0xFFFFFF0F) h) [A.GPIO_OUT] = true) := by
  refine ⟨?_, ?_, ?_, ?_, ?_, ?_, ?_, ?_, ?_, ?_, ?_, ?_, ?_, ?_, ?_, ?_⟩ <;> decide +kernel

theorem witness_SlotBoundaryCounts :
    -- boundary held
    (let h : Hub := { hub [] with start := { held := true } }
     h.start.held = true) ∧
    -- boundary
    (
       let h : Hub := { hub [(F.TW_CFG_EN, 0, 0), (F.RT_ORBIT_LEN, 0, 100), (F.RT_ORBIT_POS, 0, 99), (F.RT_TIME_NS_NS, 0, 0xFFFFFFFF), (F.RT_TNSINC_INC, 0, 26214400)] with start := {}, pk := {}, chain := [], rooster := { counting := true, runFrom := (hub []).rooster.runFrom, noFrame := 3, theta := 55, frac := 0xFFFFFF }, twin := {} }
     h.start.held = false ∧ h.parked = false ∧ h.twin.stepAt = none ∧ h.pk.apply = none ∧ h.rooster.sched = []) ∧
    -- boundary order
    (
       let h : Hub := { hub [(F.TW_CFG_EN, 0, 0), (F.MODE_STAT_MODE, 0, mSetup), (F.CHN_STAT_RUNNING, 0, 0), (F.RT_TSARM_ARM, 0, 1), (F.RT_SLOTSET_LO_V, 0, 0xFFFFFFFF), (F.RT_SLOTSET_HI_V, 0, 0x1234), (F.RT_TNSSET_V, 0, 77)] with start := {}, pk := {}, chain := [], shadow := [], mule := {}, twin := {}, rooster := { counting := true, sched := [(Fc.orbit, (hub []).slot + 1#48), (Fc.snap, (hub []).slot + 1#48), (Fc.sync, (hub []).slot + 1#48), (Fc.commit, (hub []).slot + 1#48)] } }
     h.start.held = false ∧ h.parked = false ∧ h.twin.stepAt = none ∧ h.pk.apply = none ∧ h.mode = mSetup ∧
       h.flag F.CHN_STAT_RUNNING 0 = false ∧ h.mule.drain = none ∧ h.shadow = [] ∧ h.flag F.RT_TSARM_ARM 0 = true ∧
       h.rooster.sched.map (fun x => x.2) = List.replicate 4 (h.slot + 1#48)) ∧
    -- boundary not counting
    (
       let h : Hub := { hub [(F.TW_CFG_EN, 0, 0)] with start := {}, pk := {}, chain := [], rooster := {}, twin := {}, bull := { task := some { entry := 9, arg := 9, slot := 15 }, bg := { pc := 0x4400 } } }
     h.start.held = false ∧ h.parked = false ∧ h.twin.stepAt = none ∧ h.pk.apply = none ∧ h.rooster.sched = []) := by
  refine ⟨?_, ?_, ?_, ?_⟩ <;> decide +kernel

/-! ### Instructions -/

/-- A context with a few registers set. -/
def ctx (pc : Nat) : Ctx :=
  { g := [(1, 8), (2, 0xFFFFFFFC), (3, 0x80000000), (4, 65533), (5, 8190), (6, 0x1FFFF), (7, 2), (8, 64), (9, 0x4000)],
    v := [(1, 0xFFFF8000), (2, 0x10001)], m := [(0, 5)], pc := pc }

/-- Bull with a packet of 20 words from lane 0 in execution, at its fourth word. -/
def bullHub : Hub :=
  { hub [] with
    start := {}
    bull := { fg := ctx 0x4003, bg := ctx 0x123, dmem := [(2, 0x87654321), (16, 5)], task := some { entry := 5, arg := 0, slot := 3 } }
    pk := { cur := some (executing (.lane 0) 20) } }

/-- Bull with its background task alone. -/
def taskHub : Hub := { bullHub with pk := {} }

/-- Engine 3 in RUN. -/
def oxHub (x : Ox) : Hub := { hub [(F.MODE_STAT_MODE, 0, mRun), (F.OX_CFG_EN, 3, 1)] with start := {}, ox := [(3, x)] }
def anOx : Ox := { slot := ctx 7, bg := ctx 9, dmem := [(2, 0x87654321)], done := false, cyc := 2 }

/-- The engine when its slot program has ended. -/
def endedOx : Ox := { anOx with done := true }

def onFg : Place := ⟨.bullFg, false, true, .ok⟩
def onBg : Place := ⟨.bullBg, false, true, .ok⟩
def onSlot (vec : Bool) : Place := ⟨.oxSlot 3, vec, true, .ok⟩
def onTask (vec : Bool) : Place := ⟨.oxBg 3, vec, true, .ok⟩

/-- `Hub.may` and `Hub.mayGo` together, as a Bool. -/
def canRun (h : Hub) (p : Place) (vec : Bool) (lim : Limits) (cyc t : Nat) : Bool :=
  let bg := inBackground p.who
  let c := h.ctxAt p
  p.fetch == .ok &&
  if onBull p.who then
    h.bullReady bg && h.bullGate bg lim == 0 && (!decide (c.pc < 0x4000) || !decide (c.pc ∈ h.bull.badI))
      && h.bullTarget bg t
  else
    let x := h.oxOf (engineOf p.who)
    h.oxReady bg (engineOf p.who) && p.vec == vec && p.ends && c.half.isNone && !decide (2 * c.pc + b2n vec ∈ x.bad)
      && (if bg then decide (x.cyc + x.bgCyc + cyc ≤ 16) else decide (x.cyc + cyc < 12)) && decide (t ≤ 0x3FF)

theorem may_of_canRun (h : Hub) (p : Place) (vec : Bool) (lim : Limits) (cyc t : Nat) (hr : canRun h p vec lim cyc t = true) :
    h.may p vec lim cyc ∧ h.mayGo p t := by
  unfold canRun at hr
  unfold Hub.may Hub.mayGo
  split at hr <;> rename_i hb <;> simp only [hb] <;> simp at hr ⊢ <;> simp_all
  · intro hlt
    rcases hr.2.1.2 with h1 | h1
    · omega
    · exact h1


/-- The four places of the instructions of both cores, each in a hub in which it runs. -/
def everyPlace : List (Hub × Place) := [(bullHub, onFg), (taskHub, onBg), (oxHub anOx, onSlot false), (oxHub endedOx, onTask false)]

/-- A hub whose queue 7 is that of a place, with words in it. -/
def queueHub (h : Hub) (p : Place) (ws : List QWord) : Hub :=
  { ((h.setFld F.Q_CFG_PROD 7 (programCode p.who)).setFld F.Q_CFG_CONS 7 (programCode p.who)) with queues := [(7, { ws := ws })] }
def aWord : QWord := { data := 0x0123456789ABCDEF, last := true, gap := false, hit := false, slot := 0 }

theorem witness_RegisterInstructions :
    (everyPlace.all fun x => canRun x.1 x.2 false limPlain 2 ((x.1.ctxAt x.2).pc + 1) && canRun x.1 x.2 false limReads 1 ((x.1.ctxAt x.2).pc + 1))
      = true ∧
    canRun (oxHub anOx) (onSlot true) true limPlain 1 8 = true ∧ canRun (oxHub endedOx) (onTask true) true limPlain 1 10 = true ∧
    canRun (oxHub { anOx with cyc := 10 }) (onSlot false) false limPlain 1 8 = true ∧
    canRun (oxHub { anOx with cyc := 10 }) (onSlot false) false limPlain 2 8 = false ∧
    canRun (oxHub { anOx with slot := ctx 0x3FE }) (onSlot false) false limPlain 2 0x3FF = true ∧
    (31#10).toNat < 32 ∧ 32 ≤ (32#10).toNat ∧ (28#5).toNat ≤ 28 ∧ 28 < (30#5).toNat := by
  decide +kernel

theorem witness_MemoryAndFlow :
    -- the last word, half and byte of Bull's memory, and the first address beyond, from g4 = 65533 and g5 = 8190
    (let a (r n : Nat) (imm : BitVec 10) : Nat := ((ctx 0).gr r + imm.signExtend 32 * BitVec.ofNat 32 n).toNat
     a 4 1 2 + 1 ≤ dataBytes onFg ∧ dataBytes onFg < a 4 1 3 + 1 ∧ a 4 4 0 + 4 > dataBytes onFg ∧
      a 5 2 0 + 2 ≤ dataBytes (onSlot false) ∧ a 5 2 0 % 2 = 0 ∧ dataBytes (onSlot false) < a 5 2 1 + 2 ∧
      a 1 4 0 = 8 ∧ a 2 4 1 = 0 ∧ a 7 4 0 % 4 ≠ 0 ∧ a 7 4 0 + 4 ≤ dataBytes onFg) ∧
    (everyPlace.all fun x => canRun x.1 x.2 false limReads 2 ((x.1.ctxAt x.2).pc + 1) && canRun x.1 x.2 false {} 1 ((x.1.ctxAt x.2).pc + 1) &&
      !x.1.isBad x.2.who false (dataIndex x.2 2)) = true ∧
    -- a word with an uncorrectable error
    (let h : Hub := { bullHub with bull := { bullHub.bull with badD := [2] } }
     canRun h onFg false limReads 2 0x4004 = true ∧ 2 ∈ h.bull.badD) ∧
    -- branch and jump targets at and beyond the ends
    canRun bullHub onFg false limPlain 2 0x4014 = true ∧ bullHub.bullTarget false 0x4015 = false ∧ bullHub.bullTarget true 0x4001 = false ∧
    canRun taskHub onBg false limPlain 2 0x4400 = true ∧ canRun bullHub onFg false limPlain 2 0x3FFF = true ∧
    canRun (oxHub endedOx) (onTask false) false limPlain 2 0x3FF = true ∧ ¬ (BitVec.ofNat 32 9 + (-10#20).signExtend 32 : W32).toNat ≤ 0x3FF := by
  decide +kernel

theorem witness_QueueAndWait :
    (everyPlace.all fun x =>
      let h := queueHub x.1 x.2 []
      let h1 := queueHub x.1 x.2 [aWord]
      let h15 := queueHub x.1 x.2 (List.replicate 15 aWord)
      let h16 := queueHub x.1 x.2 (List.replicate 16 aWord)
      canRun h x.2 false { noAtomic := true } 2 ((h.ctxAt x.2).pc + 1) && h.fld F.Q_CFG_PROD 7 == programCode x.2.who &&
      h.fld F.Q_CFG_CONS 7 == programCode x.2.who && room h 7 1 && room h15 7 1 && !room h16 7 1 && (h.queue 7).ws.isEmpty &&
      (h1.queue 7).ws == [aWord] && canRun h1 x.2 false { noAtomic := true } 2 ((h.ctxAt x.2).pc + 1) &&
      canRun h16 x.2 false { noAtomic := true } 2 ((h.ctxAt x.2).pc + 1) &&
      h.fld F.Q_CFG_PROD 8 != programCode x.2.who && h.fld F.Q_CFG_CONS 8 != programCode x.2.who &&
      canRun h x.2 false limReads 1 ((h.ctxAt x.2).pc + 1)) = true ∧
    (let h := oxHub { endedOx with notices := [(5, 6), (7, 8)] }
     canRun h (onTask false) false {} 1 10 = true ∧ (h.oxOf 3).notices = [(5, 6), (7, 8)] ∧ ((oxHub anOx).oxOf 3).notices = []) ∧
    canRun (oxHub anOx) (onSlot false) false {} 1 8 = true := by
  decide +kernel

theorem witness_ParameterInstructions :
    canRun bullHub onFg false limPlain 1 0x4004 = true ∧ canRun bullHub onFg false { unaddr := true } 1 0x4004 = true ∧
    canRun taskHub onBg false limPlain 1 0x124 = true ∧ canRun taskHub onBg false { unaddr := true } 1 0x124 = true ∧
    canRun (oxHub anOx) (onSlot false) false {} 1 8 = true ∧ canRun (oxHub endedOx) (onTask true) true {} 1 10 = true ∧
    -- a hub without an address: only PST and PBWR get as far as their own checks
    (let h : Hub := { bullHub with regs := [] }
     h.flag F.HUB_ADDR_VALID 0 = false ∧ canRun h onFg false { unaddr := true } 1 0x4004 = true ∧
       canRun h onFg false limPlain 1 0x4004 = true ∧ canRun h onFg false {} 1 0x4004 = false) ∧
    -- the reply has room for the words, or not
    (let full (n : Nat) : Hub := { bullHub with pk := { cur := some { executing (.lane 0) 20 with reply := List.replicate n 0 } } }
     canRun (full 4095) onFg false limPlain 1 0x4004 = true ∧ ((full 4095).pk.cur.map fun x => 4096 - x.reply.length) = some 1) ∧
    -- PST of a register: written, refused in a mode, and reading nothing that stops it
    bullHub.writeExc false A.RSLOT_DESC 5 = 0 ∧ (bullHub.setFld F.MODE_STAT_MODE 0 mSetup).writeExc false A.LANE_ROLE 5 = 0 ∧
    (bullHub.setFld F.MODE_STAT_MODE 0 mRun).writeExc false A.LANE_ROLE 5 = 2 ∧
    (bullHub.setFld F.OX_STAT_ACT_SEALED 0 1).writeExc false 0x20000 5 = 7 ∧
    -- blocks at the end of a region and of the data memory
    regionEnd 0x3FF + 1 - 0x3FF = 1 ∧ regionEnd 0 + 1 - 0 = 1024 ∧ regionEnd 0xFFFFFF + 1 - 0xFFFFFF = 1 ∧
    65532 + 4 * 1 ≤ 65536 ∧ 65536 < 65532 + 4 * 2 ∧
    (bullHub.writeBlock false A.RSLOT_DESC 0 [1, 2]).2.2 = 0 ∧ (bullHub.writeBlock false 0xE0000 0 [1, 2]).2.2 = 0 ∧
    ((bullHub.setFld F.MODE_STAT_MODE 0 mRun).writeBlock false A.LANE_ROLE 0 [1, 2]).2.2 = 2 ∧
    ((bullHub.setFld F.OX_STAT_ACT_SEALED 0 1).writeBlock false 0x1FFFF 0 [1, 2]).2.2 = 7 := by
  decide +kernel

/-- A hub of Bull in a mode, with result slot 2 in a state and `n` tasks queued. -/
def sysHub (h : Hub) (m slot n : Nat) : Hub :=
  let h := (h.setFld F.MODE_STAT_MODE 0 m).setFld F.RSLOT_DESC_STATE 2 slot
  { h with bull := { h.bull with tasks := List.replicate n { entry := 9, arg := 0, slot := 5 } } }

theorem witness_SystemInstructions :
    (([(bullHub, onFg), (taskHub, onBg)] : List (Hub × Place)).all fun x =>
      canRun x.1 x.2 false limReads 1 5 && canRun x.1 x.2 false { noAtomic := true } 1 ((x.1.ctxAt x.2).pc + 1) &&
      canRun x.1 x.2 false limPlain 1 ((x.1.ctxAt x.2).pc + 1) && (x.1.dataAt x.2 16).toNat % 2 ^ 14 == 5 &&
      (x.1.dataAt x.2 17).toNat % 2 ^ 14 == 0) = true ∧
    -- an entry of the procedure table with an uncorrectable error
    (let h : Hub := { bullHub with bull := { bullHub.bull with badD := [16] } }
     canRun h onFg false limReads 1 5 = true ∧ 16 ∈ h.bull.badD) ∧
    -- background tasks: one may still be queued; no task may; the slot is in use
    (let h := sysHub bullHub mSetup 0 7
     canRun h onFg false { noAtomic := true } 1 0x4004 = true ∧ h.bull.tasks.length < 8 ∧ h.fld F.RSLOT_DESC_STATE 2 ≠ 1) ∧
    (let h := sysHub bullHub mSetup 0 8
     canRun h onFg false { noAtomic := true } 1 0x4004 = true ∧ 8 ≤ h.bull.tasks.length) ∧
    (let h := sysHub bullHub mSetup 1 0
     canRun h onFg false { noAtomic := true } 1 0x4004 = true ∧ h.fld F.RSLOT_DESC_STATE (18 % 16) = 1) ∧
    -- the reply: room for one word, for none, for the words of a slot
    (let full (n : Nat) : Hub := { bullHub with pk := { cur := some { executing (.lane 0) 20 with reply := List.replicate n 0 } } }
     canRun (full 4095) onFg false limPlain 1 0x4004 = true ∧ canRun (full 4096) onFg false limPlain 1 0x4004 = true ∧
     ((full 4096).pk.cur.map fun x => 4096 - x.reply.length) = some 0 ∧
     ((full 4095).setFld F.RSLOT_DESC_WCOUNT 2 1).fld F.RSLOT_DESC_WCOUNT 2 = 1) ∧
    -- RSLT POST: 32 words that end with the memory, one more word, a word that begins one later
    65408 + 4 * 32 ≤ 65536 ∧ 65408 % 4 = 0 ∧ 65536 < 65412 + 4 * 32 ∧ 65406 % 4 ≠ 0 ∧
    -- modes
    (sysHub bullHub mSetup 0 0).modeAllowed mUnloaded = false ∧ (sysHub bullHub mSetup 0 0).modeAllowed mHold = true ∧
    (sysHub bullHub mSetup 0 0).mode ≠ mHold ∧ (sysHub bullHub mDegraded 0 0).mode = mDegraded ∧
    canRun (sysHub bullHub mDegraded 0 0) onFg false { noAtomic := true } 1 0x4004 = true ∧
    -- seals
    (sysHub bullHub mRun 0 0).mode ≠ mSetup ∧ (sysHub bullHub mSetup 0 0).mode = mSetup ∧
    (((List.range 17).filter fun e => (8#32).toNat.testBit e) = [3]) := by
  decide +kernel

theorem witness_SwapAndJlog :
    (let es := (List.range 17).filter fun e => (8#32).toNat.testBit e
     let sealed := bullHub.setFld F.OX_STAT_STBY_SEALED 3 1
     let pend := sealed.setFld F.OX_STAT_SWAP_PEND 3 1
     (bullHub.ctxAt onFg).gr 1 = 8 ∧ (∃ e ∈ es, bullHub.flag F.OX_STAT_STBY_SEALED e = false) ∧
      (∀ e ∈ es, pend.flag F.OX_STAT_STBY_SEALED e = true) ∧ (∃ e ∈ es, pend.flag F.OX_STAT_SWAP_PEND e = true) ∧
      (∀ e ∈ es, sealed.flag F.OX_STAT_STBY_SEALED e = true ∧ sealed.flag F.OX_STAT_SWAP_PEND e = false) ∧
      canRun bullHub onFg false { noAtomic := true } 1 0x4004 = true ∧ canRun pend onFg false { noAtomic := true } 1 0x4004 = true ∧
      canRun sealed onFg false { noAtomic := true } 1 0x4004 = true ∧ canRun taskHub onBg false { noAtomic := true } 1 0x124 = true) := by
  decide +kernel

theorem witness_VectorInstructions :
    (([(oxHub anOx, onSlot true), (oxHub endedOx, onTask true)] : List (Hub × Place)).all fun x =>
      canRun x.1 x.2 true {} 2 ((x.1.ctxAt x.2).pc + 1) && (List.range 16).all fun j => !x.1.isBad x.2.who false (dataIndex x.2 (2032 + j))) = true ∧
    canRun (oxHub anOx) (onSlot false) false {} 1 8 = true ∧ canRun bullHub onFg false {} 1 0x4004 = true ∧
    -- register fields at and beyond their ends, and predicates
    (7#5).toNat < 8 ∧ ¬ (8#5).toNat < 8 ∧ (3#5).toNat < 4 ∧ ¬ (4#5).toNat < 4 ∧ (4#3).getLsbD 2 = true ∧ (3#3).getLsbD 2 = false ∧ 3#3 ≠ 0 ∧
    -- 64 bytes at the end of the memory, beyond it, and off their boundary, from g8 = 64 and g5 = 8190
    (let a (r : Nat) (imm : BitVec 10) : Nat := ((ctx 0).gr r + imm.signExtend 32 * 64#32).toNat
     a 8 126 = 8128 ∧ a 8 126 + 64 ≤ 8192 ∧ a 8 126 % 64 = 0 ∧ 8192 < a 8 127 + 64 ∧ a 5 (-1) + 64 ≤ 8192 + 0 ∧ a 5 (-1) % 64 ≠ 0) := by
  decide +kernel

/-- Engine 3 with a hit of its channel 2, and queue 7 its own. -/
def hitHub : Hub :=
  let y : Hit := { ch := 98, slot := 0, toa := 5, tot := 9, base := 0, k0 := 0 }
  (oxHub { anOx with prim := [y], sec := [{ y with toa := 50 }] }).setFld F.Q_CFG_PROD 7 0x13

theorem witness_Assists :
    canRun hitHub (onSlot true) true {} 6 8 = true ∧ canRun (hitHub.setOx 3 { hitHub.oxOf 3 with done := true }) (onTask true) true {} 6 10 = true ∧
    (hitHub.fld F.Q_CFG_PROD 7 = 0x13) ∧ hitHub.fld F.Q_CFG_PROD 8 ≠ 0x13 ∧ room hitHub 7 1 = true ∧
    (((hitHub.oxOf 3).prim.map fun y => (y.ch, y.gone)) = [(98, false)]) ∧ (5#32 : W32).getLsbD (98 % 32) = true ∧
    (hitHub.chainOf 96).stored < 0 + 1 ∧
    -- WIN and VPEAK at the end of the capture window and beyond
    ¬ 255 < 255 ∧ 255 < 256 ∧ 224 + 32 ≤ 256 ∧ 256 < 225 + 32 ∧ (3#32 : W32).toNat ≤ 255 := by
  decide +kernel

/-! ### Well-formed commands: every check refuses a term -/

theorem wellFormed_place :
    Instr.wf (.nop onFg) = true ∧ Instr.wf (.nop ⟨.bullFg, true, true, .ok⟩) = false ∧ Instr.wf (.nop ⟨.bullBg, false, false, .ok⟩) = false ∧
    Instr.wf (.nop ⟨.oxSlot 15, true, false, .ok⟩) = true ∧ Instr.wf (.nop ⟨.oxSlot 16, true, true, .ok⟩) = false ∧
    Instr.wf (.nop ⟨.oxBg 16, true, true, .ok⟩) = false := by
  decide +kernel

theorem wellFormed_frames :
    Instr.wf (.downlinkFrameReceive 3 (List.replicate 64 0) 0) = true ∧ Instr.wf (.downlinkFrameReceive 3 (List.replicate 63 0) 0) = false ∧
    Instr.wf (.uplinkFrameReceive 3 (List.replicate 65 0) 0) = false ∧ Instr.wf (.auditFrameReceive 3 [1, 2, 3, 4, 5, 6]) = false ∧
    Instr.wf (.auditFrameReceive 3 [1, 2, 3, 4, 5, 6, 7]) = true ∧ Instr.wf (.packetRoute 3 []) = false ∧
    Instr.wf (.packetAccept .tether []) = false ∧ Instr.wf (.twinSyncReceive [1]) = false ∧ Instr.wf (.copyRecordReceive [1]) = false ∧
    Instr.wf (.copyRecordReceive [1, 2]) = true ∧ Instr.wf (.tetherFrame 33 [1] false) = false ∧
    Instr.wf (.tetherFrame 33 [1, 2] false) = true := by
  decide +kernel

theorem wellFormed_lists :
    Instr.wf (.s06MemoryTest [(1, 2), (1, 2)] 0) = false ∧ Instr.wf (.s06MemoryTest [(1, 2), (1, 3)] 0) = true ∧
    Instr.wf (.s07TdcCheck [(1, true), (1, true)] 0) = false ∧ Instr.wf (.s08DigitiserTest [1, 1] 0) = false ∧
    Instr.wf (.slotBoundary ⟨[⟨3, ⟨0, false, false, false⟩, ⟨0, false, false, false⟩, ⟨0, false, false, false⟩, ⟨0, false, false, false⟩⟩,
      ⟨3, ⟨1, false, false, false⟩, ⟨0, false, false, false⟩, ⟨0, false, false, false⟩, ⟨0, false, false, false⟩⟩], false⟩) = false ∧
    Instr.wf (.portAbort 0 (List.replicate 2049 true)) = false ∧ Instr.wf (.portTransferEnd 0 (List.replicate 2049 true)) = false ∧
    Instr.wf (.portTransferEnd 0 (List.replicate 2048 true)) = true ∧ Instr.wf (.portRdyTimeout 0 (List.replicate 2049 true)) = false := by
  decide +kernel

theorem wellFormed_results :
    Instr.wf (.calApply [.tdc 3 true (List.replicate 127 1) 0 0 0 0]) = false ∧
    Instr.wf (.calApply [.tdc 3 true (List.replicate 128 1) 0 0 0 0]) = true ∧
    Instr.wf (.calApply [.walk 3 []]) = false ∧ Instr.wf (.calApply [.walk 3 [List.replicate 15 (5, 1)]]) = false ∧
    Instr.wf (.calApply [.walk 3 [List.replicate 16 (5, 1)]]) = true ∧
    Instr.wf (.calApply [.timeofs 3 (List.replicate 64 0) (List.replicate 63 0)]) = false ∧
    Instr.wf (.calApply [.timeofs 3 (List.replicate 64 0) (List.replicate 64 0)]) = true ∧
    Instr.wf (.rollingRecal 0 (.selfPhase 0 0 (List.replicate 128 1) (List.replicate 127 1) 0 0 0 0 true)) = false ∧
    Instr.wf (.rollingRecal 0 (.selfPhase 0 0 (List.replicate 128 1) (List.replicate 128 1) 0 0 0 0 true)) = true ∧
    Instr.wf (.calApply [.laneRx 3 []]) = false ∧
    Instr.wf (.calApply [.laneRx 3 (List.replicate 16 ⟨List.replicate 64 ([1], [1])⟩)]) = true ∧
    Instr.wf (.calApply [.eye 3 ⟨List.replicate 63 ([1], [1])⟩]) = false ∧
    Instr.wf (.calApply [.eye 3 ⟨List.replicate 64 ([], [1])⟩]) = false ∧
    Instr.wf (.discriminatorCrossing 3 0 0 0 (-1)) = false ∧ Instr.wf (.discriminatorCrossing 3 0 0 0 0) = true := by
  decide +kernel

/-! ### Instructions: results worked out by hand from 07_belouz_instruction_set.md

Registers g1 = 8, g2 = -4, g3 = -2^31, g4 = 65533, g6 = 1FFFFh. -/

/-- g10 of Bull's foreground after an instruction, and its pc. -/
def g10 (i : Instr) : W32 × Nat := let h := run i bullHub; (h.bull.fg.gr 10, h.bull.fg.pc)

/-- The exception that Bull's foreground raises on an instruction: the packet ends with it. -/
def raised (i : Instr) (h : Hub) : Option Nat := (run i h).pk.cur.bind fun x => x.stop.map fun y => y.1

theorem test_sums : g10 (.add onFg 10 1 2) = (4, 0x4004) ∧ g10 (.sub onFg 10 2 1) = (0xFFFFFFF4, 0x4004) ∧
    g10 (.adds onFg 10 3 2) = (0x80000000, 0x4004) ∧ g10 (.subs onFg 10 1 3) = (0x7FFFFFFF, 0x4004) ∧
    g10 (.addi onFg 10 1 0 0x3FF) = (7, 0x4004) ∧ (run (.adds onFg 10 3 2) bullHub).bull.fg.cs &&& csASAT = csASAT := by
  decide +kernel

theorem test_logic : g10 (.and onFg 10 2 4) = (0xFFFC, 0x4004) ∧ g10 (.andn onFg 10 4 2) = (1, 0x4004) ∧
    g10 (.xor onFg 10 1 4) = (0xFFF5, 0x4004) ∧ g10 (.or onFg 10 1 4) = (0xFFFD, 0x4004) ∧ g10 (.xori onFg 10 1 0 0x3FF) = (0x3F7, 0x4004) := by
  decide +kernel

theorem test_shifts : g10 (.sll onFg 10 1 2) = (0x80000000, 0x4004) ∧ g10 (.sra onFg 10 3 1) = (0xFF800000, 0x4004) ∧
    g10 (.srl onFg 10 3 1) = (0x800000, 0x4004) ∧ g10 (.ror onFg 10 1 1) = (0x08000000, 0x4004) ∧
    g10 (.srai onFg 10 3 0 31) = (0xFFFFFFFF, 0x4004) := by
  decide +kernel

theorem test_compare : g10 (.slt onFg 10 2 1) = (1, 0x4004) ∧ g10 (.sltu onFg 10 2 1) = (0, 0x4004) ∧
    g10 (.min onFg 10 2 1) = (0xFFFFFFFC, 0x4004) ∧ g10 (.minu onFg 10 2 1) = (8, 0x4004) := by
  decide +kernel

theorem test_product : g10 (.mul onFg 10 2 1) = (0xFFFFFFE0, 0x4004) ∧ g10 (.mulh onFg 10 2 1) = (0xFFFFFFFF, 0x4004) ∧
    g10 (.mulhu onFg 10 2 1) = (7, 0x4004) := by
  decide +kernel

theorem test_bits : g10 (.clz onFg 10 1 0) = (28, 0x4004) ∧ g10 (.clz onFg 10 0 0) = (32, 0x4004) ∧ g10 (.popc onFg 10 6 0) = (17, 0x4004) ∧
    g10 (.extu onFg 10 4 2 2) = (7, 0x4004) ∧ g10 (.exts onFg 10 4 2 2) = (0xFFFFFFFF, 0x4004) ∧
    g10 (.movl onFg 10 0 0xBEEF) = (0xBEEF, 0x4004) ∧ g10 (.movh onFg 10 0 0xBEEF) = (0xBEEF0000, 0x4004) := by
  decide +kernel

theorem test_memory : g10 (.ld onFg 10 1 0 0 .ok) = (0x87654321, 0x4004) ∧ g10 (.ldb onFg 10 1 0 3 .ok) = (0xFFFFFF87, 0x4004) ∧
    g10 (.ldhu onFg 10 1 0 1 .ok) = (0x8765, 0x4004) ∧
    (run (.stb onFg 0 1 2 1 .ok) bullHub).bull.dmem = [(2, 0x8765FC21), (16, 5)] := by
  decide +kernel

theorem test_flow : (run (.beq onFg 0 1 1 5) bullHub).bull.fg.pc = 0x4008 ∧ (run (.bne onFg 0 1 1 5) bullHub).bull.fg.pc = 0x4004 ∧
    (run (.jal onFg 10 (-3)) bullHub).bull.fg.pc = 0x4000 ∧ g10 (.jalr onFg 10 9 0 3) = (0x4004, 0x4003) := by
  decide +kernel

theorem test_zero_register : (run (.add onFg 0 1 2) bullHub).bull.fg.gr 0 = 0 ∧ (run (.add onFg 0 1 2) bullHub).bull.fg.pc = 0x4004 := by
  decide +kernel

theorem test_traps : raised (.ld onFg 10 4 0 0 .ok) bullHub = some 4 ∧ raised (.ldh onFg 10 4 0 0x3FE .ok) bullHub = some 3 ∧
    raised (.nop { onFg with fetch := .unassigned }) bullHub = some 1 ∧ raised (.slli onFg 10 1 0 32) bullHub = some 1 ∧ raised (.vadd onFg 1 1 1 0) bullHub = some 1 ∧
    raised (.qpush onFg 7 1 2 0) bullHub = some 6 ∧ raised (.j onFg 0 0x200) bullHub = some 4 ∧
    raised (.pbrd onFg 10 0 0 0) { bullHub with pk := { cur := some { executing (.lane 0) 20 with reply := List.replicate 4096 0 } } }
      = some 0x0A := by
  decide +kernel

theorem test_queues : (match run (.qpushl onFg 7 1 2 0) (queueHub bullHub onFg []) with
      | h => ((h.queue 7).ws.map fun w => (w.data, w.last), h.bull.fg.cs &&& csQD)) = ([(0xFFFFFFFC00000008, true)], 0) ∧
    (match run (.qpop onFg 10 7 0 0) (queueHub bullHub onFg [aWord]) with
      | h => (h.bull.fg.gr 10, h.bull.fg.gr 11, (h.queue 7).ws.length)) = (0x89ABCDEF, 0x01234567, 0) ∧
    (run (.qpushl onFg 7 1 2 0) (queueHub bullHub onFg (List.replicate 16 aWord))).bull.fg.cs &&& csQD = csQD := by
  decide +kernel

/-- Lanes 0 to 2 of v3 of engine 3's slot program after a vector instruction, and its VSAT. -/
def v3 (i : Instr) : List Nat × W32 :=
  let c := ((run i (oxHub anOx)).oxOf 3).slot
  ((List.range 3).map fun k => lane16 (Store.get (fun _ => (0 : Vec)) c.v 3) k, c.cs &&& csVSAT)

theorem test_vectors : v3 (.vadd (onSlot true) 3 1 2 0) = ([0x8001, 0, 0], 0) ∧ v3 (.vaddu (onSlot true) 3 1 2 0) = ([0x8001, 0xFFFF, 0], csVSAT) ∧
    v3 (.vsubs (onSlot true) 3 1 2 0) = ([0x8000, 0xFFFE, 0], csVSAT) ∧ v3 (.vmin (onSlot true) 3 1 2 0) = ([0x8000, 0xFFFF, 0], 0) ∧
    v3 (.vminu (onSlot true) 3 1 2 0) = ([1, 1, 0], 0) ∧ v3 (.vavg (onSlot true) 3 1 2 0) = ([0x4001, 0x8000, 0], 0) ∧
    v3 (.vsra (onSlot true) 3 1 2 0) = ([0xC000, 0xFFFF, 0], 0) ∧ v3 (.vadd (onSlot true) 3 1 2 4) = ([0x8001, 0, 0], 0) := by
  decide +kernel

theorem test_reductions : (((run (.vredSum (onSlot true) 10 1 0 0) (oxHub anOx)).oxOf 3).slot.gr 10) = 0xFFFF7FFF ∧
    (((run (.vredSumu (onSlot true) 10 1 0 0) (oxHub anOx)).oxOf 3).slot.gr 10) = 0x17FFF ∧
    (((run (.vredMaxidx (onSlot true) 10 1 0 0) (oxHub anOx)).oxOf 3).slot.gr 10) = 1 := by
  decide +kernel

theorem test_words : (let h : Hub := { bullHub with pk := { cur := some { executing (.lane 0) 20 with view := bullHub.regs } } }
      (run (.pld onFg 10 0 0 16) h).bull.fg.gr 10 = 0x100BA ∧
      ((run (.rput onFg 0 1 0 0) h).pk.cur.map fun x => x.reply) = some [8]) := by
  decide +kernel

end Sys2Proof.Machine
end

section
/-! SUPPORT. Packets that arrive (R31, R389, R391-R395): what a violation and a reply write, routing, acceptance, and the statement
that they make up. -/

namespace Sys2Proof.Machine

/-! ### Fields and counters -/

/-- A field of a word holds the value last put there, modulo its width. -/
theorem Fld.get_put (f : Fld) (w : W32) (v : Nat) (hlo : f.lo ≤ f.hi) (hhi : f.hi < 32) :
    f.get (f.put w v) = v % 2 ^ f.width := by
  have hn : f.hi + 1 = f.lo + f.width := by unfold Fld.width; omega
  have hlow : w.toNat % 2 ^ f.lo < 2 ^ f.lo := Nat.mod_lt _ (by positivity)
  have hpow : (2 : Nat) ^ 32 = 2 ^ f.lo * (2 ^ f.width * 2 ^ (32 - (f.lo + f.width))) := by
    rw [← pow_add, ← pow_add]
    congr 1
    omega
  have hsum : w.toNat % 2 ^ f.lo + v % 2 ^ f.width * 2 ^ f.lo + w.toNat / 2 ^ (f.hi + 1) * 2 ^ (f.hi + 1)
      = w.toNat % 2 ^ f.lo + 2 ^ f.lo * (v % 2 ^ f.width + 2 ^ f.width * (w.toNat / 2 ^ (f.hi + 1))) := by
    rw [hn, pow_add]
    ring
  change (f.put w v).toNat / 2 ^ f.lo % 2 ^ f.width = _
  rw [Fld.put, BitVec.toNat_ofNat, hsum, hpow, Nat.mod_mul_right_div_self, Nat.mod_mul_right_mod,
    Nat.add_mul_div_left _ _ (by positivity), Nat.div_eq_of_lt hlow, Nat.zero_add, Nat.add_mul_mod_self_left, Nat.mod_mod]

/-- The SAT bit of a counter lies above its COUNT (R603). -/
theorem Fld.get_or_sat (f : Fld) (w : W32) (hhi : f.hi < 31) : f.get (w ||| 0x80000000#32) = f.get w := by
  unfold Fld.get bits
  apply Nat.eq_of_testBit_eq
  intro k
  simp only [Nat.testBit_mod_two_pow, Nat.testBit_div_two_pow, BitVec.toNat_or, Nat.testBit_or]
  by_cases hk : k < f.hi + 1 - f.lo
  · have hsat : (0x80000000#32).toNat.testBit (f.lo + k) = false :=
      Nat.testBit_two_pow_of_ne (n := 31) (by omega)
    rw [add_comm k] at *
    rw [hsat, Bool.or_false]
  · simp [hk]

variable (h : Hub)

theorem Hub.fld_lt (f : Fld) (i : Nat) : h.fld f i < 2 ^ f.width := Nat.mod_lt _ (by positivity)

theorem Hub.word_setFld_other (f : Fld) (i v : Nat) {a : Nat} (ha : a ≠ f.addr i) : (h.setFld f i v).word a = h.word a := by
  rw [Hub.setFld, Hub.setWord_word, if_neg ha]

theorem Hub.word_setFlag_other (f : Fld) (i : Nat) (b : Bool) {a : Nat} (ha : a ≠ f.addr i) :
    (h.setFlag f i b).word a = h.word a := h.word_setFld_other f i _ ha

theorem Hub.word_bump_other (f : Fld) (i : Nat) {a : Nat} (ha : a ≠ f.addr i) : (h.bump f i).word a = h.word a := by
  unfold Hub.bump
  split
  · rw [Hub.setWord_word, if_neg ha]
  · exact h.word_setFld_other f i _ ha

theorem Hub.fld_setFld_same (f : Fld) (i v : Nat) (hlo : f.lo ≤ f.hi) (hhi : f.hi < 32) :
    (h.setFld f i v).fld f i = v % 2 ^ f.width := by
  rw [Hub.fld, Hub.setFld, Hub.setWord_word, if_pos rfl, f.get_put _ _ hlo hhi]

/-- A field reads the same in two hubs in which its word is the same. -/
theorem Hub.fld_congr {h h' : Hub} {f : Fld} {i : Nat} (hw : h'.word (f.addr i) = h.word (f.addr i)) : h'.fld f i = h.fld f i := by
  rw [Hub.fld, Hub.fld, hw]

theorem Hub.flag_congr {h h' : Hub} {f : Fld} {i : Nat} (hw : h'.word (f.addr i) = h.word (f.addr i)) :
    h'.flag f i = h.flag f i := by
  rw [Hub.flag, Hub.flag, Hub.fld_congr hw]

/-- One event on a counter whose SAT bit lies above it (R603). -/
theorem Hub.counted_bump (f : Fld) (i : Nat) (hlo : f.lo ≤ f.hi) (hhi : f.hi < 31) : h.counted (h.bump f i) f i 1 := by
  have hlt := h.fld_lt f i
  unfold Hub.counted Hub.bump
  split
  next hmax =>
    rw [Hub.fld, Hub.setWord_word, if_pos rfl, f.get_or_sat _ hhi, ← Hub.fld]
    omega
  next hmax =>
    rw [h.fld_setFld_same f i _ hlo (by omega), Nat.mod_eq_of_lt (by omega)]
    omega

/-- What leaves the word of a counter alone leaves its count. -/
theorem Hub.counted.of_word {h h₁ h₂ : Hub} {f : Fld} {i n : Nat} (hc : h.counted h₁ f i n)
    (hw : h₂.word (f.addr i) = h₁.word (f.addr i)) : h.counted h₂ f i n := by
  rw [Hub.counted, Hub.fld_congr hw]
  exact hc

/-! ### The partner-violation log (R412, R413) -/

@[simp] theorem Hub.setWords_pk (a : Nat) (ws : List W32) : (h.setWords a ws).pk = h.pk := by
  induction ws generalizing h a with
  | nil => rfl
  | cons w rest ih => rw [Hub.setWords, ih, Hub.setWord_pk]

@[simp] theorem Hub.setWords_hen (a : Nat) (ws : List W32) : (h.setWords a ws).hen = h.hen := by
  induction ws generalizing h a with
  | nil => rfl
  | cons w rest ih => rw [Hub.setWords, ih, Hub.setWord_hen]

theorem Hub.word_setWords_other (a : Nat) (ws : List W32) {b : Nat} (hb : b < a ∨ a + ws.length ≤ b) :
    (h.setWords a ws).word b = h.word b := by
  induction ws generalizing h a with
  | nil => rfl
  | cons w rest ih =>
    rw [List.length_cons] at hb
    rw [Hub.setWords, ih _ _ (by omega), Hub.setWord_word, if_neg (by omega)]

@[simp] theorem Hub.violation_pk (code loc seq : Nat) : (h.violation code loc seq).pk = h.pk := by
  unfold Hub.violation
  dsimp only
  split <;> simp

@[simp] theorem Hub.violation_hen (code loc seq : Nat) : (h.violation code loc seq).hen = h.hen := by
  unfold Hub.violation
  dsimp only
  split <;> simp

/-- A violation writes its counter, two words of the log and the head of the log. -/
theorem Hub.word_violation (code loc seq : Nat) {a : Nat} (hlog : a < 0x440 ∨ 0x460 < a) :
    (h.violation code loc seq).word a = (h.bump F.PV_CNT_COUNT (code - 1)).word a := by
  have hn : (h.bump F.PV_CNT_COUNT (code - 1)).fld F.PV_HEAD_NEXT 0 < 16 := Hub.fld_lt _ F.PV_HEAD_NEXT 0
  unfold Hub.violation
  dsimp only
  generalize (h.bump F.PV_CNT_COUNT (code - 1)).fld F.PV_HEAD_NEXT 0 = n at hn
  split
  · rw [Hub.word_setFld_other, Hub.word_setFld_other, Hub.word_setWords_other] <;>
      simp only [Fld.addr, A.PV_LOG, List.length_cons, List.length_nil] <;> omega
  · rw [Hub.word_setFld_other, Hub.word_setWords_other] <;>
      simp only [Fld.addr, A.PV_LOG, List.length_cons, List.length_nil] <;> omega

/-- The counter of a violation counts it. -/
theorem Hub.counted_violation (code loc seq : Nat) (hc : code ≤ 0x10) :
    h.counted (h.violation code loc seq) F.PV_CNT_COUNT (code - 1) 1 := by
  refine (h.counted_bump F.PV_CNT_COUNT (code - 1) (by decide) (by decide)).of_word (h.word_violation code loc seq (Or.inl ?_))
  simp only [Fld.addr]
  omega

/-- A word outside the counters and the log of violations. What routing reads is there: the address, the roles of lanes and the
routes. -/
def outsideLog (a : Nat) : Prop := a < 0x410 ∨ 0x460 < a

theorem Hub.word_violation_other (code loc seq : Nat) (hc : code ≤ 0x10) {a : Nat} (ha : outsideLog a) :
    (h.violation code loc seq).word a = h.word a := by
  unfold outsideLog at ha
  rw [h.word_violation code loc seq (by omega), Hub.word_bump_other]
  simp only [Fld.addr]
  omega

/-! ### Routes (R31) -/

section
variable {h h' : Hub} (hw : ∀ a, outsideLog a → h'.word a = h.word a)
include hw

theorem Hub.fld_of_outsideLog (f : Fld) (i : Nat) (hf : outsideLog (f.addr i)) : h'.fld f i = h.fld f i := Hub.fld_congr (hw _ hf)

theorem Hub.role_of_outsideLog (l : Nat) : h'.role l = h.role l :=
  Hub.fld_of_outsideLog hw _ _ (Or.inr (by simp only [Fld.addr]; omega))

theorem Hub.lanePort_of_outsideLog (l : Nat) : h'.lanePort l = h.lanePort l := by
  have hp : h'.fld F.LANE_ROLE_ACT_PORT l = h.fld F.LANE_ROLE_ACT_PORT l :=
    Hub.fld_of_outsideLog hw _ _ (Or.inr (by simp only [Fld.addr]; omega))
  rw [Hub.lanePort, Hub.lanePort, Hub.role_of_outsideLog hw, hp]

theorem Hub.childActive_of_outsideLog (k : Nat) : h'.childActive k = h.childActive k := by
  simp only [Hub.childActive, Hub.childLanes, Hub.role_of_outsideLog hw, Hub.lanePort_of_outsideLog hw]

theorem Hub.address_of_outsideLog : h'.address = h.address := Hub.fld_of_outsideLog hw _ _ (Or.inl (by decide))

theorem Hub.addrValid_of_outsideLog : h'.flag F.HUB_ADDR_VALID 0 = h.flag F.HUB_ADDR_VALID 0 :=
  Hub.flag_congr (hw _ (Or.inl (by decide)))

theorem Hub.routePorts_of_outsideLog (hd : Nat) : h'.routePorts hd = h.routePorts hd := by
  have hlo (k : Nat) : h'.fld F.ROUTE_LO k = h.fld F.ROUTE_LO k :=
    Hub.fld_of_outsideLog hw _ _ (Or.inr (by simp only [Fld.addr]; omega))
  have hhi (k : Nat) : h'.fld F.ROUTE_HI k = h.fld F.ROUTE_HI k :=
    Hub.fld_of_outsideLog hw _ _ (Or.inr (by simp only [Fld.addr]; omega))
  simp only [Hub.routePorts, Hub.routeUsable, Hub.childActive_of_outsideLog hw, Hub.address_of_outsideLog hw,
    Hub.addrValid_of_outsideLog hw, hlo, hhi]

theorem Hub.pkMine_of_outsideLog (hd : Nat) : h'.pkMine hd = h.pkMine hd := by
  rw [Hub.pkMine, Hub.pkMine, Hub.address_of_outsideLog hw, Hub.addrValid_of_outsideLog hw]

end

theorem Hub.routePorts_violation (code loc seq hd : Nat) (hc : code ≤ 0x10) :
    (h.violation code loc seq).routePorts hd = h.routePorts hd :=
  Hub.routePorts_of_outsideLog (fun _ ha => h.word_violation_other code loc seq hc ha) hd

theorem Hub.pkMine_violation (code loc seq hd : Nat) (hc : code ≤ 0x10) :
    (h.violation code loc seq).pkMine hd = h.pkMine hd :=
  Hub.pkMine_of_outsideLog (fun _ ha => h.word_violation_other code loc seq hc ha) hd

/-! ### Replies leave (R392, R396, R403-R406) -/

@[simp] theorem Hub.attnNow_pk (b : Nat) : (h.attnNow b).pk = h.pk := by simp [Hub.attnNow, Hub.refreshAttn]

@[simp] theorem Hub.attn_pk (b : Nat) : (h.attn b).pk = h.pk := by
  unfold Hub.attn
  split
  · rfl
  · exact h.attnNow_pk b

@[simp] theorem Hub.ledAdd_pk (i n : Nat) : (h.ledAdd i n).pk = h.pk := by
  simp only [Hub.ledAdd, apply_ite Hub.pk, Hub.setLed_pk, ite_self]

@[simp] theorem Hub.depthMoved_pk (q before : Nat) : (h.depthMoved q before).pk = h.pk := by
  unfold Hub.depthMoved
  dsimp only
  split_ifs <;> simp

@[simp] theorem Hub.addPend_pk (q n : Nat) : (h.addPend q n).pk = h.pk := by
  unfold Hub.addPend
  dsimp only
  split <;> simp

@[simp] theorem Hub.countDrop_pk (q : Nat) (hit : Bool) : (h.countDrop q hit).pk = h.pk := by
  cases hit <;> simp [Hub.countDrop, Hub.ledSub]

@[simp] theorem Hub.enterFrom_pk (q cyc before : Nat) (first last hit : Bool) (data : W64) :
    (h.enterFrom q cyc before first last hit data).pk = h.pk := by
  unfold Hub.enterFrom
  dsimp only
  split_ifs <;> simp

@[simp] theorem Hub.pushFrom_pk (q cyc before : Nat) (data : W64) (last hit : Bool) :
    (h.pushFrom q cyc before data last hit).1.pk = h.pk := by
  unfold Hub.pushFrom
  dsimp only
  split_ifs <;> simp

@[simp] theorem Hub.push_pk (q : Nat) (data : W64) (last hit : Bool) : (h.push q data last hit).1.pk = h.pk :=
  h.pushFrom_pk _ _ _ _ _ _

@[simp] theorem Hub.refreshMule_pk : h.refreshMule.pk = h.pk := by simp [Hub.refreshMule]

/-- A read of the parameter space sees the registers alone. -/
theorem Hub.word_of_regs {h h' : Hub} (hr : h'.regs = h.regs) (a : Nat) : h'.word a = h.word a := by
  rw [Hub.word, Hub.word, hr]

theorem Hub.ledAdd_regs (i n : Nat) : (h.ledAdd i n).regs = (h.setLed i ((h.led i + n) % 2 ^ 48)).regs := by
  simp only [Hub.ledAdd, apply_ite Hub.regs, ite_self]

/-- A word above STATUS and below the registers of the queues. -/
def belowQueues (a : Nat) : Prop := 0x400 < a ∧ a < 0x6000

/-- A field of STATUS, or of the registers of the queues and above. -/
def Fld.ofReplies (f : Fld) : Bool := f.base == 0x400 && f.stride == 0 || decide (0x6000 ≤ f.base)

theorem Hub.word_ite (c : Prop) [Decidable c] (h h' : Hub) (a : Nat) :
    (if c then h else h').word a = if c then h.word a else h'.word a := by
  split <;> rfl

section
variable {a : Nat} (ha : belowQueues a)
include ha

theorem Fld.addr_ne_of_ofReplies (f : Fld) (i : Nat) (hf : f.ofReplies = true) : a ≠ f.addr i := by
  obtain ⟨hlo, hhi⟩ := ha
  simp only [Fld.ofReplies, Bool.or_eq_true, Bool.and_eq_true, beq_iff_eq, decide_eq_true_eq] at hf
  unfold Fld.addr
  rcases hf with ⟨hb, hs⟩ | hb
  · rw [hb, hs]
    omega
  · omega

theorem Hub.word_setFld_belowQueues (f : Fld) (i v : Nat) (hf : f.ofReplies = true) : (h.setFld f i v).word a = h.word a :=
  h.word_setFld_other f i v (f.addr_ne_of_ofReplies ha i hf)

theorem Hub.word_setFlag_belowQueues (f : Fld) (i : Nat) (b : Bool) (hf : f.ofReplies = true) :
    (h.setFlag f i b).word a = h.word a :=
  h.word_setFlag_other f i b (f.addr_ne_of_ofReplies ha i hf)

theorem Hub.word_bump_belowQueues (f : Fld) (i : Nat) (hf : f.ofReplies = true) : (h.bump f i).word a = h.word a :=
  h.word_bump_other f i (f.addr_ne_of_ofReplies ha i hf)

theorem Hub.word_attn_belowQueues (b : Nat) : (h.attn b).word a = h.word a := by
  unfold Hub.attn
  split
  · rfl
  · simp (disch := decide) only [Hub.attnNow, Hub.refreshAttn, Hub.word_setFlag_belowQueues _ ha, Hub.word_setFld_belowQueues _ ha]

theorem Hub.word_setLed_belowQueues (i v : Nat) : (h.setLed i v).word a = h.word a := by
  simp (disch := decide) only [Hub.setLed, Hub.word_setFld_belowQueues _ ha]

theorem Hub.word_ledAdd_belowQueues (i n : Nat) : (h.ledAdd i n).word a = h.word a := by
  rw [Hub.word_of_regs (h.ledAdd_regs i n), h.word_setLed_belowQueues ha]

theorem Hub.word_setQueue_belowQueues (q : Nat) (x : Queue) : (h.setQueue q x).word a = h.word a := by
  rw [Hub.setQueue, Hub.word_setFlag_belowQueues _ ha _ _ _ (by decide), Hub.word_setFld_belowQueues _ ha _ _ _ (by decide)]
  rfl

theorem Hub.word_depthMoved_belowQueues (q before : Nat) : (h.depthMoved q before).word a = h.word a := by
  simp (disch := decide) only [Hub.depthMoved, Hub.word_ite, Hub.word_attn_belowQueues _ ha, Hub.word_bump_belowQueues _ ha,
    Hub.word_setFld_belowQueues _ ha, ite_self]

theorem Hub.word_addPend_belowQueues (q n : Nat) : (h.addPend q n).word a = h.word a := by
  simp (disch := decide) only [Hub.addPend, Hub.word_ite, Hub.word_setFld_belowQueues _ ha, ite_self]

theorem Hub.word_countDrop_belowQueues (q : Nat) (hit : Bool) : (h.countDrop q hit).word a = h.word a := by
  simp (disch := decide) only [Hub.countDrop, Hub.ledSub, Hub.word_ite, Hub.word_setLed_belowQueues _ ha,
    Hub.word_ledAdd_belowQueues _ ha, Hub.word_bump_belowQueues _ ha, ite_self]

theorem Hub.word_enterFrom_belowQueues (q cyc before : Nat) (first last hit : Bool) (data : W64) :
    (h.enterFrom q cyc before first last hit data).word a = h.word a := by
  simp (disch := decide) only [Hub.enterFrom, Hub.word_depthMoved_belowQueues _ ha, Hub.word_setQueue_belowQueues _ ha, Hub.word_ite,
    Hub.word_setFld_belowQueues _ ha, ite_self]

theorem Hub.word_pushFrom_belowQueues (q cyc before : Nat) (data : W64) (last hit : Bool) :
    (h.pushFrom q cyc before data last hit).1.word a = h.word a := by
  unfold Hub.pushFrom
  dsimp only
  split_ifs <;> simp (disch := decide) only [Hub.word_enterFrom_belowQueues _ ha, Hub.word_countDrop_belowQueues _ ha,
    Hub.word_addPend_belowQueues _ ha, Hub.word_setQueue_belowQueues _ ha, Hub.word_setFlag_belowQueues _ ha,
    Hub.word_setFld_belowQueues _ ha]

theorem Hub.word_refreshMule_belowQueues : h.refreshMule.word a = h.word a := by
  simp (disch := decide) only [Hub.refreshMule, Hub.word_setFld_belowQueues _ ha]

end

/-- What a reply on its way out leaves alone: the packets that wait, and the counters of packets and
violations. -/
def Hub.intakeKept (h h' : Hub) : Prop := h'.pk.waiting = h.pk.waiting ∧ ∀ a, belowQueues a → h'.word a = h.word a

theorem Hub.intakeKept.trans {h h₁ h₂ : Hub} (h1 : h.intakeKept h₁) (h2 : h₁.intakeKept h₂) : h.intakeKept h₂ :=
  ⟨h2.1.trans h1.1, fun a ha => (h2.2 a ha).trans (h1.2 a ha)⟩

theorem Hub.intakeKept_replyUnit (fuel : Nat) : h.intakeKept (h.replyUnit fuel) := by
  induction fuel generalizing h with
  | zero => exact ⟨rfl, fun _ _ => rfl⟩
  | succ k ih =>
    unfold Hub.replyUnit
    split
    next => exact ⟨rfl, fun _ _ => rfl⟩
    next r rest _ =>
      dsimp only
      split
      · refine Hub.intakeKept.trans ⟨?_, fun a ha => ?_⟩ (ih _)
        · rw [Hub.refreshMule_pk, Hub.push_pk]
        · rw [Hub.word_refreshMule_belowQueues _ ha]
          exact h.word_pushFrom_belowQueues ha 29 _ _ _ _ _
      · exact ⟨rfl, fun _ _ => rfl⟩

theorem Hub.intakeKept_sendReply (src : Source) (r : Reply) : h.intakeKept (h.sendReply src r) := by
  cases src with
  | lane l => exact Hub.intakeKept.trans ⟨rfl, fun _ _ => rfl⟩ (Hub.intakeKept_replyUnit _ _)
  | tether =>
    refine ⟨by simp [Hub.sendReply, Hub.refreshTether], fun a ha => ?_⟩
    simp (disch := decide) only [Hub.sendReply, Hub.refreshTether, Hub.word_setFlag_belowQueues _ ha,
      Hub.word_setFld_belowQueues _ ha]
    rfl

theorem Hub.intakeKept_extraReply (src : Source) (f : Hub → Hub) (hf : h.intakeKept (f h)) :
    h.intakeKept (h.extraReply src f) := by
  unfold Hub.extraReply
  split
  · exact ⟨rfl, fun _ _ => rfl⟩
  · exact hf

theorem Hub.intakeKept_nak (src : Source) (hub : BitVec 16) (seq : BitVec 12) (code : Nat) :
    h.intakeKept (h.nak src hub seq code) := by
  refine h.intakeKept_extraReply src _ ?_
  cases src with
  | lane l => exact h.intakeKept_sendReply _ _
  | tether => exact Hub.intakeKept.trans ⟨rfl, fun _ _ => rfl⟩ (Hub.intakeKept_sendReply _ _ _)

/-! ### Packets that are refused or queued (R389, R391-R395) -/

@[simp] theorem Hub.refreshCp_pk : h.refreshCp.pk = h.pk := by
  unfold Hub.refreshCp
  dsimp only
  split <;> split <;> simp

theorem Hub.word_refreshCp {a : Nat} (ha : a ≠ A.CP_STAT) : h.refreshCp.word a = h.word a := by
  unfold Hub.refreshCp
  dsimp only
  split <;> split <;>
    rw [Hub.word_setFld_other _ _ _ _ ha, Hub.word_setFld_other _ _ _ _ ha, Hub.word_setFlag_other _ _ _ _ ha,
      Hub.word_setFlag_other _ _ _ _ ha, Hub.word_setFld_other _ _ _ _ ha]

/-- A violation is counted under its code; packets and child ports stay as they are. -/
theorem Hub.violation_refuses (n loc seq : Nat) (hn : n < 0x10) :
    h.counted (h.violation (n + 1) loc seq) F.PV_CNT_COUNT n 1 ∧ (h.violation (n + 1) loc seq).pk = h.pk ∧
      (h.violation (n + 1) loc seq).hen = h.hen :=
  ⟨h.counted_violation (n + 1) loc seq (by omega), h.violation_pk _ loc seq, h.violation_hen _ loc seq⟩

/-- A violation answered by a reply is counted, and queues nothing. -/
theorem Hub.refused_of_intakeKept {h h' : Hub} {n loc seq : Nat} (hn : n < 0x10)
    (hk : (h.violation (n + 1) loc seq).intakeKept h') :
    h.counted h' F.PV_CNT_COUNT n 1 ∧ h'.pk.waiting = h.pk.waiting := by
  obtain ⟨hwait, hword⟩ := hk
  refine ⟨(h.counted_violation (n + 1) loc seq (by omega)).of_word (hword _ ?_), by rw [hwait, h.violation_pk]⟩
  unfold belowQueues Fld.addr
  dsimp only
  omega

theorem words32_length (n fuel : Nat) (bs : List W8) (hb : bs.length = 4 * n) (hf : n ≤ fuel) : (words32 fuel bs).length = n := by
  induction fuel generalizing n bs with
  | zero => rw [words32, List.length_nil]; omega
  | succ k ih =>
    cases n with
    | zero => rw [words32, if_pos (by omega), List.length_nil]
    | succ m => rw [words32, if_neg (by omega), List.length_cons, ih m _ (by rw [List.length_drop]; omega) (by omega)]

/-- The last four bytes of a packet are the check of those before (R388). -/
def packetGood (b : List W8) : Prop :=
  BitVec.ofNat 32 (ofBytes (b.drop (b.length - 4))) = crc32c (b.take (b.length - 4))

/-- The stored reply of a source is that to a packet with this header (R395). -/
def Hub.repeats (src : Source) (hd : Nat) : Bool := (h.stored src).any fun r => r.seq.toNat == pkSeq hd

theorem pkSeq_lt (hd : Nat) : pkSeq hd < 2 ^ 12 := Nat.mod_lt _ (by decide)

theorem Hub.stored_filter (src : Source) (hd : Nat) :
    ((h.stored src).filter fun r => r.seq == BitVec.ofNat 12 (pkSeq hd)).isSome = h.repeats src hd := by
  have hseq (q : BitVec 12) : (q == BitVec.ofNat 12 (pkSeq hd)) = (q.toNat == pkSeq hd) := by
    rw [Bool.eq_iff_iff, beq_iff_eq, beq_iff_eq, ← BitVec.toNat_inj, BitVec.toNat_ofNat, Nat.mod_eq_of_lt (pkSeq_lt hd)]
  unfold Hub.repeats
  cases h.stored src with
  | none => rfl
  | some r => by_cases hr : (r.seq.toNat == pkSeq hd) = true <;> simp [Option.filter, hseq, hr]

theorem Hub.stored_filter_none {src : Source} {hd : Nat} (hrep : h.repeats src hd = false) :
    ((h.stored src).filter fun r => r.seq == BitVec.ofNat 12 (pkSeq hd)) = none := by
  rw [← Option.not_isSome_iff_eq_none, h.stored_filter, hrep]
  decide

section
variable (src : Source) {b : List W8} (hlen : b.length = pkLength (pkHeader b))
include hlen

theorem Hub.accept_badCrc (hbad : ¬ packetGood b) :
    h.counted (h.accept src b) F.PV_CNT_COUNT 0 1 ∧ (h.accept src b).pk.waiting = h.pk.waiting := by
  have hk : (h.violation pvBadCrc (srcPlace src) (BitVec.ofNat 12 (pkSeq (pkHeader b))).toNat).intakeKept (h.accept src b) := by
    unfold packetGood at hbad
    rw [Hub.accept, ← hlen, List.take_length, if_pos hbad]
    exact Hub.intakeKept_nak _ _ _ _ _
  exact Hub.refused_of_intakeKept (n := 0) (by decide) hk

theorem Hub.accept_duplicate (hgood : packetGood b) (hrep : h.repeats src (pkHeader b) = true) :
    h.counted (h.accept src b) F.PV_CNT_COUNT 2 1 ∧ (h.accept src b).pk.waiting = h.pk.waiting := by
  have hk : (h.violation pvDuplicate (srcPlace src) (BitVec.ofNat 12 (pkSeq (pkHeader b))).toNat).intakeKept (h.accept src b) := by
    obtain ⟨r, hr⟩ := Option.isSome_iff_exists.1 ((h.stored_filter src (pkHeader b)).trans hrep)
    unfold packetGood at hgood
    rw [Hub.accept, ← hlen, List.take_length, if_neg (not_not_intro hgood)]
    dsimp only
    rw [hr]
    exact Hub.intakeKept_extraReply _ _ _ (Hub.intakeKept_sendReply _ _ _)
  exact Hub.refused_of_intakeKept (n := 2) (by decide) hk

theorem Hub.accept_full (hgood : packetGood b) (hrep : h.repeats src (pkHeader b) = false) (hfull : 4 ≤ h.pk.waiting.length) :
    h.counted (h.accept src b) F.PV_CNT_COUNT 7 1 ∧ (h.accept src b).pk.waiting = h.pk.waiting := by
  have hk : (h.violation pvPktFull (srcPlace src) (BitVec.ofNat 12 (pkSeq (pkHeader b))).toNat).intakeKept (h.accept src b) := by
    unfold packetGood at hgood
    rw [Hub.accept, ← hlen, List.take_length, if_neg (not_not_intro hgood)]
    dsimp only
    rw [h.stored_filter_none hrep]
    dsimp only
    rw [if_pos hfull]
    exact Hub.intakeKept_nak _ _ _ _ _
  exact Hub.refused_of_intakeKept (n := 7) (by decide) hk

theorem Hub.accept_queued (hgood : packetGood b) (hrep : h.repeats src (pkHeader b) = false) (hroom : h.pk.waiting.length < 4)
    (hread : pkUnreadable (pkHeader b) = false) :
    ∃ p : Pkt, (h.accept src b).pk.waiting = h.pk.waiting ++ [p] ∧ p.src = src ∧ p.seq.toNat = pkSeq (pkHeader b) ∧
      p.code.length = pkCount (pkHeader b) ∧ p.arrived = h.slot ∧ p.noReply = bit (pkHeader b) 34 ∧
      p.atomic = bit (pkHeader b) 32 ∧ h.sameWords (h.accept src b) [A.CP_STAT] := by
  have hcount : pkCount (pkHeader b) ≤ 1024 := by
    simp only [pkUnreadable, Bool.or_eq_false_iff, decide_eq_false_iff_not, Nat.not_lt] at hread
    exact hread.2
  have hcode : (words32 1024 ((b.drop 8).take (4 * pkCount (pkHeader b)))).length = pkCount (pkHeader b) := by
    refine words32_length _ _ _ ?_ hcount
    unfold pkLength at hlen
    rw [List.length_take, List.length_drop]
    omega
  unfold packetGood at hgood
  rw [Hub.accept, ← hlen, List.take_length, if_neg (not_not_intro hgood)]
  dsimp only
  rw [h.stored_filter_none hrep]
  dsimp only
  rw [if_neg (by omega)]
  refine ⟨_, by rw [Hub.refreshCp_pk], rfl, ?_, hcode, rfl, rfl, rfl, fun a ha => ?_⟩
  · rw [BitVec.toNat_ofNat, Nat.mod_eq_of_lt (pkSeq_lt _)]
  · rw [Hub.word_refreshCp _ (by simpa using ha)]
    rfl

end

/-! ### Whole packets (R31, R389, R391, R393) -/

/-- What stands against a whole packet ahead of its route, and the SEQ under which it is logged: it ends early, or its header is
unreadable. -/
def packetRefusal (b : List W8) : Option (Nat × Nat) :=
  if b.length < 8 then some (pvTruncated, 0)
  else if pkUnreadable (pkHeader b) then some (pvUnreadable, pkSeq (pkHeader b))
  else if b.length < pkLength (pkHeader b) then some (pvTruncated, pkSeq (pkHeader b))
  else none

theorem packetRefusal_complete {b : List W8} (hlen : b.length = pkLength (pkHeader b)) (hread : pkUnreadable (pkHeader b) = false) :
    packetRefusal b = none := by
  have h8 : ¬ b.length < 8 := by unfold pkLength at hlen; omega
  rw [packetRefusal, if_neg h8, if_neg (by simp [hread]), if_neg (by omega)]

section
variable {h} {l : Fin 24} {b : List W8}

theorem Hub.not_held_of_takesPackets {l : Nat} (ht : h.takesPackets l = true) : h.start.held = false := by
  simp only [Hub.takesPackets, Bool.and_eq_true, Bool.not_eq_true'] at ht
  exact ht.2

theorem Hub.routeWhole_notSource (ht : h.takesPackets l = false) : h.routeWhole l b = h := by simp [Hub.routeWhole, ht]

theorem Hub.acceptWhole_notSource (ht : h.takesPackets l = false) : h.acceptWhole (.lane l) b = h := by simp [Hub.acceptWhole, ht]

theorem Hub.routeWhole_refused {c q : Nat} (ht : h.takesPackets l = true) (hr : packetRefusal b = some (c, q)) :
    h.routeWhole l b = h.violation c l q := by
  unfold packetRefusal at hr
  unfold Hub.routeWhole
  split_ifs at hr with h8 hu hl <;> simp_all

theorem Hub.acceptWhole_refused {c q : Nat} (ht : h.takesPackets l = true) (hr : packetRefusal b = some (c, q)) :
    h.acceptWhole (.lane l) b = h.violation c l q := by
  unfold packetRefusal at hr
  unfold Hub.acceptWhole
  split_ifs at hr with h8 hu hl <;> simp_all [srcPlace]

theorem Hub.routeWhole_complete (ht : h.takesPackets l = true) (hr : packetRefusal b = none) :
    h.routeWhole l b = (h.fullPorts l (pkHeader b)).1.route l b (h.fullPorts l (pkHeader b)).2 := by
  unfold packetRefusal at hr
  unfold Hub.routeWhole
  split_ifs at hr with h8 hu hl
  simp [ht, h8, hu, hl]

theorem Hub.acceptWhole_complete {src : Source} (ht : ∀ l, src = .lane l → h.takesPackets l = true)
    (hheld : h.start.held = false) (hr : packetRefusal b = none) (hmine : h.pkMine (pkHeader b) = true) :
    h.acceptWhole src b = h.accept src b := by
  unfold packetRefusal at hr
  unfold Hub.acceptWhole
  split_ifs at hr with h8 hu hl
  cases src with
  | lane l => simp [ht l rfl, h8, hu, hl, hmine]
  | tether => simp [hheld, h8, hu, hl, hmine]

/-! Where the packet is for no other hub than those of at most one child port. -/

theorem Hub.fullPorts_nil {l hd : Nat} (hp : h.routePorts hd = []) : h.fullPorts l hd = (h, []) := by
  simp [Hub.fullPorts, hp, each]

theorem Hub.fullPorts_room {l hd k : Nat} (hp : h.routePorts hd = [k]) (hroom : (h.child k).fwd.length + h.forwardComing l k < 8) :
    h.fullPorts l hd = (h, []) := by
  simp [Hub.fullPorts, hp, each, hroom]

theorem Hub.fullPorts_full {l hd k : Nat} (hp : h.routePorts hd = [k]) (hfull : 8 ≤ (h.child k).fwd.length + h.forwardComing l k) :
    h.fullPorts l hd = (h.violation pvFwdFull l (pkSeq hd), [k]) := by
  simp [Hub.fullPorts, hp, each, hfull]

theorem Hub.route_nowhere {skip : List Nat} (hmine : h.pkMine (pkHeader b) = false) (hp : h.routePorts (pkHeader b) = []) :
    h.route l b skip = h.violation pvUnroutable l (pkSeq (pkHeader b)) := by
  simp [Hub.route, hp, each, hmine]

theorem Hub.route_forwards {k : Nat} (hlen : b.length = pkLength (pkHeader b)) (hmine : h.pkMine (pkHeader b) = false)
    (hp : h.routePorts (pkHeader b) = [k]) : h.route l b [] = h.forward k b := by
  simp [Hub.route, hp, each, hmine, ← hlen]

theorem Hub.route_skips {k : Nat} (hmine : h.pkMine (pkHeader b) = false) (hp : h.routePorts (pkHeader b) = [k]) :
    h.route l b [k] = h := by
  simp [Hub.route, hp, each, hmine]

end

/-- A packet joins those that a child port forwards, and is counted (R393). -/
theorem Hub.forward_spec (k : Nat) (b : List W8) :
    ((h.forward k b).child k).fwd = (h.child k).fwd ++ [(b, true)] ∧ h.counted (h.forward k b) F.CP_FWD_COUNT 0 1 ∧
      (h.forward k b).pk = h.pk := by
  refine ⟨?_, ?_, ?_⟩
  · rw [Hub.forward, Hub.child, Hub.bump_hen, ← Hub.child, Hub.setChild_child]
  · have hc := (h.setChild k { h.child k with fwd := (h.child k).fwd ++ [(b, true)] }).counted_bump F.CP_FWD_COUNT 0
      (by decide) (by decide)
    rwa [Hub.counted, Hub.fld_congr (Hub.word_of_regs (h.setChild_regs k _) _)] at hc
  · rw [Hub.forward, Hub.bump_pk]
    rfl

/-! ### The commands -/

theorem Hub.awake_of_not_held {h₀ : Hub} (hheld : h₀.start.held = false) : h₀.awake h = h := by simp [Hub.awake, hheld]

theorem Hub.awake_self : h.awake h = h := ite_self h

theorem answers_packetRoute {s : State} {l : Fin 24} {b : List W8} {P : Hub → Prop}
    (hP : P (s.hub.awake (s.hub.routeWhole l b))) : Answers (.packetRoute l b) s P := ⟨_, rfl, hP⟩

theorem answers_packetAccept {s : State} {src : Source} {b : List W8} {P : Hub → Prop}
    (hP : P (s.hub.awake (s.hub.acceptWhole src b))) : Answers (.packetAccept src b) s P := ⟨_, rfl, hP⟩

/-- Either command logs a packet with something against it, and takes nothing of it (R389). -/
theorem answers_refused {s : State} {l : Fin 24} {b : List W8} {n q : Nat} (ht : s.hub.takesPackets l = true)
    (hr : packetRefusal b = some (n + 1, q)) (hn : n < 0x10) (i : Instr)
    (hi : i ∈ [Instr.packetRoute l b, .packetAccept (.lane l) b]) :
    Answers i s fun h => s.hub.counted h F.PV_CNT_COUNT n 1 ∧ h.pk = s.hub.pk ∧ h.hen = s.hub.hen := by
  have hheld := Hub.not_held_of_takesPackets ht
  simp only [List.mem_cons, List.not_mem_nil, or_false] at hi
  rcases hi with rfl | rfl
  · apply answers_packetRoute
    rw [Hub.awake_of_not_held _ hheld, Hub.routeWhole_refused ht hr]
    exact s.hub.violation_refuses n l q hn
  · apply answers_packetAccept
    rw [Hub.awake_of_not_held _ hheld, Hub.acceptWhole_refused ht hr]
    exact s.hub.violation_refuses n l q hn

/-- Settles O40: what stands against a packet is logged and the packet dropped; a whole one goes to the port of its route, or to
acceptance, whose replies leave the packets that wait and the counters alone. -/
theorem packetsAreTaken : Obligations.PacketsAreTaken := by
  unfold Obligations.PacketsAreTaken
  refine ⟨?notSource, ?refused, ?routed, ?accepted⟩
  case notSource =>
    intro s l b ht
    refine ⟨answers_packetRoute ?_, answers_packetAccept ?_⟩
    · rw [Hub.routeWhole_notSource ht, Hub.awake_self]
    · rw [Hub.acceptWhole_notSource ht, Hub.awake_self]
  case refused =>
    intro s l b ht i hi
    refine ⟨fun h8 => ?_, fun h8 hu => ?_, fun h8 hu hl => ?_⟩
    · exact answers_refused (n := 5) ht (if_pos h8) (by decide) i hi
    · have hr : packetRefusal b = some (pvUnreadable, pkSeq (pkHeader b)) := by
        rw [packetRefusal, if_neg (by omega), if_pos hu]
      exact answers_refused (n := 1) ht hr (by decide) i hi
    · have hr : packetRefusal b = some (pvTruncated, pkSeq (pkHeader b)) := by
        rw [packetRefusal, if_neg (by omega), if_neg (by simp [hu]), if_pos hl]
      exact answers_refused (n := 5) ht hr (by decide) i hi
  case routed =>
    intro s l b ht hlen hread hmine
    have hheld := Hub.not_held_of_takesPackets ht
    have hroute := Hub.routeWhole_complete ht (packetRefusal_complete hlen hread)
    refine ⟨fun hp => ?_, fun k hp hroom => ?_, fun k hp hfull => ?_⟩ <;>
      apply answers_packetRoute <;> rw [Hub.awake_of_not_held _ hheld, hroute]
    · rw [Hub.fullPorts_nil hp, Hub.route_nowhere hmine hp]
      exact s.hub.violation_refuses 4 _ _ (by decide)
    · rw [Hub.fullPorts_room hp hroom, Hub.route_forwards hlen hmine hp]
      exact s.hub.forward_spec k b
    · rw [Hub.fullPorts_full hp hfull, Hub.route_skips ((s.hub.pkMine_violation _ _ _ _ (by decide)).trans hmine)
        ((s.hub.routePorts_violation _ _ _ _ (by decide)).trans hp)]
      obtain ⟨hcount, hpk, hhen⟩ := s.hub.violation_refuses 6 l (pkSeq (pkHeader b)) (by decide)
      exact ⟨hcount, hhen, hpk⟩
  case accepted =>
    intro s src b hsrc hheld hlen hread hmine
    have haccept : s.hub.awake (s.hub.acceptWhole src b) = s.hub.accept src b := by
      rw [Hub.awake_of_not_held _ hheld, Hub.acceptWhole_complete hsrc hheld (packetRefusal_complete hlen hread) hmine]
    refine ⟨fun hbad => ?_, fun hgood hrep => ?_, fun hgood hrep hfull => ?_, fun hgood hrep hroom => ?_⟩ <;>
      apply answers_packetAccept <;> rw [haccept]
    · exact s.hub.accept_badCrc src hlen hbad
    · exact s.hub.accept_duplicate src hlen hgood hrep
    · exact s.hub.accept_full src hlen hgood hrep hfull
    · exact s.hub.accept_queued src hlen hgood hrep hroom hread

end Sys2Proof.Machine
end

section
/-! SUPPORT. Uplink frames sent: a lane whose assigned records have all been sent whole sends IDLE, and a unit that joins a twin pair
has such lanes. -/

namespace Sys2Proof.Machine

variable (h : Hub) (l : Nat)

/-! ### A frame that carries nothing (R352) -/

/-- The IDLE frame of a lane. -/
def Hub.idleUp : Up := { seq := h.txSeq l, kind := kIdle, new := false, again := false, low := 0, cell := [] }

theorem Hub.setFld_lane (f : Fld) (i v k : Nat) : (h.setFld f i v).lane k = h.lane k := rfl

theorem Hub.refreshLane_lanes : (h.refreshLane l).lanes = h.lanes := by
  simp only [Hub.refreshLane, apply_ite Hub.lanes, Hub.setFld_lanes, Hub.setFlag_lanes, ite_self]

theorem Hub.refreshLane_lane (k : Nat) : (h.refreshLane l).lane k = h.lane k := by
  rw [Hub.lane, h.refreshLane_lanes, ← Hub.lane]

theorem Hub.refreshLane_goose : (h.refreshLane l).goose = h.goose := by
  simp only [Hub.refreshLane, apply_ite Hub.goose, Hub.setFld_goose, Hub.setFlag_goose, ite_self]

theorem Hub.inject_goose (bs : List W8) : (h.inject l bs).goose = h.goose := by
  unfold Hub.inject
  dsimp only
  split_ifs <;> rfl

/-- The frame that leaves, and the errors injected into it, change nothing of what the lane keeps. -/
theorem Hub.inject_kept (bs : List W8) : ((h.inject l bs).lane l).kept = (h.lane l).kept := by
  unfold Hub.inject
  dsimp only
  split_ifs <;> simp only [Hub.setFld_lane, Hub.setLane_lane]

theorem Hub.sendUp_kept (u : Up) : ((h.sendUp l u).lane l).kept = (h.lane l).kept := by
  rw [Hub.sendUp, Hub.refreshLane_lane, Hub.inject_kept, Hub.setLane_lane]

theorem Hub.sendUp_goose (u : Up) : (h.sendUp l u).goose = h.goose := by
  rw [Hub.sendUp, Hub.refreshLane_goose, Hub.inject_goose, Hub.setLane_goose]

theorem Hub.settled_of_goose {h₀ h : Hub} (hg : h.goose = h₀.goose) : h₀.settled h = h := by
  rw [Hub.settled, hg, if_pos le_rfl]

/-! ### A lane on which nothing is left to send -/

theorem Hub.role_ne_twin_of_upLane (hup : h.upLane l = true) : h.role l ≠ roleTwin := by
  intro hr
  simp [Hub.upLane, Hub.comesAs, Hub.spareEntry, hr] at hup

theorem Hub.trainingEnds_of_trained (ht : h.flag F.LN_STAT_TRAINED l = true) : h.trainingEnds l = h := by
  simp [Hub.trainingEnds, ht]

/-- A trained PARENT lane in use with no words left of the records assigned to it sends IDLE, when no replay goes on and no audit
frame is asked for. -/
theorem Hub.uplinkSends_of_no_words (hdue : h.frameDue l = true) (hpat : h.sendsPattern l = false) (hup : h.upLane l = true)
    (hal : h.flag F.LN_STAT_ALIGNED l = true) (htr : h.flag F.LN_STAT_TRAINED l = true) (hag : (h.lane l).again = [])
    (hin : l ∈ h.bundle h.sendPort) (haud : h.hen.audit = false) (hw : (h.lane l).words = 0) :
    h.uplinkSends l = h.sendUp l (h.idleUp l) := by
  have hrole := h.role_ne_twin_of_upLane l hup
  simp [Hub.uplinkSends, hdue, hpat, hrole, hup, hal, h.trainingEnds_of_trained l htr, htr, hag, hin, haud, hw, Hub.idleUp]

/-- A PARENT lane of the partner whose one record has gone in a frame that waits for its acknowledgement. -/
def partnerLane : Lane :=
  { kept := [{ seq := 9, kind := kData, new := true, again := false, cell := [4, 5, 6]
               recs := [{ ws := [4, 5, 6], cls := .hit }] }] }

/-- A unit that has joined a twin pair, in STANDBY, and that lane as the state copy leaves it there: assigned to it is the record that
the partner has sent whole (R521, R523). -/
def joinedHub : Hub :=
  { (((((({} : Hub).setFld F.TW_CFG_EN 0 1).setFld F.TW_STAT_STATE 0 4).setFld F.LANE_ROLE_ACT_ROLE 2 roleParent).setFld
      F.LANE_ROLE_ACT_PORT 2 0).setFld F.LN_STAT_ALIGNED 2 1).setFld F.LN_STAT_TRAINED 2 1 with
    lanes := [(2, ({} : Lane).takeShare partnerLane.share)] }

/-- Lane 2 of that unit sends a frame now, and it is a trained lane of the port in force. -/
theorem joinedHub_sends : joinedHub.frameDue 2 = true ∧ joinedHub.sendsPattern 2 = false ∧ joinedHub.upLane 2 = true ∧
    joinedHub.flag F.LN_STAT_ALIGNED 2 = true ∧ joinedHub.flag F.LN_STAT_TRAINED 2 = true ∧
    2 ∈ joinedHub.bundle joinedHub.sendPort := by
  decide +kernel

/-- It has a record assigned, but no word of one left to send, and keeps no frame. -/
theorem joinedHub_lane : (joinedHub.lane 2).tx ≠ [] ∧ (joinedHub.lane 2).words = 0 ∧ (joinedHub.lane 2).again = [] ∧
    (joinedHub.lane 2).kept = [] ∧ joinedHub.hen.audit = false := by
  decide +kernel

/-- The frame that it sends is kept nowhere. -/
theorem joinedHub_keeps_nothing : ((joinedHub.settled (joinedHub.uplinkSends 2)).lane 2).kept = [] := by
  obtain ⟨hdue, hpat, hup, hal, htr, hin⟩ := joinedHub_sends
  obtain ⟨-, hwords, hagain, hkept, haudit⟩ := joinedHub_lane
  rw [joinedHub.uplinkSends_of_no_words 2 hdue hpat hup hal htr hagain hin haudit hwords,
    Hub.settled_of_goose (joinedHub.sendUp_goose 2 _), joinedHub.sendUp_kept, hkept]

/-- Refutes O35, in its clause on new DATA cells: a record assigned to a lane need not have a word left to send. What the partner of
a joining unit had sent whole stays assigned until it is acknowledged (R521, R523); a lane with no other record sends IDLE, which it
does not keep, where the clause has it keep a DATA frame. -/
theorem not_framesAreSent : ¬ Obligations.FramesAreSent := by
  unfold Obligations.FramesAreSent
  rintro ⟨huplink, -⟩
  obtain ⟨hdue, hpat, hup, hal, htr, hin⟩ := joinedHub_sends
  obtain ⟨htx, -, hagain, hkept, haudit⟩ := joinedHub_lane
  obtain ⟨-, -, -, -, hserves⟩ := huplink { hub := joinedHub, pending := [] } 2
  obtain ⟨-, -, -, hforce⟩ := hserves hdue hpat hup hal
  obtain ⟨-, -, hdata, -⟩ := hforce htr hagain hin
  have hroom : (joinedHub.lane 2).kept.length < 255 := by rw [hkept]; decide
  obtain ⟨h, hexec, hlast, -⟩ := hdata haudit htx hroom
  have hnext : (h.lane (2 : Fin 24)).kept = [] := by
    injection hexec with hs
    injection hs with hhub
    rw [← hhub]
    exact joinedHub_keeps_nothing
  rw [hnext] at hlast
  simp at hlast

end Sys2Proof.Machine
end

section
/-! SUPPORT. A crystal that is in use although it is fenced does not give way when it fails. -/

namespace Sys2Proof.Machine

/-- A hub in SETUP whose crystals have both failed: crystal 0 is in use, as it was when the last of them failed (R40). -/
def bothFailedHub : Hub :=
  { ({} : Hub).setFld F.MODE_STAT_MODE 0 mSetup with
    goose := { fenced := [BitVec.ofNat 16 (unitOf 1 1), BitVec.ofNat 16 (unitOf 1 0)] } }

/-- That hub once the fence of crystal 1 has been lifted (R476). -/
def crystalLiftedHub : Hub := bothFailedHub.unfence (unitOf 1 1)

theorem crystalLiftedHub_reached (l : List Instr) :
    exec (.gsUnfence 0x401) { hub := bothFailedHub, pending := l } = .next { hub := crystalLiftedHub, pending := l } := by
  have hmode : bothFailedHub.mode = mSetup := by decide +kernel
  simp only [exec, execGsUnfence, if_pos hmode]
  rfl

theorem crystalLiftedHub_clock : crystalLiftedHub.start.held = false ∧ crystalLiftedHub.fld F.RT_CLK_XO_SEL 0 = 0 ∧
    crystalLiftedHub.fenced (unitOf 1 0) = true ∧ crystalLiftedHub.fenced (unitOf 1 1) = false := by
  decide +kernel

/-- The failure of crystal 0 leaves it in use. -/
theorem crystalLiftedHub_stays :
    (crystalLiftedHub.settled crystalLiftedHub.crystalFails).refreshDegr.fld F.RT_CLK_XO_SEL 0 = 0 := by
  decide +kernel

/-- Refutes O12, in its first clause: a crystal gives way only when its fence is new. In SETUP the fence of crystal 1 can be lifted
while crystal 0, fenced too, is in use (R476); when crystal 0 then fails, it stays in use beside a crystal that is not fenced. -/
theorem not_clockPartsGiveWay : ¬ Obligations.ClockPartsGiveWay := by
  unfold Obligations.ClockPartsGiveWay
  rintro ⟨⟨hcrystal, -⟩, -⟩
  obtain ⟨hheld, hsel, -, hother⟩ := crystalLiftedHub_clock
  obtain ⟨h, hexec, hswitched, -⟩ := hcrystal { hub := crystalLiftedHub, pending := [] } hheld (by rw [hsel]; exact hother)
  have hnext : h = (crystalLiftedHub.settled crystalLiftedHub.crystalFails).refreshDegr := by
    injection hexec with hs
    injection hs with hhub
    rw [← hhub, Hub.awake_of_not_held _ hheld]
  rw [hsel, hnext, crystalLiftedHub_stays] at hswitched
  exact absurd hswitched (by decide)

end Sys2Proof.Machine
end

section
/-! SUPPORT. Fields that share no bit, and what a report and an item of a queue leave alone: the Rooster, the lanes, the Hen and
the words of the Rooster. -/

namespace Sys2Proof.Machine

/-! ### Fields that share no bit -/

/-- A field at `i` and a field at `j` lie in different words, or apart in one word. -/
abbrev Fld.apart (f : Fld) (i : Nat) (g : Fld) (j : Nat) : Prop := f.addr i ≠ g.addr j ∨ f.hi < g.lo ∨ g.hi < f.lo

theorem Fld.testBit_put_outside (g : Fld) (w : W32) (v n : Nat) (hg : g.lo ≤ g.hi) (hn : n < g.lo ∨ g.hi < n) :
    (g.put w v).toNat.testBit n = w.toNat.testBit n := by
  have hw : g.hi + 1 = g.lo + g.width := by unfold Fld.width; omega
  have hlow : w.toNat % 2 ^ g.lo < 2 ^ g.lo := Nat.mod_lt _ (by positivity)
  have hval : v % 2 ^ g.width < 2 ^ g.width := Nat.mod_lt _ (by positivity)
  have hsum : w.toNat % 2 ^ g.lo + v % 2 ^ g.width * 2 ^ g.lo + w.toNat / 2 ^ (g.hi + 1) * 2 ^ (g.hi + 1)
      = 2 ^ g.lo * (2 ^ g.width * (w.toNat / 2 ^ (g.hi + 1)) + v % 2 ^ g.width) + w.toNat % 2 ^ g.lo := by
    rw [hw, pow_add]
    ring
  have htop (hn32 : ¬ n < 32) : w.toNat.testBit n = false :=
    Nat.testBit_lt_two_pow (lt_of_lt_of_le w.isLt (Nat.pow_le_pow_right (by decide) (by omega)))
  rw [Fld.put, BitVec.toNat_ofNat, Nat.testBit_mod_two_pow, hsum, Nat.testBit_two_pow_mul_add _ hlow,
    Nat.testBit_two_pow_mul_add _ hval, Nat.testBit_mod_two_pow, Nat.testBit_div_two_pow]
  by_cases h32 : n < 32
  · rcases hn with hn | hn
    · simp [h32, hn]
    · rw [if_neg (by omega), if_neg (by omega)]
      simp only [h32, decide_true, Bool.true_and]
      congr 1
      omega
  · simp [h32, htop h32]

theorem Fld.get_put_outside (f g : Fld) (w : W32) (v : Nat) (hg : g.lo ≤ g.hi) (hfg : f.hi < g.lo ∨ g.hi < f.lo) :
    f.get (g.put w v) = f.get w := by
  apply Nat.eq_of_testBit_eq
  intro k
  simp only [Fld.get, bits, Nat.testBit_mod_two_pow, Nat.testBit_div_two_pow]
  by_cases hk : k < f.hi + 1 - f.lo
  · rw [g.testBit_put_outside w v _ hg (by omega)]
  · simp [hk]

variable (h : Hub)

theorem Hub.fld_setFld_apart {f g : Fld} {i j : Nat} (v : Nat) (hg : g.lo ≤ g.hi) (hfg : f.apart i g j) :
    (h.setFld g j v).fld f i = h.fld f i := by
  by_cases ha : f.addr i = g.addr j
  · rw [Hub.fld, Hub.setFld, ha, Hub.setWord_word, if_pos rfl, Fld.get_put_outside f g _ _ hg (hfg.resolve_left (· ha)), ← ha,
      ← Hub.fld]
  · exact Hub.fld_congr (h.word_setFld_other g j v ha)

/-! ### Sticky STATUS bits (R407) -/

theorem bit_eq_testBit (v k : Nat) : bit v k = v.testBit k := by
  rw [bit, Nat.testBit_eq_decide_div_mod_eq]
  rfl

theorem Hub.sticky_iff (b : Nat) : h.sticky b ↔ (h.fld F.ATTN_STAT_STICKY 0).testBit (b - 2) = true := by
  rw [Hub.sticky, bit_eq_testBit]

theorem Hub.fld_attnNow (b : Nat) : (h.attnNow b).fld F.ATTN_STAT_STICKY 0 =
    (h.fld F.ATTN_STAT_STICKY 0 ||| 2 ^ (b - 2)) % 2 ^ 13 := by
  rw [Hub.attnNow, Hub.refreshAttn, Hub.setFlag, Hub.fld_setFld_apart _ _ (by decide) (Or.inr (Or.inl (by decide))),
    Hub.fld_setFld_same _ _ _ _ (by decide) (by decide)]
  rfl

/-- A sticky bit that is set stays set when one is set. -/
theorem Hub.sticky_attnNow {b : Nat} (c : Nat) (hb : h.sticky b) : (h.attnNow c).sticky b := by
  have hlt := h.fld_lt F.ATTN_STAT_STICKY 0
  rw [Hub.sticky_iff] at hb ⊢
  rw [h.fld_attnNow, Nat.testBit_mod_two_pow, Nat.testBit_or, hb]
  have : b - 2 < 13 := by
    by_contra hge
    rw [Nat.testBit_lt_two_pow (lt_of_lt_of_le hlt (Nat.pow_le_pow_right (by decide) (Nat.le_of_not_lt hge)))] at hb
    exact absurd hb (by decide)
  simp [this]

theorem Hub.sticky_attnNow_self {b : Nat} (hb : b - 2 < 13) : (h.attnNow b).sticky b := by
  rw [Hub.sticky_iff, h.fld_attnNow, Nat.testBit_mod_two_pow, Nat.testBit_or, Nat.testBit_two_pow_self]
  simp [hb]

/-! ### What is left alone -/

/-- What a report and an item of a queue leave alone, beside words: the Rooster, the lanes, the Hen, and the sticky bits that are
set. -/
structure Hub.Beside (h h' : Hub) : Prop where
  rooster : h'.rooster = h.rooster
  lanes : h'.lanes = h.lanes
  hen : h'.hen = h.hen
  sticky : ∀ b, h.sticky b → h'.sticky b

section
variable {h₀ h h' : Hub}

theorem Hub.Beside.refl (h : Hub) : h.Beside h := ⟨rfl, rfl, rfl, fun _ hb => hb⟩

theorem Hub.Beside.trans (k : h₀.Beside h) (k' : h.Beside h') : h₀.Beside h' :=
  ⟨k'.rooster.trans k.rooster, k'.lanes.trans k.lanes, k'.hen.trans k.hen, fun b hb => k'.sticky b (k.sticky b hb)⟩

theorem Hub.Beside.ite {c : Prop} [Decidable c] (k : h₀.Beside h) (k' : h₀.Beside h') : h₀.Beside (if c then h else h') := by
  split
  · exact k
  · exact k'

/-- An update of none of the registers, the Rooster, the lanes and the Hen. -/
theorem Hub.Beside.of_eq (k : h₀.Beside h) (hregs : h'.regs = h.regs) (hroo : h'.rooster = h.rooster) (hlan : h'.lanes = h.lanes)
    (hhen : h'.hen = h.hen) : h₀.Beside h' := by
  refine k.trans ⟨hroo, hlan, hhen, fun b hb => ?_⟩
  rwa [Hub.sticky, Hub.fld_congr (Hub.word_of_regs hregs _)]

theorem Hub.Beside.setWord (k : h₀.Beside h) {a : Nat} (w : W32) (ha : 0x400 < a) : h₀.Beside (h.setWord a w) := by
  refine k.trans ⟨rfl, rfl, rfl, fun b hb => ?_⟩
  rwa [Hub.sticky, Hub.fld_congr]
  rw [Hub.setWord_word, if_neg (by simp only [Fld.addr]; omega)]

theorem Hub.Beside.setFld (k : h₀.Beside h) {f : Fld} {i v : Nat} (hf : 0x400 < f.base) : h₀.Beside (h.setFld f i v) :=
  k.setWord _ (Nat.lt_add_right _ hf)

theorem Hub.Beside.setFlag (k : h₀.Beside h) {f : Fld} {i : Nat} {b : Bool} (hf : 0x400 < f.base) :
    h₀.Beside (h.setFlag f i b) :=
  k.setFld hf

theorem Hub.Beside.bump (k : h₀.Beside h) {f : Fld} {i : Nat} (hf : 0x400 < f.base) : h₀.Beside (h.bump f i) :=
  .ite (k.setWord _ (Nat.lt_add_right _ hf)) (k.setFld hf)

theorem Hub.Beside.setWords (k : h₀.Beside h) {a : Nat} (ws : List W32) (ha : 0x400 < a) : h₀.Beside (h.setWords a ws) := by
  induction ws generalizing h a with
  | nil => exact k
  | cons w rest ih => exact ih (k.setWord w ha) (by omega)

theorem Hub.Beside.attn (k : h₀.Beside h) (b : Nat) : h₀.Beside (h.attn b) :=
  .ite (k.of_eq rfl rfl rfl rfl) (k.trans ⟨rfl, rfl, rfl, fun _ => h.sticky_attnNow b⟩)

/-! Items of a queue -/

theorem Hub.Beside.setQueue (k : h₀.Beside h) (q : Nat) (x : Queue) : h₀.Beside (h.setQueue q x) := by
  have kq : h₀.Beside { h with queues := Store.set (fun _ => ({} : Queue)) h.queues q x } := k.of_eq rfl rfl rfl rfl
  exact (kq.setFld (by decide)).setFlag (by decide)

theorem Hub.Beside.depthMoved (k : h₀.Beside h) (q before : Nat) : h₀.Beside (h.depthMoved q before) := by
  unfold Hub.depthMoved
  dsimp only
  generalize hm : (if h.fld F.Q_HWM_HWM q < h.fld F.Q_STAT_DEPTH q then _ else h) = hwm
  have kw : h₀.Beside hwm := hm ▸ .ite (k.setFld (by decide)) k
  have kc : h₀.Beside ((hwm.setFld F.Q_STAT_ABOVE q 1).bump F.Q_LEVELCNT_COUNT q) := (kw.setFld (by decide)).bump (by decide)
  exact .ite (kw.setFld (by decide)) (.ite (kw.setFld (by decide)) (.ite (.ite (kc.attn _) kc) (kw.setFld (by decide))))

theorem Hub.Beside.addPend (k : h₀.Beside h) (q n : Nat) : h₀.Beside (h.addPend q n) :=
  .ite (k.setFld (by decide)) ((k.setFld (by decide)).setFld (by decide))

theorem Hub.Beside.setLed (k : h₀.Beside h) (i v : Nat) : h₀.Beside (h.setLed i v) := (k.setFld (by decide)).setFld (by decide)

theorem Hub.Beside.ledAdd (k : h₀.Beside h) (i n : Nat) : h₀.Beside (h.ledAdd i n) :=
  .ite (k.setLed i _) ((k.setLed i _).of_eq rfl rfl rfl rfl)

theorem Hub.Beside.countDrop (k : h₀.Beside h) (q : Nat) (hit : Bool) : h₀.Beside (h.countDrop q hit) :=
  have kb := k.bump (f := F.Q_DROPCNT_COUNT) (i := q) (by decide)
  .ite ((kb.ledAdd _ _).setLed _ _) (kb.ledAdd _ _)

theorem Hub.Beside.enterFrom (k : h₀.Beside h) (q cyc before : Nat) (first last hit : Bool) (data : W64) :
    h₀.Beside (h.enterFrom q cyc before first last hit data) :=
  .depthMoved (.setQueue (.ite ((k.setFld (by decide)).setFld (by decide)) k) _ _) _ _

theorem Hub.Beside.pushFrom (k : h₀.Beside h) (q cyc before : Nat) (data : W64) (last hit : Bool) :
    h₀.Beside (h.pushFrom q cyc before data last hit).1 := by
  have kd (b : Bool) := (k.addPend q 1).countDrop q b
  unfold Hub.pushFrom
  dsimp only
  split_ifs
  · exact k.enterFrom _ _ _ _ _ _ _
  · exact kd true
  · exact k.setFld (by decide)
  · exact k
  · exact k.enterFrom _ _ _ _ _ _ _
  · exact ((kd false).setQueue _ _).setFlag (by decide)

theorem Hub.Beside.pushItem (k : h₀.Beside h) (q : Nat) (ws : List W64) : h₀.Beside (h.pushItem q ws) := by
  induction ws generalizing h with
  | nil => exact k
  | cons w rest ih =>
    cases rest with
    | nil => exact k.pushFrom _ _ _ _ _ _
    | cons w' rest' => exact ih (k.pushFrom _ _ _ _ _ _)

theorem Hub.Beside.localItem (k : h₀.Beside h) (ws : List W64) : h₀.Beside (h.localItem ws) :=
  .ite (k.of_eq rfl rfl rfl rfl) (k.pushItem 30 ws)

/-! Reports -/

theorem Hub.Beside.ringEntry (k : h₀.Beside h) (e : List W32) : h₀.Beside (h.ringEntry e).1 :=
  have kn := (k.setWords (a := A.GS_RENT + 4 * h.fld F.GS_RING_NEXT 0) e (by simp only [A.GS_RENT]; omega)).setFld
    (f := F.GS_RING_NEXT) (i := 0) (v := (h.fld F.GS_RING_NEXT 0 + 1) % 32) (by decide)
  .ite (kn.setFld (by decide)) kn

theorem Hub.Beside.capture (k : h₀.Beside h) (e : List W32) (c : FaultClass) : h₀.Beside (h.capture e c) :=
  have kw := k.setWords (a := A.FE_W) e (by decide)
  .ite (kw.setFld (by decide)) (.ite (kw.setFld (by decide)) k)

theorem Hub.Beside.notice (k : h₀.Beside h) (code : Nat) (c : FaultClass) (e : List W32) (pos : Nat) :
    h₀.Beside (h.notice code c e pos) :=
  .ite ((k.bump (f := F.GS_NOTSKIP_COUNT) (i := 0) (by decide)).of_eq rfl rfl rfl rfl) ((k.localItem _).of_eq rfl rfl rfl rfl)

theorem Hub.Beside.fatalRequest (k : h₀.Beside h) : h₀.Beside h.fatalRequest :=
  .ite (.ite k (k.setFld (by decide))) (.ite k (k.of_eq rfl rfl rfl rfl))

end

/-- All that is left alone, with the words of a range. -/
structure Hub.Keeps (p : Nat → Prop) (h h' : Hub) : Prop extends h.Beside h' where
  word : ∀ a, p a → h'.word a = h.word a

section
variable {p : Nat → Prop} {h₀ h h' : Hub}

theorem Hub.Keeps.refl (h : Hub) : h.Keeps p h := ⟨.refl h, fun _ _ => rfl⟩

theorem Hub.Keeps.then (k : h₀.Keeps p h) (kb : h.Beside h') (hw : ∀ a, p a → h'.word a = h.word a) : h₀.Keeps p h' :=
  ⟨k.toBeside.trans kb, fun a ha => (hw a ha).trans (k.word a ha)⟩

theorem Hub.Keeps.ite {c : Prop} [Decidable c] (k : h₀.Keeps p h) (k' : h₀.Keeps p h') :
    h₀.Keeps p (if c then h else h') := by
  split
  · exact k
  · exact k'

theorem Hub.Keeps.of_eq (k : h₀.Keeps p h) (hregs : h'.regs = h.regs) (hroo : h'.rooster = h.rooster) (hlan : h'.lanes = h.lanes)
    (hhen : h'.hen = h.hen) : h₀.Keeps p h' :=
  k.then (.of_eq (.refl h) hregs hroo hlan hhen) fun a _ => Hub.word_of_regs hregs a

theorem Hub.Keeps.fld (k : h.Keeps p h') {f : Fld} {i : Nat} (hp : p (f.addr i)) : h'.fld f i = h.fld f i :=
  Hub.fld_congr (k.word _ hp)

theorem Hub.Keeps.slot (k : h.Keeps p h') (hlo : p A.RT_SLOT_LO) (hhi : p A.RT_SLOT_HI) : h'.slot = h.slot := by
  rw [Hub.slot, Hub.slot, k.fld (f := F.RT_SLOT_LO_COUNT) (i := 0) hlo, k.fld (f := F.RT_SLOT_HI_COUNT) (i := 0) hhi]

end

end Sys2Proof.Machine
end

section
/-! SUPPORT. What the Goose does with one report of a command (R465-R472): the words that it changes lie below those of the Rooster,
and the code of the report is counted. -/

namespace Sys2Proof.Machine

variable (h : Hub)

/-! ### Words (R465) -/

/-- A word past the registers of the Goose but for its counters of codes, and below those of the queues. -/
def pastGoose (a : Nat) : Prop := 0x900 ≤ a ∧ a < 0x6000

theorem belowQueues_of_pastGoose {a : Nat} (ha : pastGoose a) : belowQueues a := ⟨lt_of_lt_of_le (by decide) ha.1, ha.2⟩

theorem Hub.word_pushItem_belowQueues {a : Nat} (ha : belowQueues a) (q : Nat) (ws : List W64) :
    (h.pushItem q ws).word a = h.word a := by
  induction ws generalizing h with
  | nil => rfl
  | cons w rest ih =>
    cases rest with
    | nil => exact h.word_pushFrom_belowQueues ha _ _ _ _ _ _
    | cons w' rest' => exact (ih _).trans (h.word_pushFrom_belowQueues ha _ _ _ _ _ _)

theorem Hub.word_localItem_belowQueues {a : Nat} (ha : belowQueues a) (ws : List W64) : (h.localItem ws).word a = h.word a := by
  unfold Hub.localItem
  split
  · rfl
  · exact h.word_pushItem_belowQueues ha 30 ws

section
variable {a : Nat} (ha : pastGoose a)
include ha

theorem Hub.word_setFld_pastGoose (f : Fld) (i v : Nat) (hf : f.addr i < 0x900) : (h.setFld f i v).word a = h.word a :=
  h.word_setFld_other f i v (ne_of_gt (lt_of_lt_of_le hf ha.1))

theorem Hub.word_ringEntry_pastGoose (e : List W32) (he : e.length = 4) : (h.ringEntry e).1.word a = h.word a := by
  have hn : h.fld F.GS_RING_NEXT 0 < 32 := h.fld_lt F.GS_RING_NEXT 0
  obtain ⟨hlo, -⟩ := id ha
  have hring : (h.setWords (A.GS_RENT + 4 * h.fld F.GS_RING_NEXT 0) e).word a = h.word a :=
    h.word_setWords_other _ _ (Or.inr (by simp only [A.GS_RENT]; omega))
  simp (disch := decide) only [Hub.ringEntry, Hub.word_ite, Hub.word_setFld_pastGoose _ ha, hring, ite_self]

theorem Hub.word_capture_pastGoose (e : List W32) (c : FaultClass) (he : e.length = 4) : (h.capture e c).word a = h.word a := by
  obtain ⟨hlo, -⟩ := id ha
  have hfirst : (h.setWords A.FE_W e).word a = h.word a :=
    h.word_setWords_other _ _ (Or.inr (by simp only [A.FE_W]; omega))
  simp (disch := decide) only [Hub.capture, Hub.word_ite, Hub.word_setFld_pastGoose _ ha, hfirst, ite_self]

theorem Hub.word_notice_pastGoose (code : Nat) (c : FaultClass) (e : List W32) (pos : Nat) :
    (h.notice code c e pos).word a = h.word a := by
  unfold Hub.notice
  dsimp only
  split
  · exact h.word_bump_other _ _ (ne_of_gt (lt_of_lt_of_le (by decide) ha.1))
  · exact h.word_localItem_belowQueues (belowQueues_of_pastGoose ha) _

theorem Hub.word_fatalRequest_pastGoose : h.fatalRequest.word a = h.word a := by
  unfold Hub.fatalRequest
  split_ifs
  · rfl
  · exact h.word_setFld_pastGoose ha _ _ _ (by decide)
  · rfl
  · rfl

end

/-! ### A report (R467, R469-R472) -/

/-- The codes whose reaction (R470, R473) is no fence, no stop and no repair. -/
theorem Hub.react_of_no_reaction (r : Report)
    (hr : r.code.toNat ∉ [0x01, 0x02, 0x20, 0x40, 0x26, 0x30, 0x31, 0x33, 0x11, 0x13, 0x14]) : h.react r = h := by
  simp only [List.mem_cons, List.not_mem_nil, or_false, not_or] at hr
  simp [Hub.react, hr]

section
variable {h₀ h : Hub}

theorem Hub.Keeps.setGoose (k : h₀.Keeps pastGoose h) (g : Goose) : h₀.Keeps pastGoose { h with goose := g } :=
  k.of_eq rfl rfl rfl rfl

theorem Hub.Keeps.setTwin (k : h₀.Keeps pastGoose h) (t : Twin) : h₀.Keeps pastGoose { h with twin := t } :=
  k.of_eq rfl rfl rfl rfl

theorem Hub.Keeps.count (k : h₀.Keeps pastGoose h) {f : Fld} (b : Nat) (hf : 0x400 < f.base) (hlt : f.addr 0 < 0x900) :
    h₀.Keeps pastGoose ((h.bump f 0).attn b) :=
  k.then (.attn (.bump (.refl h) hf) b) fun _ ha => (Hub.word_attn_belowQueues _ (belowQueues_of_pastGoose ha) b).trans
    (h.word_bump_other f 0 (ne_of_gt (lt_of_lt_of_le hlt ha.1)))

theorem Hub.Keeps.ringEntry (k : h₀.Keeps pastGoose h) {e : List W32} (he : e.length = 4) :
    h₀.Keeps pastGoose (h.ringEntry e).1 :=
  k.then (.ringEntry (.refl h) e) fun _ ha => h.word_ringEntry_pastGoose ha e he

theorem Hub.Keeps.capture (k : h₀.Keeps pastGoose h) {e : List W32} (he : e.length = 4) (c : FaultClass) :
    h₀.Keeps pastGoose (h.capture e c) :=
  k.then (.capture (.refl h) e c) fun _ ha => h.word_capture_pastGoose ha e c he

theorem Hub.Keeps.notice (k : h₀.Keeps pastGoose h) (code : Nat) (c : FaultClass) (e : List W32) (pos : Nat) :
    h₀.Keeps pastGoose (h.notice code c e pos) :=
  k.then (.notice (.refl h) code c e pos) fun _ ha => h.word_notice_pastGoose ha code c e pos

theorem Hub.Keeps.fatalRequest (k : h₀.Keeps pastGoose h) : h₀.Keeps pastGoose h.fatalRequest :=
  k.then (.fatalRequest (.refl h)) fun _ ha => h.word_fatalRequest_pastGoose ha

end

/-- A report of a code without a reaction of its own keeps all but the count of its code. -/
theorem Hub.takeReport_keeps {r : Report} {c : FaultClass} (hc : faultClass r.code.toNat = some c)
    (hr : r.code.toNat ∉ [0x01, 0x02, 0x20, 0x40, 0x26, 0x30, 0x31, 0x33, 0x11, 0x13, 0x14]) (cycle : Nat) (known : Bool) :
    (h.bump F.GS_CODECNT_COUNT r.code.toNat).Keeps pastGoose (h.takeReport cycle r known) := by
  unfold Hub.takeReport
  simp only [hc]
  generalize h.bump F.GS_CODECNT_COUNT r.code.toNat = hb
  have kb := Hub.Keeps.refl (p := pastGoose) hb
  refine .ite kb ?_
  cases c with
  | corrected =>
    have kc := (kb.count (f := F.GS_CORCNT_COUNT) aCorrected (by decide) (by decide)).setTwin
    exact .ite (((kc _).ringEntry rfl).setGoose _) (kc _)
  | contained =>
    have kc := (kb.count (f := F.GS_CONTCNT_COUNT) aContained (by decide) (by decide)).setTwin
    simp only [Hub.react_of_no_reaction _ r hr]
    exact ((((kc _).ringEntry rfl).capture rfl _).notice _ _ _ _).setGoose _
  | fatal =>
    have kc := kb.count (f := F.GS_FATCNT_COUNT) aFatal (by decide) (by decide)
    exact ((((kc.ringEntry rfl).capture rfl _).notice _ _ _ _).fatalRequest).setGoose _

/-! ### The one report of a command -/

theorem Hub.counted.from_word {h h₁ h₂ : Hub} {f : Fld} {i n : Nat} (hc : h₁.counted h₂ f i n)
    (hw : h₁.word (f.addr i) = h.word (f.addr i)) : h.counted h₂ f i n := by
  rw [Hub.counted, ← Hub.fld_congr hw]
  exact hc

@[simp] theorem Hub.report_regs (r : Report) : (h.report r).regs = h.regs := by
  unfold Hub.report
  split <;> rfl

@[simp] theorem Hub.report_rooster (r : Report) : (h.report r).rooster = h.rooster := by
  unfold Hub.report
  split <;> rfl

@[simp] theorem Hub.report_hen (r : Report) : (h.report r).hen = h.hen := by
  unfold Hub.report
  split <;> rfl

@[simp] theorem Hub.report_lanes (r : Report) : (h.report r).lanes = h.lanes := by
  unfold Hub.report
  split <;> rfl

theorem Hub.report_found (r : Report) (hheld : h.start.held = false) :
    ∃ known, (h.report r).goose.found = h.goose.found ++ [(r, known)] := by
  rw [Hub.report, if_neg (by simp [hheld])]
  exact ⟨_, rfl⟩

theorem Hub.report_of_held (r : Report) (hheld : h.start.held = true) : h.report r = h := by rw [Hub.report, if_pos hheld]

/-- A command that has made no report ends as it is. -/
theorem Hub.settled_of_found {h₀ h : Hub} (hf : h.goose.found = h₀.goose.found) : h₀.settled h = h := by
  rw [Hub.settled, hf, if_pos le_rfl]

/-- A command that has made one report ends with that report taken. -/
theorem Hub.settled_one {h₀ h : Hub} {x : Report × Bool} (hfound : h.goose.found = h₀.goose.found ++ [x]) :
    h₀.settled h = ({ h.tookOpen with goose := { h.goose with found := h₀.goose.found } } : Hub).takeReport
      (h.openValue.toNat % 16) x.1 x.2 := by
  have hlen : ¬ h.goose.found.length ≤ h₀.goose.found.length := by simp [hfound]
  have htook : h.tookOpen.goose = h.goose := rfl
  rw [Hub.settled, if_neg hlen, Hub.reportsTaken, htook, hfound, List.drop_left, List.take_left]
  rfl

/-- A word of the Rooster and those past it, below those of the queues. -/
abbrev pastCodes (a : Nat) : Prop := 0xA00 ≤ a ∧ a < 0x6000

section
variable {h₀ h : Hub} {r : Report} {c : FaultClass} (hfound : h.goose.found = h₀.goose.found)
  (hc : faultClass r.code.toNat = some c)
  (hr : r.code.toNat ∉ [0x01, 0x02, 0x20, 0x40, 0x26, 0x30, 0x31, 0x33, 0x11, 0x13, 0x14])
include hfound hc hr

/-- A report that is taken counts its code, and keeps the rest of what is past the Goose. -/
theorem Hub.settled_report_counts (hheld : h.start.held = false) :
    ∃ hb : Hub, hb.regs = h.regs ∧ h.Beside hb ∧
      (hb.bump F.GS_CODECNT_COUNT r.code.toNat).Keeps pastGoose (h₀.settled (h.report r)) := by
  obtain ⟨known, hone⟩ := h.report_found r hheld
  rw [hfound] at hone
  rw [Hub.settled_one hone]
  refine ⟨_, ?_, ?_, Hub.takeReport_keeps _ hc hr _ _⟩
  · exact h.report_regs r
  · exact .of_eq (.refl h) (h.report_regs r) (h.report_rooster r) (h.report_lanes r) (h.report_hen r)

theorem Hub.settled_report_keeps : h.Keeps pastCodes (h₀.settled (h.report r)) := by
  cases hheld : h.start.held with
  | true =>
    rw [h.report_of_held r hheld, Hub.settled_of_found hfound]
    exact .refl h
  | false =>
    have hcode : r.code.toNat < 2 ^ 8 := r.code.isLt
    obtain ⟨hb, hregs, kb, kt⟩ := Hub.settled_report_counts hfound hc hr hheld
    refine ⟨(kb.bump (by decide)).trans kt.toBeside, fun a ha => ?_⟩
    obtain ⟨hlo, hhi⟩ := ha
    rw [kt.word a ⟨by omega, hhi⟩, Hub.word_bump_other, Hub.word_of_regs hregs]
    simp only [Fld.addr]
    omega

theorem Hub.counted_settled_report (hheld : h.start.held = false) :
    h.counted (h₀.settled (h.report r)) F.GS_CODECNT_COUNT r.code.toNat 1 := by
  have hcode : r.code.toNat < 2 ^ 8 := r.code.isLt
  obtain ⟨hb, hregs, -, kt⟩ := Hub.settled_report_counts hfound hc hr hheld
  have hpast : pastGoose (F.GS_CODECNT_COUNT.addr r.code.toNat) := by
    simp only [pastGoose, Fld.addr]
    omega
  exact ((hb.counted_bump F.GS_CODECNT_COUNT r.code.toNat (by decide) (by decide)).of_word (kt.word _ hpast)).from_word
    (Hub.word_of_regs hregs _)

end

end Sys2Proof.Machine
end

section
/-! SUPPORT. Fast commands as they arrive (R55-R64): one that acts at once, and one that is scheduled. -/

namespace Sys2Proof.Machine

variable (h : Hub)

/-! ### Arrival (R34, R57) -/

/-- Before its decode slot a command is held. -/
theorem Hub.fcArrives_early (c : Fc) (q : W48) (num : W24) (ok : Bool) (hheld : h.start.held = false)
    (hdue : reached h.slot (h.decodeSlot q) = false) :
    h.fcArrives c q num ok =
      { h with rooster := { h.rooster with held := h.rooster.held ++ [(c, q, h.decodeSlot q, num, ok)] } } := by
  simp [Hub.fcArrives, hheld, hdue]

/-- From its decode slot on it is decoded. -/
theorem Hub.fcArrives_due (c : Fc) (q : W48) (num : W24) (ok : Bool) (hheld : h.start.held = false)
    (hdue : reached h.slot (h.decodeSlot q) = true) : h.fcArrives c q num ok = h.fcDecoded c q num ok := by
  simp [Hub.fcArrives, hheld, hdue]

/-- The hub once a command is on its way to the child ports (R34). -/
def Hub.forwardsFc (h : Hub) (code : W8) (num : W24) : Hub :=
  { h with hen := { h.hen with fc := h.hen.fc ++ [(code, num, h.slot + 1#48)] } }

/-- What a fast command answers. -/
theorem answers_fc {s : State} {i : Instr} {c : Fc} {q : W48} {num : W24} {ok : Bool} {P : Hub → Prop}
    (hi : exec i s = goesOn s (s.hub.awake (s.hub.fcArrives c q num ok))) (hheld : s.hub.start.held = false)
    (hP : P (s.hub.settled (s.hub.fcArrives c q num ok))) : Answers i s P := by
  rw [Hub.awake_of_not_held _ hheld] at hi
  exact ⟨_, hi, hP⟩

/-! ### Commands that act at once (R62-R64, R417, R418, R518) -/

theorem Hub.fcDecoded_nop (q : W48) (num : W24) (ok : Bool) : h.fcDecoded .nop q num ok = h := by
  simp [Hub.fcDecoded]

theorem Hub.fcDecoded_l1a (q : W48) (num : W24) (ok : Bool) : h.fcDecoded .l1a q num ok =
    (h.forwardsFc 0x4D (h.trigNumber num ok)).l1aDecoded (h.originSlot q) h.slot num ok := rfl

theorem Hub.fcDecoded_hold (q : W48) (num : W24) (ok : Bool) :
    h.fcDecoded .hold q num ok = (h.forwardsFc 0xC3 0).holdDecoded := rfl

theorem Hub.fcDecoded_twinTake (q : W48) (num : W24) (ok : Bool) :
    h.fcDecoded .twinTake q num ok = (h.forwardsFc 0x5A 0).twinTakeDecoded := rfl

/-- Several events on a counter whose SAT bit lies above it (R603). -/
theorem Hub.counted_bumpN (f : Fld) (i n : Nat) (hlo : f.lo ≤ f.hi) (hhi : f.hi < 31) : h.counted (h.bumpN f i n) f i n := by
  have hlt := h.fld_lt f i
  unfold Hub.counted Hub.bumpN
  split
  next hfits =>
    rw [h.fld_setFld_same f i _ hlo (by omega), Nat.mod_eq_of_lt (by omega)]
    omega
  next hfull =>
    rw [if_neg (by omega), Hub.fld, Hub.setWord_word, if_pos rfl, f.get_or_sat _ hhi, ← Hub.fld,
      h.fld_setFld_same f i _ hlo (by omega), Nat.mod_eq_of_lt (by omega)]
    omega

theorem Hub.word_bumpN_other (f : Fld) (i n : Nat) {a : Nat} (ha : a ≠ f.addr i) : (h.bumpN f i n).word a = h.word a := by
  simp only [Hub.bumpN, Hub.word_ite, h.word_setFld_other f i _ ha, Hub.setWord_word, if_neg ha, ite_self]

theorem Hub.bumpN_keeps (f : Fld) (i n : Nat) :
    (h.bumpN f i n).l1as = h.l1as ∧ (h.bumpN f i n).hen = h.hen ∧ (h.bumpN f i n).goose = h.goose := by
  unfold Hub.bumpN
  split_ifs <;> exact ⟨rfl, rfl, rfl⟩

/-- How many trigger numbers an L1A has left out (R63). -/
def Hub.skippedNumbers (h : Hub) (num : W24) (ok : Bool) : Nat :=
  match h.rooster.prevTrig with
  | some p => if ok then (num - (p + 1#24)).toNat else 0
  | none => 0

theorem Hub.l1aDecoded_eq (o dec : W48) (num : W24) (ok : Bool) :
    h.l1aDecoded o dec num ok =
      let hb := h.bumpN F.RT_TRIGSKIP_COUNT 0 (h.skippedNumbers num ok)
      { hb with
        rooster := { hb.rooster with prevTrig := some (h.trigNumber num ok) }
        l1as := hb.l1as ++ [{ num := h.trigNumber num ok, inferred := !ok, origin := o, accept := dec + 2#48 }] } := rfl

/-- An L1A changes, of the registers, the count of skipped numbers alone. -/
theorem Hub.l1aDecoded_spec (o dec : W48) (num : W24) (ok : Bool) :
    let h' := h.l1aDecoded o dec num ok
    h'.rooster.prevTrig = some (h.trigNumber num ok) ∧
      h'.l1as = h.l1as ++ [{ num := h.trigNumber num ok, inferred := !ok, origin := o, accept := dec + 2#48 }] ∧
      h'.hen = h.hen ∧ h'.goose = h.goose ∧
      (∀ p, h.rooster.prevTrig = some p → ok = true → h.counted h' F.RT_TRIGSKIP_COUNT 0 (num - (p + 1#24)).toNat) ∧
      h.sameWords h' [A.RT_TRIGSKIP] := by
  obtain ⟨hl1as, hhen, hgoose⟩ := h.bumpN_keeps F.RT_TRIGSKIP_COUNT 0 (h.skippedNumbers num ok)
  rw [Hub.l1aDecoded_eq]
  refine ⟨rfl, congrArg (· ++ _) hl1as, hhen, hgoose, ?_, fun a ha => ?_⟩
  · rintro p hp rfl
    have hskip : h.skippedNumbers num true = (num - (p + 1#24)).toNat := by simp [Hub.skippedNumbers, hp]
    rw [hskip]
    exact h.counted_bumpN F.RT_TRIGSKIP_COUNT 0 _ (by decide) (by decide)
  · rw [List.mem_singleton] at ha
    exact h.word_bumpN_other F.RT_TRIGSKIP_COUNT 0 _ ha

/-- HOLD asks for HOLD, where the mode lets it (R417, R418). -/
theorem Hub.holdDecoded_spec :
    let h' := h.holdDecoded
    (h.mode = mUnloaded → h'.goose = h.goose) ∧ (h.mode = mHold → h'.goose = { h.goose with quietFrom := h.slot }) ∧
      (h.mode ≠ mUnloaded → h.mode ≠ mHold → h'.goose = { h.goose with holdFc := true }) ∧ h'.regs = h.regs ∧
      h'.goose.found = h.goose.found := by
  unfold Hub.holdDecoded
  by_cases hu : h.mode = mUnloaded
  · have hne : h.mode ≠ mHold := by rw [hu]; decide
    simp [hu]
  · by_cases hh : h.mode = mHold
    · simp [hh]
    · simp [hu, hh]

/-- TWIN_TAKE lets a healthy SOLO standby take over, or is counted (R518). -/
theorem Hub.twinTakeDecoded_spec :
    let h' := h.twinTakeDecoded
    (h.fld F.TW_STAT_STATE 0 = 4 → h.flag F.TW_STAT_HEALTHY 0 = true → h'.twin.take = true ∧ h'.regs = h.regs) ∧
      ((h.fld F.TW_STAT_STATE 0 ≠ 4 ∨ h.flag F.TW_STAT_HEALTHY 0 = false) →
        h.counted h' F.TW_TAKEIGN_COUNT 0 1 ∧ h'.twin = h.twin) ∧ h'.goose = h.goose := by
  unfold Hub.twinTakeDecoded
  by_cases ht : h.fld F.TW_STAT_STATE 0 = 4 ∧ h.flag F.TW_STAT_HEALTHY 0 = true
  · simp [ht]
  · have hcount := h.counted_bump F.TW_TAKEIGN_COUNT 0 (by decide) (by decide)
    have hrefused : ¬ (decide (h.fld F.TW_STAT_STATE 0 = 4) && h.flag F.TW_STAT_HEALTHY 0) = true := by simpa using ht
    simp only [Bool.and_eq_true, decide_eq_true_eq] at hrefused ⊢
    rw [if_neg ht]
    exact ⟨fun h4 hy => absurd ⟨h4, hy⟩ ht, fun _ => ⟨hcount, Hub.bump_twin h _ _⟩, Hub.bump_goose h _ _⟩

/-- Settles O17: each command is decoded as it arrives and makes no report. -/
theorem immediateFastCommands : Obligations.ImmediateFastCommands := by
  unfold Obligations.ImmediateFastCommands
  intro s q hheld hdue
  have hact (c : Fc) (num : W24) (ok : Bool) := s.hub.fcArrives_due c q num ok hheld hdue
  refine ⟨answers_fc (c := .nop) rfl hheld ?nop, fun num ok => answers_fc (c := .l1a) rfl hheld ?l1a,
    answers_fc (c := .hold) rfl hheld ?hold, answers_fc (c := .twinTake) rfl hheld ?take⟩
  case nop => rw [hact, Hub.fcDecoded_nop, Hub.settled_of_found rfl]
  case l1a =>
    obtain ⟨hprev, hl1as, hhen, hgoose, hskip, hsame⟩ :=
      (s.hub.forwardsFc 0x4D (s.hub.trigNumber num ok)).l1aDecoded_spec (s.hub.originSlot q) s.hub.slot num ok
    rw [hact, Hub.fcDecoded_l1a, Hub.settled_of_found (h₀ := s.hub) (congrArg Goose.found hgoose)]
    exact ⟨hprev, hl1as, congrArg Hen.fc hhen, hskip, hsame⟩
  case hold =>
    obtain ⟨hunloaded, hhold, hasks, hregs, hfound⟩ := (s.hub.forwardsFc 0xC3 0).holdDecoded_spec
    rw [hact, Hub.fcDecoded_hold, Hub.settled_of_found (h₀ := s.hub) hfound]
    exact ⟨hunloaded, hhold, hasks, hregs⟩
  case take =>
    obtain ⟨htakes, hcounts, hgoose⟩ := (s.hub.forwardsFc 0x5A 0).twinTakeDecoded_spec
    rw [hact, Hub.fcDecoded_twinTake, Hub.settled_of_found (h₀ := s.hub) (congrArg Goose.found hgoose)]
    exact ⟨htakes, hcounts⟩

end Sys2Proof.Machine
end

section
/-! SUPPORT. Scheduled fast commands (R57-R59). -/

namespace Sys2Proof.Machine

variable (h : Hub)

/-- The instruction of each scheduled command, and what it executes. -/
theorem scheduled_exec {x : Fc × (W48 → Instr)}
    (hx : x ∈ [(Fc.sync, Instr.fcSync), (.orbit, .fcOrbit), (.calPulse, .fcCalPulse), (.snap, .fcSnap), (.commit, .fcCommit)]) :
    x.1.scheduled = true ∧ ∀ (q : W48) (s : State), exec (x.2 q) s = goesOn s (s.hub.awake (s.hub.fcArrives x.1 q 0 true)) := by
  simp only [List.mem_cons, List.not_mem_nil, or_false] at hx
  rcases hx with rfl | rfl | rfl | rfl | rfl <;> exact ⟨rfl, fun _ _ => rfl⟩

theorem Hub.fcDecoded_scheduled {c : Fc} (hc : c.scheduled = true) (q : W48) (num : W24) (ok : Bool) :
    h.fcDecoded c q num ok = (h.forwardsFc c.code 0).scheduleFc c (h.originSlot q) h.slot := by
  cases c <;> simp only [Fc.scheduled, Bool.false_eq_true] at hc <;> rfl

/-- The slot in which a command acts that is decoded in time (R58). -/
def Hub.actSlot (h : Hub) (o : W48) : W48 := o + BitVec.ofNat 48 (h.fld F.RT_FCCFG_FC_LAT 0)

/-- The hub with one more command in its schedule. -/
def Hub.withSched (h : Hub) (x : Fc × W48) : Hub := { h with rooster := { h.rooster with sched := h.rooster.sched ++ [x] } }

theorem Hub.report_withSched (r : Report) (x : Fc × W48) : (h.report r).withSched x = (h.withSched x).report r := by
  have hstart : (h.withSched x).start = h.start := rfl
  rw [Hub.report, Hub.report, hstart]
  split <;> rfl

theorem Hub.scheduleFc_inTime (c : Fc) (o dec : W48) (hact : reached dec (h.actSlot o) = false) :
    h.scheduleFc c o dec = h.withSched (c, h.actSlot o) := by
  unfold Hub.actSlot at hact ⊢
  simp [Hub.scheduleFc, hact, Hub.withSched]

/-- The report of a command that comes too late (R59). -/
def lateReport : Report := { mkReport 0x06 (unitOf 1 5) with addr := BitVec.ofNat 24 A.RT_FCLATE }

theorem Hub.scheduleFc_late (c : Fc) (o dec : W48) (hact : reached dec (h.actSlot o) = true) :
    h.scheduleFc c o dec = ((h.bump F.RT_FCLATE_COUNT 0).withSched (c, dec + 1#48)).report lateReport := by
  unfold Hub.actSlot at hact
  rw [Hub.scheduleFc, if_pos hact, ← Hub.report_withSched]
  rfl

/-- A command that comes too late is scheduled for the next boundary, counted and reported (R59). -/
theorem Hub.settled_late {h₀ : Hub} (x : Fc × W48) (hfound : h.goose.found = h₀.goose.found) (hheld : h.start.held = false) :
    let h' := h₀.settled (((h.bump F.RT_FCLATE_COUNT 0).withSched x).report lateReport)
    h'.hen = h.hen ∧ h'.rooster.sched = h.rooster.sched ++ [x] ∧ h.counted h' F.RT_FCLATE_COUNT 0 1 ∧
      h.counted h' F.GS_CODECNT_COUNT 6 1 := by
  have hclass : faultClass lateReport.code.toNat = some .contained := by decide
  have hfound' : ((h.bump F.RT_FCLATE_COUNT 0).withSched x).goose.found = h₀.goose.found := by
    rw [← hfound, ← Hub.bump_goose h F.RT_FCLATE_COUNT 0]
    rfl
  have hheld' : ((h.bump F.RT_FCLATE_COUNT 0).withSched x).start.held = false := by
    rw [← hheld, ← Hub.bump_start h F.RT_FCLATE_COUNT 0]
    rfl
  have kr := Hub.settled_report_keeps hfound' hclass (by decide)
  refine ⟨?_, ?_, ?_, ?_⟩
  · exact kr.hen.trans (h.bump_hen _ _)
  · rw [kr.rooster, Hub.withSched, Hub.bump_rooster]
  · exact (h.counted_bump F.RT_FCLATE_COUNT 0 (by decide) (by decide)).of_word (kr.word _ (by decide))
  · exact (Hub.counted_settled_report hfound' hclass (by decide) hheld').from_word (h.word_bump_other _ _ (by decide))

/-- Settles O16: a command is held, or forwarded and scheduled, in time or late. -/
theorem scheduledFastCommands : Obligations.ScheduledFastCommands := by
  unfold Obligations.ScheduledFastCommands
  intro x hx s q hheld act
  obtain ⟨hsch, hexec⟩ := scheduled_exec hx
  refine ⟨fun hearly => answers_fc (hexec q s) hheld ?_, fun hdue => answers_fc (hexec q s) hheld ?_⟩
  · rw [s.hub.fcArrives_early _ _ _ _ hheld hearly, Hub.settled_of_found]
    · exact ⟨rfl, rfl⟩
    · rfl
  · rw [s.hub.fcArrives_due _ _ _ _ hheld hdue, s.hub.fcDecoded_scheduled hsch]
    cases hact : reached s.hub.slot act
    case false =>
      rw [Hub.scheduleFc_inTime (s.hub.forwardsFc x.1.code 0) _ _ _ hact, Hub.settled_of_found]
      · exact ⟨rfl, fun _ => ⟨rfl, rfl⟩, fun hlate => absurd hlate (by decide)⟩
      · rfl
    case true =>
      rw [Hub.scheduleFc_late (s.hub.forwardsFc x.1.code 0) _ _ _ hact]
      obtain ⟨hhen, hsched, hlate, hcode⟩ := (s.hub.forwardsFc x.1.code 0).settled_late (h₀ := s.hub)
        (x.1, s.hub.slot + 1#48) rfl hheld
      exact ⟨congrArg Hen.fc hhen, fun hin => absurd hin (by decide), fun _ => ⟨hsched, hlate, hcode⟩⟩

end Sys2Proof.Machine
end

section
/-! SUPPORT. SYNC and ORBIT at their boundary (R44, R61). -/

namespace Sys2Proof.Machine

variable (h : Hub)

/-! ### Commands that are due -/

theorem Hub.slot_congr {h h' : Hub} (hregs : h'.regs = h.regs) : h'.slot = h.slot := by
  rw [Hub.slot, Hub.slot, Hub.fld_congr (Hub.word_of_regs hregs _), Hub.fld_congr (Hub.word_of_regs hregs _)]

/-- No command of a kind is due once those due have been taken off the schedule. -/
theorem Hub.fcDue_of_unscheduled {h h' : Hub} {c : Fc} (hroo : h'.rooster.sched = (h.unschedule c).rooster.sched)
    (hslot : h'.slot = h.slot) : h'.fcDue c = false := by
  rw [Hub.fcDue, hroo, hslot, Hub.unschedule, List.any_filter, List.any_eq_false]
  intro x _
  cases x.1 == c && x.2 == h.slot <;> simp

/-! ### SYNC -/

/-- A property that each pass keeps holds after all of them. -/
theorem forN_induction {α : Type} {P : α → Prop} (n : Nat) {x : α} {f : Nat → α → α} (hx : P x)
    (hf : ∀ k a, P a → P (f k a)) : P (forN n x f) :=
  List.foldlRecOn _ _ hx fun a ha k _ => hf k a ha

section
variable {h₀ h : Hub}

theorem Hub.Keeps.addPos (k : h₀.Keeps belowQueues h) (i j : Nat) (l : List Pos) : h₀.Keeps belowQueues (h.addPos i j l) := by
  unfold Hub.addPos
  split
  next t _ =>
    split
    next s _ =>
      have kt : h₀.Keeps belowQueues (h.setTrig i { t with sects := t.sects.set j { s with got := s.got ++ l } }) :=
        k.of_eq rfl rfl rfl rfl
      refine kt.then ((Hub.Beside.refl _).ledAdd _ _ |>.setLed _ _) fun a ha => ?_
      rw [Hub.gapped, Hub.ledSub, Hub.word_setLed_belowQueues _ ha, Hub.word_ledAdd_belowQueues _ ha]
    next => exact k
  next => exact k

theorem Hub.Keeps.closeTrigs (k : h₀.Keeps belowQueues h) : h₀.Keeps belowQueues h.closeTrigs := by
  refine forN_induction _ k fun i h ki => ?_
  split
  next t _ =>
    refine forN_induction _ (ki.of_eq rfl rfl rfl rfl) fun j h kj => ?_
    split
    · exact kj.addPos _ _ _
    · exact kj
  next => exact ki

theorem Hub.Keeps.setFld (k : h₀.Keeps belowQueues h) {f : Fld} {i v : Nat} (hf : 0x6000 ≤ f.base) :
    h₀.Keeps belowQueues (h.setFld f i v) :=
  k.then (.setFld (.refl h) (by omega)) fun _ ha =>
    h.word_setFld_other f i v (ne_of_lt (lt_of_lt_of_le ha.2 (Nat.le_add_right_of_le hf)))

theorem Hub.Keeps.chainStart (k : h₀.Keeps belowQueues h) (anchored : Bool) : h₀.Keeps belowQueues (h.chainStart anchored) := by
  unfold Hub.chainStart
  dsimp only
  generalize hc : Hub.mk .. = hc'
  have kc : h₀.Keeps belowQueues hc' := by
    rw [← hc]
    exact k.of_eq rfl rfl rfl rfl
  exact (kc.setFld (by decide)).setFld (by decide)

end

/-- A hub with POS at 0, and this slot noted as that of a SYNC. -/
def Hub.posCleared (h : Hub) : Hub :=
  let h := h.setFld F.RT_ORBIT_POS 0 0
  { h with rooster := { h.rooster with syncedAt := some h.slot } }

theorem Hub.syncNow_keeps : h.loadTime.posCleared.Keeps belowQueues h.syncNow :=
  .ite ((Hub.Keeps.refl _).closeTrigs.chainStart _) (.setFld (.refl _) (by decide))

theorem Hub.slot_setFld {f : Fld} {i v : Nat} (hlo : A.RT_SLOT_LO ≠ f.addr i) (hhi : A.RT_SLOT_HI ≠ f.addr i) :
    (h.setFld f i v).slot = h.slot := by
  rw [Hub.slot, Hub.slot, Hub.fld_congr (f := F.RT_SLOT_LO_COUNT) (i := 0) (h.word_setFld_other f i v hlo),
    Hub.fld_congr (f := F.RT_SLOT_HI_COUNT) (i := 0) (h.word_setFld_other f i v hhi)]

theorem Hub.slot_setSlot (s : W48) : (h.setSlot s).slot = s := by
  have hlt : s.toNat < 2 ^ 48 := s.isLt
  apply BitVec.eq_of_toNat_eq
  rw [Hub.slot, Hub.setSlot, Hub.fld_setFld_apart _ _ (by decide) (by decide), Hub.fld_setFld_same _ _ _ _ (by decide) (by decide),
    Hub.fld_setFld_same _ _ _ _ (by decide) (by decide), BitVec.toNat_ofNat]
  simp only [Fld.width]
  omega

/-- A SYNC that is due leaves the registers of the Rooster as its counters are then. -/
theorem Hub.syncActs_keeps (hdue : h.fcDue .sync = true) :
    (h.unschedule .sync).loadTime.posCleared.Keeps belowQueues h.syncActs := by
  rw [Hub.syncActs, if_pos hdue]
  exact Hub.syncNow_keeps _

theorem Hub.fld_withRooster (r : Rooster) (f : Fld) (i : Nat) : ({ h with rooster := r } : Hub).fld f i = h.fld f i := (rfl)

theorem Hub.slot_withRooster (r : Rooster) : ({ h with rooster := r } : Hub).slot = h.slot := (rfl)

theorem Hub.posCleared_fld {f : Fld} (hf : f.apart 0 F.RT_ORBIT_POS 0) : h.posCleared.fld f 0 = h.fld f 0 := by
  rw [Hub.posCleared, Hub.fld_withRooster, Hub.fld_setFld_apart _ _ (by decide) hf]

theorem Hub.posCleared_pos : h.posCleared.fld F.RT_ORBIT_POS 0 = 0 := by
  rw [Hub.posCleared, Hub.fld_withRooster, Hub.fld_setFld_same _ _ _ _ (by decide) (by decide), Nat.zero_mod]

theorem Hub.posCleared_slot : h.posCleared.slot = h.slot := by
  rw [Hub.posCleared, Hub.slot_withRooster, Hub.slot_setFld _ (by decide) (by decide)]

theorem Hub.posCleared_rooster : h.posCleared.rooster = { h.rooster with syncedAt := some h.slot } := by
  rw [Hub.posCleared, Hub.slot_setFld _ (by decide) (by decide), Hub.setFld_rooster]

theorem Hub.loadTime_unarmed (harm : h.flag F.RT_TSARM_ARM 0 = false) : h.loadTime = h := by
  rw [Hub.loadTime, if_neg (by simp [harm])]

/-- A hub with the fraction of TIME_NS at 0. -/
def Hub.fracCleared (h : Hub) : Hub := { h with rooster := { h.rooster with frac := 0 } }

theorem Hub.fracCleared_fld (f : Fld) (i : Nat) : h.fracCleared.fld f i = h.fld f i := (rfl)

theorem Hub.fracCleared_slot : h.fracCleared.slot = h.slot := (rfl)

/-- A hub once SLOT_COUNT and TIME_NS have been loaded (R44). -/
def Hub.withTime (h : Hub) (s : W48) (ns : Nat) : Hub :=
  ((((h.setSlot s).setFld F.RT_TIME_NS_NS 0 ns).fracCleared).setFld F.RT_TSARM_ARM 0 0).setFld F.RT_CLK_EPOCH 0 1

theorem Hub.loadTime_armed (harm : h.flag F.RT_TSARM_ARM 0 = true) :
    ∃ h₁ : Hub, h.loadTime = h₁.withTime
      (BitVec.ofNat 48 (h.fld F.RT_SLOTSET_LO_V 0 + h.fld F.RT_SLOTSET_HI_V 0 * 2 ^ 32)) (h.fld F.RT_TNSSET_V 0) := by
  rw [Hub.loadTime, if_pos harm]
  exact ⟨_, rfl⟩

theorem Hub.withTime_spec (s : W48) {ns : Nat} (hns : ns < 2 ^ F.RT_TIME_NS_NS.width) :
    let h' := h.withTime s ns
    h'.slot = s ∧ h'.fld F.RT_TIME_NS_NS 0 = ns ∧ h'.rooster.frac = 0 ∧ h'.flag F.RT_TSARM_ARM 0 = false ∧
      h'.flag F.RT_CLK_EPOCH 0 = true := by
  refine ⟨?_, ?_, rfl, ?_, ?_⟩
  · rw [Hub.withTime, Hub.slot_setFld _ (by decide) (by decide), Hub.slot_setFld _ (by decide) (by decide), Hub.fracCleared_slot,
      Hub.slot_setFld _ (by decide) (by decide), Hub.slot_setSlot]
  · rw [Hub.withTime, Hub.fld_setFld_apart _ _ (by decide) (by decide), Hub.fld_setFld_apart _ _ (by decide) (by decide),
      Hub.fracCleared_fld, Hub.fld_setFld_same _ _ _ _ (by decide) (by decide), Nat.mod_eq_of_lt hns]
  · rw [Hub.withTime, Hub.flag, Hub.fld_setFld_apart _ _ (by decide) (by decide),
      Hub.fld_setFld_same _ _ _ _ (by decide) (by decide), Nat.zero_mod]
    rfl
  · rw [Hub.withTime, Hub.flag, Hub.fld_setFld_same _ _ _ _ (by decide) (by decide)]
    rfl

/-- An unarmed SYNC sets POS alone (R44). -/
theorem Hub.syncActs_unarmed (hdue : h.fcDue .sync = true) (harm : h.flag F.RT_TSARM_ARM 0 = false) :
    let h' := h.syncActs
    h'.fld F.RT_ORBIT_POS 0 = 0 ∧ h'.rooster.syncedAt = some h.slot ∧ h'.slot = h.slot ∧ h'.fcDue .sync = false := by
  have k := h.syncActs_keeps hdue
  have hload : (h.unschedule .sync).loadTime = h.unschedule .sync := Hub.loadTime_unarmed _ harm
  have hslot : (h.unschedule .sync).slot = h.slot := rfl
  rw [hload] at k
  have hroo : h.syncActs.rooster = { (h.unschedule .sync).rooster with syncedAt := some h.slot } := by
    rw [k.rooster, Hub.posCleared_rooster, hslot]
  have hnow : h.syncActs.slot = h.slot := by
    rw [k.slot ⟨by decide, by decide⟩ ⟨by decide, by decide⟩, Hub.posCleared_slot, hslot]
  refine ⟨?_, ?_, hnow, Hub.fcDue_of_unscheduled ?_ hnow⟩
  · rw [k.fld ⟨by decide, by decide⟩, Hub.posCleared_pos]
  · rw [hroo]
  · rw [hroo]

/-- An armed SYNC loads the counters of time (R44). -/
theorem Hub.syncActs_armed (hdue : h.fcDue .sync = true) (harm : h.flag F.RT_TSARM_ARM 0 = true) :
    let h' := h.syncActs
    h'.fld F.RT_ORBIT_POS 0 = 0 ∧
      h'.slot = BitVec.ofNat 48 (h.fld F.RT_SLOTSET_LO_V 0 + h.fld F.RT_SLOTSET_HI_V 0 * 2 ^ 32) ∧
      h'.fld F.RT_TIME_NS_NS 0 = h.fld F.RT_TNSSET_V 0 ∧ h'.rooster.frac = 0 ∧ h'.flag F.RT_TSARM_ARM 0 = false ∧
      h'.flag F.RT_CLK_EPOCH 0 = true := by
  have k := h.syncActs_keeps hdue
  obtain ⟨h₁, hload⟩ := Hub.loadTime_armed (h.unschedule .sync) harm
  have hfld (f : Fld) : (h.unschedule .sync).fld f 0 = h.fld f 0 := rfl
  simp only [hfld] at hload
  generalize h.syncActs = h' at k ⊢
  generalize hs : BitVec.ofNat 48 _ = slot at hload ⊢
  generalize hn : h.fld F.RT_TNSSET_V 0 = ns at hload ⊢
  have hns : ns < 2 ^ F.RT_TIME_NS_NS.width := hn ▸ h.fld_lt F.RT_TNSSET_V 0
  obtain ⟨hslot, htime, hfrac, htsarm, hepoch⟩ := h₁.withTime_spec slot hns
  rw [hload] at k
  generalize h₁.withTime slot ns = h₂ at k hslot htime hfrac htsarm hepoch
  have hkept (f : Fld) (hf : f.apart 0 F.RT_ORBIT_POS 0) (ha : belowQueues (f.addr 0)) : h'.fld f 0 = h₂.fld f 0 := by
    rw [k.fld ha, Hub.posCleared_fld _ hf]
  refine ⟨?_, ?_, ?_, ?_, ?_, ?_⟩
  · rw [k.fld ⟨by decide, by decide⟩, Hub.posCleared_pos]
  · rw [k.slot ⟨by decide, by decide⟩ ⟨by decide, by decide⟩, Hub.posCleared_slot, hslot]
  · rw [hkept _ (by decide) ⟨by decide, by decide⟩, htime]
  · rw [k.rooster, Hub.posCleared_rooster, hfrac]
  · rw [Hub.flag, hkept _ (by decide) ⟨by decide, by decide⟩, ← Hub.flag, htsarm]
  · rw [Hub.flag, hkept _ (by decide) ⟨by decide, by decide⟩, ← Hub.flag, hepoch]

/-! ### ORBIT (R61) -/

/-- The report of an ORBIT that comes away from the boundary of the orbit. -/
def slipReport : Report := { mkReport 0x07 (unitOf 1 5) with addr := BitVec.ofNat 24 A.RT_ORBIT }

/-- The hub once an orbit slip has been counted. -/
def Hub.slipped (h : Hub) : Hub := (h.bump F.RT_ORBSLIP_COUNT 0).attn aTime

theorem Hub.orbitNow_cases : h.orbitNow =
    if h.atOrbit then h
    else if h.mode = mUnloaded ∨ h.mode = mSetup ∨ h.mode = mCalibrate then h.setFld F.RT_ORBIT_POS 0 0
    else h.slipped.report slipReport := by
  simp only [Hub.orbitNow, Bool.or_eq_true, decide_eq_true_eq, or_assoc]
  rfl

theorem Hub.unschedule_fld (c : Fc) (f : Fld) (i : Nat) : (h.unschedule c).fld f i = h.fld f i := (rfl)

theorem Hub.settled_orbitActs (hdue : h.fcDue .orbit = true) : h.settled h.orbitActs =
    if h.atOrbit then h.unschedule .orbit
    else if h.mode = mUnloaded ∨ h.mode = mSetup ∨ h.mode = mCalibrate then (h.unschedule .orbit).setFld F.RT_ORBIT_POS 0 0
    else h.settled ((h.unschedule .orbit).slipped.report slipReport) := by
  have hat : (h.unschedule .orbit).atOrbit = h.atOrbit := by rw [Hub.atOrbit, Hub.unschedule_fld, Hub.atOrbit]
  have hmode : (h.unschedule .orbit).mode = h.mode := h.unschedule_fld _ _ _
  have hgoose : (h.unschedule .orbit).goose = h.goose := rfl
  rw [Hub.orbitActs, if_pos hdue, Hub.orbitNow_cases, hat, hmode]
  split_ifs
  · exact Hub.settled_of_goose hgoose
  · exact Hub.settled_of_goose ((Hub.setFld_goose _ _ _ _).trans hgoose)
  · rfl

theorem Hub.attn_goose (b : Nat) : (h.attn b).goose = h.goose := by
  unfold Hub.attn
  split
  · rfl
  · rw [Hub.attnNow, Hub.refreshAttn, Hub.setFlag_goose, Hub.setFld_goose]

theorem Hub.attn_start (b : Nat) : (h.attn b).start = h.start := by
  unfold Hub.attn
  split
  · rfl
  · rw [Hub.attnNow, Hub.refreshAttn, Hub.setFlag_start, Hub.setFld_start]

/-- An orbit slip is counted and reported, and changes no other register of the Rooster. -/
theorem Hub.settled_slip {h₀ : Hub} (hfound : h.goose.found = h₀.goose.found) :
    let h' := h₀.settled (h.slipped.report slipReport)
    h'.rooster = h.rooster ∧ (∀ a, pastCodes a → a ≠ A.RT_ORBSLIP → h'.word a = h.word a) ∧
      (h.start.held = false → h.counted h' F.RT_ORBSLIP_COUNT 0 1 ∧ h.counted h' F.GS_CODECNT_COUNT 7 1) := by
  have hclass : faultClass slipReport.code.toNat = some .contained := by decide
  have hfound' : h.slipped.goose.found = h₀.goose.found := by rw [Hub.slipped, Hub.attn_goose, Hub.bump_goose, hfound]
  have kr := Hub.settled_report_keeps hfound' hclass (by decide)
  have hword {a : Nat} (ha : belowQueues a) : h.slipped.word a = (h.bump F.RT_ORBSLIP_COUNT 0).word a :=
    Hub.word_attn_belowQueues _ ha _
  refine ⟨?_, fun a ha hne => ?_, fun hheld => ⟨?_, ?_⟩⟩
  · have ks : h.Beside h.slipped := .attn (.bump (.refl h) (by decide)) _
    rw [kr.rooster, ks.rooster]
  · rw [kr.word a ha, hword ⟨by omega, ha.2⟩, h.word_bump_other F.RT_ORBSLIP_COUNT 0 hne]
  · refine (h.counted_bump F.RT_ORBSLIP_COUNT 0 (by decide) (by decide)).of_word ?_
    rw [kr.word _ (by decide), hword ⟨by decide, by decide⟩]
  · have hheld' : h.slipped.start.held = false := by rw [Hub.slipped, Hub.attn_start, Hub.bump_start, hheld]
    refine (Hub.counted_settled_report hfound' hclass (by decide) hheld').from_word ?_
    rw [hword ⟨by decide, by decide⟩, h.word_bump_other _ _ (by decide)]

/-- Whatever an ORBIT does, it is due no longer, and the slot counter goes on. -/
theorem Hub.settled_orbitActs_done (hdue : h.fcDue .orbit = true) : (h.settled h.orbitActs).fcDue .orbit = false := by
  have hslot : (h.unschedule .orbit).slot = h.slot := Hub.slot_congr rfl
  rw [h.settled_orbitActs hdue]
  split_ifs
  · exact Hub.fcDue_of_unscheduled rfl hslot
  · refine Hub.fcDue_of_unscheduled (congrArg Rooster.sched (Hub.setFld_rooster _ _ _ _)) ?_
    rw [Hub.slot_setFld _ (by decide) (by decide), hslot]
  · obtain ⟨hroo, hword, -⟩ := (h.unschedule .orbit).settled_slip (h₀ := h) rfl
    refine Hub.fcDue_of_unscheduled (congrArg Rooster.sched hroo) ?_
    rw [Hub.slot, Hub.fld_congr (hword _ (by decide) (by decide)), Hub.fld_congr (hword _ (by decide) (by decide)),
      ← Hub.slot, hslot]

/-- Settles O18: SYNC unarmed and armed, the commands that are not due, and ORBIT by the mode. -/
theorem syncAndOrbitAct : Obligations.SyncAndOrbitAct := by
  unfold Obligations.SyncAndOrbitAct
  refine ⟨fun s hdue harm => ⟨_, rfl, s.hub.syncActs_unarmed hdue harm⟩,
    fun s hdue harm _ => ⟨_, rfl, s.hub.syncActs_armed hdue harm⟩, fun s hdue => ⟨_, rfl, ?_⟩, fun s hdue => ⟨_, rfl, ?_⟩,
    fun s hdue => ⟨_, rfl, s.hub.settled_orbitActs_done hdue, ?_⟩⟩
  · rw [Hub.syncActs, if_neg (by simp [hdue])]
  · exact if_neg (by rw [Bool.not_eq_true]; exact hdue)
  rw [s.hub.settled_orbitActs hdue]
  refine ⟨fun hat => ?_, fun hat hmode => ?_, fun hheld hat hmode => ?_⟩
  · rw [if_pos hat]
    rfl
  · rw [if_neg (by simp [hat]), if_pos hmode]
    refine ⟨?_, fun a ha => ?_⟩
    · rw [Hub.fld_setFld_same _ _ _ _ (by decide) (by decide), Nat.zero_mod]
    · rw [Hub.word_setFld_other _ _ _ _ (fun heq => ha (List.mem_singleton.mpr heq))]
      rfl
  · have hrunning : ¬ (s.hub.mode = mUnloaded ∨ s.hub.mode = mSetup ∨ s.hub.mode = mCalibrate) := by
      rcases hmode with hm | hm <;> rw [hm] <;> decide
    rw [if_neg (by simp [hat]), if_neg hrunning]
    obtain ⟨-, hword, hcounts⟩ := (s.hub.unschedule .orbit).settled_slip (h₀ := s.hub) rfl
    obtain ⟨hslip, hcode⟩ := hcounts hheld
    exact ⟨hslip, hcode, (Hub.fld_congr (hword _ (by decide) (by decide))).trans (s.hub.unschedule_fld _ _ _)⟩

end Sys2Proof.Machine
end

section
/-! SUPPORT. The grid, the ages that follow from the timing lane, and the averages of a lane (R46-R50, R57). -/

namespace Sys2Proof.Machine

variable (h : Hub)

/-! ### What follows from the timing lane -/

/-- The fields that follow from the timing lane, but for GRID. -/
def agesFields : List Fld :=
  [F.RT_LANE_VALID, F.RT_LANE_TIMING, F.RT_AGE_DEC_SLOTS, F.RT_AGE_FC_AGE, F.RT_AGE_FWD_AGE, F.RT_OFFSET_THETA]

/-- A field at `i` that shares no bit with those fields and GRID, wherever they stand. -/
def Fld.offGrid (f : Fld) (i : Nat) : Prop := ∀ g ∈ F.RT_CLK_GRID :: agesFields, ∀ j, f.apart i g j

/-- A field of the word at `a` shares no bit with `g`, wherever `g` stands, by its bits or by its place. -/
def Fld.clearOf (f : Fld) (a : Nat) (g : Fld) : Bool :=
  decide (f.hi < g.lo) || decide (g.hi < f.lo) || decide (a < g.base) || (decide (g.stride = 0) && decide (a ≠ g.base))

theorem Fld.offGrid_of_clear {f : Fld} {i : Nat} (hf : ∀ g ∈ F.RT_CLK_GRID :: agesFields, f.clearOf (f.addr i) g = true) :
    f.offGrid i := by
  intro g hg j
  have hclear := hf g hg
  simp only [Fld.clearOf, Bool.or_eq_true, Bool.and_eq_true, decide_eq_true_eq] at hclear
  rcases hclear with ((hhi | hlo) | hbelow) | ⟨hstride, hbase⟩
  · exact Or.inr (Or.inl hhi)
  · exact Or.inr (Or.inr hlo)
  · exact Or.inl (ne_of_lt (lt_of_lt_of_le hbelow (Nat.le_add_right _ _)))
  · refine Or.inl ?_
    simpa [Fld.addr, hstride] using hbase

/-- What is left alone where the grid follows the timing lane: the lanes, the watch of framing, and every field off the grid; a grid
that is placed stays so. -/
structure Hub.GridFollows (h h' : Hub) : Prop where
  lanes : h'.lanes = h.lanes
  noFrame : h'.rooster.noFrame = h.rooster.noFrame
  lossAt : h'.rooster.lossAt = h.rooster.lossAt
  backAt : h'.rooster.backAt = h.rooster.backAt
  fld : ∀ f i, f.offGrid i → h'.fld f i = h.fld f i
  grid : h.flag F.RT_CLK_GRID 0 = true → h'.flag F.RT_CLK_GRID 0 = true

/-- A property that the pass for each element keeps holds after all of them. -/
theorem each_induction {α β : Type} {P : α → Prop} (l : List β) {x : α} {f : β → α → α} (hx : P x)
    (hf : ∀ k a, P a → P (f k a)) : P (each l x f) :=
  List.foldlRecOn _ _ hx fun a ha k _ => hf k a ha

section
variable {h₀ h h' : Hub}

theorem Hub.GridFollows.refl (h : Hub) : h.GridFollows h := ⟨rfl, rfl, rfl, rfl, fun _ _ _ => rfl, id⟩

theorem Hub.GridFollows.trans (k : h₀.GridFollows h) (k' : h.GridFollows h') : h₀.GridFollows h' :=
  ⟨k'.lanes.trans k.lanes, k'.noFrame.trans k.noFrame, k'.lossAt.trans k.lossAt, k'.backAt.trans k.backAt,
    fun f i hf => (k'.fld f i hf).trans (k.fld f i hf), k'.grid ∘ k.grid⟩

theorem Hub.GridFollows.ite {c : Prop} [Decidable c] (k : h₀.GridFollows h) (k' : h₀.GridFollows h') :
    h₀.GridFollows (if c then h else h') := by
  split
  · exact k
  · exact k'

theorem Hub.GridFollows.setRooster (k : h₀.GridFollows h) {r : Rooster} (hno : r.noFrame = h.rooster.noFrame)
    (hloss : r.lossAt = h.rooster.lossAt) (hback : r.backAt = h.rooster.backAt) : h₀.GridFollows { h with rooster := r } :=
  k.trans ⟨rfl, hno, hloss, hback, fun _ _ _ => rfl, id⟩

theorem agesFields_apart {g : Fld} (hg : g ∈ agesFields) : g.lo ≤ g.hi ∧ ∀ j, F.RT_CLK_GRID.apart 0 g j := by
  have hbase : g.lo ≤ g.hi ∧ F.RT_CLK_GRID.base < g.base := by
    revert g
    decide
  refine ⟨hbase.1, fun j => Or.inl (ne_of_lt ?_)⟩
  exact lt_of_lt_of_le hbase.2 (Nat.le_add_right _ _)

theorem Hub.GridFollows.setFld (k : h₀.GridFollows h) {g : Fld} {j v : Nat} (hg : g ∈ agesFields) :
    h₀.GridFollows (h.setFld g j v) := by
  obtain ⟨hle, happ⟩ := agesFields_apart hg
  have hoff (f : Fld) (i : Nat) (hf : f.offGrid i) : (h.setFld g j v).fld f i = h.fld f i :=
    Hub.fld_setFld_apart _ _ hle (hf g (List.mem_cons_of_mem _ hg) j)
  refine k.trans ⟨h.setFld_lanes _ _ _, ?_, ?_, ?_, hoff, fun hgrid => ?_⟩
  · rw [Hub.setFld_rooster]
  · rw [Hub.setFld_rooster]
  · rw [Hub.setFld_rooster]
  · rwa [Hub.flag, Hub.fld_setFld_apart _ _ hle (happ j)]

theorem Hub.GridFollows.placed (k : h₀.GridFollows h) : h₀.GridFollows (h.setFld F.RT_CLK_GRID 0 1) := by
  have hoff (f : Fld) (i : Nat) (hf : f.offGrid i) : (h.setFld F.RT_CLK_GRID 0 1).fld f i = h.fld f i :=
    Hub.fld_setFld_apart _ _ (by decide) (hf _ List.mem_cons_self 0)
  refine k.trans ⟨h.setFld_lanes _ _ _, ?_, ?_, ?_, hoff, fun _ => ?_⟩
  · rw [Hub.setFld_rooster]
  · rw [Hub.setFld_rooster]
  · rw [Hub.setFld_rooster]
  · rw [Hub.flag, Hub.fld_setFld_same _ _ _ _ (by decide) (by decide)]
    rfl

theorem Hub.GridFollows.setTheta (k : h₀.GridFollows h) (t : Int) : h₀.GridFollows (h.setTheta t) :=
  (k.setRooster (r := { h.rooster with theta := clamp (-(0x800000 * 125)) (0x7FFFFF * 125) t }) rfl rfl rfl).setFld (by decide)

theorem Hub.GridFollows.stepGrid (k : h₀.GridFollows h) (t : Int) : h₀.GridFollows (h.stepGrid t) :=
  ((k.setRooster (r := { h.rooster with moved := h.rooster.moved + t }) rfl rfl rfl).placed).setTheta 0

theorem Hub.GridFollows.drivesGrid (k : h₀.GridFollows h) (l : Nat) : h₀.GridFollows (h.drivesGrid l) :=
  .ite k (.ite (k.setTheta _) (k.stepGrid _))

theorem Hub.GridFollows.refreshAges (k : h₀.GridFollows h) : h₀.GridFollows h.refreshAges := by
  unfold Hub.refreshAges
  dsimp only
  generalize hv : each (List.filter _ (upto 24)) h _ = hvalid
  have kv : h₀.GridFollows hvalid := hv ▸ each_induction _ k fun l x kx => kx.setFld (by decide)
  generalize ht : each (List.filter _ (upto 24)) hvalid _ = htiming
  have kt : h₀.GridFollows htiming := ht ▸ each_induction _ kv fun l x kx => kx.setFld (by decide)
  generalize ha : Hub.setFld _ F.RT_AGE_FWD_AGE 0 _ = hage
  have ka : h₀.GridFollows hage := ha ▸ ((kt.setFld (by decide)).setFld (by decide)).setFld (by decide)
  split
  · exact ka
  next l _ =>
    generalize hl : (if hage.onCrystal = true then hage else _) = hleft
    have kl : h₀.GridFollows hleft := hl ▸ .ite ka (ka.setRooster rfl rfl rfl)
    exact .ite kl (kl.drivesGrid l)

end

end Sys2Proof.Machine
end

section
/-! SUPPORT. The averages of a lane, entry to holdover and its end (R46-R53). -/

namespace Sys2Proof.Machine

variable (h : Hub)

/-! ### Averages (R46) -/

theorem satU_lt (w : Nat) (x : Int) : satU w x < 2 ^ w := by
  have hpos : 0 < 2 ^ w := by positivity
  unfold satU clamp
  split_ifs <;> omega

/-- The round trip of a lane as its echoes give it. -/
def Hub.rttOf (h : Hub) (l : Nat) : Int := roundDiv (h.lane l).avgRtt (h.lane l).avgN

theorem Hub.laneAverages_rooster (l : Nat) : (h.laneAverages l).rooster = h.rooster := by
  unfold Hub.laneAverages
  dsimp only
  split
  · rfl
  · rw [Hub.setLane_rooster, Hub.setFld_rooster, Hub.setFld_rooster]

/-- Averages change, of the registers, the round trip and the delay of their lane. -/
theorem Hub.laneAverages_fld (l : Nat) {f : Fld} {i : Nat} (hr : f.apart i F.RT_RTT_RTT l) (hd : f.apart i F.RT_LANE_D l) :
    (h.laneAverages l).fld f i = h.fld f i := by
  unfold Hub.laneAverages
  dsimp only
  split
  · rfl
  · rw [Hub.fld_congr (Hub.word_of_regs (Hub.setLane_regs _ _ _) _), Hub.fld_setFld_apart _ _ (by decide) hd,
      Hub.fld_setFld_apart _ _ (by decide) hr]

/-- The average of a PARENT lane that has had echoes: its round trip, its delay, and the next average begins. -/
theorem Hub.laneAverages_spec (l : Nat) (hrole : h.role l = roleParent) (hn : (h.lane l).avgN ≠ 0) :
    let h' := h.laneAverages l
    h'.fld F.RT_RTT_RTT l = satU 24 (h.rttOf l) ∧ h'.fld F.RT_LANE_D l = satU 24 (h.oneWay l (h.rttOf l)) ∧
      (h'.lane l).avgN = 0 := by
  have hgo : ¬ (decide (h.role l ≠ roleParent) || decide ((h.lane l).avgN = 0)) = true := by simp [hrole, hn]
  unfold Hub.laneAverages
  dsimp only
  rw [if_neg hgo]
  have hapart : F.RT_RTT_RTT.apart l F.RT_LANE_D l := Or.inl (by simp only [Fld.addr]; omega)
  refine ⟨?_, ?_, ?_⟩
  · rw [Hub.fld_congr (Hub.word_of_regs (Hub.setLane_regs _ _ _) _), Hub.fld_setFld_apart _ _ (by decide) hapart,
      Hub.fld_setFld_same _ _ _ _ (by decide) (by decide)]
    exact Nat.mod_eq_of_lt (satU_lt 24 _)
  · rw [Hub.fld_congr (Hub.word_of_regs (Hub.setLane_regs _ _ _) _), Hub.fld_setFld_same _ _ _ _ (by decide) (by decide)]
    exact Nat.mod_eq_of_lt (satU_lt 24 _)
  · rw [Hub.setLane_lane]

/-- An item of the Rooster for Q30 (R606). -/
theorem Hub.healthItem_keeps (kind lane claim dur : Nat) (theta : W32) (port ambig : Bool) :
    h.Keeps belowQueues (h.healthItem kind lane claim dur theta port ambig) :=
  ⟨.localItem (.refl h) _, fun _ ha => h.word_localItem_belowQueues ha _⟩

theorem Hub.lane_congr {h h' : Hub} (hl : h'.lanes = h.lanes) (l : Nat) : h'.lane l = h.lane l := by
  rw [Hub.lane, Hub.lane, hl]

theorem Hub.masterHealth_keeps (l : Nat) (theta : Int) :
    (h.masterHealth l theta).lanes = h.lanes ∧ ∀ a, belowQueues a → (h.masterHealth l theta).word a = h.word a := by
  unfold Hub.masterHealth
  split
  · have k := h.healthItem_keeps 2 l h.rooster.claim.toNat 0 (BitVec.ofInt 32 theta) (h.portInForce == 1) false
    exact ⟨k.lanes, k.word⟩
  · exact ⟨rfl, fun _ _ => rfl⟩

theorem Hub.thetaAverage_of_echoes (l : Nat) (hrole : h.role l = roleParent) (hn : (h.lane l).avgN ≠ 0) :
    ∃ h' : Hub, (h.laneAverages l).GridFollows h' ∧ (h.thetaAverage l).lanes = h'.lanes ∧
      ∀ a, belowQueues a → (h.thetaAverage l).word a = h'.word a := by
  have hgo : ¬ (decide (h.role l ≠ roleParent) || decide ((h.lane l).avgN = 0)) = true := by simp [hrole, hn]
  have ka : (h.laneAverages l).GridFollows (h.laneAverages l).refreshAges := .refreshAges (.refl _)
  unfold Hub.thetaAverage
  dsimp only
  rw [if_neg hgo]
  split
  · exact ⟨_, ka.drivesGrid l, Hub.masterHealth_keeps _ _ _⟩
  · exact ⟨_, ka, rfl, fun _ _ => rfl⟩

/-- The delay of a lane and its round trip share no bit with what follows from the timing lane. -/
theorem offGrid_delay (l : Nat) : F.RT_LANE_D.offGrid l ∧ F.RT_RTT_RTT.offGrid l := by
  refine ⟨Fld.offGrid_of_clear ?_, Fld.offGrid_of_clear ?_⟩ <;> simp [agesFields, Fld.clearOf, Fld.addr] <;> omega

theorem Hub.thetaAverage_spec (l : Fin 24) (hrole : h.role l = roleParent) (hn : (h.lane l).avgN ≠ 0) :
    let h' := h.thetaAverage l
    h'.fld F.RT_RTT_RTT l = satU 24 (h.rttOf l) ∧ (h'.lane l).avgN = 0 ∧
      h'.fld F.RT_LANE_D l = satU 24 (h.oneWay l (h.rttOf l)) := by
  have hl := l.isLt
  obtain ⟨hrtt, hd, havg⟩ := h.laneAverages_spec l hrole hn
  obtain ⟨h₁, kg, hlanes, hword⟩ := h.thetaAverage_of_echoes l hrole hn
  obtain ⟨hoffD, hoffR⟩ := offGrid_delay l
  refine ⟨?_, ?_, ?_⟩
  · rw [Hub.fld_congr (hword _ ⟨by simp only [Fld.addr]; omega, by simp only [Fld.addr]; omega⟩), kg.fld _ _ hoffR, hrtt]
  · rw [Hub.lane_congr (hlanes.trans kg.lanes), havg]
  · rw [Hub.fld_congr (hword _ ⟨by simp only [Fld.addr]; omega, by simp only [Fld.addr]; omega⟩), kg.fld _ _ hoffD, hd]

/-- Without echoes, or for a lane that is no PARENT, nothing is averaged. -/
theorem Hub.thetaAverage_none (l : Nat) (hnot : h.role l ≠ roleParent ∨ (h.lane l).avgN = 0) : h.thetaAverage l = h := by
  rw [Hub.thetaAverage, if_pos (by simpa using hnot)]

/-! ### Entry to holdover (R51) -/

/-- The hub as it enters holdover, before it asks whether time is lost. -/
def Hub.inHoldover (h : Hub) : Hub :=
  let h := (h.setFld F.RT_CLK_HOLDOVER 0 1).attn aTime
  { h with rooster := { h.rooster with backAt := none } }

theorem Hub.holdoverEntry_entered (hno : 2 ≤ h.rooster.noFrame) (hstart : h.pastS04 = true)
    (hnot : h.flag F.RT_CLK_HOLDOVER 0 = false) (hsrc : h.onCrystal = false) :
    h.holdoverEntry = if h.inHoldover.noCrystal then h.inHoldover.timeLost else h.inHoldover := by
  rw [Hub.holdoverEntry, if_pos (by simp [hno, hstart, hnot, hsrc])]
  rfl

theorem Hub.inHoldover_word {a : Nat} (ha : belowQueues a) :
    h.inHoldover.word a = (h.setFld F.RT_CLK_HOLDOVER 0 1).word a :=
  Hub.word_attn_belowQueues _ ha aTime

theorem Hub.attn_of_not_twinLocal (b : Nat) (htwin : h.twinLocal = false) : h.attn b = h.attnNow b := by
  rw [Hub.attn, if_neg (by simp [htwin])]

theorem Hub.inHoldover_sticky (htwin : h.twinLocal = false) : h.inHoldover.sticky aTime := by
  have htwin' : (h.setFld F.RT_CLK_HOLDOVER 0 1).twinLocal = false := by
    rw [Hub.twinLocal, Hub.fld_setFld_apart _ _ (by decide) (by decide), ← Hub.twinLocal, htwin]
  have hset : ((h.setFld F.RT_CLK_HOLDOVER 0 1).attn aTime).sticky aTime := by
    rw [Hub.attn_of_not_twinLocal _ _ htwin']
    exact Hub.sticky_attnNow_self _ (by decide)
  exact hset

/-- The report of lost time, if it comes, is taken, and leaves the Rooster as it is. -/
theorem Hub.settled_holdoverEntry (hno : 2 ≤ h.rooster.noFrame) (hstart : h.pastS04 = true)
    (hnot : h.flag F.RT_CLK_HOLDOVER 0 = false) (hsrc : h.onCrystal = false) :
    h.inHoldover.Keeps pastCodes (h.settled h.holdoverEntry) := by
  have hfound : h.inHoldover.goose.found = h.goose.found := by
    rw [Hub.inHoldover, Hub.attn_goose, Hub.setFld_goose]
  rw [h.holdoverEntry_entered hno hstart hnot hsrc]
  split
  · exact Hub.settled_report_keeps (c := .fatal) hfound rfl (show 8 ∉ _ by decide)
  · rw [Hub.settled_of_found hfound]
    exact .refl _

theorem Hub.settled_holdoverEntry_spec (hno : 2 ≤ h.rooster.noFrame) (hstart : h.pastS04 = true)
    (hnot : h.flag F.RT_CLK_HOLDOVER 0 = false) (hsrc : h.onCrystal = false) :
    let h' := h.settled h.holdoverEntry
    h'.flag F.RT_CLK_HOLDOVER 0 = true ∧ h'.rooster.backAt = none ∧ (h.twinLocal = false → h'.sticky aTime) ∧ h'.slot = h.slot ∧
      h'.fld F.RT_TIME_NS_NS 0 = h.fld F.RT_TIME_NS_NS 0 := by
  have k := h.settled_holdoverEntry hno hstart hnot hsrc
  have hkept {f : Fld} (hf : pastCodes (f.addr 0)) :
      (h.settled h.holdoverEntry).fld f 0 = (h.setFld F.RT_CLK_HOLDOVER 0 1).fld f 0 :=
    (k.fld hf).trans (Hub.fld_congr (h.inHoldover_word ⟨by omega, hf.2⟩))
  refine ⟨?_, ?_, fun htwin => k.sticky _ (h.inHoldover_sticky htwin), ?_, ?_⟩
  · rw [Hub.flag, hkept (by decide), Hub.fld_setFld_same _ _ _ _ (by decide) (by decide)]
    rfl
  · rw [k.rooster, Hub.inHoldover]
  · rw [Hub.slot, hkept (by decide), hkept (by decide), ← Hub.slot, Hub.slot_setFld _ (by decide) (by decide)]
  · rw [hkept (by decide), Hub.fld_setFld_apart _ _ (by decide) (by decide)]

end Sys2Proof.Machine
end

section
/-! SUPPORT. The end of holdover (R50, R52, R53), and the statement on averages and holdover. -/

namespace Sys2Proof.Machine

variable (h : Hub)

/-! ### The grid error that RT_OFFSET shows (R50) -/

theorem satS_range (w : Nat) (x : Int) : -((2 ^ (w - 1) : Nat) : Int) ≤ satS w x ∧ satS w x < ((2 ^ (w - 1) : Nat) : Int) := by
  have hpos : 0 < 2 ^ (w - 1) := by positivity
  unfold satS clamp
  split_ifs <;> omega

/-- A value that a signed field of 24 bits can hold is read back. -/
theorem signed_field (x : Int) (hlo : -((2 ^ 23 : Nat) : Int) ≤ x) (hhi : x < ((2 ^ 23 : Nat) : Int)) :
    signed 24 (field 24 x % 2 ^ 24) = x := by
  unfold signed field
  norm_num at *
  split_ifs <;> omega

theorem roundDiv_125 (t : Int) : roundDiv t 125 = if t < 0 then -((125 - 2 * t) / 250) else (2 * t + 125) / 250 := by
  unfold roundDiv
  dsimp only
  split_ifs <;> omega

/-- Saturation of a grid error in 2^-10 ns / 125 and of its rounded value agree. -/
theorem roundDiv_clamp (t : Int) : roundDiv (clamp (-(0x800000 * 125)) (0x7FFFFF * 125) t) 125 = satS 24 (roundDiv t 125) := by
  have hlow : roundDiv (-(0x800000 * 125)) 125 = -0x800000 := by decide
  have hhigh : roundDiv (0x7FFFFF * 125) 125 = 0x7FFFFF := by decide
  have hsat (x : Int) : satS 24 x = if x < -0x800000 then -0x800000 else if 0x7FFFFF < x then 0x7FFFFF else x := rfl
  have hround := roundDiv_125 t
  rw [hsat, clamp]
  split_ifs at hround ⊢ <;> omega

theorem Hub.setTheta_offset (t : Int) : (h.setTheta t).sfld F.RT_OFFSET_THETA 0 = satS 24 (roundDiv t 125) := by
  obtain ⟨hlo, hhi⟩ := satS_range 24 (roundDiv t 125)
  rw [Hub.setTheta, Hub.sfld, Hub.setS, Hub.fld_setFld_same _ _ _ _ (by decide) (by decide), roundDiv_clamp]
  exact signed_field _ hlo hhi

theorem Hub.drivesGrid_slews (l : Nat) (hsrc : h.onCrystal = false) (hhold : h.flag F.RT_CLK_HOLDOVER 0 = false)
    (hstart : h.pastS03 = true) (hgrid : h.flag F.RT_CLK_GRID 0 = true) : h.drivesGrid l = h.setTheta (h.thetaOf l) := by
  simp [Hub.drivesGrid, hsrc, hhold, hstart, hgrid]

/-! ### What the registers show (R52, R53) -/

/-- The length and the error of a holdover. -/
def Hub.withHoldover (h : Hub) (dur : Nat) (theta : Int) : Hub :=
  (h.setFld F.RT_HOLDDUR_V 0 (min 0xFFFFFFFF dur)).setWord A.RT_HOLDERR (BitVec.ofInt 32 theta)

/-- The registers of the Rooster as a holdover of `dur` slots ends with a grid error. -/
def Hub.holdoverShown (h : Hub) (dur : Nat) (theta : Int) : Hub :=
  let h := h.withHoldover dur theta
  (if 7600000 < dur then h.setFld F.RT_CLK_AMBIG 0 1 else h).setFld F.RT_CLK_HOLDOVER 0 0

/-- The hub once the HEALTH item of that holdover is made, and framing is watched anew. -/
def Hub.holdoverTold (h : Hub) (l dur : Nat) (theta : Int) : Hub :=
  let h := h.healthItem 1 l 0 (min 0xFFFFFFFF dur) (BitVec.ofInt 32 theta) false (h.flag F.RT_CLK_AMBIG 0)
  { h with rooster := { h.rooster with backAt := none, noFrame := 0 } }

/-- The hub with the averages of a lane, and what follows from them. -/
def Hub.averaged (h : Hub) (l : Nat) : Hub := (h.laneAverages l).refreshAges

theorem Hub.holdoverEnd_eq {l : Nat} {back : W48} (hback : h.rooster.backAt = some back) (hlane : h.timingLane = some l)
    (hhold : h.flag F.RT_CLK_HOLDOVER 0 = true) (hknown : (h.averaged l).timingLane = some l)
    (hfresh : ((h.averaged l).lane l).fresh = true) :
    h.holdoverEnd =
      let theta := roundDiv ((h.averaged l).thetaOf l) 125
      let dur := slotsFrom (h.averaged l).rooster.lossAt back
      (((h.averaged l).holdoverShown dur theta).holdoverTold l dur theta).drivesGrid l := by
  unfold Hub.averaged at hknown hfresh
  unfold Hub.holdoverEnd
  rw [hback, hlane]
  simp only [hhold, hknown, hfresh, decide_true, Bool.and_self, if_true]
  rfl

theorem Hub.holdoverShown_rooster (dur : Nat) (theta : Int) : (h.holdoverShown dur theta).rooster = h.rooster := by
  simp only [Hub.holdoverShown, Hub.withHoldover, Hub.setFld_rooster, apply_ite Hub.rooster, Hub.setWord_rooster, ite_self]

theorem Hub.holdoverShown_lanes (dur : Nat) (theta : Int) : (h.holdoverShown dur theta).lanes = h.lanes := by
  simp only [Hub.holdoverShown, Hub.withHoldover, Hub.setFld_lanes, apply_ite Hub.lanes, Hub.setWord_lanes, ite_self]

theorem Hub.withHoldover_fld (dur : Nat) (theta : Int) {f : Fld} {i : Nat} (hd : f.addr i ≠ A.RT_HOLDDUR)
    (he : f.addr i ≠ A.RT_HOLDERR) : (h.withHoldover dur theta).fld f i = h.fld f i := by
  refine Hub.fld_congr ?_
  rw [Hub.withHoldover, Hub.setWord_word, if_neg he, Hub.word_setFld_other _ _ _ _ hd]

theorem Hub.holdoverShown_word (dur : Nat) (theta : Int) {a : Nat} (ha : a ≠ A.RT_CLK) :
    (h.holdoverShown dur theta).word a = (h.withHoldover dur theta).word a := by
  rw [Hub.holdoverShown, Hub.word_setFld_other _ _ _ _ ha]
  split
  · exact Hub.word_setFld_other _ _ _ _ ha
  · rfl

theorem Hub.holdoverShown_fld (dur : Nat) (theta : Int) {f : Fld} {i : Nat} (hd : f.addr i ≠ A.RT_HOLDDUR)
    (he : f.addr i ≠ A.RT_HOLDERR) (hh : f.apart i F.RT_CLK_HOLDOVER 0) (ha : f.apart i F.RT_CLK_AMBIG 0) :
    (h.holdoverShown dur theta).fld f i = h.fld f i := by
  rw [Hub.holdoverShown, Hub.fld_setFld_apart _ _ (by decide) hh, ← h.withHoldover_fld dur theta hd he]
  split
  · exact Hub.fld_setFld_apart _ _ (by decide) ha
  · rfl

/-- What is shown of a holdover that has ended. -/
theorem Hub.holdoverShown_spec (dur : Nat) (theta : Int) :
    let h' := h.holdoverShown dur theta
    h'.flag F.RT_CLK_HOLDOVER 0 = false ∧ h'.fld F.RT_HOLDDUR_V 0 = min 0xFFFFFFFF dur ∧
      h'.word A.RT_HOLDERR = BitVec.ofInt 32 theta ∧ (7600000 < dur → h'.flag F.RT_CLK_AMBIG 0 = true) ∧
      (dur ≤ 7600000 → h'.flag F.RT_CLK_AMBIG 0 = h.flag F.RT_CLK_AMBIG 0) := by
  refine ⟨?_, ?_, ?_, fun hlong => ?_, fun hshort => ?_⟩
  · rw [Hub.holdoverShown, Hub.flag, Hub.fld_setFld_same _ _ _ _ (by decide) (by decide)]
    rfl
  · rw [Hub.fld_congr (h.holdoverShown_word dur theta (by decide)), Hub.withHoldover]
    rw [Hub.fld_congr (h := h.setFld F.RT_HOLDDUR_V 0 (min 0xFFFFFFFF dur))
      (by rw [Hub.setWord_word, if_neg (by decide)]), Hub.fld_setFld_same _ _ _ _ (by decide) (by decide)]
    exact Nat.mod_eq_of_lt (by simp only [Fld.width]; omega)
  · rw [h.holdoverShown_word dur theta (by decide), Hub.withHoldover, Hub.setWord_word, if_pos rfl]
  · rw [Hub.holdoverShown, Hub.flag, Hub.fld_setFld_apart _ _ (by decide) (by decide), if_pos hlong,
      Hub.fld_setFld_same _ _ _ _ (by decide) (by decide)]
    rfl
  · rw [Hub.holdoverShown, Hub.flag, Hub.fld_setFld_apart _ _ (by decide) (by decide), if_neg (by omega),
      h.withHoldover_fld dur theta (by decide) (by decide), ← Hub.flag]

/-- The HEALTH item leaves what is shown, and what the grid goes on from. -/
theorem Hub.holdoverTold_spec (l dur : Nat) (theta : Int) :
    let h' := h.holdoverTold l dur theta
    (∀ a, belowQueues a → h'.word a = h.word a) ∧ h'.lanes = h.lanes ∧ h'.rooster.moved = h.rooster.moved ∧
      h'.rooster.noFrame = 0 := by
  have k := h.healthItem_keeps 1 l 0 (min 0xFFFFFFFF dur) (BitVec.ofInt 32 theta) false (h.flag F.RT_CLK_AMBIG 0)
  have hmoved := congrArg Rooster.moved k.rooster
  exact ⟨k.word, k.lanes, hmoved, rfl⟩

/-! ### The end of holdover (R52, R53) -/

/-- Averages and what follows from them leave the registers that the end of holdover goes by. -/
theorem Hub.averaged_fld (l : Nat) {f : Fld} (hoff : f.offGrid 0) (hbelow : f.addr 0 < 0x1040) :
    (h.averaged l).fld f 0 = h.fld f 0 := by
  have ka : (h.laneAverages l).GridFollows (h.averaged l) := .refreshAges (.refl _)
  refine (ka.fld f 0 hoff).trans (h.laneAverages_fld l (Or.inl ?_) (Or.inl ?_)) <;> simp only [Fld.addr] at hbelow ⊢ <;> omega

theorem Hub.averaged_grid (l : Nat) (hgrid : h.flag F.RT_CLK_GRID 0 = true) : (h.averaged l).flag F.RT_CLK_GRID 0 = true := by
  have ka : (h.laneAverages l).GridFollows (h.averaged l) := .refreshAges (.refl _)
  refine ka.grid ?_
  rw [Hub.flag, h.laneAverages_fld l (Or.inl _) (Or.inl _), ← Hub.flag, hgrid] <;> simp only [Fld.addr] <;> omega

theorem Hub.averaged_lossAt (l : Nat) : (h.averaged l).rooster.lossAt = h.rooster.lossAt := by
  have ka : (h.laneAverages l).GridFollows (h.averaged l) := .refreshAges (.refl _)
  rw [ka.lossAt, Hub.laneAverages_rooster]

/-- A word is its field of 32 bits. -/
theorem Hub.word_of_fld {h h' : Hub} {f : Fld} {i : Nat} (hlo : f.lo = 0) (hhi : f.hi = 31) (hf : h'.fld f i = h.fld f i) :
    h'.word (f.addr i) = h.word (f.addr i) := by
  apply BitVec.eq_of_toNat_eq
  have hlt := (h.word (f.addr i)).isLt
  have hlt' := (h'.word (f.addr i)).isLt
  simp only [Hub.fld, Fld.get, bits, hlo, hhi] at hf
  omega

section
variable {h : Hub} {l : Nat} {back : W48} (hback : h.rooster.backAt = some back) (hlane : h.timingLane = some l)
  (hhold : h.flag F.RT_CLK_HOLDOVER 0 = true) (hknown : (h.averaged l).timingLane = some l)
  (hfresh : ((h.averaged l).lane l).fresh = true)
include hback hlane hhold hknown hfresh

/-- The end of holdover moves the grid from a hub whose registers show the holdover. -/
theorem Hub.holdoverEnd_shown :
    let theta := roundDiv ((h.averaged l).thetaOf l) 125
    let dur := slotsFrom h.rooster.lossAt back
    ∃ told : Hub, h.holdoverEnd = told.drivesGrid l ∧ told.thetaOf l = (h.averaged l).thetaOf l ∧ told.rooster.noFrame = 0 ∧
      ∀ f i, belowQueues (f.addr i) → told.fld f i = ((h.averaged l).holdoverShown dur theta).fld f i := by
  rw [Hub.holdoverEnd_eq h hback hlane hhold hknown hfresh, Hub.averaged_lossAt]
  dsimp only
  generalize hx : (h.averaged l).holdoverShown _ _ = x
  have hlanes : x.lanes = (h.averaged l).lanes := hx ▸ Hub.holdoverShown_lanes _ _ _
  have hroo : x.rooster = (h.averaged l).rooster := hx ▸ Hub.holdoverShown_rooster _ _ _
  obtain ⟨hword, hlanes', hmoved, hno⟩ := x.holdoverTold_spec l (slotsFrom h.rooster.lossAt back)
    (roundDiv ((h.averaged l).thetaOf l) 125)
  refine ⟨_, rfl, ?_, hno, fun f i hf => Hub.fld_congr (hword _ hf)⟩
  rw [Hub.thetaOf, Hub.lane_congr (hlanes'.trans hlanes), hmoved, hroo, ← Hub.thetaOf]

theorem Hub.holdoverEnd_spec :
    let theta := roundDiv ((h.averaged l).thetaOf l) 125
    let dur := slotsFrom h.rooster.lossAt back
    let h' := h.holdoverEnd
    h'.flag F.RT_CLK_HOLDOVER 0 = false ∧ h'.fld F.RT_HOLDDUR_V 0 = min 0xFFFFFFFF dur ∧
      h'.word A.RT_HOLDERR = BitVec.ofInt 32 theta ∧ (7600000 < dur → h'.flag F.RT_CLK_AMBIG 0 = true) ∧
      (dur ≤ 7600000 → h'.flag F.RT_CLK_AMBIG 0 = h.flag F.RT_CLK_AMBIG 0) ∧ h'.rooster.noFrame = 0 := by
  obtain ⟨told, hend, -, hno, hfld⟩ := Hub.holdoverEnd_shown hback hlane hhold hknown hfresh
  dsimp only
  generalize hth : roundDiv ((h.averaged l).thetaOf l) 125 = theta at hfld ⊢
  generalize hdu : slotsFrom h.rooster.lossAt back = dur at hfld ⊢
  obtain ⟨hover, hdur, herr, hlong, hshort⟩ := (h.averaged l).holdoverShown_spec dur theta
  have kg : told.GridFollows (told.drivesGrid l) := .drivesGrid (.refl _) l
  have hkept {f : Fld} (hoff : ∀ g ∈ F.RT_CLK_GRID :: agesFields, f.clearOf (f.addr 0) g = true) (hb : belowQueues (f.addr 0)) :
      (told.drivesGrid l).fld f 0 = ((h.averaged l).holdoverShown dur theta).fld f 0 :=
    (kg.fld f 0 (Fld.offGrid_of_clear hoff)).trans (hfld f 0 hb)
  have hambig : (told.drivesGrid l).flag F.RT_CLK_AMBIG 0 = ((h.averaged l).holdoverShown dur theta).flag F.RT_CLK_AMBIG 0 := by
    rw [Hub.flag, hkept (by decide) ⟨by decide, by decide⟩, ← Hub.flag]
  rw [hend]
  refine ⟨?_, ?_, ?_, fun hd => hambig.trans (hlong hd), fun hd => ?_, kg.noFrame.trans hno⟩
  · rw [Hub.flag, hkept (by decide) ⟨by decide, by decide⟩, ← Hub.flag, hover]
  · rw [hkept (by decide) ⟨by decide, by decide⟩, hdur]
  · exact (Hub.word_of_fld (f := F.RT_HOLDERR_V) (i := 0) rfl rfl (hkept (by decide) ⟨by decide, by decide⟩)).trans herr
  · rw [hambig, hshort hd, Hub.flag, h.averaged_fld l (Fld.offGrid_of_clear (by decide)) (by decide), ← Hub.flag]

/-- On the recovered clock the grid is slewed from the error that ended the holdover (R50). -/
theorem Hub.holdoverEnd_offset (hsrc : h.onCrystal = false) (hstart : h.pastS03 = true) (hgrid : h.flag F.RT_CLK_GRID 0 = true) :
    h.holdoverEnd.sfld F.RT_OFFSET_THETA 0 = satS 24 (roundDiv ((h.averaged l).thetaOf l) 125) := by
  obtain ⟨told, hend, htheta, -, hfld⟩ := Hub.holdoverEnd_shown hback hlane hhold hknown hfresh
  generalize hth : roundDiv ((h.averaged l).thetaOf l) 125 = theta at hfld
  obtain ⟨hover, -⟩ := (h.averaged l).holdoverShown_spec (slotsFrom h.rooster.lossAt back) theta
  have htold {f : Fld} (hb : belowQueues (f.addr 0)) (hd : f.addr 0 ≠ A.RT_HOLDDUR) (he : f.addr 0 ≠ A.RT_HOLDERR)
      (hh : f.apart 0 F.RT_CLK_HOLDOVER 0) (ha : f.apart 0 F.RT_CLK_AMBIG 0) : told.fld f 0 = (h.averaged l).fld f 0 :=
    (hfld f 0 hb).trans (Hub.holdoverShown_fld _ _ _ hd he hh ha)
  have hsame {f : Fld} (hoff : ∀ g ∈ F.RT_CLK_GRID :: agesFields, f.clearOf (f.addr 0) g = true) (hbelow : f.addr 0 < 0x1040) :
      (h.averaged l).fld f 0 = h.fld f 0 := h.averaged_fld l (Fld.offGrid_of_clear hoff) hbelow
  have hsrc' : told.onCrystal = false := by
    rw [Hub.onCrystal, htold ⟨by decide, by decide⟩ (by decide) (by decide) (by decide) (by decide),
      hsame (by decide) (by decide), ← Hub.onCrystal, hsrc]
  have hstart' : told.pastS03 = true := by
    rw [Hub.pastS03, Hub.flag, htold ⟨by decide, by decide⟩ (by decide) (by decide) (by decide) (by decide),
      htold ⟨by decide, by decide⟩ (by decide) (by decide) (by decide) (by decide), hsame (by decide) (by decide),
      hsame (by decide) (by decide), ← Hub.flag, ← Hub.pastS03, hstart]
  have hgrid' : told.flag F.RT_CLK_GRID 0 = true := by
    rw [Hub.flag, htold ⟨by decide, by decide⟩ (by decide) (by decide) (by decide) (by decide), ← Hub.flag,
      h.averaged_grid l hgrid]
  have hover' : told.flag F.RT_CLK_HOLDOVER 0 = false := by
    rw [Hub.flag, hfld _ _ ⟨by decide, by decide⟩, ← Hub.flag, hover]
  rw [hend, told.drivesGrid_slews l hsrc' hover' hstart' hgrid', Hub.setTheta_offset, htheta, hth]

end

/-- Settles O13: the averages of a lane, the entry to holdover, and its end. -/
theorem averagesAndHoldover : Obligations.AveragesAndHoldover := by
  unfold Obligations.AveragesAndHoldover
  refine ⟨fun s l port hrole hport hn => ⟨_, rfl, ?_⟩, fun s l port n hnot => ⟨_, rfl, ?_⟩,
    fun s hno hstart hnot hsrc => ⟨_, rfl, s.hub.settled_holdoverEntry_spec hno hstart hnot hsrc⟩, ?_⟩
  · rw [if_pos (by simp [hport])]
    exact s.hub.thetaAverage_spec l hrole hn
  · split
    next hthis =>
      simp only [Bool.and_eq_true, beq_iff_eq] at hthis
      refine s.hub.thetaAverage_none l ?_
      rcases hnot with hr | hp | hn | h0
      · exact Or.inl hr
      · exact absurd hthis.1 hp
      · exact absurd hthis.2 hn
      · exact Or.inr (hthis.2.trans h0)
    next => rfl
  · intro s l port back hback hlane hport hhold known hknown hfresh
    refine ⟨_, rfl, ?_⟩
    rw [if_pos (by simp [hlane, hport])]
    obtain ⟨hover, hdur, herr, hlong, hshort, hno⟩ := Hub.holdoverEnd_spec hback hlane hhold hknown hfresh
    exact ⟨hover, hdur, herr, hlong, hshort, hno, Hub.holdoverEnd_offset hback hlane hhold hknown hfresh⟩

end Sys2Proof.Machine
end

section
/-! SUPPORT. Front ends (R71, R73-R77): settling, leakage, and the crossings that the discriminator counts. -/

namespace Sys2Proof.Machine

variable (h : Hub)

/-! ### Flags and single words -/

/-- A flag reads as it was last set. -/
theorem Hub.flag_setFlag_same {f : Fld} (i : Nat) (b : Bool) (hbit : f.lo = f.hi) (hhi : f.hi < 32) :
    (h.setFlag f i b).flag f i = b := by
  have hwidth : f.width = 1 := by unfold Fld.width; omega
  rw [Hub.flag, Hub.setFlag, h.fld_setFld_same f i _ (by omega) hhi, hwidth]
  cases b <;> rfl

theorem Hub.flag_setFld_apart {f g : Fld} {i j : Nat} (v : Nat) (hg : g.lo ≤ g.hi) (hfg : f.apart i g j) :
    (h.setFld g j v).flag f i = h.flag f i := by
  rw [Hub.flag, h.fld_setFld_apart v hg hfg, ← Hub.flag]

theorem Hub.onlyWords_setFlag (f : Fld) (i : Nat) (b : Bool) : h.onlyWords (h.setFlag f i b) [f.addr i] :=
  ⟨rfl, fun _ ha => h.word_setFlag_other f i b (List.ne_of_not_mem_cons ha)⟩

theorem Hub.onlyWords_bump (f : Fld) (i : Nat) : h.onlyWords (h.bump f i) [f.addr i] := by
  refine ⟨?_, fun _ ha => h.word_bump_other f i (List.ne_of_not_mem_cons ha)⟩
  unfold Hub.bump
  split <;> rfl

/-! ### Settling (R71) -/

/-- TDC_STAT of a channel follows its front end in that word alone (R120). -/
theorem Hub.word_refreshTdc_other (c : Nat) {a : Nat} (ha : a ≠ F.TDC_STAT_ACTIVE.addr c) :
    (h.refreshTdc c).word a = h.word a := by
  have ha' : a ≠ F.TDC_STAT_STBY_AVAIL.addr c := ha
  unfold Hub.refreshTdc
  split
  · rw [Hub.word_setFld_other _ _ _ _ ha', Hub.word_setFld_other _ _ _ _ ha]
  · dsimp only
    rw [Hub.word_setFlag_other _ _ _ _ ha', Hub.word_setFlag_other _ _ _ _ ha]

/-- FE_STAT and TDC_STAT of a channel are different words. -/
theorem feStat_ne_tdcStat (c : Nat) : F.FE_STAT_PWR.addr c ≠ F.TDC_STAT_ACTIVE.addr c := by
  simp only [Fld.addr]
  omega

/-- A front end that has settled is powered, and settles no longer. -/
theorem Hub.settles_spec (c : Nat) :
    let h' := ((h.setFld F.FE_STAT_SETTLING c 0).setFld F.FE_STAT_PWR c 1).refreshTdc c
    h'.flag F.FE_STAT_SETTLING c = false ∧ h'.flag F.FE_STAT_PWR c = true := by
  have hword := ((h.setFld F.FE_STAT_SETTLING c 0).setFld F.FE_STAT_PWR c 1).word_refreshTdc_other c (feStat_ne_tdcStat c)
  constructor
  · refine (Hub.flag_congr (f := F.FE_STAT_SETTLING) hword).trans ?_
    rw [Hub.flag_setFld_apart _ _ (by decide) (Or.inr (Or.inr (by decide)))]
    exact h.flag_setFlag_same c false rfl (by decide)
  · exact (Hub.flag_congr (f := F.FE_STAT_PWR) hword).trans
      ((h.setFld F.FE_STAT_SETTLING c 0).flag_setFlag_same (f := F.FE_STAT_PWR) c true rfl (by decide))

/-! ### Crossings (R75, R77) -/

/-- A register above the ledger that hits of channel `c` do not move: neither of its counters of dead time and pile-up. -/
def offHits (c a : Nat) : Prop := 0x8000 ≤ a ∧ a ≠ F.TDC_DEADCNT_COUNT.addr c ∧ a ≠ F.TDC_PILECNT_COUNT.addr c

theorem offHits_discCnt (c : Nat) : offHits c (F.FE_DISCCNT_COUNT.addr c) := by
  simp only [offHits, Fld.addr]
  omega

/-- The registers of the ledger lie below those of the channels. -/
theorem Hub.word_ledAdd_aboveLedger {a : Nat} (ha : 0x8000 ≤ a) (i n : Nat) (hi : i < 0x80) :
    (h.ledAdd i n).word a = h.word a := by
  have hlo : a ≠ F.LED_LO_V.addr i := by simp only [Fld.addr]; omega
  have hhi : a ≠ F.LED_HI_V.addr i := by simp only [Fld.addr]; omega
  rw [Hub.word_of_regs (h.ledAdd_regs i n), Hub.setLed, Hub.word_setFld_other _ _ _ _ hhi, Hub.word_setFld_other _ _ _ _ hlo]

theorem Hub.word_withHits (l : List Hit) (a : Nat) : ({ h with hits := l } : Hub).word a = h.word a := (rfl)

theorem Hub.word_withDead (l : List (Nat × W48)) (a : Nat) : ({ h with dead := l } : Hub).word a = h.word a := (rfl)

section
variable {c a : Nat} (ha : offHits c a)
include ha

theorem Hub.word_lostCrossing : h.lostCrossing.word a = h.word a := by
  obtain ⟨habove, -, -⟩ := ha
  unfold Hub.lostCrossing
  split
  · simp (disch := decide) only [Hub.word_ledAdd_aboveLedger _ habove]
  · rfl

theorem Hub.word_deadCrossing : (h.deadCrossing c).word a = h.word a := by
  obtain ⟨habove, hdead, hpile⟩ := ha
  unfold Hub.deadCrossing
  split
  · simp (disch := decide) only [Hub.word_withDead, Hub.word_bump_other _ _ _ hpile, Hub.word_bump_other _ _ _ hdead,
      Hub.word_ledAdd_aboveLedger _ habove]
  · rfl

theorem Hub.word_addHit (x : Hit) (hx : x.ch = c) : (h.addHit x).word a = h.word a := by
  subst hx
  obtain ⟨habove, -, hpile⟩ := ha
  have hfirst : (h.ledAdd 0 1).word a = h.word a := h.word_ledAdd_aboveLedger habove 0 1 (by decide)
  have hmore : (((h.ledAdd 0 1).ledAdd 4 1).bump F.TDC_PILECNT_COUNT x.ch).word a = h.word a := by
    rw [Hub.word_bump_other _ _ _ hpile, Hub.word_ledAdd_aboveLedger _ habove _ _ (by decide), hfirst]
  unfold Hub.addHit
  dsimp only
  split
  · split
    · rw [Hub.word_ledAdd_aboveLedger _ habove _ _ (by decide), Hub.word_withHits, Hub.word_ite, hfirst, hmore, ite_self]
    · rw [Hub.word_ledAdd_aboveLedger _ habove _ _ (by decide), Hub.word_withHits, Hub.word_ite, hfirst, hmore, ite_self]
  · split <;> rfl

/-- A crossing that the discriminator passes is lost, dead or a hit, and moves no other register of the channels. -/
theorem Hub.word_rising (coarse fine stby : Nat) : (h.rising c coarse fine stby).word a = h.word a := by
  unfold Hub.rising
  split
  · exact h.word_lostCrossing ha
  · dsimp only
    split_ifs
    · exact h.word_lostCrossing ha
    · exact (Hub.word_deadCrossing _ ha).trans (Hub.word_of_regs (h.setTdc_regs _ _) a)
    · exact (Hub.word_addHit _ ha _ rfl).trans (Hub.word_of_regs rfl a)

end

/-- A step of THRESH counts apart from the registers (R454). -/
theorem Hub.stepCrossing_regs (c : Nat) : (h.stepCrossing c).regs = h.regs := by
  unfold Hub.stepCrossing
  split <;> rfl

theorem Hub.stepCrossing_idle {c : Nat} (hidle : h.calPart (c / 32) ≠ 7) : h.stepCrossing c = h := by
  simp [Hub.stepCrossing, hidle]

/-- A crossing of a powered front end, above its threshold. -/
theorem Hub.discriminator_passes {c : Nat} {charge : Int} (coarse fine stby : Nat) (hpwr : h.flag F.FE_STAT_PWR c = true)
    (hover : h.threshold c < charge) : h.discriminator c coarse fine stby charge =
      let seen := (h.bump F.FE_DISCCNT_COUNT c).stepCrossing c
      if seen.flag F.FE_THR_DISC_EN c then seen.rising c coarse fine stby else seen := by
  simp [Hub.discriminator, hpwr, hover]

theorem Hub.discriminator_counts {c : Nat} {charge : Int} (coarse fine stby : Nat) (hpwr : h.flag F.FE_STAT_PWR c = true)
    (hover : h.threshold c < charge) :
    h.counted (h.discriminator c coarse fine stby charge) F.FE_DISCCNT_COUNT c 1 := by
  refine (h.counted_bump F.FE_DISCCNT_COUNT c (by decide) (by decide)).of_word ?_
  rw [h.discriminator_passes coarse fine stby hpwr hover, Hub.word_ite, Hub.word_rising _ (offHits_discCnt c), ite_self,
    Hub.word_of_regs (Hub.stepCrossing_regs _ c)]

/-- With the discriminator off, a crossing is counted and no more (R77). -/
theorem Hub.discriminator_disabled {c : Nat} {charge : Int} (coarse fine stby : Nat) (hpwr : h.flag F.FE_STAT_PWR c = true)
    (hover : h.threshold c < charge) (hoff : h.flag F.FE_THR_DISC_EN c = false) (hidle : h.calPart (c / 32) ≠ 7) :
    h.discriminator c coarse fine stby charge = h.bump F.FE_DISCCNT_COUNT c := by
  have hword {a : Nat} (ha : a ≠ F.FE_DISCCNT_COUNT.addr c) := h.word_bump_other F.FE_DISCCNT_COUNT c ha
  have hbusy : (h.bump F.FE_DISCCNT_COUNT c).flag F.CAL_STAT_BUSY 0 = h.flag F.CAL_STAT_BUSY 0 :=
    Hub.flag_congr (hword (by simp only [Fld.addr]; omega))
  have hthr : (h.bump F.FE_DISCCNT_COUNT c).flag F.FE_THR_DISC_EN c = false :=
    (Hub.flag_congr (hword (by simp only [Fld.addr]; omega))).trans hoff
  have hpart : (h.bump F.FE_DISCCNT_COUNT c).calPart (c / 32) ≠ 7 := by
    rwa [Hub.calPart, hbusy, Hub.bump_cal, ← Hub.calPart]
  rw [h.discriminator_passes coarse fine stby hpwr hover, Hub.stepCrossing_idle _ hpart]
  simp [hthr]

/-- At or below the threshold, or without power, there is no crossing (R75). -/
theorem Hub.discriminator_silent {c : Nat} {charge : Int} (coarse fine stby : Nat)
    (hnone : h.flag F.FE_STAT_PWR c = false ∨ charge ≤ h.threshold c) : h.discriminator c coarse fine stby charge = h := by
  rw [Hub.discriminator, if_neg]
  rcases hnone with hpwr | hlow
  · simp [hpwr]
  · simp [Int.not_lt.mpr hlow]

/-- Settles O23: settling, leakage, and a crossing above and at or below the threshold. -/
theorem frontEndEvents : Obligations.FrontEndEvents := by
  unfold Obligations.FrontEndEvents
  refine ⟨fun s c hsettling => ⟨_, rfl, ?settled⟩, fun s c leak hheld => ⟨_, rfl, ?leak⟩,
    fun s c coarse fine stby charge hpwr hover =>
      ⟨_, rfl, s.hub.discriminator_counts _ _ _ hpwr hover, fun hoff hidle => ?only⟩,
    fun s c coarse fine stby charge hnone => ⟨_, rfl, s.hub.discriminator_silent _ _ _ hnone⟩⟩
  case settled =>
    rw [if_pos hsettling]
    exact s.hub.settles_spec c
  case leak =>
    rw [Hub.awake_of_not_held _ hheld]
    exact ⟨s.hub.flag_setFlag_same c leak rfl (by decide), s.hub.onlyWords_setFlag _ _ _,
      s.hub.flag_setFld_apart _ (by decide) (Or.inr (Or.inl (by decide)))⟩
  case only =>
    rw [s.hub.discriminator_disabled _ _ _ hpwr hover hoff hidle]
    exact s.hub.onlyWords_bump _ _

end Sys2Proof.Machine
end

section
/-! SUPPORT. Charge injection (R84-R87, R450): when a CAL_PULSE fires, which channels receive a step, and the pulses of the
calibration engine. -/

namespace Sys2Proof.Machine

variable (h : Hub)

/-! ### The steps that are injected (R84-R86) -/

theorem Hub.flag_eq_true_iff {f : Fld} {i : Nat} (hbit : f.width = 1) : h.flag f i = true ↔ h.fld f i = 1 := by
  have hlt := h.fld_lt f i
  rw [hbit] at hlt
  rw [Hub.flag, bne_iff_ne]
  omega

/-- The step that a CAL_PULSE injects into a channel. -/
def Hub.injectOf (h : Hub) (c : Nat) : Inject :=
  { ch := c, charge := injectCharge (h.fld F.FE_INJ_CODE c), pol := h.flag F.FE_CFG_POL c,
    arrives := 1024 + 25 * h.fld F.FE_INJCFG_DELAY 0 }

/-- A channel that a CAL_PULSE reaches. -/
def Hub.injectsInto (h : Hub) (c : Nat) : Prop :=
  c < 512 ∧ h.fld F.FE_STAT_PWR c = 1 ∧ h.fld F.FE_INJ_INJ_EN c = 1 ∧ h.fld F.FE_INJ_CODE c ≠ 0

theorem Hub.mem_injects {x : Inject} : x ∈ h.injects ↔ h.injectsInto x.ch ∧ x = h.injectOf x.ch := by
  have hpwr (c : Nat) := h.flag_eq_true_iff (f := F.FE_STAT_PWR) (i := c) rfl
  have hen (c : Nat) := h.flag_eq_true_iff (f := F.FE_INJ_INJ_EN) (i := c) rfl
  simp only [Hub.injects, List.mem_map, List.mem_filter, upto, List.mem_range, Bool.and_eq_true, hpwr, hen, bne_iff_ne]
  constructor
  · rintro ⟨c, ⟨hc, ⟨hp, he⟩, hcode⟩, rfl⟩
    exact ⟨⟨hc, hp, he, hcode⟩, rfl⟩
  · rintro ⟨⟨hc, hp, he, hcode⟩, hx⟩
    exact ⟨x.ch, ⟨hc, ⟨hp, he⟩, hcode⟩, hx.symm⟩

/-- No channel receives two steps of one pulse. -/
theorem Hub.injects_nodup : (h.injects.map fun x => x.ch).Nodup := by
  rw [Hub.injects, List.map_map]
  change (List.map id _).Nodup
  rw [List.map_id]
  exact List.nodup_range.filter _

theorem injectCharge_range (code : Nat) : 8 ≤ injectCharge code ∧ injectCharge code ≤ 1000 := by
  unfold injectCharge
  omega

theorem injectCharge_cases (code : Nat) : (code ≤ 7 → injectCharge code = 8) ∧
    (8 ≤ code → code ≤ 1000 → injectCharge code = code) ∧ (1001 ≤ code → injectCharge code = 1000) := by
  unfold injectCharge
  omega

/-! ### When a CAL_PULSE fires (R87, R450) -/

/-- The last CAL_PULSE that fired lies less than 80 slots back. -/
def Hub.tooSoon (h : Hub) : Bool := h.rooster.lastCal.any fun q => decide (slotsFrom q h.slot < 80)

theorem Hub.tooSoon_iff : h.tooSoon = true ↔ ∃ q, h.rooster.lastCal = some q ∧ slotsFrom q h.slot < 80 := by
  simp [Hub.tooSoon, Option.any_eq_true]

theorem Hub.tooSoon_eq_false_iff : h.tooSoon = false ↔ ¬ ∃ q, h.rooster.lastCal = some q ∧ slotsFrom q h.slot < 80 := by
  rw [← h.tooSoon_iff, Bool.not_eq_true]

/-- The hub once a pulse has injected its steps. -/
def Hub.fired (h : Hub) (steps : List Inject) : Hub :=
  { h with rooster := { h.rooster with lastCal := some h.slot, injected := steps } }

theorem Hub.fired_injected (steps : List Inject) : (h.fired steps).rooster.injected = steps := (rfl)

/-- The count of a pulse that comes too soon. -/
def Hub.soonCounted (h : Hub) : Hub := if h.tooSoon then h.bump F.FE_INJSKIP_COUNT 0 else h

theorem Hub.calPulse_eq : h.calPulse =
    if h.injecting then h.soonCounted.bump F.CAL_FCSKIP_COUNT 0 else if h.tooSoon then h.soonCounted else h.fired h.injects := by
  cases hlast : h.rooster.lastCal with
  | none =>
    rw [Hub.soonCounted, Hub.tooSoon, Hub.calPulse, hlast]
    rfl
  | some q =>
    rw [Hub.soonCounted, Hub.tooSoon, hlast, Option.any_some, Hub.calPulse, hlast]
    rfl

theorem Hub.soonCounted_rooster : h.soonCounted.rooster = h.rooster := by
  unfold Hub.soonCounted
  split
  · exact h.bump_rooster _ _
  · rfl

theorem Hub.word_soonCounted_other {a : Nat} (ha : a ≠ A.FE_INJSKIP) : h.soonCounted.word a = h.word a := by
  rw [Hub.soonCounted, Hub.word_ite, h.word_bump_other _ _ ha, ite_self]

/-- A pulse that does not fire leaves the Rooster as it is. -/
theorem Hub.calPulse_rooster (hskip : h.injecting = true ∨ h.tooSoon = true) : h.calPulse.rooster = h.rooster := by
  rw [h.calPulse_eq]
  split_ifs with hinj hsoon
  · rw [Hub.bump_rooster, h.soonCounted_rooster]
  · exact h.soonCounted_rooster
  · exact absurd hskip (by simp [hinj, hsoon])

theorem Hub.calPulse_fires (hinj : h.injecting = false) (hsoon : h.tooSoon = false) : h.calPulse = h.fired h.injects := by
  simp [h.calPulse_eq, hinj, hsoon]

theorem Hub.calPulse_sched : h.calPulse.rooster.sched = h.rooster.sched := by
  by_cases hskip : h.injecting = true ∨ h.tooSoon = true
  · rw [h.calPulse_rooster hskip]
  · simp only [not_or, Bool.not_eq_true] at hskip
    rw [h.calPulse_fires hskip.1 hskip.2]
    rfl

/-- Beside the count of pulses skipped for a procedure, a pulse moves at most that of pulses that come too soon. -/
theorem Hub.word_calPulse_of_ne_fcSkip {a : Nat} (ha : a ≠ A.CAL_FCSKIP) : h.calPulse.word a = h.soonCounted.word a := by
  rw [h.calPulse_eq]
  split_ifs with hinj hsoon
  · exact Hub.word_bump_other _ _ _ ha
  · rfl
  · rw [Hub.soonCounted, if_neg hsoon]
    rfl

theorem Hub.word_calPulse_of_not_injecting (hinj : h.injecting = false) {a : Nat} (ha : a ≠ A.FE_INJSKIP) :
    h.calPulse.word a = h.word a := by
  rw [h.calPulse_eq, if_neg (by simp [hinj]), Hub.word_ite, h.word_soonCounted_other ha]
  exact ite_self _

theorem Hub.calPulse_slot : h.calPulse.slot = h.slot := by
  have hword {a : Nat} (hf : a ≠ A.CAL_FCSKIP) (hi : a ≠ A.FE_INJSKIP) : h.calPulse.word a = h.word a :=
    (h.word_calPulse_of_ne_fcSkip hf).trans (h.word_soonCounted_other hi)
  rw [Hub.slot, Hub.slot, Hub.fld_congr (hword (by decide) (by decide)), Hub.fld_congr (hword (by decide) (by decide))]

theorem Hub.calPulse_counts_soon (hsoon : h.tooSoon = true) : h.counted h.calPulse F.FE_INJSKIP_COUNT 0 1 := by
  refine (h.counted_bump F.FE_INJSKIP_COUNT 0 (by decide) (by decide)).of_word ?_
  rw [h.word_calPulse_of_ne_fcSkip (by decide), Hub.soonCounted, if_pos hsoon]

theorem Hub.calPulse_counts_injecting (hinj : h.injecting = true) : h.counted h.calPulse F.CAL_FCSKIP_COUNT 0 1 := by
  rw [h.calPulse_eq, if_pos hinj]
  exact (Hub.counted_bump _ F.CAL_FCSKIP_COUNT 0 (by decide) (by decide)).from_word (h.word_soonCounted_other (by decide))

theorem Hub.calPulse_injSkip (hsoon : h.tooSoon = false) : h.calPulse.fld F.FE_INJSKIP_COUNT 0 = h.fld F.FE_INJSKIP_COUNT 0 := by
  refine Hub.fld_congr ?_
  rw [h.word_calPulse_of_ne_fcSkip (by decide), Hub.soonCounted, if_neg (by simp [hsoon])]

theorem Hub.calPulseActs_due (hdue : h.fcDue .calPulse = true) : h.calPulseActs = (h.unschedule .calPulse).calPulse :=
  if_pos hdue

/-! ### The pulses of the calibration engine (R450, R454-R457) -/

theorem Hub.injEnds_rooster : h.injEnds.rooster = h.rooster :=
  each_induction (P := fun h' : Hub => h'.rooster = h.rooster) _ rfl fun _ _ hk => hk

/-- Within PROC Fh the next procedure begins. -/
def Hub.calNextPart (h : Hub) : Hub :=
  let h' := if h.cal.part = 4 then h.injEnds else h
  { h' with cal := { h'.cal with part := h.cal.part + 1, ticks := 0, fired := 0 } }

theorem Hub.calNextPart_rooster : h.calNextPart.rooster = h.rooster := by
  change (if h.cal.part = 4 then h.injEnds else h).rooster = h.rooster
  split
  · exact h.injEnds_rooster
  · rfl

theorem Hub.calTick_eq : h.calTick =
    if !h.flag F.CAL_STAT_BUSY 0 then h
    else if h.injecting then
      if h.tooSoon then h
      else if h.cal.fired < calPulses h.cal.part then
        { h.fired h.calInjects with cal := { h.cal with fired := h.cal.fired + 1 } }
      else if h.cal.proc = 15 && h.cal.part < 9 then h.calNextPart else h
    else if h.cal.proc = 15 && calSlots h.cal.part ≤ h.cal.ticks + 1 then h.calNextPart
    else { h with cal := { h.cal with ticks := h.cal.ticks + 1 } } := (rfl)

/-- At a boundary the engine either fires no pulse, or it is one that its procedure may fire now. -/
theorem Hub.calTick_rooster : h.calTick.rooster = h.rooster ∨
    h.injecting = true ∧ h.tooSoon = false ∧ h.calTick.rooster = (h.fired h.calInjects).rooster := by
  rw [h.calTick_eq]
  split_ifs with hidle hinj hsoon hleft
  · exact .inl rfl
  · exact .inl rfl
  · exact .inr ⟨hinj, Bool.eq_false_of_not_eq_true hsoon, rfl⟩
  · exact .inl h.calNextPart_rooster
  · exact .inl rfl
  · exact .inl h.calNextPart_rooster
  · exact .inl rfl

theorem Hub.mem_calInjects {x : Inject} (hx : x ∈ h.calInjects) :
    x.ch < 512 ∧ h.fld F.FE_STAT_PWR x.ch = 1 ∧ h.cal.gmask.getLsbD (x.ch / 32) = true ∧ x.pol = h.flag F.FE_CFG_POL x.ch ∧
      8 ≤ x.charge ∧ x.charge ≤ 1000 := by
  have hpwr (c : Nat) := h.flag_eq_true_iff (f := F.FE_STAT_PWR) (i := c) rfl
  simp only [Hub.calInjects, List.mem_map, List.mem_filter, upto, List.mem_range, Bool.and_eq_true, hpwr] at hx
  obtain ⟨c, ⟨hc, ⟨hgroup, hp⟩, -⟩, rfl⟩ := hx
  exact ⟨hc, hp, hgroup, rfl, injectCharge_range _⟩

/-- The Rooster changes only where the engine fires: while its procedure injects, and not too soon. -/
theorem Hub.calTick_fires (hfires : h.calTick.rooster ≠ h.rooster) :
    h.injecting = true ∧ h.tooSoon = false ∧ h.calTick.rooster.lastCal = some h.slot ∧
      h.calTick.rooster.injected = h.calInjects := by
  obtain hsame | ⟨hinj, hsoon, hroo⟩ := h.calTick_rooster
  · exact absurd hsame hfires
  · rw [hroo, h.fired_injected]
    exact ⟨hinj, hsoon, rfl, rfl⟩

/-- A CAL_PULSE that fires notes its slot and its steps, and moves no register. -/
theorem Hub.calPulse_fires_spec (hinj : h.injecting = false) (hsoon : h.tooSoon = false) :
    h.calPulse.rooster.lastCal = some h.slot ∧ h.calPulse.rooster.injected = h.injects ∧ h.calPulse.regs = h.regs := by
  rw [h.calPulse_fires hinj hsoon, h.fired_injected]
  exact ⟨rfl, rfl, rfl⟩

/-- The pulse that fired last, and its steps, stay as they are when one does not fire. -/
theorem Hub.calPulse_quiet (hskip : h.injecting = true ∨ h.tooSoon = true) :
    h.calPulse.rooster.lastCal = h.rooster.lastCal ∧ h.calPulse.rooster.injected = h.rooster.injected := by
  rw [h.calPulse_rooster hskip]
  exact ⟨rfl, rfl⟩

/-- Settles O25: the pulses of the engine, and a CAL_PULSE that comes too soon, while a procedure injects, and otherwise. -/
theorem calPulseFires : Obligations.CalPulseFires := by
  unfold Obligations.CalPulseFires
  refine ⟨fun h hfires => ?engine, fun s hdue => ⟨_, rfl, ?pulse⟩⟩
  case engine =>
    obtain ⟨hinj, hsoon, hlast, hsteps⟩ := h.calTick_fires hfires
    rw [hsteps]
    refine ⟨hinj, hlast, fun q hq => ?_, fun x hx => h.mem_calInjects hx⟩
    exact not_lt.mp fun hlt => h.tooSoon_eq_false_iff.mp hsoon ⟨q, hq, hlt⟩
  case pulse =>
    rw [s.hub.calPulseActs_due hdue]
    have hslot : (s.hub.unschedule .calPulse).slot = s.hub.slot := Hub.slot_congr rfl
    have hdone := Hub.fcDue_of_unscheduled (s.hub.unschedule .calPulse).calPulse_sched
      ((s.hub.unschedule .calPulse).calPulse_slot.trans hslot)
    refine ⟨hdone, fun hback => ?soon, fun hinj => ?injecting, fun hinj => ?idle, fun hnone => ?late, fun hnone hinj => ?fires⟩
    case soon =>
      have hsoon : (s.hub.unschedule .calPulse).tooSoon = true := s.hub.tooSoon_iff.mpr hback
      exact ⟨Hub.calPulse_quiet _ (.inr hsoon), Hub.calPulse_counts_soon _ hsoon⟩
    case injecting => exact ⟨Hub.calPulse_quiet _ (.inl hinj), Hub.calPulse_counts_injecting _ hinj⟩
    case idle => exact Hub.fld_congr ((s.hub.unschedule .calPulse).word_calPulse_of_not_injecting hinj (by decide))
    case late => exact (s.hub.unschedule .calPulse).calPulse_injSkip (s.hub.tooSoon_eq_false_iff.mpr hnone)
    case fires =>
      obtain ⟨hlast, hsteps, hregs⟩ :=
        (s.hub.unschedule .calPulse).calPulse_fires_spec hinj (s.hub.tooSoon_eq_false_iff.mpr hnone)
      have hsame : (s.hub.unschedule .calPulse).injects = s.hub.injects := rfl
      rw [hsteps, hsame]
      refine ⟨hlast.trans (congrArg some hslot), hregs, fun x hx => ?_, s.hub.injects_nodup, fun c hc hp he hcode => ?_,
        fun x hx => ?_⟩
      · obtain ⟨⟨hch, hp, he, -⟩, hval⟩ := s.hub.mem_injects.mp hx
        rw [hval]
        exact ⟨hch, hp, he, rfl, rfl⟩
      · exact ⟨s.hub.injectOf c, s.hub.mem_injects.mpr ⟨⟨hc, hp, he, hcode⟩, rfl⟩, rfl⟩
      · obtain ⟨⟨-, -, -, hcode⟩, hval⟩ := s.hub.mem_injects.mp hx
        rw [hval]
        exact ⟨hcode, injectCharge_cases _⟩

end Sys2Proof.Machine
end

section
/-! SUPPORT. Ledger counters (R300): a counter reads as it was last put, and no other moves. -/

namespace Sys2Proof.Machine

variable (h : Hub)

theorem Hub.led_congr {h h' : Hub} {i : Nat} (hlo : h'.word (F.LED_LO_V.addr i) = h.word (F.LED_LO_V.addr i))
    (hhi : h'.word (F.LED_HI_V.addr i) = h.word (F.LED_HI_V.addr i)) : h'.led i = h.led i := by
  rw [Hub.led, Hub.led, Hub.fld_congr hlo, Hub.fld_congr hhi]

theorem Hub.led_setLed_same (i : Nat) {v : Nat} (hv : v < 2 ^ 48) : (h.setLed i v).led i = v := by
  have haddr : F.LED_LO_V.addr i ≠ F.LED_HI_V.addr i := by
    simp only [Fld.addr]
    omega
  rw [Hub.led, Hub.setLed, Hub.fld_setFld_apart _ _ (by decide) (.inl haddr), Hub.fld_setFld_same _ _ _ _ (by decide) (by decide),
    Hub.fld_setFld_same _ _ _ _ (by decide) (by decide)]
  change v % 2 ^ 32 % 2 ^ 32 + v / 2 ^ 32 % 2 ^ 16 * 2 ^ 32 = v
  omega

theorem Hub.led_setLed_other {i j : Nat} (v : Nat) (hij : i ≠ j) : (h.setLed j v).led i = h.led i := by
  have hword {a : Nat} (hlo : a ≠ F.LED_LO_V.addr j) (hhi : a ≠ F.LED_HI_V.addr j) : (h.setLed j v).word a = h.word a := by
    rw [Hub.setLed, Hub.word_setFld_other _ _ _ _ hhi, Hub.word_setFld_other _ _ _ _ hlo]
  apply Hub.led_congr <;> apply hword <;> simp only [Fld.addr] <;> omega

theorem Hub.led_ledAdd_same (i n : Nat) : (h.ledAdd i n).led i = (h.led i + n) % 2 ^ 48 := by
  have hput := h.led_setLed_same i (Nat.mod_lt (h.led i + n) (by decide : 0 < 2 ^ 48))
  rw [← hput]
  exact Hub.led_congr (Hub.word_of_regs (h.ledAdd_regs i n) _) (Hub.word_of_regs (h.ledAdd_regs i n) _)

theorem Hub.led_ledAdd_other {i j : Nat} (n : Nat) (hij : i ≠ j) : (h.ledAdd j n).led i = h.led i := by
  rw [← h.led_setLed_other ((h.led j + n) % 2 ^ 48) hij]
  exact Hub.led_congr (Hub.word_of_regs (h.ledAdd_regs j n) _) (Hub.word_of_regs (h.ledAdd_regs j n) _)

@[simp] theorem Hub.ledAdd_tdc (i n : Nat) : (h.ledAdd i n).tdc = h.tdc := by
  simp only [Hub.ledAdd, apply_ite Hub.tdc, Hub.setLed_tdc, ite_self]

@[simp] theorem Hub.ledAdd_hits (i n : Nat) : (h.ledAdd i n).hits = h.hits := by
  simp only [Hub.ledAdd, apply_ite Hub.hits, Hub.setLed_hits, ite_self]

/-- Counters above the ledger are not in it. -/
theorem Hub.led_bump {f : Fld} (i j : Nat) (hf : 0x8000 ≤ f.base) (hj : j < 0x80) : (h.bump f i).led j = h.led j := by
  apply Hub.led_congr <;> apply h.word_bump_other <;> simp only [Fld.addr] <;> omega

end Sys2Proof.Machine
end

section
/-! SUPPORT. Time digitisers (R101-R111, R114, R115, R117): the pulse of a crossing and its hit, its fall, and dead crossings. -/

namespace Sys2Proof.Machine

variable (h : Hub)

/-! ### What a crossing reads -/

/-- What times and assigns a crossing of channel `c` reads the same: every register but the count of its crossings, the lookup
tables, when the running modes began and ended, and what the calibration engine feeds. -/
structure Hub.TimesAlike (c : Nat) (h h' : Hub) : Prop where
  word : ∀ a, a ≠ F.FE_DISCCNT_COUNT.addr c → h'.word a = h.word a
  bank : h'.bank = h.bank
  rooster : h'.rooster = h.rooster
  gmask : h'.cal.gmask = h.cal.gmask
  part : h'.cal.part = h.cal.part
  lost : h'.cal.lost = h.cal.lost

theorem Hub.bump_timesAlike (c : Nat) : h.TimesAlike c (h.bump F.FE_DISCCNT_COUNT c) :=
  ⟨fun _ ha => h.word_bump_other _ _ ha, h.bump_bank _ _, h.bump_rooster _ _, by rw [Hub.bump_cal], by rw [Hub.bump_cal],
    by rw [Hub.bump_cal]⟩

theorem Hub.TimesAlike.stepCrossing {c : Nat} {h' : Hub} (k : h.TimesAlike c h') : h.TimesAlike c (h'.stepCrossing c) := by
  unfold Hub.stepCrossing
  split
  · exact ⟨k.word, k.bank, k.rooster, k.gmask, k.part, k.lost⟩
  · exact k

/-- A register that is not one of the channels'. -/
def offChannels (a : Nat) : Prop := a < 0x8000 ∨ 0x10000 ≤ a

section
variable {h} {h' : Hub} {c : Nat} (k : h.TimesAlike c h') (hc : c < 512)
include k hc

theorem Hub.TimesAlike.word_off {a : Nat} (ha : offChannels a) : h'.word a = h.word a := by
  refine k.word a fun heq => ?_
  simp only [offChannels, Fld.addr] at heq ha
  omega

theorem Hub.TimesAlike.fld_off {f : Fld} {i : Nat} (hf : f.base < 0x8000 ∧ f.stride = 0 ∨ 0x10000 ≤ f.base) :
    h'.fld f i = h.fld f i := by
  refine Hub.fld_congr (k.word_off hc ?_)
  obtain ⟨hbase, hstride⟩ | hbase := hf
  · left
    simp only [Fld.addr, hstride]
    omega
  · right
    exact le_add_right hbase

theorem Hub.TimesAlike.slot : h'.slot = h.slot := by
  rw [Hub.slot, Hub.slot, k.fld_off hc (.inl (by decide)), k.fld_off hc (.inl (by decide))]

theorem Hub.TimesAlike.coarseW : h'.coarseW = h.coarseW := by
  rw [Hub.coarseW, Hub.coarseW, k.fld_off hc (.inl (by decide))]

theorem Hub.TimesAlike.slotLen18 : h'.slotLen18 = h.slotLen18 := by
  rw [Hub.slotLen18, Hub.slotLen18, k.coarseW hc]

theorem Hub.TimesAlike.rawTime (p : Nat) (line : Bool) (coarse fine : Nat) :
    h'.rawTime p line coarse fine = h.rawTime p line coarse fine := by
  simp only [Hub.rawTime, Hub.bankWord, k.bank, k.coarseW hc]

theorem Hub.TimesAlike.hitsCount (s : W48) : h'.hitsCount s = h.hitsCount s := by
  simp only [Hub.hitsCount, Hub.parked, Hub.flag, Hub.running, Hub.mode, Hub.beganRunning, k.rooster, k.slot hc,
    k.fld_off hc (f := F.TW_CFG_EN) (.inr (by decide)), k.fld_off hc (f := F.MODE_STAT_MODE) (.inl (by decide))]

theorem Hub.TimesAlike.hitOf (b : Nat) (x : Pulse) (tot : Nat) : h'.hitOf b x tot = h.hitOf b x tot := by
  simp only [Hub.hitOf, Hub.placeHit, Hub.toaMax, k.slotLen18 hc, k.fld_off hc (f := F.ADC_PHASE_TAP) (.inr (by decide))]

theorem Hub.TimesAlike.calPart (g : Nat) : h'.calPart g = h.calPart g := by
  rw [Hub.calPart, Hub.calPart, Hub.flag, Hub.flag, k.gmask, k.part, k.fld_off hc (.inr (by decide))]

theorem Hub.TimesAlike.liveSlot (b : Nat) : h'.liveSlot b = h.liveSlot b := by
  have hserving : h'.servingSlot b = h.servingSlot b := by
    rw [Hub.servingSlot, Hub.servingSlot, k.fld_off hc (.inr (by decide))]
  have hfeeds (p : Nat) : h'.feeds p = h.feeds p := by
    rw [Hub.feeds, Hub.feeds, k.calPart hc, k.lost]
  simp only [Hub.liveSlot, hserving, hfeeds]

theorem Hub.TimesAlike.led (i : Nat) (hi : i < 0x80) : h'.led i = h.led i := by
  apply Hub.led_congr <;> refine k.word_off hc (.inl ?_) <;> simp only [Fld.addr] <;> omega

omit hc in
/-- A register of the channel other than the count. -/
theorem Hub.TimesAlike.fld_channel {f : Fld} (hf : f.stride = 0x40 ∧ f.base ≠ 0x8003) : h'.fld f c = h.fld f c := by
  refine Hub.fld_congr (k.word _ ?_)
  obtain ⟨hstride, hbase⟩ := hf
  simp only [Fld.addr, hstride]
  omega

end

/-! ### Hits that are added, and dead crossings -/

theorem Hub.tdcOf_congr {h h' : Hub} (ht : h'.tdc = h.tdc) (c : Nat) : h'.tdcOf c = h.tdcOf c := by
  rw [Hub.tdcOf, Hub.tdcOf, ht]

theorem Hub.setTdc_tdcOf_other {c b : Nat} (x : Tdc) (hb : b ≠ c) : (h.setTdc c x).tdcOf b = h.tdcOf b :=
  Store.get_set_other _ _ _ _ _ hb

/-- The hits of a channel assigned to a slot that wait already. -/
def Hub.sameHits (h : Hub) (x : Hit) : List Hit := h.hits.filter fun y => y.ch == x.ch && y.slot == x.slot

/-- The counters that a hit moves before it is placed: a second one of a channel and slot is pile-up. -/
def Hub.hitSeen (h : Hub) (x : Hit) : Hub :=
  if (h.sameHits x).isEmpty then h.ledAdd 0 1 else ((h.ledAdd 0 1).ledAdd 4 1).bump F.TDC_PILECNT_COUNT x.ch

theorem Hub.addHit_counted {x : Hit} (hcount : h.hitsCount x.slot = true) : h.addHit x =
    if (h.sameHits x).length < 2 then ({ h.hitSeen x with hits := (h.hitSeen x).hits ++ [x] } : Hub).ledAdd 0x10 1
    else ({ h.hitSeen x with hits := ((h.hitSeen x).hits.filter fun y => !(y.ch == x.ch && y.slot == x.slot)) ++
      (sortBy (fun y => y.toa) (h.sameHits x ++ [x])).take 2 } : Hub).ledAdd 3 1 :=
  if_pos hcount

theorem Hub.hitSeen_hits (x : Hit) : (h.hitSeen x).hits = h.hits := by
  unfold Hub.hitSeen
  split <;> simp

theorem Hub.hitSeen_tdc (x : Hit) : (h.hitSeen x).tdc = h.tdc := by
  unfold Hub.hitSeen
  split <;> simp

theorem Hub.hitSeen_led (x : Hit) : (h.hitSeen x).led 0 = (h.led 0 + 1) % 2 ^ 48 := by
  unfold Hub.hitSeen
  split
  · exact h.led_ledAdd_same 0 1
  · rw [Hub.led_bump _ _ _ (by decide) (by decide), Hub.led_ledAdd_other _ _ (by decide), h.led_ledAdd_same 0 1]

/-- A hit that does not count yet is in no list of those that wait, and in no counter. -/
theorem Hub.addHit_uncounted {x : Hit} (hcount : h.hitsCount x.slot = false) :
    (h.addHit x).hits = h.hits ∧ (h.addHit x).led 0 = h.led 0 ∧ (h.addHit x).tdc = h.tdc := by
  rw [Hub.addHit, if_neg (by simp [hcount])]
  split <;> exact ⟨rfl, rfl, rfl⟩

theorem Hub.addHit_tdc (x : Hit) : (h.addHit x).tdc = h.tdc := by
  cases hcount : h.hitsCount x.slot with
  | false => exact (h.addHit_uncounted hcount).2.2
  | true =>
    rw [h.addHit_counted hcount]
    split <;> exact (Hub.ledAdd_tdc _ _ _).trans (h.hitSeen_tdc x)

theorem Hub.addHit_led {x : Hit} (hcount : h.hitsCount x.slot = true) : (h.addHit x).led 0 = (h.led 0 + 1) % 2 ^ 48 := by
  rw [h.addHit_counted hcount]
  split <;> exact (Hub.led_ledAdd_other _ _ (by decide)).trans (h.hitSeen_led x)

theorem Hub.addHit_first {x : Hit} (hcount : h.hitsCount x.slot = true) (hfirst : h.sameHits x = []) :
    (h.addHit x).hits = h.hits ++ [x] := by
  rw [h.addHit_counted hcount, if_pos (by simp [hfirst]), Hub.ledAdd_hits]
  exact congrArg (· ++ [x]) (h.hitSeen_hits x)

/-- The hub once a dead crossing has been counted in the ledger. -/
def Hub.deadSeen (h : Hub) : Hub := ((h.ledAdd 0 1).ledAdd 4 1).ledAdd 3 1

theorem Hub.deadSeen_word {a : Nat} (ha : 0x8000 ≤ a) : h.deadSeen.word a = h.word a := by
  simp (disch := decide) only [Hub.deadSeen, Hub.word_ledAdd_aboveLedger _ ha]

theorem Hub.deadCrossing_eq (c : Nat) : h.deadCrossing c =
    if h.hitsCount h.slot then
      { (h.deadSeen.bump F.TDC_DEADCNT_COUNT c).bump F.TDC_PILECNT_COUNT c with
        dead := (c, ((h.deadSeen.bump F.TDC_DEADCNT_COUNT c).bump F.TDC_PILECNT_COUNT c).slot) ::
          ((h.deadSeen.bump F.TDC_DEADCNT_COUNT c).bump F.TDC_PILECNT_COUNT c).dead }
    else h := (rfl)

theorem Hub.withDead_keeps (l : List (Nat × W48)) :
    ({ h with dead := l } : Hub).tdc = h.tdc ∧ ({ h with dead := l } : Hub).hits = h.hits := ⟨rfl, rfl⟩

/-- A dead crossing leaves digitisers and hits as they are (R110). -/
theorem Hub.deadCrossing_keeps (c : Nat) : (h.deadCrossing c).tdc = h.tdc ∧ (h.deadCrossing c).hits = h.hits := by
  rw [h.deadCrossing_eq]
  split
  · obtain ⟨htdc, hhits⟩ := ((h.deadSeen.bump F.TDC_DEADCNT_COUNT c).bump F.TDC_PILECNT_COUNT c).withDead_keeps _
    rw [htdc, hhits]
    simp only [Hub.deadSeen, Hub.bump_tdc, Hub.bump_hits, Hub.ledAdd_tdc, Hub.ledAdd_hits, and_self]
  · exact ⟨rfl, rfl⟩

/-- It counts as dead and as pile-up (R110, R111). -/
theorem Hub.deadCrossing_counts (c : Nat) (hcount : h.hitsCount h.slot = true) :
    h.counted (h.deadCrossing c) F.TDC_DEADCNT_COUNT c 1 ∧ h.counted (h.deadCrossing c) F.TDC_PILECNT_COUNT c 1 := by
  have hapart : F.TDC_DEADCNT_COUNT.addr c ≠ F.TDC_PILECNT_COUNT.addr c := by
    simp only [Fld.addr]
    omega
  have habove (f : Fld) (hf : 0x8000 ≤ f.base) : 0x8000 ≤ f.addr c := le_add_right hf
  have hdead := h.deadSeen.counted_bump F.TDC_DEADCNT_COUNT c (by decide) (by decide)
  have hpile := (h.deadSeen.bump F.TDC_DEADCNT_COUNT c).counted_bump F.TDC_PILECNT_COUNT c (by decide) (by decide)
  rw [h.deadCrossing_eq, if_pos hcount]
  constructor
  · refine (hdead.from_word (h.deadSeen_word (habove _ (by decide)))).of_word ?_
    rw [Hub.word_withDead, Hub.word_bump_other _ _ _ hapart]
  · refine (hpile.from_word ?_).of_word (Hub.word_withDead _ _ _)
    rw [Hub.word_bump_other _ _ _ hapart.symm, h.deadSeen_word (habove _ (by decide))]

/-! ### Rising crossings (R101-R106, R109, R110, R117) -/

/-- The pulse that a rising crossing of channel `c`, measured by digitiser slot `p`, begins. -/
def Hub.pulseOf (h : Hub) (c p coarse fine : Nat) : Pulse :=
  let t := h.rawTime p (h.flag F.RS_DSLOT_LINE p) coarse fine
  { slot := h.slot, rise := t, tc := roundDiv (t + h.sfld F.TDC_OFS_OFS c * 256) 256, p := p, line := h.flag F.RS_DSLOT_LINE p,
    tot := h.flag F.TDC_CFG_TOT_EN c, done := !h.flag F.TDC_CFG_TOT_EN c }

/-- A crossing that lies a fifth of a slot or more behind the falling crossing before it (R110). -/
def Hub.farFromFall (h : Hub) (c p coarse fine : Nat) : Prop :=
  ∀ q f, (h.tdcOf c).lastFall = some (q, f) →
    (h.slotLen18 : Int) ≤
      5 * (circ 48 h.slot.toNat q.toNat * h.slotLen18 + h.rawTime p (h.flag F.RS_DSLOT_LINE p) coarse fine - f)

/-- The hub once the standby line of channel `c` has latched the fine bin of a rise (R117). -/
def Hub.latched (h : Hub) (c stby : Nat) : Hub := h.setTdc c { h.tdcOf c with stbyRise := BitVec.ofNat 7 stby }

/-- The hub once the digitiser of channel `c` measures a pulse. -/
def Hub.measuring (h : Hub) (c stby : Nat) (x : Pulse) : Hub :=
  (h.latched c stby).setTdc c { (h.latched c stby).tdcOf c with pulse := some x }

theorem Hub.latched_reads (c stby : Nat) :
    (h.latched c stby).slot = h.slot ∧ (h.latched c stby).slotLen18 = h.slotLen18 := ⟨rfl, rfl⟩

theorem Hub.latched_tdcOf (c stby : Nat) :
    (h.latched c stby).tdcOf c = { h.tdcOf c with stbyRise := BitVec.ofNat 7 stby } := h.setTdc_tdcOf c _

theorem Hub.latched_tdcOf_other {c b : Nat} (stby : Nat) (hb : b ≠ c) : (h.latched c stby).tdcOf b = h.tdcOf b :=
  h.setTdc_tdcOf_other _ hb

theorem Hub.measuring_tdcOf (c stby : Nat) (x : Pulse) :
    (h.measuring c stby x).tdcOf c = { h.tdcOf c with stbyRise := BitVec.ofNat 7 stby, pulse := some x } := by
  rw [Hub.measuring, Hub.setTdc_tdcOf, h.latched_tdcOf]

theorem Hub.measuring_tdcOf_other {c b : Nat} (stby : Nat) (x : Pulse) (hb : b ≠ c) :
    (h.measuring c stby x).tdcOf b = h.tdcOf b := by
  rw [Hub.measuring, Hub.setTdc_tdcOf_other _ _ hb, h.latched_tdcOf_other _ hb]

section
variable {c p : Nat} (coarse fine stby : Nat) (hlive : h.liveSlot c = some p) (hen : h.flag F.TDC_CFG_EN c = true)
  (hactive : h.flag F.TDC_STAT_ACTIVE c = true) (hfar : h.farFromFall c p coarse fine)
include hlive hen hactive hfar

/-- A crossing during a pulse is dead; one that finds the digitiser free begins a pulse, whose hit is added. -/
theorem Hub.rising_served : h.rising c coarse fine stby =
    if (h.tdcOf c).pulse.isSome || (h.tdcOf c).overLong then (h.latched c stby).deadCrossing c
    else (h.measuring c stby (h.pulseOf c p coarse fine)).addHit (h.hitOf c (h.pulseOf c p coarse fine) 0) := by
  unfold Hub.rising Hub.measuring
  rw [hlive]
  simp only [hen, hactive, Bool.not_true, Bool.or_self, Bool.false_eq_true, if_false]
  rw [← Hub.latched, h.latched_tdcOf]
  cases hfall : (h.tdcOf c).lastFall with
  | none =>
    simp only [Bool.or_false]
    rfl
  | some x =>
    have hnear := decide_eq_false (not_lt.mpr (hfar x.1 x.2 hfall))
    simp only [h.latched_reads]
    rw [hnear, Bool.or_false]
    rfl

/-- The standby line latches its fine bin (R117), and no other digitiser sees the crossing. -/
theorem Hub.rising_latches : ((h.rising c coarse fine stby).tdcOf c).stbyRise = BitVec.ofNat 7 stby ∧
    ∀ b, b ≠ c → (h.rising c coarse fine stby).tdcOf b = h.tdcOf b := by
  rw [h.rising_served coarse fine stby hlive hen hactive hfar]
  split
  · have hsame := Hub.tdcOf_congr ((h.latched c stby).deadCrossing_keeps c).1
    rw [hsame, h.latched_tdcOf]
    exact ⟨rfl, fun b hb => (hsame b).trans (h.latched_tdcOf_other stby hb)⟩
  · have hsame := Hub.tdcOf_congr ((h.measuring c stby (h.pulseOf c p coarse fine)).addHit_tdc
      (h.hitOf c (h.pulseOf c p coarse fine) 0))
    rw [hsame, h.measuring_tdcOf]
    exact ⟨rfl, fun b hb => (hsame b).trans (h.measuring_tdcOf_other stby _ hb)⟩

/-- A crossing that finds its digitiser free begins a pulse, and its hit counts where the running modes reach its slot (R114). -/
theorem Hub.rising_free (hpulse : (h.tdcOf c).pulse = none) (hover : (h.tdcOf c).overLong = false) :
    let y := h.hitOf c (h.pulseOf c p coarse fine) 0
    let h' := h.rising c coarse fine stby
    (h'.tdcOf c).pulse = some (h.pulseOf c p coarse fine) ∧
    (h.hitsCount y.slot = false → h'.hits = h.hits ∧ h'.led 0 = h.led 0) ∧
    (h.hitsCount y.slot = true → h'.led 0 = (h.led 0 + 1) % 2 ^ 48 ∧ (h.sameHits y = [] → h'.hits = h.hits ++ [y])) := by
  intro y h'
  let m := h.measuring c stby (h.pulseOf c p coarse fine)
  have hmeasured : h' = m.addHit y := by
    refine (h.rising_served coarse fine stby hlive hen hactive hfar).trans (if_neg ?_)
    simp [hpulse, hover]
  rw [hmeasured]
  refine ⟨?pulse, fun hcount => ?waits, fun hcount => ⟨m.addHit_led hcount, fun hfirst => m.addHit_first hcount hfirst⟩⟩
  case pulse => rw [Hub.tdcOf_congr (m.addHit_tdc y), h.measuring_tdcOf]
  case waits =>
    obtain ⟨hhits, hled, -⟩ := m.addHit_uncounted hcount
    exact ⟨hhits, hled⟩

/-- A crossing during a pulse, or before the fall of one that lasts too long, is dead (R110, R111). -/
theorem Hub.rising_busy (hbusy : (h.tdcOf c).pulse.isSome = true ∨ (h.tdcOf c).overLong = true) :
    let h' := h.rising c coarse fine stby
    (h'.tdcOf c).pulse = (h.tdcOf c).pulse ∧ h'.hits = h.hits ∧
    (h.hitsCount h.slot = true → h.counted h' F.TDC_DEADCNT_COUNT c 1 ∧ h.counted h' F.TDC_PILECNT_COUNT c 1) := by
  intro h'
  have hdead : h' = (h.latched c stby).deadCrossing c :=
    (h.rising_served coarse fine stby hlive hen hactive hfar).trans (if_pos (by simpa using hbusy))
  obtain ⟨htdc, hhits⟩ := (h.latched c stby).deadCrossing_keeps c
  rw [hdead, Hub.tdcOf_congr htdc, hhits, h.latched_tdcOf]
  exact ⟨rfl, rfl, fun hcount => (h.latched c stby).deadCrossing_counts c hcount⟩

end

/-! ### The end of a pulse (R107, R108) -/

/-- A digitiser once a pulse has fallen: free, with the time of the fall and the fine bin of the standby line. -/
def Tdc.fallen (x : Tdc) (slot : W48) (t : Int) (stby : Nat) : Tdc :=
  { pulse := none, lastFall := some (slot, t), overLong := false, stbyRise := x.stbyRise, stbyFall := BitVec.ofNat 7 stby }

theorem Hub.falling_measured {c : Nat} {x : Pulse} (coarse fine stby : Nat) (hpulse : (h.tdcOf c).pulse = some x)
    (hopen : x.done = false) :
    let t := h.rawTime x.p x.line coarse fine
    h.falling c coarse fine stby = (h.setTdc c ((h.tdcOf c).fallen h.slot t stby)).setTot
      (h.hitOf c x (totOf x.rise (circ 48 h.slot.toNat x.slot.toNat * h.slotLen18 + t))) := by
  intro t
  rw [Hub.falling, hpulse]
  exact if_neg (by simp [hopen])

/-- Without a pulse that a digitiser measures, and without one that has lasted too long, nothing falls. -/
theorem Hub.falling_idle {c : Nat} (coarse fine stby : Nat) (hpulse : (h.tdcOf c).pulse = none)
    (hover : (h.tdcOf c).overLong = false) : h.falling c coarse fine stby = h := by
  rw [Hub.falling, hpulse]
  exact if_neg (by simp [hover])

theorem Hub.totTimeout_measured {c : Nat} {x : Pulse} (hpulse : (h.tdcOf c).pulse = some x) (hopen : x.done = false) :
    h.totTimeout c = (h.setTdc c { h.tdcOf c with pulse := none, overLong := true, longP := x.p, longLine := x.line }).setTot
      (h.hitOf c x 0xFFF) := by
  rw [Hub.totTimeout, hpulse]
  exact if_neg (by simp [hopen])

theorem Hub.setTdc_setTot_tdcOf (c : Nat) (x : Tdc) (y : Hit) : ((h.setTdc c x).setTot y).tdcOf c = x := h.setTdc_tdcOf c x

/-! ### The statement -/

section
variable {h} {h' : Hub} {c : Nat} (k : h.TimesAlike c h') (hc : c < 512)
include k hc

theorem Hub.TimesAlike.pulseOf (p coarse fine : Nat) : h'.pulseOf c p coarse fine = h.pulseOf c p coarse fine := by
  rw [Hub.pulseOf, Hub.pulseOf, Hub.flag, Hub.flag, Hub.flag, Hub.flag, Hub.sfld, Hub.sfld, k.slot hc,
    k.fld_off hc (f := F.RS_DSLOT_LINE) (.inr (by decide)), k.rawTime hc, k.fld_channel (f := F.TDC_OFS_OFS) (by decide),
    k.fld_channel (f := F.TDC_CFG_TOT_EN) (by decide)]

end

/-- What has been seen of a crossing before it reaches the digitiser: it is counted, for THRESH too. -/
def Hub.crossingSeen (h : Hub) (c : Nat) : Hub := (h.bump F.FE_DISCCNT_COUNT c).stepCrossing c

theorem Hub.crossingSeen_timesAlike (c : Nat) : h.TimesAlike c (h.crossingSeen c) := (h.bump_timesAlike c).stepCrossing

theorem Hub.stepCrossing_keeps (c : Nat) : (h.stepCrossing c).tdc = h.tdc ∧ (h.stepCrossing c).hits = h.hits := by
  unfold Hub.stepCrossing
  split <;> exact ⟨rfl, rfl⟩

theorem Hub.crossingSeen_keeps (c : Nat) : (h.crossingSeen c).tdc = h.tdc ∧ (h.crossingSeen c).hits = h.hits := by
  obtain ⟨htdc, hhits⟩ := (h.bump F.FE_DISCCNT_COUNT c).stepCrossing_keeps c
  exact ⟨htdc.trans (h.bump_tdc _ _), hhits.trans (h.bump_hits _ _)⟩

theorem Hub.discriminator_reaches {c : Nat} {charge : Int} (coarse fine stby : Nat) (hpwr : h.flag F.FE_STAT_PWR c = true)
    (hover : h.threshold c < charge) (hon : h.flag F.FE_THR_DISC_EN c = true) :
    h.discriminator c coarse fine stby charge = (h.crossingSeen c).rising c coarse fine stby := by
  rw [h.discriminator_passes coarse fine stby hpwr hover]
  refine if_pos (Eq.trans ?_ hon)
  rw [← Hub.crossingSeen, Hub.flag, Hub.flag, (h.crossingSeen_timesAlike c).fld_channel (by decide)]

/-- Settles O24: a crossing that reaches its digitiser, free or busy; a fall of a pulse, or none; and a pulse that lasts too
long. -/
theorem crossingsBecomeHits : Obligations.CrossingsBecomeHits := by
  unfold Obligations.CrossingsBecomeHits
  refine ⟨fun s c coarse fine stby charge p hpwr hover hon hlive hen hactive hfar => ⟨_, rfl, ?rises⟩,
    fun s c coarse fine stby x hpulse hopen => ⟨_, rfl, ?falls⟩,
    fun s c coarse fine stby hpulse hover => ⟨_, rfl, s.hub.falling_idle _ _ _ hpulse hover⟩,
    fun s c x hpulse hopen => ⟨_, rfl, ?timeout⟩⟩
  case rises =>
    have hc : (c : Nat) < 512 := c.isLt
    have k := s.hub.crossingSeen_timesAlike c
    obtain ⟨htdc, hhits⟩ := s.hub.crossingSeen_keeps c
    have htdcOf := Hub.tdcOf_congr htdc
    rw [s.hub.discriminator_reaches _ _ _ hpwr hover hon]
    have hlive' := (k.liveSlot hc c).trans hlive
    have hen' : (s.hub.crossingSeen c).flag F.TDC_CFG_EN c = true := by
      rwa [Hub.flag, k.fld_channel (by decide)]
    have hactive' : (s.hub.crossingSeen c).flag F.TDC_STAT_ACTIVE c = true := by
      rwa [Hub.flag, k.fld_channel (by decide)]
    have hfar' : (s.hub.crossingSeen c).farFromFall c p coarse fine := by
      intro q f hfall
      rw [k.slotLen18 hc, k.slot hc, k.rawTime hc, Hub.flag, k.fld_off hc (.inr (by decide)), ← Hub.flag]
      exact hfar q f (htdcOf c ▸ hfall)
    obtain ⟨hlatch, hothers⟩ := Hub.rising_latches _ coarse fine stby hlive' hen' hactive' hfar'
    have hfree := Hub.rising_free _ coarse fine stby hlive' hen' hactive' hfar'
    have hbusy := Hub.rising_busy _ coarse fine stby hlive' hen' hactive' hfar'
    simp only [k.pulseOf hc, k.hitOf hc, k.hitsCount hc, k.slot hc, k.led hc 0 (by decide), htdcOf, hhits, Hub.sameHits,
      Hub.counted, k.fld_channel (f := F.TDC_DEADCNT_COUNT) (by decide), k.fld_channel (f := F.TDC_PILECNT_COUNT) (by decide)]
      at hfree hbusy hothers
    exact ⟨hlatch, hothers, hfree, hbusy⟩
  case falls =>
    rw [s.hub.falling_measured _ _ _ hpulse hopen]
    have htdc := s.hub.setTdc_setTot_tdcOf c
    exact ⟨congrArg Tdc.pulse (htdc _ _), congrArg Tdc.lastFall (htdc _ _), congrArg Tdc.overLong (htdc _ _),
      congrArg Tdc.stbyFall (htdc _ _), rfl, rfl⟩
  case timeout =>
    rw [s.hub.totTimeout_measured hpulse hopen]
    have htdc := s.hub.setTdc_setTot_tdcOf c
    exact ⟨congrArg Tdc.pulse (htdc _ _), congrArg Tdc.overLong (htdc _ _), rfl, rfl⟩

end Sys2Proof.Machine
end

section
/-! SUPPORT. Hits presented to the engines (R106, R111, R113, R114): the two earliest of each channel, and the pile-up mask. -/

namespace Sys2Proof.Machine

/-! ### Lists by rising key -/

theorem mem_insertBy {α : Type} {key : α → Nat} {x z : α} (l : List α) : z ∈ insertBy key x l ↔ z = x ∨ z ∈ l := by
  induction l with
  | nil => simp [insertBy]
  | cons y rest ih =>
    rw [insertBy]
    split
    · exact List.mem_cons
    · rw [List.mem_cons, ih, List.mem_cons]
      tauto

theorem mem_sortBy {α : Type} {key : α → Nat} {z : α} (l : List α) : z ∈ sortBy key l ↔ z ∈ l := by
  induction l with
  | nil => rfl
  | cons x rest ih => rw [sortBy, List.foldr_cons, ← sortBy, mem_insertBy, ih, List.mem_cons]

theorem sortBy_pair {α : Type} {key : α → Nat} {x y : α} (hxy : key x ≤ key y) : sortBy key [x, y] = [x, y] :=
  if_pos hxy

/-! ### The `n`th hit of every channel -/

/-- Of the numbers below `n` one alone gives a value. -/
theorem filterMap_range_single {α : Type} (n k : Nat) (o : Option α) :
    (List.range n).filterMap (fun j => if j = k then o else none) = if k < n then o.toList else [] := by
  induction n with
  | zero => rfl
  | succ n ih =>
    rw [List.range_succ, List.filterMap_append, ih]
    obtain hlt | rfl | hgt := Nat.lt_trichotomy k n
    · simp [hlt, Nat.lt_succ_of_lt hlt, Nat.ne_of_gt hlt]
    · cases o <;> simp
    · simp [Nat.not_lt.mpr hgt.le, Nat.ne_of_lt hgt, Nat.not_lt.mpr (Nat.succ_le_of_lt hgt)]

/-- The hits of a channel, by their TOA. -/
def hitsOf (l : List Hit) (c : Nat) : List Hit := sortBy (fun z => z.toa) (l.filter fun z => z.ch == c)

theorem ch_of_mem_hitsOf {l : List Hit} {c : Nat} {z : Hit} (hz : z ∈ hitsOf l c) : z.ch = c := by
  rw [hitsOf, mem_sortBy, List.mem_filter] at hz
  exact beq_iff_eq.mp hz.2

/-- Of every channel of group `g`, in their order, the hit that `n` others of it precede. -/
def nthHits (n g : Nat) (l : List Hit) : List Hit := (upto 32).filterMap fun k => (hitsOf l (32 * g + k))[n]?

theorem nthHits_filter (n g : Nat) (l : List Hit) {k : Nat} (hk : k < 32) :
    (nthHits n g l).filter (fun z => z.ch == 32 * g + k) = ((hitsOf l (32 * g + k)).drop n).take 1 := by
  have hone (j : Nat) : ((hitsOf l (32 * g + j))[n]?).filter (fun z => z.ch == 32 * g + k) =
      if j = k then (hitsOf l (32 * g + k))[n]? else none := by
    cases hz : (hitsOf l (32 * g + j))[n]? with
    | none =>
      split
      · next hjk => rw [← hjk, hz, Option.filter_none]
      · rfl
    | some z =>
      have hch : z.ch = 32 * g + j := ch_of_mem_hitsOf (List.mem_of_getElem? hz)
      by_cases hjk : j = k
      · subst hjk
        simp [hch, hz]
      · simp [hch, hjk]
  rw [nthHits, upto, List.filter_filterMap]
  simp only [hone]
  rw [filterMap_range_single, if_pos hk, List.take_one, List.head?_drop]

/-- Two hits of one channel: the `n`th of them, and none of any other channel. -/
theorem nthHits_pair (n : Nat) {x y : Hit} (hch : y.ch = x.ch) (hxy : x.toa ≤ y.toa) :
    nthHits n (x.ch / 32) [x, y] = ([x, y][n]?).toList := by
  have hone (j : Nat) (hj : j < 32) : (hitsOf [x, y] (32 * (x.ch / 32) + j))[n]? = if j = x.ch % 32 then [x, y][n]? else none := by
    by_cases hx : j = x.ch % 32
    · have hc : x.ch = 32 * (x.ch / 32) + j := by omega
      rw [if_pos hx, hitsOf, List.filter_eq_self.mpr, sortBy_pair hxy]
      intro z hz
      obtain rfl | rfl : z = x ∨ z = y := by simpa using hz
      · exact beq_iff_eq.mpr hc
      · exact beq_iff_eq.mpr (hch.trans hc)
    · have hc : x.ch ≠ 32 * (x.ch / 32) + j := by omega
      simp [hitsOf, hch, hc, hx, sortBy]
  rw [nthHits, upto, List.filterMap_congr fun j hj => hone j (List.mem_range.mp hj), filterMap_range_single,
    if_pos (Nat.mod_lt _ (by decide))]

/-! ### What is presented (R106, R111, R113) -/

variable (h : Hub)

/-- The registers of the engines begin at 21800h. -/
theorem Hub.word_setOx_belowOx (e : Nat) (x : Ox) {a : Nat} (ha : a < 0x21800) : (h.setOx e x).word a = h.word a := by
  have hbase {f : Fld} (hf : 0x21800 ≤ f.base) : a ≠ f.addr e := by
    rw [Fld.addr]
    omega
  rw [Hub.setOx, Hub.word_setFld_other _ _ _ _ (hbase (by decide)), Hub.setWord_word, if_neg (hbase (by decide)),
    Hub.setWord_word, if_neg (hbase (by decide)), Hub.word_setFld_other _ _ _ _ (hbase (by decide)),
    Hub.word_setFld_other _ _ _ _ (hbase (by decide))]
  rfl

/-- The hits of group `g` that the slot in progress presents: those of six slots back. -/
def Hub.dueHits (h : Hub) (g : Nat) : List Hit := h.hits.filter fun y => y.ch / 32 == g && y.slot == h.slot - 6#48

/-- The channels of the group, by their number in it, with a dead-time crossing in that slot. -/
def Hub.dueDead (h : Hub) (g : Nat) : List Nat :=
  (h.dead.filter fun d => d.1 / 32 == g && d.2 == h.slot - 6#48).map fun d => d.1 % 32

/-- The pile-up mask: channels with a secondary, and channels with a primary and a dead-time crossing. -/
def Hub.duePile (h : Hub) (g : Nat) : Nat :=
  maskOf (((nthHits 1 g (h.dueHits g)).map fun y => y.ch % 32) ++
    (h.dueDead g).filter fun k => (nthHits 0 g (h.dueHits g)).any fun y => y.ch % 32 == k)

/-- The hub once the hits of a group have been taken from those that wait, and before its engine shows them. -/
def Hub.hitsTaken (h : Hub) (g : Nat) : Hub :=
  { h with
    hits := h.hits.filter fun y => !(y.ch / 32 == g && y.slot == h.slot - 6#48)
    dead := h.dead.filter fun d => !(d.1 / 32 == g && d.2 == h.slot - 6#48)
    seeds := (h.slot - 6#48, g, BitVec.ofNat 32 (maskOf ((nthHits 0 g (h.dueHits g)).map fun y => y.ch % 32))) ::
      h.seeds.filter fun x => decide (slotsFrom x.1 (h.slot - 6#48) < 2 ^ 15) }

/-- The hub once the engine of the group shows them, with the pile-up mask. -/
def Hub.showing (h : Hub) (g : Nat) : Hub :=
  (h.hitsTaken g).setOx g { h.oxOf g with
    prim := (nthHits 0 g (h.dueHits g)).map (h.hitsTaken g).withAmp
    sec := (nthHits 1 g (h.dueHits g)).map (h.hitsTaken g).withAmp
    pile := BitVec.ofNat 32 (h.duePile g)
    fetched := false }

theorem Hub.present_eq (g : Nat) : h.present g =
    if (h.dueHits g).isEmpty && (h.dueDead g).isEmpty then h else h.showing g := by
  have hnth (n : Nat) (l : List Hit) : (((upto 32).map fun k => l.filter fun y => y.ch == 32 * g + k).filterMap fun l =>
      (sortBy (fun y => y.toa) l)[n]?) = nthHits n g l := List.filterMap_map
  rw [Hub.dueDead, List.isEmpty_map]
  unfold Hub.present
  simp only [List.head?_eq_getElem?, hnth]
  rfl

theorem Hub.present_of_due {g : Nat} (hdue : h.dueHits g ≠ []) : h.present g = h.showing g := by
  rw [h.present_eq, if_neg]
  simp [hdue]

/-- Every other hit waits on. -/
theorem Hub.present_hits (g : Nat) :
    (h.present g).hits = h.hits.filter fun y => !(y.ch / 32 == g && y.slot == h.slot - 6#48) := by
  rw [h.present_eq]
  split
  next hnone =>
    have hhits : h.dueHits g = [] := List.isEmpty_iff.mp (Bool.and_eq_true_iff.mp hnone).1
    rw [eq_comm, List.filter_eq_self]
    intro y hy
    simpa [imp_iff_not_or] using List.filter_eq_nil_iff.mp hhits y hy
  next =>
    rw [Hub.showing, Hub.setOx_hits]
    rfl

/-- The other engines, and the mode, are as they were. -/
theorem Hub.present_others (g : Nat) :
    (∀ e, e ≠ g → (h.present g).oxOf e = h.oxOf e) ∧ (h.present g).mode = h.mode := by
  rw [h.present_eq]
  split
  · exact ⟨fun _ _ => rfl, rfl⟩
  · refine ⟨fun e he => Hub.setOx_oxOf_other _ _ _ _ he, Hub.fld_congr ?_⟩
    rw [Hub.showing, Hub.word_setOx_belowOx _ _ _ (by decide)]
    rfl

/-- Slot and times of the hits of a channel among those that an engine shows. -/
def shown (l : List Hit) (c : Nat) : List (W48 × Nat × Nat) := (l.filter fun z => z.ch == c).map fun z => (z.slot, z.toa, z.tot)

/-- The amplitude that presentation adds changes neither the channel of a hit nor its times. -/
theorem Hub.shown_withAmp (l : List Hit) (c : Nat) : shown (l.map h.withAmp) c = shown l c := by
  rw [shown, List.filter_map, List.map_map]
  rfl

/-- Of each channel with hits the engine shows the earliest as the primary, and the next as the secondary (R106). -/
theorem Hub.present_shown {g k : Nat} (hdue : h.dueHits g ≠ []) (hk : k < 32) :
    shown ((h.present g).oxOf g).prim (32 * g + k) =
      ((hitsOf (h.dueHits g) (32 * g + k)).take 1).map (fun z => (z.slot, z.toa, z.tot)) ∧
    shown ((h.present g).oxOf g).sec (32 * g + k) =
      (((hitsOf (h.dueHits g) (32 * g + k)).drop 1).take 1).map (fun z => (z.slot, z.toa, z.tot)) := by
  rw [h.present_of_due hdue, Hub.showing, Hub.setOx_oxOf]
  dsimp only
  rw [Hub.shown_withAmp, Hub.shown_withAmp, shown, shown, nthHits_filter _ _ _ hk, nthHits_filter _ _ _ hk]
  exact ⟨rfl, rfl⟩

/-- The mask of one number. -/
theorem bit_maskOf_single (m k : Nat) (hk : k < 32) : bit (BitVec.ofNat 32 (maskOf [m])).toNat k = (k == m) := by
  have hmask : maskOf [m] = 2 ^ m := by simp [maskOf, bit]
  rw [hmask, bit_eq_testBit, BitVec.toNat_ofNat, Nat.testBit_mod_two_pow, Nat.testBit_two_pow, Bool.beq_comm]
  simp [hk, Bool.beq_eq_decide_eq]

/-- Two hits of one channel and no dead-time crossing: the later one sets PILEUP of the channel, and no other (R111). -/
theorem Hub.present_pair {x y : Hit} (hch : y.ch = x.ch) (hxy : x.toa ≤ y.toa) (hx : x.slot = h.slot - 6#48)
    (hy : y.slot = x.slot) (hdead : h.dead = []) (hhits : h.hits = [x, y]) :
    h.present (x.ch / 32) = (h.hitsTaken (x.ch / 32)).setOx (x.ch / 32) { h.oxOf (x.ch / 32) with
      prim := [(h.hitsTaken (x.ch / 32)).withAmp x]
      sec := [(h.hitsTaken (x.ch / 32)).withAmp y]
      pile := BitVec.ofNat 32 (maskOf [x.ch % 32])
      fetched := false } := by
  have hdue : h.dueHits (x.ch / 32) = [x, y] := by simp [Hub.dueHits, hhits, hch, hy, hx]
  have hpile : h.duePile (x.ch / 32) = maskOf [x.ch % 32] := by
    simp [Hub.duePile, Hub.dueDead, hdead, hdue, nthHits_pair _ hch hxy, hch]
  rw [h.present_of_due (by simp [hdue]), Hub.showing, hpile, hdue, nthHits_pair 0 hch hxy, nthHits_pair 1 hch hxy]
  rfl

/-- Settles O26: what is presented in a running mode, in the other modes, and of two hits of one channel. -/
theorem hitsArePresented : Obligations.HitsArePresented := by
  unfold Obligations.HitsArePresented
  refine ⟨fun s g hlive => ⟨_, rfl, ?runs⟩, fun s g hlive => ⟨_, rfl, ?waits⟩,
    fun s g x y hlive hg hch hxy hx hy hdead hhits => ⟨_, rfl, ?pair⟩⟩
  case runs =>
    rw [if_pos hlive]
    exact ⟨s.hub.present_hits g, fun hdue k hk => s.hub.present_shown hdue hk, s.hub.present_others g⟩
  case waits => simp [hlive]
  case pair =>
    have hothers := (s.hub.present_others g).1
    have hleft := s.hub.present_hits g
    rw [if_pos hlive, ← hg]
    rw [← hg] at hothers hleft
    refine ⟨?_, ?_⟩
    · simp [hleft, hhits, hch, hy, hx]
    · rw [s.hub.present_pair hch hxy hx hy hdead hhits] at hothers ⊢
      rw [Hub.setOx_oxOf]
      exact ⟨rfl, rfl, fun k hk => bit_maskOf_single _ k hk, rfl, hothers⟩

end Sys2Proof.Machine
end

section
/-! SUPPORT. An exception on an engine, in a hub whose store of registers is not in canonical form. -/

namespace Sys2Proof.Machine

/-- The background of engine 1, in RUN, at bundle 7. The entry for OX_CS_B stands ahead of those for MODE_STAT and OX_CFG, which
have lower addresses. -/
def unsortedHub : Hub :=
  { regs := [(F.OX_CS_B_VSAT.addr 1, 0x100), (F.MODE_STAT_MODE.addr 0, 3), (F.OX_CFG_EN.addr 1, 1)],
    ox := [(1, { bg := { pc := 7 } })] }

/-- The vector slot of a bundle of that background, which holds nothing else. -/
def onBackground1 : Place := ⟨.oxBg 1, true, true, .ok⟩

theorem unsortedHub_not_canonical : unsortedHub.canonical = false := by
  decide +kernel

theorem unsortedHub_may : unsortedHub.may onBackground1 true {} 1 :=
  ⟨rfl, by decide +kernel⟩

/-- The hub after HITS into v8, which is no vector register (R197). -/
def unsortedHubAfterHits : Hub :=
  unsortedHub.settled (unsortedHub.runVector onBackground1 .ok fun n =>
    Act.legal (vReg 8 && (0#5) == 0 && (0#5) == 0 && bits (0#10).toNat 7 3 == 0 && decide ((0#10).toNat % 8 < 6))
      (n.slotOnly (n.hits 8 (bits (0#10).toNat 9 8) ((0#10).toNat % 8))))

theorem unsortedHub_hits (l : List Instr) : exec (.hits onBackground1 8 0 0 0) { hub := unsortedHub, pending := l } =
    .next { hub := unsortedHubAfterHits, pending := l } := (rfl)

/-- The hub as `Hub.raised` has it after ILLEGAL. -/
def unsortedHubRaised : Hub :=
  unsortedHub.settled ((unsortedHub.setOx 1 ((unsortedHub.oxOf 1).ran true 1)).oxFails onBackground1.who 1)

theorem unsortedHub_raised_iff (h : Hub) : unsortedHub.raised h onBackground1 1 ↔ h = unsortedHubRaised := by
  rw [Hub.raised, unsortedHubRaised, if_neg (by decide)]
  rfl

/-- The entries of the two stores of registers stand in different orders. -/
theorem unsortedHub_orders : unsortedHubAfterHits.regs.map Prod.fst ≠ unsortedHubRaised.regs.map Prod.fst := by
  decide +kernel

/-- Refutes O60, in its first clause, and by the form of a store alone: `Hub.raised` asks for one hub, data for data, in every
state, and a state need not be in canonical form (`unsortedHub_not_canonical`). An engine that raises an exception enters its
registers (OX_PC, OX_CS_S, OX_CS_B, OX_STAT) once as its bundle ends and again with the cycles used, where `Hub.raised` enters them
once. Each time an entry takes its place ahead of the first one with a higher address. In a store that is out of order the place
is another after the second time, so that HITS into v8 raises ILLEGAL as it should but leaves the entries in another order. -/
theorem not_assists : ¬ Obligations.Assists := by
  unfold Obligations.Assists
  intro hall
  obtain ⟨⟨hillegal, -⟩, -⟩ := hall { hub := unsortedHub, pending := [] } onBackground1 8 0 0 0 rfl
  obtain ⟨h, hexec, hraised⟩ := hillegal (by decide) unsortedHub_may
  rw [unsortedHub_hits] at hexec
  injection hexec with hs
  injection hs with hafter
  rw [unsortedHub_raised_iff, ← hafter] at hraised
  exact unsortedHub_orders (by rw [hraised])

end Sys2Proof.Machine
end

section
/-! SUPPORT. What counters, queues and reports leave of the acquisition: the triggers as far as a view of them shows, the answers
that wait, the records made, and its counters. -/

namespace Sys2Proof.Machine

/-- A ledger counter is in the registers alone. -/
theorem Hub.led_of_regs {h h' : Hub} (hregs : h'.regs = h.regs) (i : Nat) : h'.led i = h.led i :=
  Hub.led_congr (Hub.word_of_regs hregs _) (Hub.word_of_regs hregs _)

/-! ### The frame -/

/-- What of a hub the acquisition works on, with each trigger as `v` shows it. -/
structure AcqPart (β : Type) where
  trigs : List β
  l1as : List L1a
  answers : List (List W64 × Bool)
  reads : List W48
  chain : Store Chain
  recs : List Rec
  closing : Option (List W64)
  found : List (Report × Bool)

/-- The part of a hub that the acquisition works on, as `v` shows it. -/
def Hub.acqPart {β : Type} (v : Trig → β) (h : Hub) : AcqPart β where
  trigs := h.trigs.map v
  l1as := h.l1as
  answers := h.answers
  reads := h.reads
  chain := h.chain
  recs := h.mule.recs
  closing := h.mule.closing
  found := h.goose.found

/-- The words of the ledger counters 6 to 8 (R300) and of the two counters of word errors of the banks (R151). -/
abbrev acqWord (a : Nat) : Prop := 0x710C ≤ a ∧ a < 0x7112 ∨ 0x10016 ≤ a ∧ a < 0x10018

/-- What is left alone of the acquisition, and its counters. -/
structure Hub.AcqKeeps {β : Type} (v : Trig → β) (h h' : Hub) : Prop where
  part : h'.acqPart v = h.acqPart v
  word : ∀ a, acqWord a → h'.word a = h.word a

/-- A view of a trigger that does not show what has been read. -/
def ReadBlind {β : Type} (v : Trig → β) : Prop :=
  ∀ (t : Trig) (l : List Sect), l.map Sect.ch = t.sects.map Sect.ch → v { t with sects := l } = v t

section
variable {β : Type} {v : Trig → β} {h₀ h h' : Hub}

theorem Hub.AcqKeeps.refl (h : Hub) : h.AcqKeeps v h := ⟨rfl, fun _ _ => rfl⟩

theorem Hub.AcqKeeps.then (k : h₀.AcqKeeps v h) (hpart : h'.acqPart v = h.acqPart v)
    (hword : ∀ a, acqWord a → h'.word a = h.word a) :
    h₀.AcqKeeps v h' :=
  ⟨hpart.trans k.part, fun a ha => (hword a ha).trans (k.word a ha)⟩

theorem Hub.AcqKeeps.of_eq (k : h₀.AcqKeeps v h) (hpart : h'.acqPart v = h.acqPart v) (hregs : h'.regs = h.regs) :
    h₀.AcqKeeps v h' :=
  k.then hpart fun a _ => Hub.word_of_regs hregs a

theorem Hub.AcqKeeps.ite {c : Prop} [Decidable c] (k : h₀.AcqKeeps v h) (k' : h₀.AcqKeeps v h') :
    h₀.AcqKeeps v (if c then h else h') := by
  split
  · exact k
  · exact k'

theorem Hub.AcqKeeps.trigs (k : h₀.AcqKeeps v h) : h.trigs.map v = h₀.trigs.map v := congrArg AcqPart.trigs k.part

theorem Hub.AcqKeeps.trigs_eq (k : h₀.AcqKeeps id h) : h.trigs = h₀.trigs := by
  have hid := k.trigs
  rwa [List.map_id, List.map_id] at hid

theorem Hub.AcqKeeps.l1as (k : h₀.AcqKeeps v h) : h.l1as = h₀.l1as := congrArg AcqPart.l1as k.part

theorem Hub.AcqKeeps.answers (k : h₀.AcqKeeps v h) : h.answers = h₀.answers := congrArg AcqPart.answers k.part

theorem Hub.AcqKeeps.reads (k : h₀.AcqKeeps v h) : h.reads = h₀.reads := congrArg AcqPart.reads k.part

theorem Hub.AcqKeeps.chain (k : h₀.AcqKeeps v h) : h.chain = h₀.chain := congrArg AcqPart.chain k.part

theorem Hub.AcqKeeps.recs (k : h₀.AcqKeeps v h) : h.mule.recs = h₀.mule.recs := congrArg AcqPart.recs k.part

theorem Hub.AcqKeeps.closing (k : h₀.AcqKeeps v h) : h.mule.closing = h₀.mule.closing := congrArg AcqPart.closing k.part

theorem Hub.AcqKeeps.found (k : h₀.AcqKeeps v h) : h.goose.found = h₀.goose.found := congrArg AcqPart.found k.part

theorem Hub.AcqKeeps.led (k : h₀.AcqKeeps v h) {i : Nat} (hi : 6 ≤ i ∧ i ≤ 8) : h.led i = h₀.led i := by
  apply Hub.led_congr <;> apply k.word <;> simp only [acqWord, Fld.addr] <;> omega

theorem Hub.AcqKeeps.setMule (k : h₀.AcqKeeps v h) {m : Mule} (hrecs : m.recs = h.mule.recs)
    (hclosing : m.closing = h.mule.closing) :
    h₀.AcqKeeps v { h with mule := m } :=
  k.of_eq (by simp only [Hub.acqPart, hrecs, hclosing]) rfl

theorem Hub.AcqKeeps.setGoose (k : h₀.AcqKeeps v h) {g : Goose} (hg : g.found = h.goose.found) :
    h₀.AcqKeeps v { h with goose := g } :=
  k.of_eq (by simp only [Hub.acqPart, hg]) rfl

theorem Hub.AcqKeeps.setTwin (k : h₀.AcqKeeps v h) (t : Twin) : h₀.AcqKeeps v { h with twin := t } := k.of_eq rfl rfl

/-! ### Words -/

theorem Hub.AcqKeeps.setWord (k : h₀.AcqKeeps v h) {a : Nat} (w : W32) (ha : ¬ acqWord a) : h₀.AcqKeeps v (h.setWord a w) :=
  k.then rfl fun b hb => by rw [Hub.setWord_word, if_neg (ne_of_mem_of_not_mem (s := {a | acqWord a}) hb ha)]

theorem Hub.AcqKeeps.setFld (k : h₀.AcqKeeps v h) {f : Fld} {i n : Nat} (hf : ¬ acqWord (f.addr i)) :
    h₀.AcqKeeps v (h.setFld f i n) :=
  k.setWord _ hf

theorem Hub.AcqKeeps.setFlag (k : h₀.AcqKeeps v h) {f : Fld} {i : Nat} {b : Bool} (hf : ¬ acqWord (f.addr i)) :
    h₀.AcqKeeps v (h.setFlag f i b) :=
  k.setWord _ hf

theorem Hub.AcqKeeps.bump (k : h₀.AcqKeeps v h) {f : Fld} {i : Nat} (hf : ¬ acqWord (f.addr i)) : h₀.AcqKeeps v (h.bump f i) :=
  .ite (k.setWord _ hf) (k.setWord _ hf)

theorem Hub.AcqKeeps.setWords (k : h₀.AcqKeeps v h) {a : Nat} (ws : List W32) (ha : a + ws.length ≤ 0x7000) :
    h₀.AcqKeeps v (h.setWords a ws) := by
  induction ws generalizing h a with
  | nil => exact k
  | cons w rest ih =>
    rw [List.length_cons] at ha
    exact ih (k.setWord w (by omega)) (by omega)

theorem Hub.AcqKeeps.attn (k : h₀.AcqKeeps v h) (b : Nat) : h₀.AcqKeeps v (h.attn b) :=
  .ite (k.of_eq rfl rfl) ((k.setFld (by decide)).setFlag (by decide))

theorem Hub.AcqKeeps.setLed (k : h₀.AcqKeeps v h) {i : Nat} (n : Nat) (hi : i < 6 ∨ 8 < i ∧ i < 0x80) :
    h₀.AcqKeeps v (h.setLed i n) := by
  refine (k.setFld ?_).setFld ?_ <;> simp only [acqWord, Fld.addr] <;> omega

theorem Hub.AcqKeeps.ledAdd (k : h₀.AcqKeeps v h) {i : Nat} (n : Nat) (hi : i < 6 ∨ 8 < i ∧ i < 0x80) :
    h₀.AcqKeeps v (h.ledAdd i n) :=
  .ite (k.setLed _ hi) ((k.setLed _ hi).setMule rfl rfl)

/-! ### Items of a queue (R271-R274, R280) -/

section
variable {q : Nat} (hq : q < 32)
include hq

/-- The registers of the queues lie below those of the Mule. -/
theorem queueWord_apart {f : Fld} (hf : 0x6000 ≤ f.base ∧ f.base < 0x6040 ∧ f.stride = 0x40) : ¬ acqWord (f.addr q) := by
  obtain ⟨-, hbase, hstride⟩ := hf
  simp only [acqWord, Fld.addr, hstride]
  omega

theorem Hub.AcqKeeps.setQueue (k : h₀.AcqKeeps v h) (x : Queue) : h₀.AcqKeeps v (h.setQueue q x) := by
  have kq : h₀.AcqKeeps v { h with queues := Store.set (fun _ => ({} : Queue)) h.queues q x } := k.of_eq rfl rfl
  exact (kq.setFld (queueWord_apart hq (by decide))).setFlag (queueWord_apart hq (by decide))

theorem Hub.AcqKeeps.setQ (k : h₀.AcqKeeps v h) {f : Fld} {n : Nat} (hf : 0x6000 ≤ f.base ∧ f.base < 0x6040 ∧ f.stride = 0x40) :
    h₀.AcqKeeps v (h.setFld f q n) :=
  k.setFld (queueWord_apart hq hf)

theorem Hub.AcqKeeps.depthMoved (k : h₀.AcqKeeps v h) (before : Nat) : h₀.AcqKeeps v (h.depthMoved q before) := by
  unfold Hub.depthMoved
  dsimp only
  generalize hm : (if h.fld F.Q_HWM_HWM q < h.fld F.Q_STAT_DEPTH q then _ else h) = hwm
  have kw : h₀.AcqKeeps v hwm := hm ▸ .ite (k.setQ hq (by decide)) k
  have kc : h₀.AcqKeeps v ((hwm.setFld F.Q_STAT_ABOVE q 1).bump F.Q_LEVELCNT_COUNT q) :=
    (kw.setQ hq (by decide)).bump (queueWord_apart hq (by decide))
  exact .ite (kw.setQ hq (by decide)) (.ite (kw.setQ hq (by decide)) (.ite (.ite (kc.attn _) kc) (kw.setQ hq (by decide))))

theorem Hub.AcqKeeps.addPend (k : h₀.AcqKeeps v h) (n : Nat) : h₀.AcqKeeps v (h.addPend q n) :=
  .ite (k.setQ hq (by decide)) ((k.setQ hq (by decide)).setQ hq (by decide))

theorem Hub.AcqKeeps.countDrop (k : h₀.AcqKeeps v h) (hit : Bool) : h₀.AcqKeeps v (h.countDrop q hit) :=
  have kb := k.bump (f := F.Q_DROPCNT_COUNT) (queueWord_apart hq (by decide))
  .ite ((kb.ledAdd _ (by decide)).setLed _ (by decide)) (kb.ledAdd _ (by decide))

theorem Hub.AcqKeeps.enterFrom (k : h₀.AcqKeeps v h) (cyc before : Nat) (first last hit : Bool) (data : W64) :
    h₀.AcqKeeps v (h.enterFrom q cyc before first last hit data) :=
  .depthMoved hq (.setQueue hq (.ite ((k.setQ hq (by decide)).setQ hq (by decide)) k) _) _

theorem Hub.AcqKeeps.push (k : h₀.AcqKeeps v h) (data : W64) (last hit : Bool) : h₀.AcqKeeps v (h.push q data last hit).1 := by
  have kd (b : Bool) := (k.addPend hq 1).countDrop hq b
  unfold Hub.push Hub.pushFrom
  dsimp only
  split_ifs
  · exact k.enterFrom hq _ _ _ _ _ _
  · exact kd true
  · exact k.setQ hq (by decide)
  · exact k
  · exact k.enterFrom hq _ _ _ _ _ _
  · exact ((kd false).setQueue hq _).setFlag (queueWord_apart hq (by decide))

theorem Hub.AcqKeeps.pushItem (k : h₀.AcqKeeps v h) (ws : List W64) : h₀.AcqKeeps v (h.pushItem q ws) := by
  induction ws generalizing h with
  | nil => exact k
  | cons w rest ih =>
    cases rest with
    | nil => exact k.push hq _ _ _
    | cons w' rest' => exact ih (k.push hq _ _ _)

end

theorem Hub.AcqKeeps.localItem (k : h₀.AcqKeeps v h) (ws : List W64) : h₀.AcqKeeps v (h.localItem ws) :=
  .ite (k.of_eq rfl rfl) (k.pushItem (by decide) ws)

/-! ### Reports (R467, R469-R472) -/

theorem Hub.AcqKeeps.ringEntry (k : h₀.AcqKeeps v h) {e : List W32} (he : e.length = 4) : h₀.AcqKeeps v (h.ringEntry e).1 := by
  have hn : h.fld F.GS_RING_NEXT 0 < 32 := h.fld_lt F.GS_RING_NEXT 0
  have kn := (k.setWords (a := A.GS_RENT + 4 * h.fld F.GS_RING_NEXT 0) e (by simp only [A.GS_RENT]; omega)).setFld
    (f := F.GS_RING_NEXT) (i := 0) (n := (h.fld F.GS_RING_NEXT 0 + 1) % 32) (by decide)
  exact .ite (kn.setFld (by decide)) kn

theorem Hub.AcqKeeps.capture (k : h₀.AcqKeeps v h) {e : List W32} (he : e.length = 4) (c : FaultClass) :
    h₀.AcqKeeps v (h.capture e c) :=
  have kw := k.setWords (a := A.FE_W) e (by rw [he]; decide)
  .ite (kw.setFld (by decide)) (.ite (kw.setFld (by decide)) k)

theorem Hub.AcqKeeps.notice (k : h₀.AcqKeeps v h) (code : Nat) (c : FaultClass) (e : List W32) (pos : Nat) :
    h₀.AcqKeeps v (h.notice code c e pos) :=
  .ite (.setGoose (k.bump (by decide)) rfl) (.setGoose (k.localItem _) rfl)

theorem Hub.AcqKeeps.count (k : h₀.AcqKeeps v h) {f : Fld} (b : Nat) (hf : ¬ acqWord (f.addr 0)) :
    h₀.AcqKeeps v ((h.bump f 0).attn b) :=
  (k.bump hf).attn b

/-- An uncorrectable word is handed to the reserve manager (R470). -/
theorem Hub.AcqKeeps.react (k : h₀.AcqKeeps v h) {r : Report} (hr : r.code = 0x11#8) : h₀.AcqKeeps v (h.react r) := by
  have hreact : h.react r =
      { h with goose := { h.goose with repairs := h.goose.repairs ++ [(bits r.unit.toNat 9 0, r.addr.toNat)] } } := by
    simp [Hub.react, hr]
  rw [hreact]
  exact k.setGoose rfl

/-- A word error that has been corrected (10h), or has not (11h), is a report that leaves the acquisition alone. -/
theorem Hub.AcqKeeps.takeReport (k : h₀.AcqKeeps v h) {r : Report} (hr : r.code = 0x10#8 ∨ r.code = 0x11#8) (cycle : Nat)
    (known : Bool) : h₀.AcqKeeps v (h.takeReport cycle r known) := by
  unfold Hub.takeReport
  have hcode : ¬ acqWord (F.GS_CODECNT_COUNT.addr r.code.toNat) := by
    obtain hr | hr := hr <;> rw [hr] <;> decide
  obtain hr | hr := hr
  · have hc : faultClass r.code.toNat = some .corrected := by rw [hr]; decide
    simp only [hc]
    have kb := k.bump hcode
    have kt := (kb.count (f := F.GS_CORCNT_COUNT) aCorrected (by decide)).setTwin
    exact .ite kb (.ite (.setGoose ((kt _).ringEntry rfl) rfl) (kt _))
  · have hc : faultClass r.code.toNat = some .contained := by rw [hr]; decide
    simp only [hc]
    have kb := k.bump hcode
    have kt := (kb.count (f := F.GS_CONTCNT_COUNT) aContained (by decide)).setTwin
    exact .ite kb (.setGoose (((((kt _).ringEntry rfl).capture rfl _).react hr).notice _ _ _ _) rfl)

end

end Sys2Proof.Machine
end

section
/-! SUPPORT. Positions that are added to the sections of pending triggers (R166, R169), and the assembly of parts (R281, R283). -/

namespace Sys2Proof.Machine

/-! ### What a view of the triggers keeps -/

theorem map_set_of_eq {α β : Type} {f : α → β} {l : List α} {i : Nat} {x y : α} (hx : l[i]? = some x) (hf : f y = f x) :
    (l.set i y).map f = l.map f := by
  obtain ⟨hi, rfl⟩ := List.getElem?_eq_some_iff.mp hx
  have hmap : f l[i] = (l.map f)[i]'(by simpa using hi) := List.getElem_map f |>.symm
  rw [List.map_set, hf, hmap, List.set_getElem_self]

section
variable {β : Type} {v : Trig → β} {h₀ h : Hub}

theorem Hub.AcqKeeps.setTrig (k : h₀.AcqKeeps v h) {i : Nat} {t t' : Trig} (ht : h.trigs[i]? = some t) (hv : v t' = v t) :
    h₀.AcqKeeps v (h.setTrig i t') :=
  k.of_eq (by simp only [Hub.acqPart, Hub.setTrig, map_set_of_eq ht hv]) rfl

theorem Hub.AcqKeeps.gapped (k : h₀.AcqKeeps v h) (n : Nat) : h₀.AcqKeeps v (h.gapped n) :=
  (k.ledAdd _ (by decide)).setLed _ (by decide)

theorem Hub.AcqKeeps.refreshTrigs (k : h₀.AcqKeeps v h) : h₀.AcqKeeps v h.refreshTrigs :=
  (k.setFld (by decide)).setFlag (by decide)

theorem Hub.AcqKeeps.refreshMule (k : h₀.AcqKeeps v h) : h₀.AcqKeeps v h.refreshMule := (k.setFld (by decide)).setFld (by decide)

theorem Hub.AcqKeeps.setOx (k : h₀.AcqKeeps v h) (e : Nat) (x : Ox) : h₀.AcqKeeps v (h.setOx e x) :=
  k.then (by simp only [Hub.acqPart, Hub.setOx_trigs, Hub.setOx_l1as, Hub.setOx_answers, Hub.setOx_reads, Hub.setOx_chain,
    Hub.setOx_mule, Hub.setOx_goose]) fun a ha => h.word_setOx_belowOx e x (by unfold acqWord at ha; omega)

/-- Notices for the engines (R259). -/
theorem Hub.AcqKeeps.notices (k : h₀.AcqKeeps v h) (num : W24) (e : W48) : h₀.AcqKeeps v (h.notices num e) := by
  refine forN_induction _ k fun j h kj => .ite (.ite (kj.setOx _ _) (kj.bump ?_)) kj
  simp only [acqWord, Fld.addr]
  omega

/-- Blocks that the parts in assembly take (R281). -/
theorem Hub.AcqKeeps.assembles (k : h₀.AcqKeeps v h) (hv : ∀ (t : Trig) (n : Nat), v { t with blocks := n } = v t) :
    h₀.AcqKeeps v h.assembles := by
  refine .refreshMule (forN_induction _ (k.setFlag (by decide)) fun i h ki => ?_)
  split
  next t ht => exact .ite ki (.ite (ki.setTrig ht (hv t _)) (ki.setFld (by decide)))
  next => exact ki

section
variable (hv : ReadBlind v)
include hv

theorem Hub.AcqKeeps.addPos (k : h₀.AcqKeeps v h) (i j : Nat) (l : List Pos) : h₀.AcqKeeps v (h.addPos i j l) := by
  unfold Hub.addPos
  split
  next t ht =>
    split
    next c hc =>
      have hch : (t.sects.set j { c with got := c.got ++ l }).map Sect.ch = t.sects.map Sect.ch := map_set_of_eq hc rfl
      exact (k.setTrig ht (hv t _ hch)).gapped _
    next => exact k
  next => exact k

theorem Hub.AcqKeeps.leadAll (k : h₀.AcqKeeps v h) (i : Nat) (all : Bool) : h₀.AcqKeeps v (h.leadAll i all) := by
  unfold Hub.leadAll
  split
  next t _ =>
    refine forN_induction _ k fun j h kj => ?_
    split
    · exact kj.addPos hv _ _ _
    · exact kj
  next => exact k

theorem Hub.AcqKeeps.settle (k : h₀.AcqKeeps v h) : h₀.AcqKeeps v h.settle := by
  refine forN_induction _ k fun i h ki => ?_
  split
  next t _ => exact .ite (ki.leadAll hv _ _) ki
  next => exact ki

/-- What stands at the accept is noted apart (R166). -/
theorem Hub.AcqKeeps.markEarly (k : h₀.AcqKeeps v h) (i : Nat) : h₀.AcqKeeps v (h.markEarly i) := by
  unfold Hub.markEarly
  split
  next t ht => exact k.setTrig ht (hv t _ (by simp [Function.comp_def]))
  next => exact k

end

end

/-! ### What the engine waits for (R277, R283) -/

theorem Hub.acqBlocked_congr {h h' : Hub} (hstall : h'.word A.MULE_STAT = h.word A.MULE_STAT) (hq : h'.queues = h.queues) :
    h'.acqBlocked = h.acqBlocked := by
  rw [Hub.acqBlocked, Hub.acqBlocked, Hub.flag_congr (f := F.MULE_STAT_ACQ_STALL) (i := 0) hstall, Hub.queue, Hub.queue, hq]

theorem Hub.acqBlocked_gapped (h : Hub) (n : Nat) : (h.gapped n).acqBlocked = h.acqBlocked := by
  have hword (i v : Nat) (h : Hub) : (h.setLed i v).word A.MULE_STAT = h.word A.MULE_STAT := by
    have hlo : A.MULE_STAT ≠ F.LED_LO_V.addr i := by simp only [A.MULE_STAT, Fld.addr]; omega
    have hhi : A.MULE_STAT ≠ F.LED_HI_V.addr i := by simp only [A.MULE_STAT, Fld.addr]; omega
    rw [Hub.setLed, Hub.word_setFld_other _ _ _ _ hhi, Hub.word_setFld_other _ _ _ _ hlo]
  refine Hub.acqBlocked_congr ?_ ?_
  · rw [Hub.gapped, Hub.ledSub, hword, Hub.word_of_regs (h.ledAdd_regs _ _), hword]
  · simp only [Hub.gapped, Hub.ledSub, Hub.setLed_queues, Hub.ledAdd, apply_ite Hub.queues, ite_self]

section
variable (h : Hub)

theorem Hub.acqBlocked_addPos (i j : Nat) (l : List Pos) : (h.addPos i j l).acqBlocked = h.acqBlocked := by
  unfold Hub.addPos
  split
  · split
    · exact Hub.acqBlocked_gapped _ _
    · rfl
  · rfl

theorem Hub.acqBlocked_leadAll (i : Nat) (all : Bool) : (h.leadAll i all).acqBlocked = h.acqBlocked := by
  unfold Hub.leadAll
  split
  · refine forN_induction (P := fun h' => h'.acqBlocked = h.acqBlocked) _ rfl fun j (h' : Hub) hj => ?_
    split
    · exact (h'.acqBlocked_addPos _ _ _).trans hj
    · exact hj
  · rfl

theorem Hub.acqBlocked_settle : h.settle.acqBlocked = h.acqBlocked := by
  refine forN_induction (P := fun h' => h'.acqBlocked = h.acqBlocked) _ rfl fun i (h' : Hub) hi => ?_
  split
  · split
    · exact (h'.acqBlocked_leadAll _ _).trans hi
    · exact hi
  · exact hi

end

/-! ### Sections grow -/

/-- Section `j` of trigger `i`. -/
def Hub.sect (h : Hub) (i j : Nat) : Option Sect := h.trigs[i]?.bind fun t => t.sects[j]?

/-- Every section is there still, with no position of it changed. -/
def Hub.Grows (h h' : Hub) : Prop :=
  ∀ i j c, h.sect i j = some c → ∃ c', h'.sect i j = some c' ∧ c'.ch = c.ch ∧ c.got <+: c'.got

theorem Hub.Grows.refl (h : Hub) : h.Grows h := fun _ _ c hc => ⟨c, hc, rfl, List.prefix_rfl⟩

theorem Hub.Grows.trans {h₁ h₂ h₃ : Hub} (k : h₁.Grows h₂) (k' : h₂.Grows h₃) : h₁.Grows h₃ := by
  intro i j c hc
  obtain ⟨c₂, hc₂, hch₂, hpre₂⟩ := k i j c hc
  obtain ⟨c₃, hc₃, hch₃, hpre₃⟩ := k' i j c₂ hc₂
  exact ⟨c₃, hc₃, hch₃.trans hch₂, hpre₂.trans hpre₃⟩

theorem Hub.sect_congr {h h' : Hub} (ht : h'.trigs.map Trig.sects = h.trigs.map Trig.sects) (i j : Nat) :
    h'.sect i j = h.sect i j := by
  have hview (h : Hub) : h.sect i j = ((h.trigs.map Trig.sects)[i]?).bind fun l => l[j]? := by
    simp [Hub.sect, Option.bind_map]
  rw [hview, hview, ht]

variable {h : Hub}

/-- The section that positions are added to, and the others. -/
theorem Hub.addPos_sect {i j : Nat} {c : Sect} (hc : h.sect i j = some c) (l : List Pos) (i' j' : Nat) :
    (h.addPos i j l).sect i' j' = if i' = i ∧ j' = j then some { c with got := c.got ++ l } else h.sect i' j' := by
  obtain ⟨t, ht, hct⟩ := Option.bind_eq_some_iff.mp hc
  obtain ⟨hi, -⟩ := List.getElem?_eq_some_iff.mp ht
  obtain ⟨hj, -⟩ := List.getElem?_eq_some_iff.mp hct
  have htrigs : (h.addPos i j l).trigs = h.trigs.set i { t with sects := t.sects.set j { c with got := c.got ++ l } } := by
    simp only [Hub.addPos, ht, hct, Hub.gapped, Hub.ledSub, Hub.setLed_trigs, Hub.ledAdd, apply_ite Hub.trigs, ite_self]
    rfl
  rw [Hub.sect, Hub.sect, htrigs, List.getElem?_set]
  by_cases hii : i' = i
  · subst hii
    by_cases hjj : j' = j
    · subst hjj
      simp [hi, hj]
    · rw [if_pos rfl, if_pos hi, ht]
      simp [hjj, Ne.symm hjj]
  · simp [hii, Ne.symm hii]

theorem Hub.grows_addPos (i j : Nat) (l : List Pos) : h.Grows (h.addPos i j l) := by
  cases hsect : h.sect i j with
  | none =>
    have hidle : h.addPos i j l = h := by
      unfold Hub.addPos
      split
      next t ht =>
        have hnone : t.sects[j]? = none := by simpa [Hub.sect, ht] using hsect
        simp only [hnone]
      next => rfl
    rw [hidle]
    exact .refl h
  | some c =>
    intro i' j' c' hc'
    rw [Hub.addPos_sect hsect]
    split
    next heq =>
      rw [heq.1, heq.2, hsect] at hc'
      obtain rfl := Option.some.inj hc'
      exact ⟨_, rfl, rfl, List.prefix_append _ _⟩
    next => exact ⟨c', hc', rfl, List.prefix_rfl⟩

theorem Hub.grows_leadAll (i : Nat) (all : Bool) : h.Grows (h.leadAll i all) := by
  unfold Hub.leadAll
  split
  · refine forN_induction (P := fun h' => h.Grows h') _ (.refl h) fun j (h' : Hub) hj => ?_
    split
    · exact hj.trans (h'.grows_addPos _ _ _)
    · exact hj
  · exact .refl h

end Sys2Proof.Machine
end

section
/-! SUPPORT. L1As at their accept slot (R154, R155, R172-R174). -/

namespace Sys2Proof.Machine

variable (h : Hub)

/-! ### The L1As that are due -/

theorem Hub.accepts_none (hwait : ∀ x ∈ h.l1as, reached h.slot x.accept = false) : h.accepts = h.refreshTrigs := by
  have hdue : h.l1as.filter (fun x => reached h.slot x.accept) = [] := List.filter_eq_nil_iff.mpr fun x hx => by simp [hwait x hx]
  have hrest : h.l1as.filter (fun x => !reached h.slot x.accept) = h.l1as :=
    List.filter_eq_self.mpr fun x hx => by simp [hwait x hx]
  rw [Hub.accepts, hdue, hrest]
  rfl

theorem Hub.accepts_first {x : L1a} {rest : List L1a} (hl1as : h.l1as = x :: rest) (hx : reached h.slot x.accept = true)
    (hwait : ∀ y ∈ rest, reached h.slot y.accept = false) :
    h.accepts = (({ h with l1as := rest } : Hub).acceptL1a x).refreshTrigs := by
  have hdue : h.l1as.filter (fun x => reached h.slot x.accept) = [x] := by
    rw [hl1as, List.filter_cons, if_pos hx, List.filter_eq_nil_iff.mpr fun y hy => by simp [hwait y hy]]
  have hrest : h.l1as.filter (fun x => !reached h.slot x.accept) = rest := by
    rw [hl1as, List.filter_cons, if_neg (by simp [hx]), List.filter_eq_self.mpr fun y hy => by simp [hwait y hy]]
  rw [Hub.accepts, hdue, hrest]
  rfl

theorem Hub.refreshTrigs_word {a : Nat} (ha : a ≠ A.ACQ_STAT) : h.refreshTrigs.word a = h.word a := by
  rw [Hub.refreshTrigs, Hub.word_setFlag_other _ _ _ _ ha, Hub.word_setFld_other _ _ _ _ ha]

/-! ### One L1A -/

/-- Whether an L1A is read with profile L, by the settings of its origin (R159). -/
def Hub.longOf (h : Hub) (x : L1a) : Bool :=
  let st := h.settingsAt x.origin
  decide (setOf st F.ACQ_LSEL_LPRESC 0 ≠ 0) &&
    x.num.toNat % setOf st F.ACQ_LSEL_LPRESC 0 == setOf st F.ACQ_LSEL_LPHASE 0

/-- The counter of a reason of hold-off (R173). -/
def holdOffCounter (r : Nat) : Fld :=
  if r = 0 then F.ACQ_HOFFTIME_COUNT else if r = 1 then F.ACQ_HOFFCNT_COUNT else if r = 2 then F.ACQ_HOFFFULL_COUNT
  else F.ACQ_HOFFSTOP_COUNT

theorem holdOffCounter_base (r : Nat) : 0x10011 ≤ (holdOffCounter r).base := by
  unfold holdOffCounter
  split_ifs <;> decide

/-- The HELD-OFF record of an L1A (R174). -/
def Hub.heldOffRecord (h : Hub) (x : L1a) (r : Nat) : List W64 × Bool :=
  ([header tHeldOff h.address (32 + 8 * b2n x.inferred + r) x.num.toNat 2], true)

/-- A record that waits for the Mule behind the others. -/
def Hub.answered (h : Hub) (a : List W64 × Bool) : Hub := { h with answers := h.answers ++ [a] }

theorem Hub.answered_eqs (a : List W64 × Bool) : (h.answered a).l1as = h.l1as ∧ (h.answered a).trigs = h.trigs ∧
    (h.answered a).answers = h.answers ++ [a] ∧ (h.answered a).regs = h.regs :=
  ⟨rfl, rfl, rfl, rfl⟩

/-- An L1A received and held off, but for its record. -/
def Hub.heldOffCounted (h : Hub) (r : Nat) : Hub := ((h.ledAdd 6 1).bump (holdOffCounter r) 0).ledAdd 8 1

theorem Hub.ledAdd_reads (i n : Nat) : (h.ledAdd i n).reads = h.reads := by
  simp only [Hub.ledAdd, apply_ite Hub.reads, Hub.setLed_reads, ite_self]

theorem Hub.ledAdd_trigs (i n : Nat) : (h.ledAdd i n).trigs = h.trigs := by
  simp only [Hub.ledAdd, apply_ite Hub.trigs, Hub.setLed_trigs, ite_self]

theorem Hub.ledAdd_answers (i n : Nat) : (h.ledAdd i n).answers = h.answers := by
  simp only [Hub.ledAdd, apply_ite Hub.answers, Hub.setLed_answers, ite_self]

theorem Hub.ledAdd_l1as (i n : Nat) : (h.ledAdd i n).l1as = h.l1as := by
  simp only [Hub.ledAdd, apply_ite Hub.l1as, Hub.setLed_l1as, ite_self]

theorem Hub.heldOff_ledAdd (i n : Nat) (hi : i < 0x80) (st : Store W32) (long : Bool) (o : W48) :
    (h.ledAdd i n).heldOff st long o = h.heldOff st long o := by
  have hstopped : (h.ledAdd i n).flag F.ACQ_MASKCTL_STOPPED 0 = h.flag F.ACQ_MASKCTL_STOPPED 0 :=
    Hub.flag_congr (h.word_ledAdd_aboveLedger (by decide) i n hi)
  simp only [Hub.heldOff, hstopped, Hub.ledAdd_reads, Hub.ledAdd_trigs]

theorem Hub.acceptL1a_ignored (x : L1a) (hlive : h.live = false) : h.acceptL1a x = h.bump F.ACQ_TRIGIGN_COUNT 0 := by
  rw [Hub.acceptL1a, hlive, if_pos (by decide)]

theorem Hub.acceptL1a_heldOff {x : L1a} {r : Nat} (hlive : h.live = true)
    (hoff : h.heldOff (h.settingsAt x.origin) (h.longOf x) x.origin = some r) :
    h.acceptL1a x = (h.heldOffCounted r).answered (h.heldOffRecord x r) := by
  have haddr : ((h.ledAdd 6 1).bump (holdOffCounter r) 0).address = h.address := by
    have hlo := holdOffCounter_base r
    refine Hub.fld_congr ((Hub.word_bump_other _ _ _ ?_).trans ?_)
    · simp only [Fld.addr]
      omega
    · rw [Hub.word_of_regs (h.ledAdd_regs 6 1), Hub.setLed, Hub.word_setFld_other _ _ _ _ (by decide),
        Hub.word_setFld_other _ _ _ _ (by decide)]
  rw [← h.heldOff_ledAdd 6 1 (by decide)] at hoff
  rw [Hub.acceptL1a, hlive, if_neg (by decide)]
  dsimp only
  split
  next r' heq =>
    obtain rfl : r' = r := Option.some.inj (heq.symm.trans hoff)
    rw [Hub.heldOffRecord, ← haddr]
    simp only [Hub.answered, Hub.heldOffCounted, Hub.ledAdd_answers, holdOffCounter]
  next heq => exact absurd (heq.symm.trans hoff) (by simp)

theorem Hub.acceptL1a_read {x : L1a} (hlive : h.live = true)
    (hoff : h.heldOff (h.settingsAt x.origin) (h.longOf x) x.origin = none) :
    h.acceptL1a x = (h.ledAdd 6 1).readTrigger x (h.settingsAt x.origin) (h.longOf x) := by
  rw [← h.heldOff_ledAdd 6 1 (by decide)] at hoff
  rw [Hub.acceptL1a, hlive, if_neg (by decide)]
  dsimp only
  split
  next r' heq => exact absurd (heq.symm.trans hoff) (by simp)
  next => rfl

/-! ### A trigger that is read -/

/-- What an L1A fixes of its trigger: number, INFERRED, origin slot, event slot and profile. -/
def Trig.fixed (t : Trig) : W24 × Bool × W48 × W48 × Bool := (t.num, t.inferred, t.origin, t.event, t.long)

theorem Trig.fixed_readBlind : ReadBlind Trig.fixed := fun _ _ _ => rfl

/-- A pending trigger stands behind those before it, and its origin ahead of those kept for the hold-off (R173). -/
def Hub.trigEntered (h : Hub) (t : Trig) : Hub := { h with trigs := h.trigs ++ [t], reads := t.origin :: h.reads.take 15 }

theorem Hub.trigEntered_eqs (t : Trig) : (h.trigEntered t).l1as = h.l1as ∧ (h.trigEntered t).answers = h.answers ∧
    (h.trigEntered t).reads = t.origin :: h.reads.take 15 ∧ (h.trigEntered t).trigs = h.trigs ++ [t] ∧
    (h.trigEntered t).regs = h.regs :=
  ⟨rfl, rfl, rfl, rfl, rfl⟩

theorem Hub.AcqKeeps.trigEntered {β : Type} {v : Trig → β} {h₀ h : Hub} (k : h₀.AcqKeeps v h) (t : Trig) :
    (h₀.trigEntered t).AcqKeeps v (h.trigEntered t) := by
  refine ⟨?_, k.word⟩
  simp only [Hub.acqPart, Hub.trigEntered, List.map_append, k.trigs, k.l1as, k.answers, k.reads, k.chain, k.recs, k.closing,
    k.found]

/-- A trigger is counted and entered (R163, R187); what stands next in it is added, and noted as covered at its accept (R166). -/
theorem Hub.readTrigger_keeps (x : L1a) (st : Store W32) (long : Bool) :
    ∃ t : Trig, t.fixed = (x.num, x.inferred, x.origin, x.origin - BitVec.ofNat 48 (setOf st F.ACQ_LAT_LAT 0), long) ∧
      (h.trigEntered t).AcqKeeps Trig.fixed (h.readTrigger x st long) := by
  unfold Hub.readTrigger
  dsimp only
  generalize ht : Trig.mk _ _ _ _ _ _ _ _ _ _ (Trig.streamed _) _ _ _ _ _ = t
  generalize hc : Hub.ledAdd (Hub.ledAdd _ _ _) _ _ = counted
  have kc : h.AcqKeeps Trig.fixed counted := by
    rw [← hc]
    exact ((Hub.AcqKeeps.ite (.bump (.refl h) (by decide)) (.refl h)).ledAdd _ (by decide)).ledAdd _ (by decide)
  have horigin : x.origin = t.origin := by rw [← ht]
  refine ⟨t, by rw [← ht]; rfl, ?_⟩
  rw [horigin]
  exact (((kc.trigEntered t).leadAll Trig.fixed_readBlind _ _).markEarly Trig.fixed_readBlind _).notices _ _

/-! ### What an accept comes to -/

theorem Hub.acceptL1a_ignored_spec (x : L1a) (hlive : h.live = false) :
    h.counted (h.acceptL1a x).refreshTrigs F.ACQ_TRIGIGN_COUNT 0 1 ∧ h.AcqKeeps id (h.acceptL1a x).refreshTrigs := by
  rw [h.acceptL1a_ignored x hlive]
  exact ⟨(h.counted_bump _ _ (by decide) (by decide)).of_word (Hub.refreshTrigs_word _ (by decide)),
    (Hub.AcqKeeps.bump (.refl h) (by decide)).refreshTrigs⟩

theorem Hub.heldOffCounted_led (r : Nat) :
    (h.heldOffCounted r).led 6 = (h.led 6 + 1) % 2 ^ 48 ∧ (h.heldOffCounted r).led 8 = (h.led 8 + 1) % 2 ^ 48 := by
  have hbump (h : Hub) (j : Nat) (hj : j < 0x80) : (h.bump (holdOffCounter r) 0).led j = h.led j :=
    h.led_bump 0 j (le_trans (by decide) (holdOffCounter_base r)) hj
  constructor
  · rw [Hub.heldOffCounted, Hub.led_ledAdd_other _ _ (by decide), hbump _ _ (by decide), Hub.led_ledAdd_same]
  · rw [Hub.heldOffCounted, Hub.led_ledAdd_same, hbump _ _ (by decide), Hub.led_ledAdd_other _ _ (by decide)]

theorem Hub.heldOffCounted_keeps (r : Nat) :
    (h.heldOffCounted r).l1as = h.l1as ∧ (h.heldOffCounted r).trigs = h.trigs ∧ (h.heldOffCounted r).answers = h.answers := by
  refine ⟨?_, ?_, ?_⟩
  · rw [Hub.heldOffCounted, Hub.ledAdd_l1as, Hub.bump_l1as, Hub.ledAdd_l1as]
  · rw [Hub.heldOffCounted, Hub.ledAdd_trigs, Hub.bump_trigs, Hub.ledAdd_trigs]
  · rw [Hub.heldOffCounted, Hub.ledAdd_answers, Hub.bump_answers, Hub.ledAdd_answers]

theorem Hub.acceptL1a_heldOff_spec {x : L1a} {r : Nat} (hlive : h.live = true)
    (hoff : h.heldOff (h.settingsAt x.origin) (h.longOf x) x.origin = some r) :
    let h' := (h.acceptL1a x).refreshTrigs
    h'.l1as = h.l1as ∧ h'.trigs = h.trigs ∧ h'.answers = h.answers ++ [h.heldOffRecord x r] ∧
      h'.led 6 = (h.led 6 + 1) % 2 ^ 48 ∧ h'.led 8 = (h.led 8 + 1) % 2 ^ 48 := by
  rw [h.acceptL1a_heldOff hlive hoff]
  obtain ⟨hled6, hled8⟩ := h.heldOffCounted_led r
  obtain ⟨hl1as, htrigs, hans0⟩ := h.heldOffCounted_keeps r
  obtain ⟨hl1as', htrigs', hans, hregs⟩ := (h.heldOffCounted r).answered_eqs (h.heldOffRecord x r)
  have hled (i : Nat) := Hub.led_of_regs hregs i
  rw [hl1as] at hl1as'
  rw [htrigs] at htrigs'
  rw [hans0] at hans
  generalize (h.heldOffCounted r).answered (h.heldOffRecord x r) = g at hl1as' htrigs' hans hled ⊢
  have k : g.AcqKeeps id g.refreshTrigs := (Hub.AcqKeeps.refl g).refreshTrigs
  have ht : g.refreshTrigs.trigs = g.trigs := k.trigs_eq
  exact ⟨k.l1as.trans hl1as', ht.trans htrigs', k.answers.trans hans, (k.led (by decide)).trans ((hled 6).trans hled6),
    (k.led (by decide)).trans ((hled 8).trans hled8)⟩

theorem Hub.acceptL1a_read_spec {x : L1a} (hlive : h.live = true)
    (hoff : h.heldOff (h.settingsAt x.origin) (h.longOf x) x.origin = none) :
    let h' := (h.acceptL1a x).refreshTrigs
    ∃ t : Trig, t.fixed = (x.num, x.inferred, x.origin,
        x.origin - BitVec.ofNat 48 (setOf (h.settingsAt x.origin) F.ACQ_LAT_LAT 0), h.longOf x) ∧
      h'.l1as = h.l1as ∧ h'.answers = h.answers ∧ h'.reads = x.origin :: h.reads.take 15 ∧
      h'.trigs.map Trig.fixed = h.trigs.map Trig.fixed ++ [t.fixed] ∧ h'.led 6 = (h.led 6 + 1) % 2 ^ 48 := by
  rw [h.acceptL1a_read hlive hoff]
  obtain ⟨t, ht, k⟩ := (h.ledAdd 6 1).readTrigger_keeps x (h.settingsAt x.origin) (h.longOf x)
  replace k := k.refreshTrigs
  have horigin : t.origin = x.origin := congrArg (fun y => y.2.2.1) ht
  obtain ⟨hl1as, hans, hreads, htrigs, hregs⟩ := (h.ledAdd 6 1).trigEntered_eqs t
  rw [h.ledAdd_l1as] at hl1as
  rw [h.ledAdd_answers] at hans
  rw [h.ledAdd_reads, horigin] at hreads
  rw [h.ledAdd_trigs] at htrigs
  refine ⟨t, ht, k.l1as.trans hl1as, k.answers.trans hans, k.reads.trans hreads, ?_, ?_⟩
  · rw [k.trigs, htrigs, List.map_append, List.map_singleton]
  · exact (k.led (by decide)).trans ((Hub.led_of_regs hregs 6).trans (h.led_ledAdd_same 6 1))

/-! ### O28 -/

theorem answers_triggerAccept {s : State} {P : Hub → Prop} (hP : P s.hub.accepts) : Answers .triggerAccept s P := ⟨_, rfl, hP⟩

/-- Settles O28: no L1A that is due; then one that is due, ignored, held off or read. -/
theorem triggersAreAccepted : Obligations.TriggersAreAccepted := by
  unfold Obligations.TriggersAreAccepted
  refine ⟨fun s hwait => answers_triggerAccept ?_, fun s x rest hl1as hx hwait => answers_triggerAccept ?_⟩
  · rw [s.hub.accepts_none hwait]
    exact ⟨rfl, rfl, rfl, fun a ha => s.hub.refreshTrigs_word (List.ne_of_not_mem_cons ha)⟩
  · rw [s.hub.accepts_first hl1as hx hwait]
    -- the hub without that L1A reads as the hub does, in all that its accept goes by
    have hignored := Hub.acceptL1a_ignored_spec { s.hub with l1as := rest } x
    have hheld (r : Nat) := Hub.acceptL1a_heldOff_spec (h := { s.hub with l1as := rest }) (x := x) (r := r)
    have hread := Hub.acceptL1a_read_spec (h := { s.hub with l1as := rest }) (x := x)
    cases hlive : s.hub.live with
    | false =>
      obtain ⟨hcount, k⟩ := hignored hlive
      exact ⟨k.l1as, fun _ => ⟨hcount, k.trigs_eq, k.led (by decide)⟩, nofun, nofun, nofun⟩
    | true =>
      cases hoff : s.hub.heldOff (s.hub.settingsAt x.origin) (s.hub.longOf x) x.origin with
      | some r =>
        obtain ⟨hl, ht, ha, hled6, hled8⟩ := hheld r hlive hoff
        refine ⟨hl, nofun, fun _ => hled6, fun r' _ hr' => ?_, fun _ hnone => ?_⟩
        · obtain rfl : r = r' := Option.some.inj (hoff.symm.trans hr')
          exact ⟨ht, hled8, ha⟩
        · exact absurd (hoff.symm.trans hnone) (by simp)
      | none =>
        obtain ⟨t, hfixed, hl, ha, hr, ht, hled6⟩ := hread hlive hoff
        refine ⟨hl, nofun, fun _ => hled6, fun r' _ hr' => absurd (hoff.symm.trans hr') (by simp), fun _ _ => ⟨ha, hr, ?_, ?_⟩⟩
        · simpa using congrArg List.length ht
        · have hlast := congrArg List.getLast? ht
          rw [List.getLast?_map, List.getLast?_append, hfixed] at hlast
          exact hlast

end Sys2Proof.Machine
end

section
/-! SUPPORT. Reading of records (R151, R164-R166): the start, and one access of a bank. -/

namespace Sys2Proof.Machine

/-! ### The start of reading (R164) -/

/-- `n` passes that each change the element of their own number change the first `n` elements. -/
theorem getElem?_forN_modify {α : Type} (g : α → α) (l : List α) (n k : Nat) :
    (forN n l fun i l => l.modify i g)[k]? = if k < n then l[k]?.map g else l[k]? := by
  induction n with
  | zero => rfl
  | succ n ih =>
    have hstep : (forN (n + 1) l fun i l => l.modify i g) = (forN n l fun i l => l.modify i g).modify n g := by
      simp only [forN, upto, List.range_succ, List.foldl_append, List.foldl_cons, List.foldl_nil]
    rw [hstep, List.getElem?_modify, ih]
    by_cases hk : k = n
    · subst hk
      simp
    · have hlt : k < n + 1 ↔ k < n := by omega
      simp [Ne.symm hk, hlt]

theorem forN_modify_all {α : Type} (g : α → α) (l : List α) : (forN l.length l fun i l => l.modify i g) = l.map g := by
  apply List.ext_getElem?
  intro k
  rw [getElem?_forN_modify, List.getElem?_map]
  split
  · rfl
  next hk => simp [List.getElem?_eq_none (Nat.le_of_not_lt hk)]

theorem map_set_eq_modify {α β : Type} {f : α → β} {g : β → β} {l : List α} {i : Nat} {x y : α} (hx : l[i]? = some x)
    (hf : f y = g (f x)) : (l.set i y).map f = (l.map f).modify i g := by
  apply List.ext_getElem?
  intro k
  rw [List.getElem?_map, List.getElem?_set, List.getElem?_modify, List.getElem?_map]
  by_cases hk : i = k
  · subst hk
    obtain ⟨hi, rfl⟩ := List.getElem?_eq_some_iff.mp hx
    simp [hi, hf]
  · simp [hk]

/-- Passes over two kinds of state side by side. -/
theorem forN_simulation {α β : Type} {R : α → β → Prop} {f : Nat → α → α} {g : Nat → β → β} (n : Nat) {a : α} {b : β} (h0 : R a b)
    (hstep : ∀ k a b, R a b → R (f k a) (g k b)) : R (forN n a f) (forN n b g) := by
  unfold forN
  generalize upto n = l
  induction l generalizing a b with
  | nil => exact h0
  | cons k rest ih => exact ih (hstep k a b h0)

variable (h : Hub)

theorem Hub.windowStored_congr {h h' : Hub} (hchain : h'.chain = h.chain) (t : Trig) : h'.windowStored t = h.windowStored t := by
  have hof : h'.chainOf = h.chainOf := funext fun c => by rw [Hub.chainOf, Hub.chainOf, hchain]
  rw [Hub.windowStored, Hub.windowStored, hof]

/-- What of a trigger the start of its reading goes by, in hub `h`: its number, whether it has started, and whether its window is
stored. -/
def Hub.readState (h : Hub) (t : Trig) : W24 × Bool × Bool := (t.num, t.started, h.windowStored t)

theorem Hub.readState_readBlind : ReadBlind h.readState := by
  intro t l hl
  have hall (h : Hub) (t : Trig) : h.windowStored t = (t.sects.map Sect.ch).all fun c =>
      decide (t.index (t.width - 1) < (h.chainOf c).stored) := by
    simp [Hub.windowStored, Function.comp_def]
  simp only [Hub.readState, hall, hl]
  rfl

/-- A trigger whose window is stored has started. -/
def startedWhenStored (x : W24 × Bool × Bool) : W24 × Bool × Bool := (x.1, x.2.1 || x.2.2, x.2.2)

/-- One pass of `Hub.startReads`. -/
def Hub.startRead (i : Nat) (h : Hub) : Hub :=
  match h.trigs[i]? with
  | some t =>
    if !t.started && !h.acqBlocked && h.windowStored t then (h.setTrig i { t with started := true }).leadAll i false else h
  | none => h

theorem Hub.startReads_eq : h.startReads = forN h.trigs.length h Hub.startRead := rfl

variable {h}

theorem Hub.startRead_blocked (hblocked : h.acqBlocked = true) (i : Nat) : h.startRead i = h := by
  unfold Hub.startRead
  split
  · simp [hblocked]
  · rfl

theorem Hub.startRead_unstored (hstored : ∀ t ∈ h.trigs, h.windowStored t = false) (i : Nat) : h.startRead i = h := by
  unfold Hub.startRead
  split
  next t ht => simp [hstored t (List.mem_of_getElem? ht)]
  next => rfl

/-- The pass for a trigger starts it when its window is stored. -/
theorem Hub.startRead_spec {h₀ : Hub} (hblocked : h.acqBlocked = false) (hchain : h.chain = h₀.chain) (i : Nat) :
    (h.startRead i).acqBlocked = false ∧ (h.startRead i).chain = h₀.chain ∧
      (h.startRead i).trigs.map h₀.readState = (h.trigs.map h₀.readState).modify i startedWhenStored := by
  unfold Hub.startRead
  split
  next t ht =>
    have hself : h.trigs.set i t = h.trigs := by
      simpa using map_set_of_eq (f := id) ht (y := t) rfl
    rw [Hub.windowStored_congr hchain, hblocked]
    split
    next hstart =>
      obtain ⟨hnew, hstored⟩ : t.started = false ∧ h₀.windowStored t = true := by simpa using hstart
      have k := (Hub.AcqKeeps.refl (h.setTrig i { t with started := true })).leadAll h₀.readState_readBlind i false
      refine ⟨(Hub.acqBlocked_leadAll _ _ _).trans hblocked, k.chain.trans hchain, k.trigs.trans (map_set_eq_modify ht ?_)⟩
      change (t.num, true, h₀.windowStored t) = (t.num, t.started || h₀.windowStored t, h₀.windowStored t)
      rw [hnew, hstored]
      rfl
    next hstart =>
      refine ⟨hblocked, hchain, ?_⟩
      have hfix : h₀.readState t = startedWhenStored (h₀.readState t) := by
        change (t.num, t.started, h₀.windowStored t) = (t.num, t.started || h₀.windowStored t, h₀.windowStored t)
        cases hnew : t.started <;> simp_all
      rw [← map_set_eq_modify ht hfix, hself]
  next hnone =>
    refine ⟨hblocked, hchain, ?_⟩
    rw [List.modify_eq_self]
    simpa using hnone

/-- Every buffered record whose window is stored starts to be read, while the engine does not wait. -/
theorem Hub.startReads_spec (hblocked : h.acqBlocked = false) :
    h.startReads.trigs.map h.readState = (h.trigs.map h.readState).map startedWhenStored := by
  have hlength : h.trigs.length = (h.trigs.map h.readState).length := (List.length_map _).symm
  obtain ⟨-, -, htrigs⟩ := forN_simulation (R := fun (h' : Hub) l => h'.acqBlocked = false ∧ h'.chain = h.chain ∧
      h'.trigs.map h.readState = l) (f := Hub.startRead) (g := fun i l => l.modify i startedWhenStored) h.trigs.length
    ⟨hblocked, rfl, rfl⟩ fun i h' l hR => by
      obtain ⟨hb, hc, rfl⟩ := hR
      exact Hub.startRead_spec hb hc i
  rw [Hub.startReads_eq, htrigs, hlength, forN_modify_all]

/-! ### One access of a bank (R151, R165, R166) -/

/-- The report of an error in the word with output `n` of a channel, in bank `g`. -/
def wordReport (g ch n code : Nat) : Report :=
  { mkReport code (unitOf 2 g) with
    master := 0x23, access := 1, addr := BitVec.ofNat 24 (ch % 32 * 1024 + n / 3 % 1024) }

/-- An error that the check of a word has found is counted and reported, unless the word has been overwritten. -/
def Hub.wordChecked (h : Hub) (g ch n : Nat) (ecc : Ecc) : Hub :=
  if h.overwritten ch n then h
  else match ecc with
    | .ok => h
    | .corrected => (h.bump F.ACQ_MEMCOR_COUNT 0).report (wordReport g ch n 0x10)
    | .uncorrectable => (h.bump F.ACQ_MEMERR_COUNT 0).report (wordReport g ch n 0x11)

/-- An access adds as many positions as its word holds and the window needs, and the gaps that stand next. -/
theorem Hub.bankRead_eq {g n i j : Nat} {ecc : Ecc} {t : Trig} {c : Sect} (hblocked : h.acqBlocked = false)
    (hnext : h.nextRead g = some (n, i, j)) (ht : h.trigs[i]? = some t) (hc : t.sects[j]? = some c) :
    ∃ (l : List Pos) (stop : Bool), l.length = min (3 - n % 3) (t.width - c.got.length) ∧
      h.bankRead g ecc = { ((h.wordChecked g c.ch n ecc).addPos i j l).leadAll i false with maskStop := stop } := by
  have hstop (h : Hub) (b : Bool) : (if b then { h with maskStop := true } else h) = { h with maskStop := b || h.maskStop } := by
    cases b <;> rfl
  unfold Hub.bankRead
  simp only [hblocked, hnext, ht, Option.bind_some, hc, Bool.false_eq_true, if_false, hstop]
  refine ⟨_, _, ?_, rfl⟩
  simp [upto]

/-! What an access counts and reports -/

theorem Hub.report_trigs (r : Report) : (h.report r).trigs = h.trigs := by
  unfold Hub.report
  split <;> rfl

theorem Hub.report_found_cases (r : Report) : (h.report r).goose.found = h.goose.found ∨
    ∃ known, (h.report r).goose.found = h.goose.found ++ [(r, known)] := by
  unfold Hub.report
  split
  · exact .inl rfl
  · exact .inr ⟨_, rfl⟩

/-- No report, or one of a word error, has been made since `h₀`. -/
def Hub.atMostWordError (h₀ h : Hub) : Prop := h.goose.found = h₀.goose.found ∨
  ∃ x : Report × Bool, h.goose.found = h₀.goose.found ++ [x] ∧ (x.1.code = 0x10#8 ∨ x.1.code = 0x11#8)

variable (g ch n : Nat) (ecc : Ecc)

theorem Hub.wordChecked_trigs : (h.wordChecked g ch n ecc).trigs = h.trigs := by
  unfold Hub.wordChecked
  split
  · rfl
  · cases ecc with
    | ok => rfl
    | corrected => exact (Hub.report_trigs _).trans (h.bump_trigs _ _)
    | uncorrectable => exact (Hub.report_trigs _).trans (h.bump_trigs _ _)

theorem Hub.wordChecked_reports : h.atMostWordError (h.wordChecked g ch n ecc) := by
  have hreport (f : Fld) (r : Report) (hr : r.code = 0x10#8 ∨ r.code = 0x11#8) : h.atMostWordError ((h.bump f 0).report r) := by
    obtain hsame | ⟨known, hone⟩ := (h.bump f 0).report_found_cases r
    · exact .inl (by rw [hsame, Hub.bump_goose])
    · exact .inr ⟨(r, known), by rw [hone, Hub.bump_goose], hr⟩
  unfold Hub.wordChecked
  split
  · exact .inl rfl
  · cases ecc with
    | ok => exact .inl rfl
    | corrected => exact hreport _ _ (.inl rfl)
    | uncorrectable => exact hreport _ _ (.inr rfl)

theorem Hub.wordChecked_corrected (hold : h.overwritten ch n = false) :
    h.counted (h.wordChecked g ch n .corrected) F.ACQ_MEMCOR_COUNT 0 1 := by
  rw [Hub.wordChecked, hold]
  exact (h.counted_bump _ _ (by decide) (by decide)).of_word (Hub.word_of_regs (Hub.report_regs _ _) _)

theorem Hub.wordChecked_uncorrectable (hold : h.overwritten ch n = false) :
    h.counted (h.wordChecked g ch n .uncorrectable) F.ACQ_MEMERR_COUNT 0 1 := by
  rw [Hub.wordChecked, hold]
  exact (h.counted_bump _ _ (by decide) (by decide)).of_word (Hub.word_of_regs (Hub.report_regs _ _) _)

/-- A command that makes no report but that of a word error ends with its triggers and counters as they are. -/
theorem Hub.settled_wordError {β : Type} (v : Trig → β) {h₀ h : Hub} (hfound : h₀.atMostWordError h) :
    (h₀.settled h).trigs.map v = h.trigs.map v ∧ ∀ a, acqWord a → (h₀.settled h).word a = h.word a := by
  obtain hsame | ⟨x, hone, hcode⟩ := hfound
  · rw [Hub.settled_of_found hsame]
    exact ⟨rfl, fun _ _ => rfl⟩
  · rw [Hub.settled_one hone]
    have k := (Hub.AcqKeeps.refl (v := v)
      ({ h.tookOpen with goose := { h.goose with found := h₀.goose.found } } : Hub)).takeReport hcode (h.openValue.toNat % 16) x.2
    exact ⟨k.trigs, fun a ha => (k.word a ha).trans (Hub.word_of_regs rfl a)⟩

/-- The section that needs the oldest sample gets the positions of the word, and the error of the word is counted. -/
theorem Hub.bankRead_spec {h₀ : Hub} {i j : Nat} {t : Trig} {c : Sect} (hfound : h.goose.found = h₀.goose.found)
    (hblocked : h.acqBlocked = false) (hnext : h.nextRead g = some (n, i, j)) (ht : h.trigs[i]? = some t)
    (hc : t.sects[j]? = some c) :
    let h' := h₀.settled (h.bankRead g ecc).assembles
    (∃ c', h'.sect i j = some c' ∧ c'.ch = c.ch ∧
        c.got.length + min (3 - n % 3) (t.width - c.got.length) ≤ c'.got.length ∧ c.got <+: c'.got) ∧
      ∀ a, acqWord a → h'.word a = (h.wordChecked g c.ch n ecc).word a := by
  obtain ⟨l, stop, hlen, hread⟩ := Hub.bankRead_eq (ecc := ecc) hblocked hnext ht hc
  have hsect : (h.wordChecked g c.ch n ecc).sect i j = some c := by
    rw [Hub.sect, Hub.wordChecked_trigs, ht]
    exact hc
  have hreports := h.wordChecked_reports g c.ch n ecc
  rw [hread]
  generalize h.wordChecked g c.ch n ecc = checked at hsect hreports
  obtain ⟨c', hc', hch, hpre⟩ := (checked.addPos i j l).grows_leadAll i false i j { c with got := c.got ++ l }
    (by rw [Hub.addPos_sect hsect, if_pos ⟨rfl, rfl⟩])
  have kword : checked.AcqKeeps (fun _ => ()) ((checked.addPos i j l).leadAll i false) :=
    ((Hub.AcqKeeps.refl checked).addPos (fun _ _ _ => rfl) i j l).leadAll (fun _ _ _ => rfl) i false
  generalize (checked.addPos i j l).leadAll i false = led at hc' kword
  have kstop : checked.AcqKeeps (fun _ => ()) ({ led with maskStop := stop } : Hub).assembles :=
    Hub.AcqKeeps.assembles (kword.of_eq rfl rfl) fun _ _ => rfl
  have ksects : led.AcqKeeps Trig.sects ({ led with maskStop := stop } : Hub).assembles :=
    Hub.AcqKeeps.assembles (.of_eq (.refl led) rfl rfl) fun _ _ => rfl
  generalize ({ led with maskStop := stop } : Hub).assembles = assembled at kstop ksects
  have hend : h₀.atMostWordError assembled := by
    unfold Hub.atMostWordError at hreports ⊢
    rwa [kstop.found, ← hfound]
  obtain ⟨htrigs, hwords⟩ := Hub.settled_wordError Trig.sects hend
  refine ⟨⟨c', ?_, hch, ?_, (List.prefix_append _ _).trans hpre⟩, fun a ha => (hwords a ha).trans (kstop.word a ha)⟩
  · rw [Hub.sect_congr (htrigs.trans ksects.trigs), hc']
  · have := hpre.length_le
    rw [List.length_append] at this
    omega

/-! ### O29 -/

theorem answers_recordReadStart {s : State} {P : Hub → Prop} (hP : P s.hub.startReads) : Answers .recordReadStart s P :=
  ⟨_, rfl, hP⟩

theorem answers_latencyBankRead {s : State} {g : Fin 16} {ecc : Ecc} {P : Hub → Prop}
    (hP : P (s.hub.settled (s.hub.settle.bankRead g.val ecc).assembles)) : Answers (.latencyBankRead g ecc) s P :=
  ⟨_, rfl, hP⟩

/-- Settles O29: reading starts; it does not; and one access of a bank. -/
theorem recordsAreRead : Obligations.RecordsAreRead := by
  unfold Obligations.RecordsAreRead
  refine ⟨fun s hblocked => answers_recordReadStart ?_, fun s hidle => answers_recordReadStart ?_,
    fun s g ecc n i j t c _ hblocked hnext ht hc => answers_latencyBankRead ?_⟩
  · have hstart := congrArg (List.map fun x => (x.1, x.2.1)) (Hub.startReads_spec hblocked)
    rw [List.map_map, List.map_map, List.map_map] at hstart
    exact hstart
  · rw [Hub.startReads_eq]
    refine forN_induction (P := fun h => h = s.hub) _ rfl fun i h hh => ?_
    subst hh
    obtain hblocked | hstored := hidle
    · exact Hub.startRead_blocked hblocked i
    · exact Hub.startRead_unstored hstored i
  · have ksettle : s.hub.AcqKeeps (fun _ => ()) s.hub.settle := (Hub.AcqKeeps.refl s.hub).settle fun _ _ _ => rfl
    obtain ⟨⟨c', hc', hch, hlen, hpre⟩, hwords⟩ := Hub.bankRead_spec (h₀ := s.hub) g.val n ecc ksettle.found
      ((Hub.acqBlocked_settle _).trans hblocked) hnext ht hc
    obtain ⟨t', ht', hct'⟩ := Option.bind_eq_some_iff.mp hc'
    refine ⟨⟨t', c', ht', hct', hch, hlen, hpre⟩, fun hold hecc => ?_, fun hold hecc => ?_⟩
    · subst hecc
      exact (Hub.wordChecked_corrected _ _ _ hold).of_word (hwords _ (by decide))
    · subst hecc
      exact (Hub.wordChecked_uncorrectable _ _ _ hold).of_word (hwords _ (by decide))

end Sys2Proof.Machine
end

section
/-! SUPPORT. Records of the acquisition engine that go to the Mule (R183, R187, R277), and REARM (R178). -/

namespace Sys2Proof.Machine

/-! ### What a hand-over puts, one update at a time -/

section
variable (h : Hub)

/-- A record has been made. -/
def Hub.recorded (h : Hub) (r : Rec) : Hub := { h with mule := { h.mule with recs := h.mule.recs ++ [r] } }

theorem Hub.recorded_eqs (r : Rec) : (h.recorded r).trigs = h.trigs ∧ (h.recorded r).mule.recs = h.mule.recs ++ [r] ∧
    (h.recorded r).mule.closing = h.mule.closing ∧ (h.recorded r).regs = h.regs :=
  ⟨rfl, rfl, rfl, rfl⟩

/-- A record of the acquisition engine, announced on Q28 (R277). -/
def acqRecord (ws : List W64) (samples : Nat) : Rec := { ws := ws, cls := .acq, ann := some 28, samples := samples }

/-- A record in record memory, with its announcement on Q28. -/
def Hub.announced (h : Hub) (ws : List W64) (samples : Nat) : Hub :=
  ((h.push 28 0 true false).1.recorded (acqRecord ws samples)).setFld F.MULE_STAT_ACQ_STALL 0 0

/-- The answer that was first has gone (R174, R184). -/
def Hub.answerTaken (h : Hub) (rest : List (List W64 × Bool)) : Hub :=
  { h with answers := rest, mule := { h.mule with beforeA := h.mule.beforeA - 1 } }

theorem Hub.answerTaken_eqs (rest : List (List W64 × Bool)) : (h.answerTaken rest).answers = rest ∧
    (h.answerTaken rest).mule.recs = h.mule.recs ∧ (h.answerTaken rest).mule.closing = h.mule.closing ∧
    (h.answerTaken rest).regs = h.regs :=
  ⟨rfl, rfl, rfl, rfl⟩

/-- The trigger that was first has gone, with its last part (R183). -/
def Hub.trigTaken (h : Hub) : Hub :=
  { h with trigs := h.trigs.eraseIdx 0, mule := { h.mule with beforeT := h.mule.beforeT - 1 } }

theorem Hub.trigTaken_eqs : h.trigTaken.trigs = h.trigs.eraseIdx 0 ∧ h.trigTaken.mule.recs = h.mule.recs ∧
    h.trigTaken.mule.closing = h.mule.closing ∧ h.trigTaken.regs = h.regs :=
  ⟨rfl, rfl, rfl, rfl⟩

/-- The MASK VIOLATION record of the trigger that has gone waits, if there is one (R177, R184). -/
def Hub.violationWaits (h : Hub) (old : Nat) (v : Option (List W64)) : Hub :=
  match v with
  | some r => { h.bump F.ACQ_MASKVIOL_COUNT 0 with
      answers := [(r, false)], mule := { h.mule with beforeA := h.mule.beforeA + old } }
  | none => h

theorem Hub.violationWaits_eqs (old : Nat) (v : Option (List W64)) : (h.violationWaits old v).trigs = h.trigs ∧
    (h.violationWaits old v).mule.recs = h.mule.recs ∧ (h.violationWaits old v).mule.closing = h.mule.closing ∧
    (h.violationWaits old v).led 7 = h.led 7 := by
  cases v with
  | none => exact ⟨rfl, rfl, rfl, rfl⟩
  | some r =>
    have hled := h.led_bump (f := F.ACQ_MASKVIOL_COUNT) 0 7 (by decide) (by decide)
    exact ⟨h.bump_trigs _ _, rfl, rfl, (Hub.led_of_regs rfl 7).trans hled⟩

theorem Hub.ledAdd_mule (i n : Nat) : (h.ledAdd i n).mule.recs = h.mule.recs ∧ (h.ledAdd i n).mule.closing = h.mule.closing := by
  simp only [Hub.ledAdd, apply_ite Hub.mule, apply_ite Mule.recs, apply_ite Mule.closing, Hub.setLed_mule, ite_self, and_self]

/-- With its last part a trigger is answered (R183, R187). -/
theorem Hub.lastPart_eqs (old : Nat) (v : Option (List W64)) :
    let g := (h.trigTaken.violationWaits old v).ledAdd 7 1
    g.trigs = h.trigs.eraseIdx 0 ∧ g.mule.recs = h.mule.recs ∧ g.mule.closing = h.mule.closing ∧
      g.led 7 = (h.led 7 + 1) % 2 ^ 48 := by
  obtain ⟨htrigs, hrecs, hclosing, hregs⟩ := h.trigTaken_eqs
  obtain ⟨htrigs', hrecs', hclosing', hled'⟩ := h.trigTaken.violationWaits_eqs old v
  generalize h.trigTaken.violationWaits old v = g at htrigs' hrecs' hclosing' hled' ⊢
  obtain ⟨hrecs'', hclosing''⟩ := g.ledAdd_mule 7 1
  refine ⟨(g.ledAdd_trigs 7 1).trans (htrigs'.trans htrigs), hrecs''.trans (hrecs'.trans hrecs),
    hclosing''.trans (hclosing'.trans hclosing), ?_⟩
  rw [Hub.led_ledAdd_same, hled', Hub.led_of_regs hregs]

theorem Hub.closingGoes_none (hclosing : h.mule.closing = none) : h.closingGoes = h := by
  rw [Hub.closingGoes, hclosing]

variable {h}

theorem Hub.AcqKeeps.recorded {β : Type} {v : Trig → β} {h₀ : Hub} (k : h₀.AcqKeeps v h) (r : Rec) :
    (h₀.recorded r).AcqKeeps v (h.recorded r) := by
  refine ⟨?_, k.word⟩
  simp only [Hub.acqPart, Hub.recorded, k.trigs, k.l1as, k.answers, k.reads, k.chain, k.recs, k.closing, k.found]

/-- Beside the record, an announcement changes nothing of the acquisition, whether Q28 takes its word or not. -/
theorem Hub.announced_keeps {β : Type} {v : Trig → β} (ws : List W64) (samples : Nat) :
    (h.recorded (acqRecord ws samples)).AcqKeeps v (h.announced ws samples) :=
  (((Hub.AcqKeeps.refl h).push (by decide) 0 true false).recorded _).setFld (by decide)

theorem Hub.announced_eqs (ws : List W64) (samples : Nat) :
    (h.announced ws samples).trigs = h.trigs ∧ (h.announced ws samples).mule.recs = h.mule.recs ++ [acqRecord ws samples] ∧
    (h.announced ws samples).mule.closing = h.mule.closing ∧ (h.announced ws samples).led 7 = h.led 7 := by
  have k := h.announced_keeps (v := id) ws samples
  obtain ⟨htrigs, hrecs, hclosing, hregs⟩ := h.recorded_eqs (acqRecord ws samples)
  exact ⟨k.trigs_eq.trans htrigs, k.recs.trans hrecs, k.closing.trans hclosing,
    (k.led (by decide)).trans (Hub.led_of_regs hregs 7)⟩

theorem Hub.announce_eq {ws : List W64} {had samples : Nat} (hroom : h.roomFor .acq (blocksOf (ws.length + 1) - had) = true)
    (hq : (h.queue 28).ws.length < 16) : h.announce ws had samples = some (h.announced ws samples) := by
  rw [Hub.announce, if_pos (by simp [hroom, hq])]
  rfl

end

/-! ### One hand-over -/

section
variable {h : Hub} {ws : List W64}

theorem Hub.handPart_answer {b : Bool} {rest : List (List W64 × Bool)} (hans : h.settle.answers = (ws, b) :: rest)
    (hroom : h.settle.roomFor .acq (blocksOf (ws.length + 1)) = true) (hq : (h.settle.queue 28).ws.length < 16) :
    let g := (h.settle.announced ws 0).answerTaken rest
    h.handPart = (if b then g.ledAdd 7 1 else g).assembles.closingGoes := by
  unfold Hub.handPart
  simp only [hans, Hub.announce_eq (had := 0) hroom hq]
  rfl

variable {t : Trig} {rest : List Trig} {secs : List Secn} {last : Bool} (hans : h.settle.answers = [])
  (htrigs : h.settle.trigs = t :: rest) (hnext : h.settle.nextPart t = some (ws, secs, last))
  (hroom : h.settle.roomFor .acq (blocksOf (ws.length + 1) - t.blocks) = true) (hq : (h.settle.queue 28).ws.length < 16)
include hans htrigs hnext hroom hq

/-- The next part of the first trigger, which has one complete, is announced; with its last the trigger goes, else its next part
begins. -/
theorem Hub.handPart_part :
    let g := h.settle.announced ws (secs.foldl (fun a s => a + (presentOf s.ps 0).length) 0)
    h.handPart =
      if last then ((((g.trigTaken).violationWaits (b2n (decide (0 < g.mule.beforeT)))
        (h.settle.violationRecord t ((ws[1]?).getD 0))).ledAdd 7 1).refreshTrigs).assembles.closingGoes
      else (g.setTrig 0 { t with part := t.part + 1, doneSec := t.doneSec + secs.length, blocks := 0 }).assembles := by
  have ht : h.settle.trigs[0]? = some t := by rw [htrigs]; rfl
  have hfirst : (upto h.settle.trigs.length).find? (fun i => (h.settle.trigs[i]?.bind fun t => h.settle.nextPart t).isSome) =
      some 0 := by
    rw [htrigs, List.length_cons, upto, List.range_succ_eq_map, List.find?_cons_of_pos]
    simp [hnext]
  intro g
  have hg := Hub.announce_eq (samples := secs.foldl (fun a s => a + (presentOf s.ps 0).length) 0) hroom hq
  change _ = some g at hg
  unfold Hub.handPart
  simp only [hans, hfirst, ht, Option.bind_some, hnext, hg]
  clear_value g
  cases last with
  | false => rfl
  | true =>
    cases h.settle.violationRecord t ((ws[1]?).getD 0) with
    | none => rfl
    | some r => rfl

end

/-! ### What it comes to -/

/-- The number of a trigger, and how many parts of it have been handed over. -/
def Trig.progress (t : Trig) : W24 × Nat := (t.num, t.part)

theorem Hub.settle_closing (h : Hub) : h.settle.mule.closing = h.mule.closing :=
  ((Hub.AcqKeeps.refl (v := fun _ => ()) h).settle fun _ _ _ => rfl).closing

/-- The assembly behind a hand-over, with no LEDGER record that closes. -/
theorem Hub.handover_ends {h : Hub} (hclosing : h.mule.closing = none) :
    h.AcqKeeps Trig.progress h.assembles.closingGoes := by
  have k : h.AcqKeeps Trig.progress h.assembles := Hub.AcqKeeps.assembles (.refl h) fun _ _ => rfl
  rwa [Hub.closingGoes_none _ (k.closing.trans hclosing)]

section
variable {h : Hub} {ws : List W64} (hq : (h.settle.queue 28).ws.length < 16) (hclosing : h.mule.closing = none)
include hq hclosing

theorem Hub.handPart_answer_spec {b : Bool} {rest : List (List W64 × Bool)} (hans : h.settle.answers = (ws, b) :: rest)
    (hroom : h.settle.roomFor .acq (blocksOf (ws.length + 1)) = true) :
    h.handPart.answers = rest ∧ h.handPart.mule.recs = h.settle.mule.recs ++ [acqRecord ws 0] ∧
      h.handPart.led 7 = if b then (h.settle.led 7 + 1) % 2 ^ 48 else h.settle.led 7 := by
  rw [Hub.handPart_answer hans hroom hq]
  obtain ⟨-, hrecs₁, hclosing₁, hled₁⟩ := h.settle.announced_eqs ws 0
  rw [h.settle_closing, hclosing] at hclosing₁
  generalize h.settle.announced ws 0 = told at hrecs₁ hclosing₁ hled₁ ⊢
  obtain ⟨hans₂, hrecs₂, hclosing₂, hregs₂⟩ := told.answerTaken_eqs rest
  have hled₂ := (Hub.led_of_regs hregs₂ 7).trans hled₁
  rw [hrecs₁] at hrecs₂
  rw [hclosing₁] at hclosing₂
  generalize told.answerTaken rest = g at hans₂ hrecs₂ hclosing₂ hled₂ ⊢
  cases b with
  | false =>
    rw [if_neg Bool.false_ne_true, if_neg Bool.false_ne_true]
    have k := Hub.handover_ends hclosing₂
    exact ⟨k.answers.trans hans₂, k.recs.trans hrecs₂, (k.led (by decide)).trans hled₂⟩
  | true =>
    rw [if_pos rfl]
    obtain ⟨hrecs₃, hclosing₃⟩ := g.ledAdd_mule 7 1
    have k := Hub.handover_ends (hclosing₃.trans hclosing₂)
    refine ⟨k.answers.trans ((g.ledAdd_answers 7 1).trans hans₂), k.recs.trans (hrecs₃.trans hrecs₂),
      (k.led (by decide)).trans ?_⟩
    rw [Hub.led_ledAdd_same, hled₂, if_pos rfl]

variable {t : Trig} {rest : List Trig} {secs : List Secn} {last : Bool} (hans : h.settle.answers = [])
  (htrigs : h.settle.trigs = t :: rest) (hnext : h.settle.nextPart t = some (ws, secs, last))
  (hroom : h.settle.roomFor .acq (blocksOf (ws.length + 1) - t.blocks) = true)
include hans htrigs hnext hroom

theorem Hub.handPart_part_spec :
    (∃ n, h.handPart.mule.recs = h.settle.mule.recs ++ [acqRecord ws n]) ∧
      (last = true → h.handPart.trigs.map Trig.progress = rest.map Trig.progress ∧
        h.handPart.led 7 = (h.settle.led 7 + 1) % 2 ^ 48) ∧
      (last = false → h.handPart.trigs.map Trig.progress = (t.num, t.part + 1) :: rest.map Trig.progress ∧
        h.handPart.led 7 = h.settle.led 7) := by
  rw [Hub.handPart_part hans htrigs hnext hroom hq]
  generalize secs.foldl (fun a s => a + (presentOf s.ps 0).length) 0 = n
  obtain ⟨htrigs₁, hrecs₁, hclosing₁, hled₁⟩ := h.settle.announced_eqs ws n
  rw [htrigs] at htrigs₁
  rw [h.settle_closing, hclosing] at hclosing₁
  generalize h.settle.announced ws n = told at htrigs₁ hrecs₁ hclosing₁ hled₁ ⊢
  cases last with
  | false =>
    -- the trigger stays, one part further
    rw [if_neg Bool.false_ne_true]
    have k : (told.setTrig 0 { t with part := t.part + 1, doneSec := t.doneSec + secs.length, blocks := 0 }).AcqKeeps
        Trig.progress _ := Hub.AcqKeeps.assembles (.refl _) fun _ _ => rfl
    refine ⟨⟨n, k.recs.trans hrecs₁⟩, nofun, fun _ => ⟨k.trigs.trans ?_, (k.led (by decide)).trans
      ((Hub.led_of_regs rfl 7).trans hled₁)⟩⟩
    rw [Hub.setTrig, htrigs₁]
    rfl
  | true =>
    -- the trigger goes, and its MASK VIOLATION record waits if there is one
    rw [if_pos rfl]
    generalize b2n (decide (0 < told.mule.beforeT)) = old
    generalize h.settle.violationRecord t ((ws[1]?).getD 0) = viol
    obtain ⟨htrigs₂, hrecs₂, hclosing₂, hled₂⟩ := told.lastPart_eqs old viol
    generalize (told.trigTaken.violationWaits old viol).ledAdd 7 1 = g at htrigs₂ hrecs₂ hclosing₂ hled₂ ⊢
    rw [htrigs₁, List.eraseIdx_cons_zero] at htrigs₂
    rw [hled₁] at hled₂
    have kr : g.AcqKeeps Trig.progress g.refreshTrigs := (Hub.AcqKeeps.refl g).refreshTrigs
    have k := Hub.handover_ends (kr.closing.trans (hclosing₂.trans hclosing₁))
    refine ⟨⟨n, k.recs.trans (kr.recs.trans (hrecs₂.trans hrecs₁))⟩, fun _ => ⟨?_, ?_⟩, nofun⟩
    · exact k.trigs.trans (kr.trigs.trans (congrArg _ htrigs₂))
    · exact (k.led (by decide)).trans ((kr.led (by decide)).trans hled₂)

end

/-! ### O30 -/

theorem answers_recordPartHandover {s : State} {P : Hub → Prop} (hP : P s.hub.handPart) : Answers .recordPartHandover s P :=
  ⟨_, rfl, hP⟩

theorem answers_maskRearm {s : State} {P : Hub → Prop} (hheld : s.hub.start.held = false)
    (hP : P (s.hub.setFlag F.ACQ_MASKCTL_STOPPED 0 false)) : Answers .maskRearm s P :=
  ⟨_, rfl, by rwa [Hub.awake_of_not_held _ hheld]⟩

/-- Settles O30: a record that waits, a part of a trigger, and REARM. -/
theorem partsAreHandedOver : Obligations.PartsAreHandedOver := by
  unfold Obligations.PartsAreHandedOver
  refine ⟨fun s ws b rest hans hroom hq hclosing => answers_recordPartHandover ?_,
    fun s t rest ws secs last hans htrigs hnext hroom hq hclosing => answers_recordPartHandover ?_,
    fun s hheld => answers_maskRearm hheld ?_⟩
  · exact Hub.handPart_answer_spec hq hclosing hans hroom
  · exact Hub.handPart_part_spec hq hclosing hans htrigs hnext hroom
  · exact ⟨s.hub.flag_setFlag_same 0 false rfl (by decide), s.hub.onlyWords_setFlag _ 0 false⟩

end Sys2Proof.Machine
end

section
/-! SUPPORT. A general register after a write (R188). -/

namespace Sys2Proof.Machine

variable (c : Ctx)

@[simp] theorem Ctx.gr_zero : c.gr 0 = 0 := rfl

@[simp] theorem Ctx.setG_zero (w : W32) : c.setG 0 w = c := rfl

theorem Ctx.gr_setG_same {r : Nat} (w : W32) (hr : r ≠ 0) : (c.setG r w).gr r = w := by
  simp [Ctx.setG, Ctx.gr, hr]

theorem Ctx.gr_setG_other {r k : Nat} (w : W32) (hk : k ≠ r) : (c.setG r w).gr k = c.gr k := by
  unfold Ctx.setG
  split
  · rfl
  · simp only [Ctx.gr, Store.get_set_other _ _ _ _ _ hk]

/-- Settles O7: g0 has no entry to write, and a write of any other register enters that one. -/
theorem registerZeroDiscards : Obligations.RegisterZeroDiscards := by
  unfold Obligations.RegisterZeroDiscards
  exact fun c r k w => ⟨rfl, c.gr_setG_same w, c.gr_setG_other w, c.setG_zero w⟩

end Sys2Proof.Machine
end

section
/-! SUPPORT. ILLEGAL on an engine, in a hub whose store of registers is not in canonical form: the statements on the instructions
of engines ask for one hub, data for data, in every state. -/

namespace Sys2Proof.Machine

/-- A bundle of the background of engine 1 that holds one instruction, in its vector slot or in its scalar slot. -/
def aloneOnBackground1 (vec : Bool) : Place := ⟨.oxBg 1, vec, true, .ok⟩

theorem unsortedHub_may_alone (vec : Bool) (lim : Limits) : unsortedHub.may (aloneOnBackground1 vec) vec lim 1 := by
  refine ⟨rfl, ?_⟩
  rw [if_neg (by decide +revert)]
  cases vec <;> decide +kernel

/-- `unsortedHub` after an instruction in one of the two slots that raises ILLEGAL. -/
def unsortedHubAfterIllegal (vec : Bool) : Hub :=
  unsortedHub.settled (unsortedHub.runOx (aloneOnBackground1 vec) vec .ok fun _ => Act.fails 1)

/-- The entries of the registers stand in another order than `Hub.raised` has them in. -/
theorem unsortedHubAfterIllegal_orders (vec : Bool) :
    (unsortedHubAfterIllegal vec).regs.map Prod.fst ≠ unsortedHubRaised.regs.map Prod.fst := by
  cases vec <;> decide +kernel

theorem unsortedHub_raised_alone_iff (vec : Bool) (h : Hub) :
    unsortedHub.raised h (aloneOnBackground1 vec) 1 ↔ h = unsortedHubRaised := by
  rw [Hub.raised, unsortedHubRaised, if_neg (by decide +revert)]
  rfl

/-- Nothing that raises ILLEGAL there traps as `Traps` says: the engine enters its registers (OX_PC, OX_CS_S, OX_CS_B, OX_STAT) once
as its bundle ends and again with the cycles used, where `Hub.raised` enters them once, and in a store that is out of order the
second time moves entries. -/
theorem not_traps_on_unsortedHub {i : Instr} {s : State} (hs : s.hub = unsortedHub) (vec : Bool) {lim : Limits} {f : Env → Act}
    (hexec : exec i s = goesOn s (s.hub.runOx (aloneOnBackground1 vec) vec .ok f)) (hf : ∀ n, f n = Act.fails 1) :
    ¬ Traps i s (aloneOnBackground1 vec) vec lim 1 := by
  unfold Traps
  rw [hs]
  intro htraps
  obtain ⟨h, hnext, hraised⟩ := htraps (unsortedHub_may_alone vec lim)
  rw [hexec, goesOn, hs, funext hf] at hnext
  injection hnext with hstate
  injection hstate with hafter
  rw [unsortedHub_raised_alone_iff, ← hafter] at hraised
  exact unsortedHubAfterIllegal_orders vec (by rw [← hraised]; rfl)

/-- An instruction of both cores in the scalar slot. -/
theorem not_traps_scalar {i : Instr} {s : State} (hs : s.hub = unsortedHub) {lim lim' : Limits} {f : Env → Act}
    (hexec : exec i s = goesOn s (s.hub.runBoth (aloneOnBackground1 false) lim' .ok f)) (hf : ∀ n, f n = Act.fails 1) :
    ¬ Traps i s (aloneOnBackground1 false) false lim 1 :=
  not_traps_on_unsortedHub hs false hexec hf

/-- An instruction of Ox in the vector slot. -/
theorem not_traps_vector {i : Instr} {s : State} (hs : s.hub = unsortedHub) {lim : Limits} {f : Env → Act}
    (hexec : exec i s = goesOn s (s.hub.runVector (aloneOnBackground1 true) .ok f)) (hf : ∀ n, f n = Act.fails 1) :
    ¬ Traps i s (aloneOnBackground1 true) true lim 1 :=
  not_traps_on_unsortedHub hs true hexec hf

/-- A state on that hub. -/
def unsortedState : State := { hub := unsortedHub, pending := [] }

/-- Refutes O53, in its clause on CLZ with a register in its rs2 field, and by the form of a store alone: CLZ raises ILLEGAL as it
should, but in a state that is not in canonical form (`unsortedHub_not_canonical`) it leaves the entries of the registers in another
order than `Hub.raised` (`not_traps_on_unsortedHub`). -/
theorem not_registerInstructions : ¬ Obligations.RegisterInstructions := by
  unfold Obligations.RegisterInstructions
  rintro ⟨-, -, hbits, -⟩
  obtain ⟨-, -, hillegal⟩ := hbits unsortedState (aloneOnBackground1 false) 0 0
  exact not_traps_scalar rfl rfl (fun _ => rfl) (hillegal 1 (by decide)).1

/-- Refutes O54, in its clause on LD with a register in its rs2 field, by the form of a store alone, as O53. -/
theorem not_memoryAndFlow : ¬ Obligations.MemoryAndFlow := by
  unfold Obligations.MemoryAndFlow
  rintro ⟨hloads, -⟩
  obtain ⟨-, -, -, hillegal, -⟩ := hloads _ List.mem_cons_self unsortedState (aloneOnBackground1 false) 0 0 1 0
  exact not_traps_scalar rfl rfl (fun _ => rfl) (hillegal (by decide) .ok)

/-- Refutes O55, in its clause on QFLUSH with a register in its rs2 field, by the form of a store alone, as O53. -/
theorem not_queueAndWait : ¬ Obligations.QueueAndWait := by
  unfold Obligations.QueueAndWait
  rintro ⟨-, -, hflush, -⟩
  obtain ⟨-, -, hillegal⟩ := hflush unsortedState (aloneOnBackground1 false) 0 0 1 0
  exact not_traps_scalar rfl rfl (fun _ => rfl) (hillegal (by decide)).1

/-- Refutes O59, in its clause on VADD into v8, which is no vector register, by the form of a store alone, as O53. -/
theorem not_vectorInstructions : ¬ Obligations.VectorInstructions := by
  unfold Obligations.VectorInstructions
  rintro ⟨hlanes, -⟩
  obtain ⟨hillegal, -⟩ := hlanes _ List.mem_cons_self unsortedState (aloneOnBackground1 true) 8 0 0 0 rfl
  exact not_traps_vector rfl rfl (fun _ => rfl) (hillegal (by decide))

end Sys2Proof.Machine
end

section
/-! SUPPORT. An instruction of Bull that may execute: it raises an exception and does nothing else, or its effect is entered and its
context goes on (R192, R193, R204-R207). -/

namespace Sys2Proof.Machine

/-! ### What the hub is as an instruction finds it (R205) -/

theorem Hub.notesIndex_eq (h : Hub) : h.notesIndex = { h with pk := h.notesIndex.pk } := by
  unfold Hub.notesIndex
  split <;> rfl

theorem Hub.notesIndex_pkt (h : Hub) : h.notesIndex.pk.cur.map (fun x => (x.pkt, x.reply)) = h.pk.cur.map fun x => (x.pkt, x.reply) := by
  unfold Hub.notesIndex
  split
  · simp only [Option.map_map]
    rfl
  · rfl

section
variable {h : Hub} {p : Place} (hw : onBull p.who = true)
include hw

/-- Nothing but the index of the packet in execution is noted. -/
theorem Hub.ready_eq : h.ready p = { h with pk := (h.ready p).pk } := by
  rw [Hub.ready, if_pos hw]
  split
  · rfl
  · exact h.notesIndex_eq

theorem Hub.ready_pkt : (h.ready p).pk.cur.map (fun x => (x.pkt, x.reply)) = h.pk.cur.map fun x => (x.pkt, x.reply) := by
  rw [Hub.ready, if_pos hw]
  split
  · rfl
  · exact h.notesIndex_pkt

theorem Hub.ready_regs : (h.ready p).regs = h.regs := by rw [Hub.ready_eq hw]
theorem Hub.ready_bull : (h.ready p).bull = h.bull := by rw [Hub.ready_eq hw]
theorem Hub.ready_goose : (h.ready p).goose = h.goose := by rw [Hub.ready_eq hw]
theorem Hub.ready_ox : (h.ready p).ox = h.ox := by rw [Hub.ready_eq hw]
theorem Hub.ready_bank : (h.ready p).bank = h.bank := by rw [Hub.ready_eq hw]

theorem Hub.ready_word (a : Nat) : (h.ready p).word a = h.word a := Hub.word_of_regs (Hub.ready_regs hw) a

theorem Hub.ready_fld (f : Fld) (i : Nat) : (h.ready p).fld f i = h.fld f i := Hub.fld_congr (Hub.ready_word hw _)

theorem Hub.ready_flag (f : Fld) (i : Nat) : (h.ready p).flag f i = h.flag f i := Hub.flag_congr (Hub.ready_word hw _)

theorem Hub.ready_slot : (h.ready p).slot = h.slot := by rw [Hub.slot, Hub.slot, Hub.ready_fld hw, Hub.ready_fld hw]

theorem Hub.ready_mode : (h.ready p).mode = h.mode := Hub.ready_fld hw _ _

theorem Hub.ready_oxOf (e : Nat) : (h.ready p).oxOf e = h.oxOf e := by rw [Hub.oxOf, Hub.oxOf, Hub.ready_ox hw]

theorem Hub.ready_bullCtx (bg : Bool) : (h.ready p).bullCtx bg = h.bullCtx bg := by
  rw [Hub.bullCtx, Hub.bullCtx, Hub.ready_bull hw]

theorem Hub.ctxAt_bull : h.ctxAt p = h.bullCtx (inBackground p.who) := by rw [Hub.ctxAt, if_pos hw]

end

/-! ### An effect beside the context -/

/-- What an effect on the hub leaves to the contexts of Bull: themselves, the packet in execution, and the reports found. -/
structure Hub.GoesOnAs (h h' : Hub) : Prop where
  ctx : ∀ bg, h'.bullCtx bg = h.bullCtx bg
  pkt : h'.pk.cur.map (fun x => x.pkt) = h.pk.cur.map fun x => x.pkt
  found : h'.goose.found = h.goose.found

theorem Hub.GoesOnAs.of_eq {h h' : Hub} (hb : h'.bull = h.bull) (hp : h'.pk = h.pk) (hg : h'.goose = h.goose) : h.GoesOnAs h' :=
  ⟨fun bg => by rw [Hub.bullCtx, Hub.bullCtx, hb], by rw [hp], by rw [hg]⟩

theorem Hub.GoesOnAs.refl (h : Hub) : h.GoesOnAs h := .of_eq rfl rfl rfl

/-- Nothing but the registers of the parameter space may differ. -/
def Hub.RegsOnly (h h' : Hub) : Prop := ∃ r, h' = { h with regs := r }

section
variable {h h' h'' : Hub}

theorem Hub.RegsOnly.refl (h : Hub) : h.RegsOnly h := ⟨_, rfl⟩

theorem Hub.RegsOnly.trans (k : h.RegsOnly h') (k' : h'.RegsOnly h'') : h.RegsOnly h'' := by
  obtain ⟨r, rfl⟩ := k
  obtain ⟨r', rfl⟩ := k'
  exact ⟨r', rfl⟩

theorem Hub.RegsOnly.setWord (k : h.RegsOnly h') (a : Nat) (w : W32) : h.RegsOnly (h'.setWord a w) := k.trans ⟨_, rfl⟩

theorem Hub.RegsOnly.setFld (k : h.RegsOnly h') (f : Fld) (i v : Nat) : h.RegsOnly (h'.setFld f i v) := k.setWord _ _

theorem Hub.RegsOnly.setFlag (k : h.RegsOnly h') (f : Fld) (i : Nat) (b : Bool) : h.RegsOnly (h'.setFlag f i b) := k.setFld f i _

theorem Hub.RegsOnly.setWords (k : h.RegsOnly h') (a : Nat) (ws : List W32) : h.RegsOnly (h'.setWords a ws) := by
  induction ws generalizing h' a with
  | nil => exact k
  | cons w rest ih => exact ih (k.setWord a w) _

theorem Hub.RegsOnly.bull (k : h.RegsOnly h') : h'.bull = h.bull := by
  obtain ⟨r, rfl⟩ := k
  rfl

theorem Hub.RegsOnly.pk (k : h.RegsOnly h') : h'.pk = h.pk := by
  obtain ⟨r, rfl⟩ := k
  rfl

theorem Hub.RegsOnly.goose (k : h.RegsOnly h') : h'.goose = h.goose := by
  obtain ⟨r, rfl⟩ := k
  rfl

theorem Hub.RegsOnly.ox (k : h.RegsOnly h') : h'.ox = h.ox := by
  obtain ⟨r, rfl⟩ := k
  rfl

theorem Hub.RegsOnly.bank (k : h.RegsOnly h') : h'.bank = h.bank := by
  obtain ⟨r, rfl⟩ := k
  rfl

theorem Hub.RegsOnly.goesOn (k : h.RegsOnly h') : h.GoesOnAs h' := .of_eq k.bull k.pk k.goose

end

/-- The ends of the packet are those of its code (R193). -/
theorem Hub.bullTarget_congr {h h' : Hub} (hp : h'.pk.cur.map (fun x => x.pkt) = h.pk.cur.map fun x => x.pkt) (bg : Bool) (t : Nat) :
    h'.bullTarget bg t = h.bullTarget bg t := by
  have hshape (g : Hub) : g.bullTarget bg t = (decide (t < 0x4000) || if bg then t == 0x4400
      else (g.pk.cur.map fun x => x.pkt).any fun q => decide (0x4000 ≤ t) && decide (t ≤ 0x4000 + q.code.length)) := by
    unfold Hub.bullTarget
    cases g.pk.cur <;> rfl
  rw [hshape, hshape, hp]

/-! ### Registers that an act writes -/

/-- An act that writes registers, CS and the point of execution alone. -/
def Act.OnlyRegs (a : Act) : Prop := a.mem = [] ∧ a.pop = none ∧ a.flush = none ∧ a.pushes = []

@[simp] theorem Ctx.flags_zero (c : Ctx) : c.flags 0 0 = c := by
  rw [Ctx.flags, show c.cs &&& ~~~(0 : W32) ||| 0 = c.cs from (BitVec.or_zero).trans BitVec.and_allOnes]

theorem Ctx.writes_eq_flags {a : Act} (c : Ctx) (hg : a.g = []) (hv : a.v = []) (hm : a.m = []) :
    c.writes a = c.flags a.csClr a.csSet := by
  rw [Ctx.writes, hg, hv, hm]
  rfl

theorem Ctx.writes_g {a : Act} {r : Nat} {w : W32} (c : Ctx) (hg : a.g = [(r, w)]) (hv : a.v = []) (hm : a.m = [])
    (hclr : a.csClr = 0) (hset : a.csSet = 0) : c.writes a = c.setG r w := by
  rw [Ctx.writes, hg, hv, hm, hclr, hset]
  exact Ctx.flags_zero _

theorem Ctx.setG_wait (c : Ctx) (r : Nat) (w : W32) : (c.setG r w).wait = c.wait := by
  unfold Ctx.setG
  split <;> rfl

/-- A context that waits for nothing, after an act that writes one register. -/
theorem Ctx.after_g {a : Act} {r : Nat} {w : W32} {c : Ctx} (hwait : c.wait = .run) (hg : a.g = [(r, w)]) (hv : a.v = [])
    (hm : a.m = []) (hclr : a.csClr = 0) (hset : a.csSet = 0) (hrun : a.wait = .run) :
    { c.writes a with wait := a.wait } = c.setG r w := by
  rw [Ctx.writes_g c hg hv hm hclr hset, hrun, ← hwait, ← c.setG_wait r w]

/-- And after one that writes none. -/
theorem Ctx.after_none {a : Act} {c : Ctx} (hg : a.g = []) (hv : a.v = []) (hm : a.m = []) (hclr : a.csClr = 0)
    (hset : a.csSet = 0) : { c.writes a with wait := a.wait } = { c with wait := a.wait } := by
  rw [Ctx.writes_eq_flags c hg hv hm, hclr, hset, Ctx.flags_zero]

theorem Hub.setBullCtx_self (h : Hub) (bg : Bool) : h.setBullCtx bg (h.bullCtx bg) = h := by cases bg <;> rfl

theorem Hub.stores_nil (h : Hub) (w : Who) : h.stores w [] = h := ite_self h

theorem Hub.queueActs_onlyRegs (h : Hub) (w : Who) {a : Act} (ha : a.OnlyRegs) : h.queueActs w a = (none, h) := by
  obtain ⟨-, hpop, hflush, hpush⟩ := ha
  rw [Hub.queueActs, hpop, hflush, hpush]
  rfl

/-! ### The words that an instruction reads (R191) -/

/-- Words of data memory without an error let the act be. -/
theorem Hub.dataChecked_ok (h : Hub) (w : Who) (a : Act)
    (hok : ∀ j < a.reads.2, h.isBad w false ((if onBull w then 0 else 0x1000) + a.reads.1 + j) = false) :
    h.dataChecked w a .ok = (a, h) := by
  have hbad : ((upto a.reads.2).any fun k => h.isBad w false ((if onBull w then 0 else 0x1000) + a.reads.1 + k)) = false :=
    List.any_eq_false.2 fun k hk => by simp [hok k (List.mem_range.1 hk)]
  unfold Hub.dataChecked
  dsimp only
  rw [hbad, if_pos (by simp)]

/-- Where another exception is found the words are not checked. -/
theorem Hub.dataChecked_of_exc (h : Hub) (w : Who) {a : Act} (e : Ecc) (ha : a.exc ≠ 0) : h.dataChecked w a e = (a, h) := by
  unfold Hub.dataChecked
  dsimp only
  rw [if_pos (by simp [ha])]

/-! ### The two ways that an instruction goes -/

theorem Hub.bullIssues_fails (h : Hub) (w : Who) (ecc : Ecc) {f : Env → Act × (Hub → Hub)} {code : Nat} (hc : code ≠ 0)
    (hf : f { hub := h, who := w, ctx := h.bullCtx (inBackground w) } = (Act.fails code, noEffect)) :
    h.bullIssues w ecc f = h.bullFails (inBackground w) code := by
  unfold Hub.bullIssues
  dsimp only
  rw [hf]
  dsimp only
  rw [h.dataChecked_of_exc w (a := Act.fails code) ecc hc]
  dsimp only
  rw [if_neg (show (Act.fails code).exc ≠ 0 from hc), if_neg (by simp [Act.fails]), Ctx.writes_eq_flags _ rfl rfl rfl,
    Ctx.flags_zero, noEffect, Hub.setBullCtx_self]
  rfl

/-- An act of registers alone retires: its effect on the hub stands, and its context goes on. -/
theorem Hub.bullIssues_retires (h : Hub) (w : Who) {f : Env → Act × (Hub → Hub)} {a : Act} {eff : Hub → Hub}
    (hf : f { hub := h, who := w, ctx := h.bullCtx (inBackground w) } = (a, eff)) (hexc : a.exc = 0) (hregs : a.OnlyRegs)
    (hok : ∀ j < a.reads.2, h.isBad w false ((if onBull w then 0 else 0x1000) + a.reads.1 + j) = false)
    (heff : h.GoesOnAs (eff h))
    (hgo : h.bullTarget (inBackground w) (a.target.getD ((h.bullCtx (inBackground w)).pc + 1)) = true) :
    h.bullIssues w .ok f = (eff h).setBullCtx (inBackground w) { (h.bullCtx (inBackground w)).writes a with
      pc := a.target.getD ((h.bullCtx (inBackground w)).pc + 1), wait := a.wait } := by
  unfold Hub.bullIssues
  dsimp only
  rw [hf]
  dsimp only
  rw [h.dataChecked_ok w a hok]
  dsimp only
  rw [if_pos hexc, if_pos hgo]
  unfold Hub.bullRetires
  dsimp only
  rw [hregs.1, Hub.stores_nil, Hub.queueActs_onlyRegs _ _ hregs, heff.ctx, Hub.bullTarget_congr heff.pkt, hgo]
  rfl

/-! ### The statements about an instruction -/

/-- What an instruction of Bull sees. -/
def Hub.bullEnv (h : Hub) (p : Place) : Env := { hub := h.ready p, who := p.who, ctx := h.ctxAt p }

theorem Hub.bullEnv_eq {h : Hub} {p : Place} (hw : onBull p.who = true) :
    h.bullEnv p = { hub := h.ready p, who := p.who, ctx := (h.ready p).bullCtx (inBackground p.who) } := by
  rw [Hub.bullEnv, Hub.ctxAt_bull hw, Hub.ready_bullCtx hw]

/-- A context that may execute waits for nothing. -/
theorem Hub.wait_of_may {h : Hub} {p : Place} {vec : Bool} {lim : Limits} {cyc : Nat} (hw : onBull p.who = true)
    (hm : h.may p vec lim cyc) : (h.ctxAt p).wait = .run := by
  rw [Hub.ctxAt_bull hw]
  rw [Hub.may, if_pos hw] at hm
  obtain ⟨-, hready, -⟩ := hm
  unfold Hub.bullReady at hready
  unfold Hub.bullCtx
  split at hready <;> rename_i hbg
  · rw [if_pos hbg]
    simp only [Bool.and_eq_true, beq_iff_eq] at hready
    exact hready.2.1.1.2
  · rw [if_neg hbg]
    cases hcur : h.pk.cur with
    | none => simp [hcur] at hready
    | some x =>
      simp only [hcur, Bool.and_eq_true, beq_iff_eq] at hready
      exact hready.2.2

section
variable {i : Instr} {s : State} {p : Place} {vec : Bool} {lim : Limits} {f : Env → Act × (Hub → Hub)}
  (hw : onBull p.who = true)
include hw

/-- An instruction whose act is an exception raises it. -/
theorem traps_onBull {ecc : Ecc} (hexec : exec i s = goesOn s (s.hub.runOnBull p lim ecc f)) {code : Nat} (hc : code ≠ 0)
    (hf : f (s.hub.bullEnv p) = (Act.fails code, noEffect)) : Traps i s p vec lim code := by
  intro hm
  refine ⟨_, hexec, ?_⟩
  rw [Hub.bullEnv_eq hw] at hf
  rw [Hub.raised, if_pos hw, Hub.runOnBull, if_pos hw, Hub.runBull_of_may _ _ _ _ _ _ _ hw hm, Hub.bullIssues_fails _ _ _ hc hf]

/-- An instruction whose act raises nothing and writes registers alone retires. -/
theorem answers_onBull (hexec : exec i s = goesOn s (s.hub.runOnBull p lim .ok f)) {a : Act} {eff : Hub → Hub}
    (hf : f (s.hub.bullEnv p) = (a, eff)) (hexc : a.exc = 0) (hregs : a.OnlyRegs)
    (hok : ∀ j < a.reads.2, a.reads.1 + j ∉ s.hub.bull.badD) (heff : (s.hub.ready p).GoesOnAs (eff (s.hub.ready p)))
    {cyc : Nat} (hm : s.hub.may p vec lim cyc) (hgo : s.hub.mayGo p (a.target.getD ((s.hub.ctxAt p).pc + 1))) :
    Answers i s fun h => h = (eff (s.hub.ready p)).setBullCtx (inBackground p.who)
      { (s.hub.ctxAt p).writes a with pc := a.target.getD ((s.hub.ctxAt p).pc + 1), wait := a.wait } := by
  refine ⟨_, hexec, ?_⟩
  have hctx : (s.hub.ready p).bullCtx (inBackground p.who) = s.hub.ctxAt p := by rw [Hub.ready_bullCtx hw, Hub.ctxAt_bull hw]
  have hok' : ∀ j < a.reads.2, (s.hub.ready p).isBad p.who false ((if onBull p.who then 0 else 0x1000) + a.reads.1 + j) = false := by
    intro j hj
    simp [Hub.isBad, hw, Hub.ready_bull hw, hok j hj]
  have hgo' : (s.hub.ready p).bullTarget (inBackground p.who) (a.target.getD ((s.hub.ctxAt p).pc + 1)) = true := by
    rw [Hub.mayGo, if_pos hw] at hgo
    rw [Hub.bullTarget_congr _, hgo]
    have hpkt := congrArg (Option.map Prod.fst) (Hub.ready_pkt (h := s.hub) hw)
    simpa only [Option.map_map, Function.comp_def] using hpkt
  rw [Hub.bullEnv_eq hw] at hf
  rw [← hctx] at hgo' ⊢
  rw [Hub.runOnBull, if_pos hw, Hub.runBull_of_may _ _ _ _ _ _ _ hw hm,
    Hub.bullIssues_retires _ _ hf hexc hregs hok' heff hgo', Hub.settled_of_found]
  rw [Hub.setBullCtx_goose, heff.found, Hub.ready_goose hw]

/-- It completes as `Completes` says. -/
theorem completes_onBull (hexec : exec i s = goesOn s (s.hub.runOnBull p lim .ok f)) {a : Act} {eff : Hub → Hub}
    (hf : f (s.hub.bullEnv p) = (a, eff)) (hexc : a.exc = 0) (hregs : a.OnlyRegs)
    (hok : ∀ j < a.reads.2, a.reads.1 + j ∉ s.hub.bull.badD) (heff : (s.hub.ready p).GoesOnAs (eff (s.hub.ready p)))
    {cyc t : Nat} {c : Ctx} (ht : a.target.getD ((s.hub.ctxAt p).pc + 1) = t)
    (hc : (s.hub.ctxAt p).wait = .run → { (s.hub.ctxAt p).writes a with wait := a.wait } = c) :
    Completes i s p vec lim cyc t (eff (s.hub.ready p)) c := by
  intro hm hgo
  obtain ⟨h, hnext, hh⟩ := answers_onBull hw hexec hf hexc hregs hok heff hm (ht ▸ hgo)
  refine ⟨h, hnext, ?_⟩
  unfold Hub.leaves
  dsimp only
  rw [if_pos hw, hh, ht, ← hc (Hub.wait_of_may hw hm)]
  rfl

/-! Of an instruction whose rs2 field is zero (R197). -/

theorem traps_system {rs2 : BitVec 5} (hexec : exec i s = goesOn s (s.hub.system p rs2 lim f)) {code : Nat} (hc : code ≠ 0)
    (hrs2 : rs2 = 0) (hf : f (s.hub.bullEnv p) = (Act.fails code, noEffect)) : Traps i s p vec lim code :=
  traps_onBull hw hexec hc ((if_pos hrs2).trans hf)

theorem traps_system_rs2 {rs2 : BitVec 5} (hexec : exec i s = goesOn s (s.hub.system p rs2 lim f)) (hrs2 : rs2 ≠ 0) :
    Traps i s p vec lim 1 :=
  traps_onBull hw hexec one_ne_zero (if_neg hrs2)

theorem completes_system {rs2 : BitVec 5} (hexec : exec i s = goesOn s (s.hub.system p rs2 lim f)) (hrs2 : rs2 = 0) {a : Act}
    {eff : Hub → Hub} (hf : f (s.hub.bullEnv p) = (a, eff)) (hexc : a.exc = 0) (hregs : a.OnlyRegs)
    (hok : ∀ j < a.reads.2, a.reads.1 + j ∉ s.hub.bull.badD) (heff : (s.hub.ready p).GoesOnAs (eff (s.hub.ready p)))
    {cyc t : Nat} {c : Ctx} (ht : a.target.getD ((s.hub.ctxAt p).pc + 1) = t)
    (hc : (s.hub.ctxAt p).wait = .run → { (s.hub.ctxAt p).writes a with wait := a.wait } = c) :
    Completes i s p vec lim cyc t (eff (s.hub.ready p)) c :=
  completes_onBull hw hexec ((if_pos hrs2).trans hf) hexc hregs hok heff ht hc

end

/-- On Bull an instruction that completes leaves one hub. -/
theorem Completes.answers {i : Instr} {s : State} {p : Place} {vec : Bool} {lim : Limits} {cyc t : Nat} {base : Hub} {c : Ctx}
    {P : Hub → Prop} (hc : Completes i s p vec lim cyc t base c) (hw : onBull p.who = true) (hm : s.hub.may p vec lim cyc)
    (hgo : s.hub.mayGo p t) (hP : P (base.setBullCtx (inBackground p.who) (c.go t))) : Answers i s P := by
  obtain ⟨h, hnext, hleaves⟩ := hc hm hgo
  unfold Hub.leaves at hleaves
  dsimp only at hleaves
  rw [if_pos hw] at hleaves
  exact ⟨h, hnext, hleaves ▸ hP⟩

end Sys2Proof.Machine
end

section
/-! SUPPORT. SWAP and JLOG (R234, R235, R435): what scheduling a SWAP of some engines writes, and words written in a row. -/

namespace Sys2Proof.Machine

variable (h : Hub)

/-! ### Words -/

/-- Equal words written in a row. -/
theorem Hub.word_setWords_replicate (a n b : Nat) (w : W32) :
    (h.setWords a (List.replicate n w)).word b = if a ≤ b ∧ b < a + n then w else h.word b := by
  by_cases hb : b < a ∨ a + n ≤ b
  · rw [if_neg (by omega), h.word_setWords_other _ _ (by simpa using hb)]
  rw [if_pos (by omega)]
  induction n generalizing h a with
  | zero => omega
  | succ n ih =>
    rw [List.replicate_succ, Hub.setWords]
    by_cases hab : b = a
    · rw [Hub.word_setWords_other _ _ _ (Or.inl (by omega)), Hub.setWord_word, if_pos hab]
    · exact ih _ _ (by omega)

/-! ### The engines that a register names -/

theorem setBitsOf_eq (n mask : Nat) : setBitsOf n mask = (List.range n).filter fun k => mask.testBit k := by
  unfold setBitsOf upto
  simp only [bit_eq_testBit]

theorem lt_of_mem_setBitsOf {n mask e : Nat} (he : e ∈ setBitsOf n mask) : e < n := by
  rw [setBitsOf_eq, List.mem_filter, List.mem_range] at he
  exact he.1

/-- The words that show an engine, in its block. -/
theorem Hub.word_setOx_other (e : Nat) (x : Ox) {a : Nat} (hstat : a ≠ F.OX_STAT_NOTICES.addr e) (hpc : a ≠ F.OX_PC_SPC.addr e)
    (hs : a ≠ F.OX_CS_S_VSAT.addr e) (hb : a ≠ F.OX_CS_B_VSAT.addr e) : (h.setOx e x).word a = h.word a := by
  rw [Hub.setOx, Hub.word_setFld_other _ _ _ _ hstat, Hub.setWord_word, if_neg hb, Hub.setWord_word, if_neg hs,
    Hub.word_setFld_other _ _ _ _ (show a ≠ F.OX_PC_BPC.addr e from hpc), Hub.word_setFld_other _ _ _ _ hpc]
  rfl

/-- Showing an engine sets NOTICES alone in any OX_STAT. -/
theorem Hub.flag_setOx (e : Nat) (x : Ox) {f : Fld} (hbase : f.base = 0x21801) (hstride : f.stride = 0x2000)
    (hf : f.hi < 8 ∨ 11 < f.lo) (k : Nat) : (h.setOx e x).flag f k = h.flag f k := by
  have haddr : f.addr k = 0x21801 + 0x2000 * k := by rw [Fld.addr, hbase, hstride]
  rw [Hub.setOx, Hub.flag_setFld_apart _ _ (by decide) (Or.inr hf)]
  refine Hub.flag_congr ?_
  have hapart {g : Fld} (hg : g.base = 0x21802 ∨ g.base = 0x21803 ∨ g.base = 0x21804) (hs : g.stride = 0x2000) :
      f.addr k ≠ g.addr e := by
    rw [haddr, Fld.addr, hs]
    omega
  rw [Hub.setWord_word, if_neg (hapart (by decide) rfl), Hub.setWord_word, if_neg (hapart (by decide) rfl),
    Hub.word_setFld_other _ _ _ _ (hapart (by decide) rfl), Hub.word_setFld_other _ _ _ _ (hapart (by decide) rfl)]
  rfl

/-! ### A scheduled SWAP (R235) -/

/-- The words that scheduling a SWAP of an engine may change. -/
def swapWords (e : Nat) : List Nat :=
  [F.OX_STAT_SWAP_PEND.addr e, F.OX_PC_SPC.addr e, F.OX_CS_S_VSAT.addr e, F.OX_CS_B_VSAT.addr e]

/-- A SWAP of some engines has been scheduled. -/
structure Hub.Scheduled (h h' : Hub) (es : List Nat) : Prop where
  pend : ∀ e, h'.flag F.OX_STAT_SWAP_PEND e = (h.flag F.OX_STAT_SWAP_PEND e || decide (e ∈ es))
  ox : ∀ e, h'.oxOf e = if e ∈ es then { h.oxOf e with swapFrom := h.slot } else h.oxOf e
  words : h.sameWords h' (es.flatMap swapWords)
  bull : h'.bull = h.bull
  pk : h'.pk = h.pk
  goose : h'.goose = h.goose

/-- SWAP of one engine. -/
def Hub.schedules (h : Hub) (e : Nat) : Hub :=
  (h.setOx e { h.oxOf e with swapFrom := h.slot }).setFld F.OX_STAT_SWAP_PEND e 1

theorem Hub.schedules_slot (e : Nat) : (h.schedules e).slot = h.slot := by
  have hword {a : Nat} (ha : a < 0x21800) : (h.schedules e).word a = h.word a := by
    rw [Hub.schedules, Hub.word_setFld_other _ _ _ _ (by simp only [Fld.addr]; omega), h.word_setOx_belowOx _ _ ha]
  rw [Hub.slot, Hub.slot, Hub.fld_congr (hword (by decide)), Hub.fld_congr (hword (by decide))]

theorem Hub.schedules_flag (e k : Nat) :
    (h.schedules e).flag F.OX_STAT_SWAP_PEND k = (h.flag F.OX_STAT_SWAP_PEND k || decide (k = e)) := by
  by_cases hk : k = e
  · rw [hk, decide_eq_true rfl, Bool.or_true]
    exact Hub.flag_setFlag_same _ e true rfl (by decide)
  · rw [decide_eq_false hk, Bool.or_false, Hub.schedules, Hub.flag_setFld_apart _ _ (by decide),
      h.flag_setOx _ _ rfl rfl (Or.inl (by decide))]
    left
    simp only [Fld.addr]
    omega

theorem Hub.schedules_oxOf (e k : Nat) :
    (h.schedules e).oxOf k = if k = e then { h.oxOf k with swapFrom := h.slot } else h.oxOf k := by
  rw [Hub.schedules, Hub.oxOf, Hub.setFld_ox, ← Hub.oxOf]
  split
  next hk => rw [hk, Hub.setOx_oxOf]
  next hk => exact h.setOx_oxOf_other e k _ hk

theorem Hub.schedules_words (e : Nat) : h.sameWords (h.schedules e) (swapWords e) := by
  intro a ha
  simp only [swapWords, List.mem_cons, List.not_mem_nil, or_false, not_or] at ha
  obtain ⟨hstat, hpc, hs, hb⟩ := ha
  rw [Hub.schedules, Hub.word_setFld_other _ _ _ _ hstat, h.word_setOx_other _ _ hstat hpc hs hb]

/-- SWAP of the engines of a list, one after the other. -/
theorem Hub.scheduled_each (es : List Nat) : h.Scheduled (each es h fun e h => h.schedules e) es := by
  induction es generalizing h with
  | nil => exact ⟨fun e => by simp [each], fun e => by simp [each], fun a _ => rfl, rfl, rfl, rfl⟩
  | cons e es ih =>
    obtain ⟨hpend, hox, hwords, hbull, hpk, hgoose⟩ := ih (h.schedules e)
    refine ⟨fun k => ?_, fun k => ?_, fun a ha => ?_, hbull.trans ?_, hpk.trans ?_, hgoose.trans ?_⟩
    · refine (hpend k).trans ?_
      rw [h.schedules_flag, Bool.or_assoc]
      simp only [List.mem_cons, Bool.decide_or]
    · refine (hox k).trans ?_
      rw [h.schedules_oxOf, h.schedules_slot]
      by_cases hk : k = e <;> by_cases hmem : k ∈ es <;> simp [hk, hmem]
    · rw [List.flatMap_cons, List.mem_append, not_or] at ha
      exact (hwords a ha.2).trans (h.schedules_words e a ha.1)
    all_goals simp [Hub.schedules]

/-! ### The statement -/

section
variable {s : State} {p : Place}

theorem Hub.bullEnv_named (rs1 : BitVec 5) :
    (s.hub.bullEnv p).named rs1 = (List.range 17).filter fun e => ((s.hub.ctxAt p).gr rs1.toNat).toNat.testBit e :=
  setBitsOf_eq 17 _

/-- SWAP of engines of which one has an unsealed standby bank. -/
theorem Env.swaps_unsealed {n : Env} {rd rs1 : BitVec 5} (hseal : ∃ e ∈ n.named rs1, n.hub.flag F.OX_STAT_STBY_SEALED e = false) :
    n.swaps rd rs1 = (Act.fails 7, noEffect) :=
  if_pos (by simpa using hseal)

/-- SWAP of engines whose standby banks are sealed, of which one has a swap pending. -/
theorem Env.swaps_busy {n : Env} {rd rs1 : BitVec 5} (hseal : ∀ e ∈ n.named rs1, n.hub.flag F.OX_STAT_STBY_SEALED e = true)
    (hpend : ∃ e ∈ n.named rs1, n.hub.flag F.OX_STAT_SWAP_PEND e = true) : n.swaps rd rs1 = (Act.fails 9, noEffect) :=
  (if_neg (by simpa using hseal)).trans (if_pos (by simpa using hpend))

/-- SWAP of engines that nothing stands against. -/
theorem Env.swaps_free {n : Env} {rd rs1 : BitVec 5}
    (hfree : ∀ e ∈ n.named rs1, n.hub.flag F.OX_STAT_STBY_SEALED e = true ∧ n.hub.flag F.OX_STAT_SWAP_PEND e = false) :
    n.swaps rd rs1 = (Act.toG rd (tagOf n.hub.swapSlot), fun h => each (n.named rs1) h fun e h => h.schedules e) :=
  (if_neg (by simpa using fun e he => (hfree e he).1)).trans (if_neg (by simpa using fun e he => (hfree e he).2))

variable (hw : onBull p.who = true)
include hw

/-- The tag of the slot at whose opening a SWAP acts (R235). -/
theorem Hub.tagOf_swapSlot : tagOf (s.hub.ready p).swapSlot = BitVec.ofNat 32
    ((if s.hub.running then s.hub.slot.toNat + (s.hub.fld F.RT_ORBIT_LEN 0 - s.hub.fld F.RT_ORBIT_POS 0)
      else s.hub.slot.toNat + 1) % 2 ^ 24) := by
  have htag (d : Nat) : (s.hub.slot + BitVec.ofNat 48 d).toNat % 2 ^ 24 = (s.hub.slot.toNat + d) % 2 ^ 24 := by
    rw [BitVec.toNat_add, BitVec.toNat_ofNat]
    omega
  have hrunning : (s.hub.ready p).running = s.hub.running := by rw [Hub.running, Hub.running, Hub.ready_mode hw]
  rw [tagOf, Hub.swapSlot, Hub.ready_slot hw, Hub.ready_fld hw, Hub.ready_fld hw, hrunning]
  split
  · rw [htag]
  · exact congrArg (BitVec.ofNat 32) (htag 1)

/-- SWAP that nothing stands against schedules the engines, and gives the tag. -/
theorem completes_swap {rd rs1 : BitVec 5} {imm : BitVec 10} (hfree : ∀ e ∈ (s.hub.bullEnv p).named rs1,
      s.hub.flag F.OX_STAT_STBY_SEALED e = true ∧ s.hub.flag F.OX_STAT_SWAP_PEND e = false) :
    ∃ h, (s.hub.ready p).Scheduled h ((s.hub.bullEnv p).named rs1) ∧
      Completes (.swap p rd rs1 0 imm) s p p.vec { noAtomic := true } 1 ((s.hub.ctxAt p).pc + 1) h
        ((s.hub.ctxAt p).setG rd.toNat (tagOf (s.hub.ready p).swapSlot)) := by
  have hsched := (s.hub.ready p).scheduled_each ((s.hub.bullEnv p).named rs1)
  refine ⟨_, hsched, completes_system hw rfl rfl
    (eff := fun h => each ((s.hub.bullEnv p).named rs1) h fun e h => h.schedules e) (Env.swaps_free ?_) rfl ⟨rfl, rfl, rfl, rfl⟩
    (fun j hj => absurd hj (Nat.not_lt_zero j)) (.of_eq hsched.bull hsched.pk hsched.goose) rfl
    fun hwait => Ctx.after_g hwait rfl rfl rfl rfl rfl rfl⟩
  intro e he
  exact ⟨(Hub.ready_flag hw _ e).trans (hfree e he).1, (Hub.ready_flag hw _ e).trans (hfree e he).2⟩

/-- JLOG with imm10 = 1 clears the words of the journal. -/
theorem completes_jlog {rd rs1 : BitVec 5} :
    Completes (.jlog p rd rs1 0 1) s p p.vec { noAtomic := true } 1 ((s.hub.ctxAt p).pc + 1)
      ((s.hub.ready p).setWords A.JNL_STEP (List.replicate 11 0)) (s.hub.ctxAt p) :=
  completes_system hw rfl rfl (eff := fun h => h.setWords A.JNL_STEP (List.replicate 11 0)) (if_pos rfl) rfl
    ⟨rfl, rfl, rfl, rfl⟩ (fun j hj => absurd hj (Nat.not_lt_zero j))
    ((Hub.RegsOnly.refl _).setWords _ _).goesOn rfl fun hwait => (Ctx.after_none rfl rfl rfl rfl rfl).trans (by rw [← hwait])

end

/-- Settles O58: SWAP with an unsealed bank, with a swap pending and with neither; and JLOG. -/
theorem swapAndJlog : Obligations.SwapAndJlog := by
  unfold Obligations.SwapAndJlog
  intro s p rd rs1 imm hw
  have hflag (f : Fld) (e : Nat) : (s.hub.bullEnv p).hub.flag f e = s.hub.flag f e := Hub.ready_flag hw f e
  refine ⟨?unsealed, ?busy, ?free, ?notJlog, ?jlog⟩
  case unsealed =>
    intro hseal
    exact traps_system hw rfl (by decide) rfl (Env.swaps_unsealed (by simpa only [hflag, Hub.bullEnv_named] using hseal))
  case busy =>
    intro hseal hpend
    exact traps_system hw rfl (by decide) rfl (Env.swaps_busy (by simpa only [hflag, Hub.bullEnv_named] using hseal)
      (by simpa only [hflag, Hub.bullEnv_named] using hpend))
  case free =>
    intro hfree hm hgo
    obtain ⟨h, hsched, hcomp⟩ := completes_swap hw (rd := rd) (rs1 := rs1) (imm := imm)
      (by simpa only [Hub.bullEnv_named] using hfree)
    rw [Hub.bullEnv_named] at hsched
    refine hcomp.answers hw hm hgo ⟨fun e _ => ?_, ?_, fun e => ?_, fun a ha => ?_⟩
    · rw [Hub.flag_congr (Hub.word_of_regs (Hub.setBullCtx_regs _ _ _) _), hsched.pend, Hub.ready_flag hw]
    · rw [Hub.setBullCtx_bullCtx, Hub.tagOf_swapSlot hw]
    · rw [Hub.oxOf, Hub.setBullCtx_ox, ← Hub.oxOf, hsched.ox, Hub.ready_oxOf hw, Hub.ready_slot hw]
    · rw [Hub.word_of_regs (Hub.setBullCtx_regs _ _ _), hsched.words a ha, Hub.ready_word hw]
  case notJlog =>
    intro himm
    exact traps_system hw rfl (by decide) rfl (if_neg himm)
  case jlog =>
    rintro rfl hm hgo
    have hword (a : Nat) : (((s.hub.ready p).setWords A.JNL_STEP (List.replicate 11 0)).setBullCtx (inBackground p.who)
        ((s.hub.ctxAt p).go ((s.hub.ctxAt p).pc + 1))).word a = if 0x500 ≤ a ∧ a < 0x500 + 11 then 0 else s.hub.word a := by
      rw [Hub.word_of_regs (Hub.setBullCtx_regs _ _ _), Hub.word_setWords_replicate, Hub.ready_word hw]
    refine (completes_jlog hw).answers hw hm hgo ⟨fun k hk => ?_, ?_, ?_, Hub.setBullCtx_bullCtx _ _ _, fun a ha => ?_⟩
    · rw [hword, if_pos (by simp only [A.JNL_STEP]; omega)]
    · rw [hword, if_pos (by decide)]
    · rw [Hub.setBullCtx_bank, ((Hub.RegsOnly.refl _).setWords _ _).bank, Hub.ready_bank hw]
    · simp only [List.mem_cons, List.mem_map, List.mem_range, not_or, not_exists, not_and] at ha
      obtain ⟨hlanes, hsteps⟩ := ha
      have hstep := hsteps (a - 0x500)
      simp only [A.JNL_LANES, A.JNL_STEP] at hlanes hstep
      rw [hword, if_neg (by omega)]

end Sys2Proof.Machine
end

section
/-! SUPPORT. Result slots and background tasks (R193, R221-R227): what a slot holds once it is BUSY, DONE or EMPTY, and the start and
the end of a task. -/

namespace Sys2Proof.Machine

variable (h : Hub)

/-! ### The value words of a slot -/

/-- A field that takes the whole of its word. -/
theorem Hub.setFld_whole (f : Fld) (i : Nat) (v : W32) (hlo : f.lo = 0) (hhi : f.hi = 31) :
    h.setFld f i v.toNat = h.setWord (f.addr i) v := by
  have hput : f.put (h.word (f.addr i)) v.toNat = v := by
    apply BitVec.eq_of_toNat_eq
    rw [Fld.put, Fld.width, hlo, hhi, BitVec.toNat_ofNat]
    have hv := v.isLt
    have hw := (h.word (f.addr i)).isLt
    omega
  rw [Hub.setFld, hput]

/-- The words that the first `m` passes over the values of a slot have written. -/
theorem Hub.word_values (n m : Nat) (ws : List W32) (a : Nat) :
    (forN m h fun w h => h.setFld F.RSLOT_VAL_VALUE (32 * n + w) ((ws[w]?).getD 0).toNat).word a =
      if 0x600 + 32 * n ≤ a ∧ a < 0x600 + 32 * n + m then (ws[a - (0x600 + 32 * n)]?).getD 0 else h.word a := by
  induction m with
  | zero =>
    rw [if_neg (by omega)]
    rfl
  | succ m ih =>
    have hstep : (forN (m + 1) h fun w h => h.setFld F.RSLOT_VAL_VALUE (32 * n + w) ((ws[w]?).getD 0).toNat) =
        (forN m h fun w h => h.setFld F.RSLOT_VAL_VALUE (32 * n + w) ((ws[w]?).getD 0).toNat).setFld F.RSLOT_VAL_VALUE
          (32 * n + m) ((ws[m]?).getD 0).toNat := by
      simp only [forN, upto, List.range_succ, List.foldl_append, List.foldl_cons, List.foldl_nil]
    have haddr : F.RSLOT_VAL_VALUE.addr (32 * n + m) = 0x600 + 32 * n + m := by simp only [Fld.addr]; omega
    rw [hstep, Hub.setFld_whole _ _ _ _ rfl rfl, Hub.setWord_word, ih, haddr]
    by_cases ha : a = 0x600 + 32 * n + m
    · rw [if_pos ha, if_pos (by omega), ha, Nat.add_sub_cancel_left]
    · rw [if_neg ha]
      exact if_congr (by omega) rfl rfl

theorem Hub.word_setValues (n : Nat) (ws : List W32) (a : Nat) : (h.setValues n ws).word a =
    if 0x600 + 32 * n ≤ a ∧ a < 0x600 + 32 * n + 32 then (ws[a - (0x600 + 32 * n)]?).getD 0 else h.word a :=
  h.word_values n 32 ws a

theorem Hub.RegsOnly.setValues {h h' : Hub} (k : h.RegsOnly h') (n : Nat) (ws : List W32) : h.RegsOnly (h'.setValues n ws) :=
  forN_induction (P := h.RegsOnly) 32 k fun _ _ kg => kg.setFld _ _ _

/-- The descriptors of slots lie below the values. -/
theorem Hub.word_setValues_desc (n : Nat) (ws : List W32) {a : Nat} (ha : a < 0x600) : (h.setValues n ws).word a = h.word a := by
  rw [h.word_setValues, if_neg (by omega)]

theorem Hub.word_setValues_value (n : Nat) (ws : List W32) {j : Nat} (hj : j < 32) :
    (h.setValues n ws).word (F.RSLOT_VAL_VALUE.addr (32 * n + j)) = (ws[j]?).getD 0 := by
  have haddr : F.RSLOT_VAL_VALUE.addr (32 * n + j) = 0x600 + 32 * n + j := by simp only [Fld.addr]; omega
  rw [h.word_setValues, haddr, if_pos (by omega), Nat.add_sub_cancel_left]

/-! ### A slot that is DONE, EMPTY or BUSY (R222-R224) -/

/-- The tag of a slot that becomes DONE. -/
def Hub.doneTag (n : Nat) : Nat :=
  if h.slotState n = 1 then (Store.get (fun _ => (0 : BitVec 12)) h.bull.tags n).toNat else h.fld F.RSLOT_DESC_TAG n

theorem Hub.slotDone_regsOnly (n : Nat) (ws : List W32) (exc : Nat) : h.RegsOnly (h.slotDone n ws exc) :=
  (((((Hub.RegsOnly.refl h).setFld _ _ _).setFld _ _ _).setFld _ _ _).setFld _ _ _).setValues _ _

theorem Hub.slotDone_desc {n : Nat} (hn : n < 16) (ws : List W32) (exc : Nat) :
    (h.slotDone n ws exc).fld F.RSLOT_DESC_STATE n = 2 ∧
    (h.slotDone n ws exc).fld F.RSLOT_DESC_WCOUNT n = ws.length % 2 ^ 6 ∧
    (h.slotDone n ws exc).fld F.RSLOT_DESC_EXC n = exc % 2 ^ 8 ∧
    (h.slotDone n ws exc).fld F.RSLOT_DESC_TAG n = h.doneTag n % 2 ^ 12 := by
  have hdesc (f : Fld) (hf : f.addr n = 0x420 + n) : (h.slotDone n ws exc).fld f n =
      ((((h.setFld F.RSLOT_DESC_TAG n (h.doneTag n)).setFld F.RSLOT_DESC_STATE n 2).setFld F.RSLOT_DESC_WCOUNT n
        ws.length).setFld F.RSLOT_DESC_EXC n exc).fld f n :=
    Hub.fld_congr (Hub.word_setValues_desc _ _ _ (by omega))
  have haddr (hi lo : Nat) : (⟨0x420, 0x1, hi, lo⟩ : Fld).addr n = 0x420 + n := by rw [Fld.addr, Nat.one_mul]
  refine ⟨(hdesc _ (haddr _ _)).trans ?_, (hdesc _ (haddr _ _)).trans ?_, (hdesc _ (haddr _ _)).trans ?_,
    (hdesc _ (haddr _ _)).trans ?_⟩
  · rw [Hub.fld_setFld_apart _ _ (by decide) (Or.inr (by decide)), Hub.fld_setFld_apart _ _ (by decide) (Or.inr (by decide)),
      Hub.fld_setFld_same _ _ _ _ (by decide) (by decide)]
    rfl
  · rw [Hub.fld_setFld_apart _ _ (by decide) (Or.inr (by decide)), Hub.fld_setFld_same _ _ _ _ (by decide) (by decide)]
    rfl
  · rw [Hub.fld_setFld_same _ _ _ _ (by decide) (by decide)]
    rfl
  · rw [Hub.fld_setFld_apart _ _ (by decide) (Or.inr (by decide)), Hub.fld_setFld_apart _ _ (by decide) (Or.inr (by decide)),
      Hub.fld_setFld_apart _ _ (by decide) (Or.inr (by decide)), Hub.fld_setFld_same _ _ _ _ (by decide) (by decide)]
    rfl

theorem Hub.slotDone_values (n : Nat) (ws : List W32) (exc : Nat) {j : Nat} (hj : j < 32) :
    (h.slotDone n ws exc).word (F.RSLOT_VAL_VALUE.addr (32 * n + j)) = (ws[j]?).getD 0 :=
  Hub.word_setValues_value _ _ _ hj

theorem Hub.slotFree_regsOnly (n : Nat) : h.RegsOnly (h.slotFree n) := ((Hub.RegsOnly.refl h).setWord _ _).setValues _ _

theorem Hub.slotFree_words {n : Nat} (hn : n < 16) : (h.slotFree n).word (F.RSLOT_DESC_TAG.addr n) = 0 ∧
    ∀ j < 32, (h.slotFree n).word (F.RSLOT_VAL_VALUE.addr (32 * n + j)) = 0 := by
  refine ⟨?_, fun j hj => (Hub.word_setValues_value _ _ _ hj).trans rfl⟩
  rw [Hub.slotFree, Hub.word_setValues_desc _ _ _ (by simp only [Fld.addr]; omega), Hub.setWord_word, if_pos rfl]

/-! ### Tasks (R193, R221, R222, R226) -/

theorem Hub.taskStarts_first {t : Task} {rest : List Task} (hnone : h.bull.task = none) (htasks : h.bull.tasks = t :: rest)
    (hyields : h.fgYields = true) : h.taskStarts = { h with bull := { h.bull with
      tasks := rest, task := some t
      bg := { g := Store.set (fun _ => (0 : W32)) (Store.set (fun _ => (0 : W32)) (Store.set (fun _ => (0 : W32)) [] 1 t.arg) 2
                (BitVec.ofNat 32 t.slot)) 31 0x4400#32
              pc := t.entry } } } := by
  simp only [Hub.taskStarts, hnone, htasks, if_pos hyields]
  rfl

theorem Hub.taskStarts_none (hno : h.bull.task ≠ none ∨ h.bull.tasks = [] ∨ h.fgYields = false) : h.taskStarts = h := by
  unfold Hub.taskStarts
  split
  next hnone htasks => simp_all
  next => rfl

theorem Hub.taskEnds_none (hno : h.bull.task = none ∨ h.bull.bg.pc ≠ 0x4400 ∨ h.bull.bg.wait ≠ .run) : h.taskEnds = h := by
  refine if_neg ?_
  simp only [Bool.and_eq_true, beq_iff_eq, Option.isSome_iff_ne_none]
  tauto

/-- Bull without the task that has run. -/
def Hub.taskLeft : Hub := { h with bull := { h.bull with task := none, bg := { h.bull.bg with half := none, wait := .run } } }

theorem Hub.taskEnds_of_end {t : Task} (htask : h.bull.task = some t) (hpc : h.bull.bg.pc = 0x4400)
    (hwait : h.bull.bg.wait = .run) :
    h.taskEnds = if h.slotState t.slot = 1 then h.taskLeft.slotDone t.slot [] 0 else h.taskLeft := by
  rw [Hub.taskEnds, htask, hpc, hwait, if_pos (by simp only [Option.isSome_some, BEq.rfl, Bool.and_self]), Hub.taskOver]
  simp only [htask]
  rfl

/-- Settles O43: a task starts, none starts, a task ends with its slot BUSY or not, none ends. -/
theorem tasksRun : Obligations.TasksRun := by
  unfold Obligations.TasksRun
  refine ⟨?starts, ?noStart, ?ends, ?noEnd⟩
  case starts =>
    intro s t rest hnone htasks hyields
    refine ⟨_, rfl, ?_⟩
    rw [s.hub.taskStarts_first hnone htasks hyields]
    refine ⟨rfl, rfl, rfl, rfl, fun r => ?_, rfl, rfl⟩
    simp only [Store.get_set]
    by_cases h31 : r = 31
    · simp [h31]
    · simp only [if_neg h31]
      by_cases h2 : r = 2
      · simp [h2]
      · simp only [if_neg h2]
        rfl
  case noStart => exact fun s hno => ⟨_, rfl, s.hub.taskStarts_none hno⟩
  case ends =>
    intro s t htask hslot hpc hwait
    refine ⟨_, rfl, ?_⟩
    rw [s.hub.taskEnds_of_end htask hpc hwait]
    refine ⟨?_, fun hbusy => ?_, fun hnot => ?_⟩
    · split
      · rw [(Hub.slotDone_regsOnly _ _ _ _).bull]
        rfl
      · rfl
    · rw [if_pos (show s.hub.slotState t.slot = 1 from hbusy)]
      obtain ⟨hstate, hcount, hexc, htag⟩ := s.hub.taskLeft.slotDone_desc hslot [] 0
      refine ⟨hstate, hcount, hexc, htag.trans ?_⟩
      rw [Hub.doneTag, if_pos (show s.hub.taskLeft.slotState t.slot = 1 from hbusy)]
      exact Nat.mod_eq_of_lt (BitVec.isLt _)
    · rw [if_neg (show s.hub.slotState t.slot ≠ 1 from hnot)]
      rfl
  case noEnd => exact fun s hno => ⟨_, rfl, s.hub.taskEnds_none hno⟩

end Sys2Proof.Machine
end

section
/-! SUPPORT. The system instructions of Bull (R196, R221-R235, R404, R407): procedures and background tasks, result slots and the
reply, modes, snapshots and commits, STATUS bits and seals. -/

namespace Sys2Proof.Machine

/-! ### Contexts beside the rest of Bull -/

section
variable (h : Hub) (bg : Bool) (c : Ctx)

@[simp] theorem Hub.setBullCtx_tasks : (h.setBullCtx bg c).bull.tasks = h.bull.tasks := by cases bg <;> rfl
@[simp] theorem Hub.setBullCtx_tags : (h.setBullCtx bg c).bull.tags = h.bull.tags := by cases bg <;> rfl
@[simp] theorem Hub.setBullCtx_dmem : (h.setBullCtx bg c).bull.dmem = h.bull.dmem := by cases bg <;> rfl

@[simp] theorem Hub.setBullCtx_word (a : Nat) : (h.setBullCtx bg c).word a = h.word a := Hub.word_of_regs (h.setBullCtx_regs bg c) a
@[simp] theorem Hub.setBullCtx_fld (f : Fld) (i : Nat) : (h.setBullCtx bg c).fld f i = h.fld f i :=
  Hub.fld_congr (h.setBullCtx_word bg c _)
@[simp] theorem Hub.setBullCtx_flag (f : Fld) (i : Nat) : (h.setBullCtx bg c).flag f i = h.flag f i :=
  Hub.flag_congr (h.setBullCtx_word bg c _)

end

/-! ### A task queued (R221-R223) -/

/-- The tag that a slot gets as it becomes BUSY. -/
def Hub.newTag (h : Hub) (n : Nat) : BitVec 12 :=
  if Store.get (fun _ => (0 : BitVec 12)) h.bull.tags n = 0xFFF#12 then 1#12
  else Store.get (fun _ => (0 : BitVec 12)) h.bull.tags n + 1#12

/-- A task is queued, and its slot becomes BUSY. -/
def Hub.queuesTask (h : Hub) (t : Task) : Hub :=
  { (h.slotBusy t.slot).1 with bull := { (h.slotBusy t.slot).1.bull with tasks := (h.slotBusy t.slot).1.bull.tasks ++ [t] } }

section
variable (h : Hub)

theorem Hub.slotBusy_snd (n : Nat) : (h.slotBusy n).2 = (h.newTag n).toNat := rfl

theorem Hub.newTag_congr {h h' : Hub} (hb : h'.bull = h.bull) {n : Nat} : h'.newTag n = h.newTag n := by
  rw [Hub.newTag, Hub.newTag, hb]

theorem Hub.newTag_ne_zero (n : Nat) : h.newTag n ≠ 0 := by
  unfold Hub.newTag
  split
  · decide
  next hne => bv_omega

variable (t : Task)

theorem Hub.queuesTask_goesOn : h.GoesOnAs (h.queuesTask t) := ⟨fun bg => by cases bg <;> rfl, rfl, rfl⟩

theorem Hub.queuesTask_tasks : (h.queuesTask t).bull.tasks = h.bull.tasks ++ [t] := rfl

theorem Hub.queuesTask_dmem : (h.queuesTask t).bull.dmem = h.bull.dmem := rfl

theorem Hub.queuesTask_tag : Store.get (fun _ => (0 : BitVec 12)) (h.queuesTask t).bull.tags t.slot = h.newTag t.slot :=
  Store.get_set_same _ _ _ _

theorem Hub.queuesTask_regs : (h.queuesTask t).regs = (h.setFld F.RSLOT_DESC_STATE t.slot 1).regs := rfl

theorem Hub.queuesTask_state : (h.queuesTask t).fld F.RSLOT_DESC_STATE t.slot = 1 := by
  rw [Hub.fld_congr (Hub.word_of_regs (h.queuesTask_regs t) _), Hub.fld_setFld_same _ _ _ _ (by decide) (by decide)]
  rfl

theorem Hub.queuesTask_shownTag (k : Nat) : (h.queuesTask t).fld F.RSLOT_DESC_TAG k = h.fld F.RSLOT_DESC_TAG k := by
  rw [Hub.fld_congr (Hub.word_of_regs (h.queuesTask_regs t) _), Hub.fld_setFld_apart _ _ (by decide) (Or.inr (by decide))]

theorem Hub.queuesTask_word {a : Nat} (ha : a ≠ F.RSLOT_DESC_STATE.addr t.slot) : (h.queuesTask t).word a = h.word a := by
  rw [Hub.word_of_regs (h.queuesTask_regs t), Hub.word_setFld_other _ _ _ _ ha]

end

/-! ### Procedures (R196, R221-R227) -/

/-- A read of one word that is marked bad. -/
theorem Hub.dataChecked_bad {h : Hub} {w : Who} {k : Nat} (hw : onBull w = true) (hbad : h.isBad w false k = true) :
    h.dataChecked w { reads := (k, 1) } .ok = ({ exc := 5, late := true }, h.wordError w false 1 k false) := by
  have hfind : (upto 1).find? (fun j => h.isBad w false (0 + k + j)) = some 0 := by simp [upto, hbad]
  unfold Hub.dataChecked Hub.whichWord
  simp only [hw, if_true, hfind]
  rw [if_neg (by simp [upto, hbad])]
  simp only [Hub.checked, Nat.zero_add, Nat.add_zero, hbad, if_true]

section
variable {s : State} {p : Place} (hw : onBull p.who = true)
include hw

theorem Hub.bullEnv_bull : (s.hub.bullEnv p).hub.bull = s.hub.bull := Hub.ready_bull hw

theorem Hub.bullEnv_data (k : Nat) : (s.hub.bullEnv p).data k = s.hub.dataAt p k := by
  unfold Env.data Hub.dataAt
  rw [if_pos (show onBull (s.hub.bullEnv p).who = true from hw), if_pos hw, Hub.bullEnv_bull hw]

theorem Hub.bullEnv_procEntry (k : W8) : (s.hub.bullEnv p).procEntry k = (s.hub.dataAt p k.toNat).toNat % 2 ^ 14 := by
  rw [Env.procEntry, Hub.bullEnv_data hw, bits, pow_zero, Nat.div_one]

theorem Hub.bullEnv_procBad (k : W8) : (s.hub.bullEnv p).procBad k = decide (k.toNat ∈ s.hub.bull.badD) := by
  unfold Env.procBad Hub.isBad
  rw [if_pos (show onBull (s.hub.bullEnv p).who = true from hw), if_neg (by decide),
    Hub.bullEnv_bull hw]

theorem Hub.bullEnv_slotState (k : Nat) : (s.hub.bullEnv p).hub.slotState k = s.hub.fld F.RSLOT_DESC_STATE k := Hub.ready_fld hw _ _

section
variable {rd rs1 rs2 : BitVec 5} {w : W8} {b : Bool} (hgood : w.toNat ∉ s.hub.bull.badD)
include hgood

theorem Hub.bullEnv_calls (hentry : (s.hub.dataAt p w.toNat).toNat % 2 ^ 14 ≠ 0) : (s.hub.bullEnv p).calls w =
    { g := [(31, (s.hub.bullEnv p).link)], target := some ((s.hub.dataAt p w.toNat).toNat % 2 ^ 14), reads := (w.toNat, 1) } := by
  rw [Env.calls, Hub.bullEnv_procBad hw, Hub.bullEnv_procEntry hw, if_neg (by simpa using hgood), if_neg hentry]

theorem completes_call (hentry : (s.hub.dataAt p w.toNat).toNat % 2 ^ 14 ≠ 0) :
    Completes (.call p rd rs1 0 w b) s p p.vec limReads 1 ((s.hub.dataAt p w.toNat).toNat % 2 ^ 14) (s.hub.ready p)
      ((s.hub.ctxAt p).setG 31 (BitVec.ofNat 32 ((s.hub.ctxAt p).pc + 1))) := by
  refine completes_system hw rfl rfl (eff := noEffect) (a := (s.hub.bullEnv p).calls w) rfl ?_ ?_ ?_ (.refl _) ?_ fun hwait => ?_
  all_goals rw [Hub.bullEnv_calls hw hgood hentry]
  · exact ⟨rfl, rfl, rfl, rfl⟩
  · intro j hj
    rwa [show j = 0 by simpa using hj]
  · rfl
  · exact Ctx.after_g hwait rfl rfl rfl rfl rfl rfl

theorem traps_call (hentry : (s.hub.dataAt p w.toNat).toNat % 2 ^ 14 = 0) :
    Traps (.call p rd rs1 0 w b) s p p.vec limReads 8 := by
  refine traps_system hw rfl (by decide) rfl ?_
  rw [Env.calls, Hub.bullEnv_procBad hw, Hub.bullEnv_procEntry hw, if_neg (by simpa using hgood), if_pos hentry]

theorem traps_callBackground_absent (hentry : (s.hub.dataAt p w.toNat).toNat % 2 ^ 14 = 0) :
    Traps (.callBackground p rd rs1 rs2 w b) s p p.vec { noAtomic := true } 8 := by
  refine traps_onBull hw rfl (by decide) ?_
  unfold Env.callsTask
  rw [Hub.bullEnv_procBad hw, Hub.bullEnv_procEntry hw, if_neg (by simpa using hgood), if_pos hentry]

variable (hentry : (s.hub.dataAt p w.toNat).toNat % 2 ^ 14 ≠ 0)
include hentry

theorem traps_callBackground_busy (hbusy : 8 ≤ s.hub.bull.tasks.length ∨
      s.hub.fld F.RSLOT_DESC_STATE (((s.hub.ctxAt p).gr rs2.toNat).toNat % 16) = 1) :
    Traps (.callBackground p rd rs1 rs2 w b) s p p.vec { noAtomic := true } 9 := by
  refine traps_onBull hw rfl (by decide) ?_
  unfold Env.callsTask
  rw [Hub.bullEnv_procBad hw, Hub.bullEnv_procEntry hw, if_neg (by simpa using hgood), if_neg hentry]
  refine if_pos ?_
  rw [Bool.or_eq_true, decide_eq_true_iff, decide_eq_true_iff, Hub.bullEnv_slotState hw,
    Hub.bullEnv_bull hw]
  exact hbusy

theorem completes_callBackground {t : Task}
    (ht : t = ⟨(s.hub.dataAt p w.toNat).toNat % 2 ^ 14, (s.hub.ctxAt p).gr rs1.toNat, ((s.hub.ctxAt p).gr rs2.toNat).toNat % 16⟩)
    (hroom : s.hub.bull.tasks.length < 8) (hfree : s.hub.fld F.RSLOT_DESC_STATE t.slot ≠ 1) :
    Completes (.callBackground p rd rs1 rs2 w b) s p p.vec { noAtomic := true } 1 ((s.hub.ctxAt p).pc + 1)
      ((s.hub.ready p).queuesTask t)
      ((s.hub.ctxAt p).setG rd.toNat (BitVec.ofNat 32 (s.hub.newTag t.slot).toNat)) := by
  refine completes_onBull hw rfl (eff := fun h => h.queuesTask t)
    (a := { Act.toG rd (BitVec.ofNat 32 (s.hub.newTag t.slot).toNat) with reads := (w.toNat, 1) })
    ?_ rfl ⟨rfl, rfl, rfl, rfl⟩ (fun j hj => ?_) (Hub.queuesTask_goesOn _ _) rfl
    fun hwait => Ctx.after_g hwait rfl rfl rfl rfl rfl rfl
  · unfold Env.callsTask
    rw [Hub.bullEnv_procBad hw, Hub.bullEnv_procEntry hw, if_neg (by simpa using hgood), if_neg hentry]
    rw [ht] at hfree ⊢
    refine (if_neg ?_).trans ?_
    · rw [Bool.or_eq_true, decide_eq_true_iff, decide_eq_true_iff, Hub.bullEnv_slotState hw, Hub.bullEnv_bull hw, not_or]
      exact ⟨Nat.not_le.2 hroom, hfree⟩
    · rw [Hub.slotBusy_snd, Hub.newTag_congr (Hub.bullEnv_bull hw)]
      rfl
  · rwa [show j = 0 by simpa using hj]

end

/-- CALL of a procedure whose word is marked bad. -/
theorem answers_call_bad {rd rs1 : BitVec 5} {w : W8} {b : Bool} (hbad : w.toNat ∈ s.hub.bull.badD)
    (hm : s.hub.may p p.vec limReads 1) : Answers (.call p rd rs1 0 w b) s fun h =>
      h = s.hub.settled (((s.hub.ready p).wordError p.who false 1 w.toNat false).bullFails (inBackground p.who) 5) := by
  refine ⟨_, rfl, ?_⟩
  have hbad' : (s.hub.ready p).isBad p.who false w.toNat = true := by simp [Hub.isBad, hw, Hub.ready_bull hw, hbad]
  have hcall : (s.hub.bullEnv p).calls w = { reads := (w.toNat, 1) } := by
    rw [Env.calls, Hub.bullEnv_procBad hw, if_pos (by simpa using hbad)]
  rw [Hub.bullEnv_eq hw] at hcall
  rw [Hub.system, Hub.runOnBull, if_pos hw, Hub.runBull_of_may _ _ _ _ _ _ _ hw hm]
  unfold Hub.bullIssues
  dsimp only
  rw [if_pos rfl, hcall]
  dsimp only
  rw [Hub.dataChecked_bad hw hbad']
  rfl
end

end Sys2Proof.Machine
end

section
/-! SUPPORT. Result slots and the reply as instructions of Bull use them (R219, R224-R228, R404). -/

namespace Sys2Proof.Machine

/-- A context that waits for nothing, after an act that writes nothing. -/
theorem Ctx.after_run {a : Act} {c : Ctx} (hwait : c.wait = .run) (hg : a.g = []) (hv : a.v = []) (hm : a.m = [])
    (hclr : a.csClr = 0) (hset : a.csSet = 0) (hrun : a.wait = .run) : { c.writes a with wait := a.wait } = c := by
  rw [Ctx.after_none hg hv hm hclr hset, hrun, ← hwait]

/-! ### The reply of the packet in execution -/

section
variable (h : Hub)

theorem Hub.appends_goesOn {h h' : Hub} (k : h.GoesOnAs h') (ws : List W32) : h.GoesOnAs (h'.appends ws) := by
  refine ⟨k.ctx, Eq.trans ?_ k.pkt, k.found⟩
  simp only [Hub.appends, Option.map_map, Function.comp_def]

theorem Hub.staleSeen_goesOn : h.GoesOnAs h.staleSeen := by
  refine ⟨fun _ => rfl, ?_, rfl⟩
  simp only [Hub.staleSeen, Option.map_map, Function.comp_def]

theorem Hub.replyRoom_eq :
    h.replyRoom = ((h.pk.cur.map fun x => (x.pkt, x.reply)).map fun x => 4096 - x.2.length).getD 0 := by
  unfold Hub.replyRoom
  cases h.pk.cur <;> rfl

end

section
variable {s : State} {p : Place} (hw : onBull p.who = true)
include hw

theorem Hub.bullEnv_replyRoom : (s.hub.bullEnv p).hub.replyRoom = s.hub.replyRoom := by
  rw [Hub.replyRoom_eq, Hub.bullEnv, Hub.ready_pkt hw, ← Hub.replyRoom_eq]

theorem Hub.ready_slotWords (k : Nat) : (s.hub.ready p).slotWords k = s.hub.word (F.RSLOT_DESC_TAG.addr k) ::
    (List.range (min 32 (s.hub.fld F.RSLOT_DESC_WCOUNT k))).map fun j => s.hub.word (F.RSLOT_VAL_VALUE.addr (32 * k + j)) := by
  simp only [Hub.slotWords, Hub.ready_word hw, Hub.ready_fld hw, upto]

variable {rd rs1 rs2 : BitVec 5} {w : W8} {imm : BitVec 10}

/-! ### RSLT READ and RPUT -/

theorem traps_reply_background (hbg : inBackground p.who = true) :
    Traps (.rsltRead p rd rs1 0 w .ok) s p p.vec limReads 0x0B ∧ Traps (.rput p rd rs1 0 imm) s p p.vec limPlain 0x0B :=
  ⟨traps_system hw rfl (by decide) rfl (if_pos hbg), traps_system hw rfl (by decide) rfl (if_pos hbg)⟩

variable (hfg : inBackground p.who = false)
include hfg

theorem traps_rsltRead_full (hfull : s.hub.replyRoom < ((s.hub.ready p).slotWords (w.toNat % 16)).length) :
    Traps (.rsltRead p rd rs1 0 w .ok) s p p.vec limReads 0x0A :=
  traps_system hw rfl (by decide) rfl ((if_neg (Bool.eq_false_iff.1 hfg)).trans (if_pos (by rwa [Hub.bullEnv_replyRoom hw])))

theorem completes_rsltRead (hroom : ((s.hub.ready p).slotWords (w.toNat % 16)).length ≤ s.hub.replyRoom) :
    Completes (.rsltRead p rd rs1 0 w .ok) s p p.vec limReads 1 ((s.hub.ctxAt p).pc + 1)
      ((if s.hub.fld F.RSLOT_DESC_STATE (w.toNat % 16) = 2 then s.hub.ready p else (s.hub.ready p).staleSeen).appends
        ((s.hub.ready p).slotWords (w.toNat % 16)))
      ((s.hub.ctxAt p).setG rd.toNat (((s.hub.ready p).slotWords (w.toNat % 16)).headD 0)) := by
  rw [← Hub.ready_fld hw]
  refine completes_system hw rfl rfl (a := Act.toG rd (((s.hub.ready p).slotWords (w.toNat % 16)).headD 0))
    (eff := fun h => (if h.slotState (w.toNat % 16) = 2 then h else h.staleSeen).appends ((s.hub.ready p).slotWords (w.toNat % 16)))
    ((if_neg (Bool.eq_false_iff.1 hfg)).trans (if_neg (by rwa [Hub.bullEnv_replyRoom hw, Nat.not_lt])))
    rfl ⟨rfl, rfl, rfl, rfl⟩ (fun j hj => absurd hj (Nat.not_lt_zero j)) (Hub.appends_goesOn ?_ _) rfl
    fun hwait => Ctx.after_g hwait rfl rfl rfl rfl rfl rfl
  split
  · exact .refl _
  · exact Hub.staleSeen_goesOn _

theorem traps_rput_full (hfull : s.hub.replyRoom = 0) : Traps (.rput p rd rs1 0 imm) s p p.vec limPlain 0x0A :=
  traps_system hw rfl (by decide) rfl ((if_neg (Bool.eq_false_iff.1 hfg)).trans (if_pos (by rwa [Hub.bullEnv_replyRoom hw])))

theorem completes_rput (hroom : s.hub.replyRoom ≠ 0) :
    Completes (.rput p rd rs1 0 imm) s p p.vec limPlain 1 ((s.hub.ctxAt p).pc + 1)
      ((s.hub.ready p).appends [(s.hub.ctxAt p).gr rs1.toNat]) (s.hub.ctxAt p) :=
  completes_system hw rfl rfl (eff := fun h => h.appends [(s.hub.ctxAt p).gr rs1.toNat])
    ((if_neg (Bool.eq_false_iff.1 hfg)).trans (if_neg (by rwa [Hub.bullEnv_replyRoom hw])))
    rfl ⟨rfl, rfl, rfl, rfl⟩ (fun j hj => absurd hj (Nat.not_lt_zero j)) (Hub.appends_goesOn (.refl _) _) rfl
    fun hwait => Ctx.after_run hwait rfl rfl rfl rfl rfl rfl

omit hfg

/-! ### RSLT POST and RFREE -/

theorem Hub.bullEnv_badAddr (a len : Nat) :
    (s.hub.bullEnv p).badAddr a 4 len = if 65536 < a + len then 4 else if a % 4 ≠ 0 then 3 else 0 := by
  unfold Env.badAddr Env.dataWords
  rw [if_pos (show onBull (s.hub.bullEnv p).who = true from hw)]

theorem traps_rsltPost_count (hn : 32 < ((s.hub.ctxAt p).gr rs2.toNat).toNat) :
    Traps (.rsltPost p rd rs1 rs2 w .ok) s p p.vec { noAtomic := true } 4 :=
  traps_onBull hw rfl (by decide) (if_pos hn)

theorem traps_rsltPost_address {code : Nat} (hn : ((s.hub.ctxAt p).gr rs2.toNat).toNat ≤ 32)
    (hn0 : ((s.hub.ctxAt p).gr rs2.toNat).toNat ≠ 0) (hcode : code ≠ 0)
    (hbad : (s.hub.bullEnv p).badAddr ((s.hub.ctxAt p).gr rs1.toNat).toNat 4 (4 * ((s.hub.ctxAt p).gr rs2.toNat).toNat) = code) :
    Traps (.rsltPost p rd rs1 rs2 w .ok) s p p.vec { noAtomic := true } code := by
  subst hbad
  exact traps_onBull hw rfl hcode ((if_neg (Nat.not_lt.2 hn)).trans (if_pos (by simpa using ⟨hn0, hcode⟩)))

theorem completes_rsltPost {a n : Nat} (ha : ((s.hub.ctxAt p).gr rs1.toNat).toNat = a)
    (hn : ((s.hub.ctxAt p).gr rs2.toNat).toNat = n) (hmax : n ≤ 32) (haddr : n = 0 ∨ (a + 4 * n ≤ 65536 ∧ a % 4 = 0))
    (hgood : ∀ j < n, a / 4 + j ∉ s.hub.bull.badD) {ws : List W32}
    (hws : ws = (List.range n).map fun j => s.hub.dataAt p (a / 4 + j)) :
    Completes (.rsltPost p rd rs1 rs2 w .ok) s p p.vec { noAtomic := true } 1 ((s.hub.ctxAt p).pc + 1)
      ((s.hub.ready p).slotDone (w.toNat % 16) ws 0) (s.hub.ctxAt p) := by
  subst ha hn
  refine completes_onBull hw rfl (eff := fun h => h.slotDone (w.toNat % 16) ws 0)
    (a := { reads := (((s.hub.ctxAt p).gr rs1.toNat).toNat / 4, ((s.hub.ctxAt p).gr rs2.toNat).toNat) })
    ((if_neg (Nat.not_lt.2 hmax)).trans ((if_neg ?_).trans ?_)) rfl ⟨rfl, rfl, rfl, rfl⟩ hgood
    (Hub.slotDone_regsOnly _ _ _ _).goesOn rfl fun hwait => Ctx.after_run hwait rfl rfl rfl rfl rfl rfl
  · simp only [Bool.and_eq_true, decide_eq_true_iff, not_and, not_not]
    intro hn0
    obtain ⟨hfits, halign⟩ := haddr.resolve_left hn0
    exact (Hub.bullEnv_badAddr hw _ _).trans ((if_neg (Nat.not_lt.2 hfits)).trans (if_neg (not_not.2 halign)))
  · rw [hws]
    simp only [Hub.bullEnv_data hw, upto]
    rfl

theorem traps_rfree (hbusy : s.hub.fld F.RSLOT_DESC_STATE (imm.toNat % 16) = 1) :
    Traps (.rfree p rd rs1 0 imm) s p p.vec { noAtomic := true } 9 :=
  traps_system hw rfl (by decide) rfl (if_pos ((Hub.bullEnv_slotState hw _).trans hbusy))

theorem completes_rfree (hfree : s.hub.fld F.RSLOT_DESC_STATE (imm.toNat % 16) ≠ 1) :
    Completes (.rfree p rd rs1 0 imm) s p p.vec { noAtomic := true } 1 ((s.hub.ctxAt p).pc + 1)
      ((s.hub.ready p).slotFree (imm.toNat % 16)) (s.hub.ctxAt p) :=
  completes_system hw rfl rfl (eff := fun h => h.slotFree (imm.toNat % 16))
    (if_neg fun hbusy => hfree ((Hub.bullEnv_slotState hw _).symm.trans hbusy))
    rfl ⟨rfl, rfl, rfl, rfl⟩ (fun j hj => absurd hj (Nat.not_lt_zero j)) (Hub.slotFree_regsOnly _ _).goesOn rfl
    fun hwait => Ctx.after_run hwait rfl rfl rfl rfl rfl rfl

end

end Sys2Proof.Machine
end

section
/-! SUPPORT. Modes, snapshots, commits, STATUS bits and seals as instructions of Bull ask for them (R229-R233, R407, R409). -/

namespace Sys2Proof.Machine

/-! ### Sticky STATUS bits that are acknowledged (R409) -/

section
variable (h : Hub)

/-- The STICKY bits that an acknowledgement clears. -/
def Hub.acknowledged (h : Hub) (mask : Nat) : Nat :=
  if h.flag F.RSTPIN_MASKED 0 then bits mask 14 2 &&& (0x1FFF - 2) else bits mask 14 2

theorem testBit_bits_14_2 (mask : Nat) {k : Nat} (hk : k < 13) : (bits mask 14 2).testBit k = mask.testBit (2 + k) := by
  rw [bits, Nat.testBit_mod_two_pow, Nat.testBit_div_two_pow, decide_eq_true hk, Bool.true_and, Nat.add_comm]

theorem testBit_ones_sub {m k : Nat} (hm : m < 2 ^ 13) (hk : k < 13) : (0x1FFF - m).testBit k = !m.testBit k := by
  rw [show 0x1FFF - m = 2 ^ 13 - (m + 1) by omega, Nat.testBit_two_pow_sub_succ hm, decide_eq_true hk, Bool.true_and]

theorem Hub.acknowledged_lt (mask : Nat) : h.acknowledged mask < 2 ^ 13 := by
  have hbits : bits mask 14 2 < 2 ^ 13 := Nat.mod_lt _ (by decide)
  unfold Hub.acknowledged
  split
  · exact lt_of_le_of_lt Nat.and_le_left hbits
  · exact hbits

/-- RESET_STUCK, bit 3 of STATUS, stays while the pin is masked. -/
theorem Hub.testBit_acknowledged (mask : Nat) {k : Nat} (hk : k < 13) : (h.acknowledged mask).testBit k =
    (mask.testBit (2 + k) && !(h.flag F.RSTPIN_MASKED 0 && decide (k = 1))) := by
  have htwo : (2 : Nat).testBit k = decide (k = 1) := by
    rw [show (2 : Nat) = 2 ^ 1 from rfl, Nat.testBit_two_pow]
    exact decide_eq_decide.2 eq_comm
  unfold Hub.acknowledged
  split
  next hmasked => rw [Nat.testBit_and, testBit_bits_14_2 mask hk, testBit_ones_sub (by decide) hk, hmasked, Bool.true_and, htwo]
  next hmasked => rw [testBit_bits_14_2 mask hk, eq_false_of_ne_true hmasked, Bool.false_and, Bool.not_false, Bool.and_true]

theorem Hub.clearAttn_regsOnly (mask : Nat) : h.RegsOnly (h.clearAttn mask) :=
  ((Hub.RegsOnly.refl h).setFld _ _ _).setFlag _ _ _

theorem Hub.word_clearAttn (mask : Nat) {a : Nat} (ha : a ≠ A.ATTN_STAT) : (h.clearAttn mask).word a = h.word a := by
  rw [Hub.clearAttn, Hub.refreshAttn, Hub.word_setFlag_other _ _ _ _ ha, Hub.word_setFld_other _ _ _ _ ha]

theorem Hub.sticky_clearAttn (mask : Nat) {k : Nat} (hk : k < 13) :
    bit ((h.clearAttn mask).fld F.ATTN_STAT_STICKY 0) k =
      (bit (h.fld F.ATTN_STAT_STICKY 0) k && !(h.acknowledged mask).testBit k) := by
  have hfld : (h.clearAttn mask).fld F.ATTN_STAT_STICKY 0 =
      (h.fld F.ATTN_STAT_STICKY 0 &&& (0x1FFF - h.acknowledged mask)) % 2 ^ 13 := by
    rw [Hub.clearAttn, Hub.refreshAttn, Hub.setFlag, Hub.fld_setFld_apart _ _ (by decide) (Or.inr (by decide)),
      Hub.fld_setFld_same _ _ _ _ (by decide) (by decide)]
    rfl
  rw [bit_eq_testBit, bit_eq_testBit, hfld, Nat.testBit_mod_two_pow, Nat.testBit_and, testBit_ones_sub (h.acknowledged_lt mask) hk,
    decide_eq_true hk, Bool.true_and]

/-! ### Seals (R233) -/

/-- The seal of the standby bank, or of the active one. -/
def sealOf (standby : Bool) : Fld := if standby then F.OX_STAT_STBY_SEALED else F.OX_STAT_ACT_SEALED

theorem Hub.flag_setSeal (standby sealed : Bool) (e k : Nat) :
    (h.setFlag (sealOf standby) e sealed).flag (sealOf standby) k = if k = e then sealed else h.flag (sealOf standby) k := by
  have hbit : (sealOf standby).lo = (sealOf standby).hi ∧ (sealOf standby).hi < 32 ∧ (sealOf standby).stride = 0x2000 := by
    cases standby <;> decide
  obtain ⟨hlo, hhi, hstride⟩ := hbit
  split
  next hk => rw [hk, h.flag_setFlag_same e sealed hlo hhi]
  next hk =>
    refine h.flag_setFld_apart _ hlo.le (Or.inl ?_)
    rw [Fld.addr, Fld.addr, hstride]
    omega

theorem Hub.setSeals_cons (e : Nat) (es : List Nat) (standby sealed : Bool) :
    h.setSeals (e :: es) standby sealed = (h.setFlag (sealOf standby) e sealed).setSeals es standby sealed := rfl

theorem Hub.setSeals_regsOnly (es : List Nat) (standby sealed : Bool) : h.RegsOnly (h.setSeals es standby sealed) := by
  induction es generalizing h with
  | nil => exact .refl h
  | cons e es ih => exact ((Hub.RegsOnly.refl h).setFlag _ _ _).trans (ih _)

theorem Hub.flag_setSeals (es : List Nat) (standby sealed : Bool) (k : Nat) :
    (h.setSeals es standby sealed).flag (sealOf standby) k = if k ∈ es then sealed else h.flag (sealOf standby) k := by
  induction es generalizing h with
  | nil => rfl
  | cons e es ih =>
    rw [h.setSeals_cons, ih, h.flag_setSeal]
    by_cases hk : k = e <;> by_cases hmem : k ∈ es <;> simp [hk, hmem]

theorem Hub.word_setSeals (es : List Nat) (standby sealed : Bool) {a : Nat} (ha : a ∉ es.map (sealOf standby).addr) :
    (h.setSeals es standby sealed).word a = h.word a := by
  induction es generalizing h with
  | nil => rfl
  | cons e es ih =>
    rw [List.map_cons, List.mem_cons, not_or] at ha
    rw [h.setSeals_cons, ih _ ha.2, h.word_setFlag_other _ _ _ ha.1]

end

/-! ### Snapshots and commits (R230, R231) -/

/-- A snapshot is scheduled for a slot. -/
def Hub.snapsAt (h : Hub) (t : W48) : Hub :=
  ({ h with rooster := { h.rooster with snapAt := some t } }).setFld F.SNAP_STAT_SCHED 0 1

/-- A commit is scheduled for a slot. -/
def Hub.commitsAt (h : Hub) (t : W48) : Hub :=
  ({ h with rooster := { h.rooster with commitAt := some t } }).setFld F.COMMIT_STAT_SCHED 0 1

theorem Hub.snapsAt_goesOn (h : Hub) (t : W48) : h.GoesOnAs (h.snapsAt t) := .of_eq rfl rfl rfl

theorem Hub.commitsAt_goesOn (h : Hub) (t : W48) : h.GoesOnAs (h.commitsAt t) := .of_eq rfl rfl rfl

/-! ### The instructions -/

section
variable {s : State} {p : Place} (hw : onBull p.who = true)
include hw

theorem Hub.ready_modeAllowed (m : Nat) : (s.hub.ready p).modeAllowed m = s.hub.modeAllowed m := by
  rw [Hub.ready_eq hw]
  rfl

theorem Hub.ready_modeSame (m : Nat) : (s.hub.ready p).modeSame m = s.hub.modeSame m := by
  rw [Hub.modeSame, Hub.modeSame, Hub.ready_mode hw]

/-- What a hub shows whose banks have been sealed or unsealed. -/
theorem Hub.setSeals_shown (es : List Nat) (standby sealed : Bool) (c : Ctx) :
    (∀ e, (((s.hub.ready p).setSeals es standby sealed).setBullCtx (inBackground p.who) c).flag (sealOf standby) e =
      if e ∈ es then sealed else s.hub.flag (sealOf standby) e) ∧
    (((s.hub.ready p).setSeals es standby sealed).setBullCtx (inBackground p.who) c).ox = s.hub.ox ∧
    s.hub.sameWords (((s.hub.ready p).setSeals es standby sealed).setBullCtx (inBackground p.who) c)
      (es.map (sealOf standby).addr) := by
  refine ⟨fun e => ?_, ?_, fun a ha => ?_⟩
  · rw [Hub.setBullCtx_flag, Hub.flag_setSeals, Hub.ready_flag hw]
  · rw [Hub.setBullCtx_ox, (Hub.setSeals_regsOnly _ _ _ _).ox, Hub.ready_ox hw]
  · rw [Hub.setBullCtx_word, Hub.word_setSeals _ _ _ _ ha, Hub.ready_word hw]

variable {rd rs1 rs2 : BitVec 5} {imm : BitVec 10} {b : Bool} {hi : BitVec 8}

theorem traps_mode_none (hm : 5 < imm.toNat % 8) : Traps (.mode p rd rs1 0 imm) s p p.vec { noAtomic := true } 1 :=
  traps_system hw rfl (by decide) rfl (if_pos hm)

theorem traps_mode_forbidden (hm : imm.toNat % 8 ≤ 5) (hno : s.hub.modeAllowed (imm.toNat % 8) = false) :
    Traps (.mode p rd rs1 0 imm) s p p.vec { noAtomic := true } 2 := by
  have hno' : (!(s.hub.bullEnv p).hub.modeAllowed (imm.toNat % 8)) = true :=
    congrArg not ((Hub.ready_modeAllowed hw _).trans hno)
  exact traps_system hw rfl (by decide) rfl ((if_neg (Nat.not_lt.2 hm)).trans (if_pos hno'))

section
variable (hm : imm.toNat % 8 ≤ 5)
include hm

theorem Hub.bullEnv_asksMode (hok : s.hub.modeAllowed (imm.toNat % 8) = true) :
    (s.hub.bullEnv p).asksMode rd (imm.toNat % 8) =
      if s.hub.modeSame (imm.toNat % 8) then (Act.toG rd (BitVec.ofNat 32 s.hub.mode), noEffect)
      else ({ wait := .mode rd.toNat },
        fun h => { h with goose := { h.goose with modeReq := some (imm.toNat % 8) } }) := by
  have hok' : ¬ (!(s.hub.bullEnv p).hub.modeAllowed (imm.toNat % 8)) = true := by
    rw [show (s.hub.bullEnv p).hub.modeAllowed (imm.toNat % 8) = true from (Hub.ready_modeAllowed hw _).trans hok]
    decide
  refine ((if_neg (Nat.not_lt.2 hm)).trans (if_neg hok')).trans ?_
  rw [show (s.hub.bullEnv p).hub.modeSame (imm.toNat % 8) = _ from Hub.ready_modeSame hw _,
    show (s.hub.bullEnv p).hub.mode = _ from Hub.ready_mode hw]

theorem completes_mode_same (hsame : s.hub.modeSame (imm.toNat % 8) = true) :
    Completes (.mode p rd rs1 0 imm) s p p.vec { noAtomic := true } 1 ((s.hub.ctxAt p).pc + 1) (s.hub.ready p)
      ((s.hub.ctxAt p).setG rd.toNat (BitVec.ofNat 32 s.hub.mode)) :=
  completes_system hw rfl rfl (eff := noEffect) ((Hub.bullEnv_asksMode hw hm (if_pos hsame)).trans (if_pos hsame))
    rfl ⟨rfl, rfl, rfl, rfl⟩ (fun j hj => absurd hj (Nat.not_lt_zero j)) (.refl _) rfl
    fun hwait => Ctx.after_g hwait rfl rfl rfl rfl rfl rfl

theorem completes_mode_asked (hok : s.hub.modeAllowed (imm.toNat % 8) = true) (hother : s.hub.modeSame (imm.toNat % 8) = false) :
    Completes (.mode p rd rs1 0 imm) s p p.vec { noAtomic := true } 1 ((s.hub.ctxAt p).pc + 1)
      { s.hub.ready p with goose := { (s.hub.ready p).goose with modeReq := some (imm.toNat % 8) } }
      { s.hub.ctxAt p with wait := .mode rd.toNat } :=
  completes_system hw rfl rfl (a := { wait := .mode rd.toNat })
    (eff := fun h => { h with goose := { h.goose with modeReq := some (imm.toNat % 8) } })
    ((Hub.bullEnv_asksMode hw hm hok).trans (if_neg (by simp [hother])))
    rfl ⟨rfl, rfl, rfl, rfl⟩ (fun j hj => absurd hj (Nat.not_lt_zero j)) ⟨fun _ => rfl, rfl, rfl⟩ rfl
    fun _ => Ctx.after_none rfl rfl rfl rfl rfl

end

/-- The action slot of SNAP and COMMIT (R230): the slot with the tag, or the next one. -/
theorem Hub.bullEnv_actionSlot {d : Nat}
    (hd : d = (((s.hub.ctxAt p).gr rs1.toNat).toNat + 2 ^ 24 - s.hub.slot.toNat % 2 ^ 24) % 2 ^ 24) :
    (s.hub.bullEnv p).actionSlot rs1 imm = if imm.toNat % 2 = 1 ∨ d = 0 ∨ 2 ^ 23 < d then s.hub.slot + 1#48
      else s.hub.slot + BitVec.ofNat 48 d := by
  have hslot : (s.hub.bullEnv p).hub.slot = s.hub.slot := Hub.ready_slot hw
  have htag : (s.hub.bullEnv p).hub.tag.toNat = s.hub.slot.toNat % 2 ^ 24 := by rw [Hub.tag, hslot, BitVec.toNat_ofNat]
  have hd' : field 24 ((bits ((s.hub.bullEnv p).g rs1).toNat 23 0 : Nat) - ((s.hub.bullEnv p).hub.tag.toNat : Int)) = d := by
    rw [htag, hd, field, bits, show (s.hub.bullEnv p).g rs1 = (s.hub.ctxAt p).gr rs1.toNat from rfl]
    omega
  have hnext : imm.getLsbD 0 = decide (imm.toNat % 2 = 1) := by
    rw [BitVec.getLsbD, Nat.testBit_zero]
  unfold Env.actionSlot
  rw [hd', hslot, hnext]
  exact if_congr (by simp only [Bool.or_eq_true, decide_eq_true_iff, or_assoc]) rfl rfl

theorem completes_snap : Completes (.snap p rd rs1 0 imm) s p p.vec { noAtomic := true } 1 ((s.hub.ctxAt p).pc + 1)
    ((s.hub.ready p).snapsAt ((s.hub.bullEnv p).actionSlot rs1 imm))
    ((s.hub.ctxAt p).setG rd.toNat (tagOf ((s.hub.bullEnv p).actionSlot rs1 imm))) :=
  completes_system hw rfl rfl (eff := fun h => h.snapsAt ((s.hub.bullEnv p).actionSlot rs1 imm)) rfl
    rfl ⟨rfl, rfl, rfl, rfl⟩ (fun j hj => absurd hj (Nat.not_lt_zero j)) (Hub.snapsAt_goesOn _ _) rfl
    fun hwait => Ctx.after_g hwait rfl rfl rfl rfl rfl rfl

theorem completes_commit : Completes (.commit p rd rs1 0 imm) s p p.vec { noAtomic := true } 1 ((s.hub.ctxAt p).pc + 1)
    ((s.hub.ready p).commitsAt ((s.hub.bullEnv p).actionSlot rs1 imm))
    ((s.hub.ctxAt p).setG rd.toNat (tagOf ((s.hub.bullEnv p).actionSlot rs1 imm))) :=
  completes_system hw rfl rfl (eff := fun h => h.commitsAt ((s.hub.bullEnv p).actionSlot rs1 imm)) rfl
    rfl ⟨rfl, rfl, rfl, rfl⟩ (fun j hj => absurd hj (Nat.not_lt_zero j)) (Hub.commitsAt_goesOn _ _) rfl
    fun hwait => Ctx.after_g hwait rfl rfl rfl rfl rfl rfl

theorem completes_ack : Completes (.ack p rd rs1 0 imm) s p p.vec { noAtomic := true } 1 ((s.hub.ctxAt p).pc + 1)
    ((s.hub.ready p).clearAttn ((s.hub.ctxAt p).gr rs1.toNat).toNat) (s.hub.ctxAt p) :=
  completes_system hw rfl rfl (eff := fun h => h.clearAttn ((s.hub.ctxAt p).gr rs1.toNat).toNat) rfl
    rfl ⟨rfl, rfl, rfl, rfl⟩ (fun j hj => absurd hj (Nat.not_lt_zero j)) (Hub.clearAttn_regsOnly _ _).goesOn rfl
    fun hwait => Ctx.after_run hwait rfl rfl rfl rfl rfl rfl

theorem completes_seal : Completes (Instr.seal p rd rs1 0 b hi) s p p.vec { noAtomic := true } 1 ((s.hub.ctxAt p).pc + 1)
    ((s.hub.ready p).setSeals ((s.hub.bullEnv p).named rs1) b true) (s.hub.ctxAt p) :=
  completes_system hw rfl rfl (eff := fun h => h.setSeals ((s.hub.bullEnv p).named rs1) b true) rfl
    rfl ⟨rfl, rfl, rfl, rfl⟩ (fun j hj => absurd hj (Nat.not_lt_zero j)) (Hub.setSeals_regsOnly _ _ _ _).goesOn rfl
    fun hwait => Ctx.after_run hwait rfl rfl rfl rfl rfl rfl

/-- UNSEAL of active banks, outside SETUP. -/
theorem unseal_forbidden_iff : (!b && (s.hub.bullEnv p).hub.mode != mSetup && !((s.hub.bullEnv p).named rs1).isEmpty) = true ↔
    b = false ∧ s.hub.mode ≠ mSetup ∧ (s.hub.bullEnv p).named rs1 ≠ [] := by
  rw [show (s.hub.bullEnv p).hub.mode = s.hub.mode from Hub.ready_mode hw]
  simp [and_assoc]

theorem traps_unseal (hno : b = false ∧ s.hub.mode ≠ mSetup ∧ (s.hub.bullEnv p).named rs1 ≠ []) :
    Traps (.unseal p rd rs1 0 b hi) s p p.vec { noAtomic := true } 2 :=
  traps_system hw rfl (by decide) rfl (if_pos ((unseal_forbidden_iff hw).2 hno))

theorem completes_unseal (hok : b = true ∨ s.hub.mode = mSetup ∨ (s.hub.bullEnv p).named rs1 = []) :
    Completes (.unseal p rd rs1 0 b hi) s p p.vec { noAtomic := true } 1 ((s.hub.ctxAt p).pc + 1)
      ((s.hub.ready p).setSeals ((s.hub.bullEnv p).named rs1) b false) (s.hub.ctxAt p) :=
  completes_system hw rfl rfl (eff := fun h => h.setSeals ((s.hub.bullEnv p).named rs1) b false)
    (if_neg fun hno => by
      obtain ⟨hb, hmode, hes⟩ := (unseal_forbidden_iff hw).1 hno
      exact hok.elim (fun hb' => by simp [hb] at hb') (·.elim hmode hes))
    rfl ⟨rfl, rfl, rfl, rfl⟩ (fun j hj => absurd hj (Nat.not_lt_zero j)) (Hub.setSeals_regsOnly _ _ _ _).goesOn rfl
    fun hwait => Ctx.after_run hwait rfl rfl rfl rfl rfl rfl

end

/-- Settles O57: the fields that must be zero, then each instruction in turn. -/
theorem systemInstructions : Obligations.SystemInstructions := by
  unfold Obligations.SystemInstructions
  refine ⟨?rs2, ?zero⟩
  case rs2 =>
    intro s p rd rs1 rs2 imm w b hi hw hrs2
    refine ⟨traps_system_rs2 hw rfl hrs2, traps_system_rs2 hw rfl hrs2, traps_system_rs2 hw rfl hrs2, fun i hmem => ?_⟩
    simp only [List.mem_cons, List.not_mem_nil, or_false] at hmem
    rcases hmem with rfl | rfl | rfl | rfl | rfl | rfl | rfl | rfl | rfl
    all_goals exact traps_system_rs2 hw rfl hrs2
  case zero =>
    intro s p rd rs1 rs2 imm w b hi hw
    dsimp only
    refine ⟨fun hgood => ⟨fun hentry => completes_call hw hgood hentry,
        fun hentry => ⟨traps_call hw hgood hentry, traps_callBackground_absent hw hgood hentry⟩,
        fun hentry hbusy => traps_callBackground_busy hw hgood hentry hbusy, fun hentry hroom hfree hm hgo => ?callBackground⟩,
      fun hbad hm => answers_call_bad hw hbad hm, ?slots, ⟨traps_rfree hw, fun hfree => ⟨completes_rfree hw hfree, ?rfree⟩⟩,
      ⟨traps_mode_none hw, traps_mode_forbidden hw, fun hm hsame => completes_mode_same hw hm ?modeSame,
        fun hm hok hne hnot => completes_mode_asked hw hm hok ?modeOther⟩, ⟨?snap, ?commit⟩, fun hm hgo => ?ack, ?banks⟩
    case callBackground =>
      refine (completes_callBackground hw hgood hentry rfl hroom hfree).answers hw hm hgo ?_
      refine ⟨?_, ?_, ⟨s.hub.newTag (((s.hub.ctxAt p).gr rs2.toNat).toNat % 16), s.hub.newTag_ne_zero _, ?_, ?_⟩,
        fun f => ?_, ?_, ?_, fun a ha => ?_⟩
      · rw [Hub.setBullCtx_tasks, Hub.queuesTask_tasks, Hub.ready_bull hw]
      · rw [Hub.setBullCtx_fld]
        exact Hub.queuesTask_state _ _
      · rw [Hub.setBullCtx_bullCtx]
      · rw [Hub.setBullCtx_tags, ← Hub.newTag_congr (Hub.ready_bull hw)]
        exact Hub.queuesTask_tag _ _
      · rw [Hub.setBullCtx_fld, Hub.queuesTask_shownTag, Hub.ready_fld hw]
      · rw [Hub.setBullCtx_bullCtx_other, (Hub.queuesTask_goesOn _ _).ctx, Hub.ready_bullCtx hw]
      · rw [Hub.setBullCtx_dmem, Hub.queuesTask_dmem, Hub.ready_bull hw]
      · rw [Hub.setBullCtx_word, Hub.queuesTask_word _ _ (by simpa using ha), Hub.ready_word hw]
    case slots =>
      rw [← Hub.ready_slotWords hw]
      refine ⟨traps_reply_background hw, fun hfg hfull => traps_rsltRead_full hw hfg hfull,
        fun hfg hroom => completes_rsltRead hw hfg hroom, fun hfg hfull => traps_rput_full hw hfg hfull,
        fun hfg hroom => completes_rput hw hfg hroom, traps_rsltPost_count hw,
        fun hn hn0 hlong => traps_rsltPost_address hw hn hn0 (by decide) ?_,
        fun hn hn0 hfits halign => traps_rsltPost_address hw hn hn0 (by decide) ?_, fun hn haddr hgood hm hgo => ?_⟩
      · rw [Hub.bullEnv_badAddr hw, if_pos hlong]
      · rw [Hub.bullEnv_badAddr hw, if_neg (Nat.not_lt.2 hfits), if_pos halign]
      · obtain ⟨ws, hws⟩ : ∃ ws, ws = (List.range ((s.hub.ctxAt p).gr rs2.toNat).toNat).map fun j =>
          s.hub.dataAt p (((s.hub.ctxAt p).gr rs1.toNat).toNat / 4 + j) := ⟨_, rfl⟩
        have hregs := (s.hub.ready p).slotDone_regsOnly (w.toNat % 16) ws 0
        obtain ⟨hstate, hcount, hexc, -⟩ := (s.hub.ready p).slotDone_desc (Nat.mod_lt w.toNat (by decide)) ws 0
        refine (completes_rsltPost hw rfl rfl hn haddr hgood hws).answers hw hm hgo
          ⟨?_, ?_, ?_, fun j hj => ?_, Hub.setBullCtx_bullCtx _ _ _, ?_, ?_⟩
        · rw [Hub.setBullCtx_fld, hstate]
        · rw [Hub.setBullCtx_fld, hcount, hws, List.length_map, List.length_range, Nat.mod_eq_of_lt (by omega)]
        · rw [Hub.setBullCtx_fld, hexc, Nat.zero_mod]
        · rw [Hub.setBullCtx_word, Hub.slotDone_values _ _ _ _ (by omega), hws]
          simp [hj]
        · rw [Hub.setBullCtx_bullCtx_other, hregs.goesOn.ctx, Hub.ready_bullCtx hw]
        · rw [Hub.setBullCtx_dmem, hregs.bull, Hub.ready_bull hw]
    case rfree => exact Hub.slotFree_words _ (Nat.mod_lt _ (by decide))
    case modeSame => simpa [Hub.modeSame] using hsame
    case modeOther => simpa [Hub.modeSame] using ⟨hne, not_and.1 hnot⟩
    case snap =>
      have := completes_snap (s := s) (rd := rd) (rs1 := rs1) (imm := imm) hw
      rw [Hub.bullEnv_actionSlot hw rfl] at this
      exact this
    case commit =>
      have := completes_commit (s := s) (rd := rd) (rs1 := rs1) (imm := imm) hw
      rw [Hub.bullEnv_actionSlot hw rfl] at this
      exact this
    case ack =>
      have hsticky (k : Nat) (hk : k < 13) := Hub.sticky_clearAttn (s.hub.ready p) ((s.hub.ctxAt p).gr rs1.toNat).toNat hk
      simp only [bit_eq_testBit] at hsticky ⊢
      refine (completes_ack hw).answers hw hm hgo ⟨fun k hlo hhi hk hpin => ?_, fun k hlo hhi hk => ?_, fun a ha => ?_,
        Hub.setBullCtx_bullCtx _ _ _⟩
      · rw [Hub.setBullCtx_fld, hsticky _ (by omega), Hub.testBit_acknowledged _ _ (by omega), Nat.add_sub_cancel' hlo, hk,
          Hub.ready_flag hw]
        rcases hpin with hpin | hpin
        · simp [hpin]
        · simp [show k - 2 ≠ 1 by simp only [aResetStuck] at hpin; omega]
      · rw [Hub.setBullCtx_fld, hsticky _ (by omega), Hub.testBit_acknowledged _ _ (by omega), Nat.add_sub_cancel' hlo, hk,
          Hub.ready_fld hw]
        simp
      · rw [Hub.setBullCtx_word, Hub.word_clearAttn _ _ (by simpa using ha), Hub.ready_word hw]
    case banks =>
      rw [← Hub.bullEnv_named]
      refine ⟨fun hm hgo => (completes_seal hw).answers hw hm hgo ?sealed, fun hb hmode hes => traps_unseal hw ⟨hb, hmode, hes⟩,
        fun hok hm hgo => (completes_unseal hw hok).answers hw hm hgo ?unsealed⟩
      case sealed =>
        obtain ⟨hflag, hox, hwords⟩ := Hub.setSeals_shown hw ((s.hub.bullEnv p).named rs1) b true
          ((s.hub.ctxAt p).go ((s.hub.ctxAt p).pc + 1))
        refine ⟨fun e _ => (hflag e).trans ?_, Hub.setBullCtx_bullCtx _ _ _, hox, hwords⟩
        split <;> simp [*, sealOf]
      case unsealed =>
        obtain ⟨hflag, hox, hwords⟩ := Hub.setSeals_shown hw ((s.hub.bullEnv p).named rs1) b false
          ((s.hub.ctxAt p).go ((s.hub.ctxAt p).pc + 1))
        refine ⟨fun e _ => (hflag e).trans ?_, Hub.setBullCtx_bullCtx _ _ _, hox, hwords⟩
        split <;> simp [*, sealOf]

end Sys2Proof.Machine
end

section
/-! SUPPORT. What a reply changes on its way out (R392, R396, R406). -/

namespace Sys2Proof.Machine

/-- Nothing but the replies that wait to go out, the queues, the Mule, the twin's events, the Tether and registers may differ. -/
def Hub.RepliesOnly (h h' : Hub) : Prop := ∃ out r q m t e,
  h' = { h with pk := { h.pk with out := out }, regs := r, queues := q, mule := m, twin := t, tether := e }

section
variable {h₀ h : Hub}

theorem Hub.RepliesOnly.refl (h : Hub) : h.RepliesOnly h := ⟨_, _, _, _, _, _, rfl⟩

theorem Hub.RepliesOnly.ite {h' : Hub} {c : Prop} [Decidable c] (k : h₀.RepliesOnly h) (k' : h₀.RepliesOnly h') :
    h₀.RepliesOnly (if c then h else h') := by
  split
  · exact k
  · exact k'

theorem Hub.RepliesOnly.goose (k : h₀.RepliesOnly h) : h.goose = h₀.goose := by
  obtain ⟨_, _, _, _, _, _, rfl⟩ := k
  rfl

theorem Hub.RepliesOnly.bull (k : h₀.RepliesOnly h) : h.bull = h₀.bull := by
  obtain ⟨_, _, _, _, _, _, rfl⟩ := k
  rfl

theorem Hub.RepliesOnly.ox (k : h₀.RepliesOnly h) : h.ox = h₀.ox := by
  obtain ⟨_, _, _, _, _, _, rfl⟩ := k
  rfl

theorem Hub.RepliesOnly.pk (k : h₀.RepliesOnly h) : h.pk = { h₀.pk with out := h.pk.out } := by
  obtain ⟨_, _, _, _, _, _, rfl⟩ := k
  rfl

variable (k : h₀.RepliesOnly h)
include k

theorem Hub.RepliesOnly.setOut (out : List Reply) : h₀.RepliesOnly { h with pk := { h.pk with out := out } } := by
  obtain ⟨_, _, _, _, _, _, rfl⟩ := k
  exact ⟨_, _, _, _, _, _, rfl⟩

theorem Hub.RepliesOnly.announce (out : List Reply) (m : Mule) :
    h₀.RepliesOnly { h with pk := { h.pk with out := out }, mule := m } := by
  obtain ⟨_, _, _, _, _, _, rfl⟩ := k
  exact ⟨_, _, _, _, _, _, rfl⟩

theorem Hub.RepliesOnly.setRegs (r : Store W32) : h₀.RepliesOnly { h with regs := r } := by
  obtain ⟨_, _, _, _, _, _, rfl⟩ := k
  exact ⟨_, _, _, _, _, _, rfl⟩

theorem Hub.RepliesOnly.setQueues (q : Store Queue) : h₀.RepliesOnly { h with queues := q } := by
  obtain ⟨_, _, _, _, _, _, rfl⟩ := k
  exact ⟨_, _, _, _, _, _, rfl⟩

theorem Hub.RepliesOnly.setMule (m : Mule) : h₀.RepliesOnly { h with mule := m } := by
  obtain ⟨_, _, _, _, _, _, rfl⟩ := k
  exact ⟨_, _, _, _, _, _, rfl⟩

theorem Hub.RepliesOnly.setTwin (t : Twin) : h₀.RepliesOnly { h with twin := t } := by
  obtain ⟨_, _, _, _, _, _, rfl⟩ := k
  exact ⟨_, _, _, _, _, _, rfl⟩

theorem Hub.RepliesOnly.setTether (e : Tether) : h₀.RepliesOnly { h with tether := e } := by
  obtain ⟨_, _, _, _, _, _, rfl⟩ := k
  exact ⟨_, _, _, _, _, _, rfl⟩

theorem Hub.RepliesOnly.setFld (f : Fld) (i v : Nat) : h₀.RepliesOnly (h.setFld f i v) := k.setRegs _

theorem Hub.RepliesOnly.setFlag (f : Fld) (i : Nat) (b : Bool) : h₀.RepliesOnly (h.setFlag f i b) := k.setRegs _

theorem Hub.RepliesOnly.bump (f : Fld) (i : Nat) : h₀.RepliesOnly (h.bump f i) := .ite (k.setRegs _) (k.setFld _ _ _)

theorem Hub.RepliesOnly.attn (b : Nat) : h₀.RepliesOnly (h.attn b) := .ite (k.setTwin _) ((k.setFld _ _ _).setFlag _ _ _)

theorem Hub.RepliesOnly.setLed (i v : Nat) : h₀.RepliesOnly (h.setLed i v) := (k.setFld _ _ _).setFld _ _ _

theorem Hub.RepliesOnly.ledAdd (i n : Nat) : h₀.RepliesOnly (h.ledAdd i n) := .ite (k.setLed _ _) ((k.setLed _ _).setMule _)

theorem Hub.RepliesOnly.setQueue (q : Nat) (x : Queue) : h₀.RepliesOnly (h.setQueue q x) :=
  ((k.setQueues _).setFld _ _ _).setFlag _ _ _

theorem Hub.RepliesOnly.depthMoved (q before : Nat) : h₀.RepliesOnly (h.depthMoved q before) := by
  unfold Hub.depthMoved
  dsimp only
  generalize hm : (if h.fld F.Q_HWM_HWM q < h.fld F.Q_STAT_DEPTH q then _ else h) = hwm
  have kw : h₀.RepliesOnly hwm := hm ▸ .ite (k.setFld _ _ _) k
  have kc := (kw.setFld F.Q_STAT_ABOVE q 1).bump F.Q_LEVELCNT_COUNT q
  exact .ite (kw.setFld _ _ _) (.ite (kw.setFld _ _ _) (.ite (.ite (kc.attn _) kc) (kw.setFld _ _ _)))

theorem Hub.RepliesOnly.addPend (q n : Nat) : h₀.RepliesOnly (h.addPend q n) :=
  .ite (k.setFld _ _ _) ((k.setFld _ _ _).setFld _ _ _)

theorem Hub.RepliesOnly.countDrop (q : Nat) (hit : Bool) : h₀.RepliesOnly (h.countDrop q hit) :=
  have kb := k.bump F.Q_DROPCNT_COUNT q
  .ite ((kb.ledAdd _ _).setLed _ _) (kb.ledAdd _ _)

theorem Hub.RepliesOnly.enterFrom (q cyc before : Nat) (first last hit : Bool) (data : W64) :
    h₀.RepliesOnly (h.enterFrom q cyc before first last hit data) :=
  .depthMoved (.setQueue (.ite ((k.setFld _ _ _).setFld _ _ _) k) _ _) _ _

theorem Hub.RepliesOnly.push (q : Nat) (data : W64) (last hit : Bool) : h₀.RepliesOnly (h.push q data last hit).1 := by
  have kd (b : Bool) := (k.addPend q 1).countDrop q b
  unfold Hub.push Hub.pushFrom
  dsimp only
  split_ifs
  · exact k.enterFrom _ _ _ _ _ _ _
  · exact kd true
  · exact k.setFld _ _ _
  · exact k
  · exact k.enterFrom _ _ _ _ _ _ _
  · exact ((kd false).setQueue _ _).setFlag _ _ _

theorem Hub.RepliesOnly.refreshMule : h₀.RepliesOnly h.refreshMule := (k.setFld _ _ _).setFld _ _ _

theorem Hub.RepliesOnly.replyUnit (fuel : Nat) : h₀.RepliesOnly (h.replyUnit fuel) := by
  induction fuel generalizing h with
  | zero => exact k
  | succ n ih =>
    unfold Hub.replyUnit
    split
    · exact k
    · exact .ite (ih ((k.push 29 0 true false).announce _ _).refreshMule) k

theorem Hub.RepliesOnly.sendReply (src : Source) (r : Reply) : h₀.RepliesOnly (h.sendReply src r) := by
  cases src with
  | lane l => exact (k.setOut _).replyUnit _
  | tether => exact ((k.setTether _).setFlag _ _ _).setFld _ _ _

end

end Sys2Proof.Machine
end

section
/-! SUPPORT. A packet that is over (R193, R205, R397, R403-R406): the reply that it leaves and what the hub holds after it. -/

namespace Sys2Proof.Machine

/-! ### The steps of the end of a packet -/

/-- Whether the LANE_ROLE writes of the packet are discarded (R24). -/
def Hub.dropsRoles (h : Hub) (x : Exec) : Bool := !x.roles.isEmpty && !h.rolesOk (h.pk.roles ++ x.roles)

/-- The TREJ code is stated in the reply of the packet, and so not again. -/
def Hub.trejTaken (h : Hub) (x : Exec) : Hub := if x.pkt.noReply then h else (h.takeTrej x.pkt.src).2

/-- The result words of the reply with its tail word, if it has one (R405). -/
def Hub.endWords (h : Hub) (x : Exec) (stop : Option (Nat × Nat)) (adisc : Bool) : Bool × List W32 :=
  let trej := (h.takeTrej x.pkt.src).1
  let code := stop.getD (if h.dropsRoles x then (0x84, x.roleAt) else (0, 0))
  let tail := stop.isSome || adisc || h.dropsRoles x || trej != 0
  (tail, if tail then x.reply ++ [tailWord code.1 trej (h.dropsRoles x) adisc code.2] else x.reply)

/-- The reply of the packet. -/
def Hub.endReply (h : Hub) (x : Exec) (stop : Option (Nat × Nat)) (adisc : Bool) : Reply :=
  (h.trejTaken x).mkReply x.pkt.hub x.pkt.seq x.start (h.endWords x stop adisc).1 ((h.trejTaken x).status x.stale x.range)
    (h.endWords x stop adisc).2

/-- The reply is stored as the last of its source. -/
def Hub.storesReply (h : Hub) (src : Source) (r : Reply) : Hub :=
  match src with
  | .lane _ => { h with pk := { h.pk with laneReply := some r } }
  | .tether => { h with pk := { h.pk with tetherReply := some r } }

/-- The reply is stored, and sent where one is asked for. -/
def Hub.replies (h : Hub) (x : Exec) (r : Reply) : Hub :=
  if x.pkt.noReply then h.storesReply x.pkt.src r else (h.storesReply x.pkt.src r).sendReply x.pkt.src r

/-- The foreground is free, and what the reply precedes waits (R23, R421). -/
def Hub.foregroundFree (h : Hub) (x : Exec) (r : Reply) (rdisc : Bool) : Hub :=
  let waits := !x.pkt.noReply && ((!x.roles.isEmpty && !rdisc) || x.wkey == 2)
  { h with pk := { h.pk with
    cur := none, apply := none
    roles := if rdisc then h.pk.roles else h.pk.roles ++ x.roles
    reset := h.pk.reset || x.wkey == 2
    awaitLane := if waits && x.pkt.src != Source.tether then h.pk.awaitLane ++ [r] else h.pk.awaitLane
    awaitTether := if waits && x.pkt.src == Source.tether then h.tether.out.length else h.pk.awaitTether } }

/-- A new length of Tether frames comes into force (R573). -/
def Hub.lengthGo (h : Hub) (x : Exec) : Hub :=
  match x.ttLen with
  | some n => h.nextLength n
  | none => h

/-- A new address is valid (R30), and no packet executes. -/
def Hub.showsEnd (h : Hub) (x : Exec) : Hub :=
  ((if x.addrSet then h.setFld F.HUB_ADDR_VALID 0 1 else h).setFld F.CP_STAT_EXEC 0 0).refreshCp

section
variable (h : Hub) (x : Exec) (stop : Option (Nat × Nat)) (adisc : Bool)

theorem Hub.finish_eq : h.finish x stop adisc =
    ((((h.trejTaken x).replies x (h.endReply x stop adisc)).foregroundFree x (h.endReply x stop adisc)
      (h.dropsRoles x)).lengthGo x).showsEnd x := rfl

/-! ### What they leave (R397, R403) -/

theorem Hub.trejTaken_repliesOnly : h.RepliesOnly (h.trejTaken x) := by
  refine .ite (.refl h) ?_
  unfold Hub.takeTrej
  split
  · exact .refl h
  · exact (Hub.RepliesOnly.refl h).setTether _

theorem Hub.word_trejTaken (a : Nat) : (h.trejTaken x).word a = h.word a := by
  unfold Hub.trejTaken Hub.takeTrej
  split
  · rfl
  · split <;> rfl

end

/-- What a reply that is made and sent leaves: the units beside, and the registers below those of the queues. -/
structure Hub.EndKept (h h' : Hub) : Prop where
  goose : h'.goose = h.goose
  bull : h'.bull = h.bull
  ox : h'.ox = h.ox
  freed : h'.pk.freed = h.pk.freed
  reset : h'.pk.reset = h.pk.reset
  word : ∀ a, belowQueues a → h'.word a = h.word a

section
variable {h h' h'' : Hub}

theorem Hub.EndKept.trans (k : h.EndKept h') (k' : h'.EndKept h'') : h.EndKept h'' :=
  ⟨k'.goose.trans k.goose, k'.bull.trans k.bull, k'.ox.trans k.ox, k'.freed.trans k.freed, k'.reset.trans k.reset,
    fun a ha => (k'.word a ha).trans (k.word a ha)⟩

theorem Hub.RepliesOnly.endKept (k : h.RepliesOnly h') (hw : ∀ a, belowQueues a → h'.word a = h.word a) : h.EndKept h' :=
  ⟨k.goose, k.bull, k.ox, by rw [k.pk], by rw [k.pk], hw⟩

end

section
variable (h : Hub) (x : Exec) (r : Reply)

theorem Hub.storesReply_endKept (src : Source) : h.EndKept (h.storesReply src r) := by
  cases src <;> exact ⟨rfl, rfl, rfl, rfl, rfl, fun _ _ => rfl⟩

theorem Hub.replies_endKept : h.EndKept (h.replies x r) := by
  unfold Hub.replies
  split
  · exact h.storesReply_endKept r _
  · exact (h.storesReply_endKept r _).trans (((Hub.RepliesOnly.refl _).sendReply _ r).endKept (Hub.intakeKept_sendReply _ _ _).2)

theorem Hub.replies_laneReply {l : Fin 24} (hsrc : x.pkt.src = .lane l) : (h.replies x r).pk.laneReply = some r := by
  unfold Hub.replies
  rw [hsrc]
  split
  · rfl
  · rw [((Hub.RepliesOnly.refl _).sendReply _ r).pk]
    rfl

/-! ### The end -/

theorem Hub.lengthGo_eq : ∃ e, h.lengthGo x = { h with tether := e } := by
  unfold Hub.lengthGo
  split
  · exact ⟨_, rfl⟩
  · exact ⟨h.tether, rfl⟩

theorem Hub.refreshCp_regsOnly : h.RegsOnly h.refreshCp := by
  have k : h.RegsOnly (((h.setFld F.CP_STAT_WAITING 0 h.pk.waiting.length).setFlag F.CP_STAT_LANE_VALID 0
      h.pk.laneReply.isSome).setFlag F.CP_STAT_TETH_VALID 0 h.pk.tetherReply.isSome) :=
    (((Hub.RegsOnly.refl h).setFld _ _ _).setFlag _ _ _).setFlag _ _ _
  unfold Hub.refreshCp
  dsimp only
  split <;> split <;> exact (k.setFld _ _ _).setFld _ _ _

/-- CP_STAT shows with each refresh whether a packet executes as it was set. -/
theorem Hub.refreshCp_exec : h.refreshCp.flag F.CP_STAT_EXEC 0 = h.flag F.CP_STAT_EXEC 0 := by
  unfold Hub.refreshCp
  dsimp only
  split <;> split <;> simp (disch := decide) only [Hub.setFlag, Hub.flag_setFld_apart]

theorem Hub.showsEnd_regsOnly : h.RegsOnly (h.showsEnd x) := by
  have k : h.RegsOnly (if x.addrSet then h.setFld F.HUB_ADDR_VALID 0 1 else h) := by
    split
    · exact (Hub.RegsOnly.refl h).setFld _ _ _
    · exact .refl h
  exact (k.setFld _ _ _).trans (Hub.refreshCp_regsOnly _)

theorem Hub.word_showsEnd {a : Nat} (haddr : a ≠ A.HUB_ADDR) (hstat : a ≠ A.CP_STAT) : (h.showsEnd x).word a = h.word a := by
  rw [Hub.showsEnd, Hub.word_refreshCp _ hstat, Hub.word_setFld_other _ _ _ _ hstat]
  split
  · exact h.word_setFld_other _ _ _ haddr
  · rfl

theorem Hub.showsEnd_exec : (h.showsEnd x).flag F.CP_STAT_EXEC 0 = false := by
  rw [Hub.showsEnd, Hub.refreshCp_exec]
  exact Hub.flag_setFlag_same _ 0 false rfl (by decide)

end

/-- What a hub holds in which a packet is over that has seen `wkey` words of the WRESET key. -/
structure Hub.PacketDone (h h' : Hub) (wkey : Nat) : Prop where
  cur : h'.pk.cur = none
  apply : h'.pk.apply = none
  freed : h'.pk.freed = h.pk.freed
  reset : h'.pk.reset = (h.pk.reset || wkey == 2)
  exec : h'.flag F.CP_STAT_EXEC 0 = false
  goose : h'.goose = h.goose
  bull : h'.bull = h.bull
  ox : h'.ox = h.ox
  word : ∀ a, belowQueues a → a ≠ A.CP_STAT → h'.word a = h.word a

section
variable (h : Hub) (x : Exec) (stop : Option (Nat × Nat)) (adisc : Bool)

theorem Hub.finish_done : h.PacketDone (h.finish x stop adisc) x.wkey := by
  rw [Hub.finish_eq]
  have kept : h.EndKept ((h.trejTaken x).replies x (h.endReply x stop adisc)) :=
    ((h.trejTaken_repliesOnly x).endKept fun a _ => h.word_trejTaken x a).trans (Hub.replies_endKept _ _ _)
  obtain ⟨hgoose, hbull, hox, hfreed, hreset, hword⟩ := kept
  generalize (h.trejTaken x).replies x (h.endReply x stop adisc) = g at hgoose hbull hox hfreed hreset hword
  generalize h.endReply x stop adisc = r
  generalize h.dropsRoles x = rdisc
  obtain ⟨e, hlen⟩ := (g.foregroundFree x r rdisc).lengthGo_eq x
  rw [hlen]
  have hregs := Hub.showsEnd_regsOnly { g.foregroundFree x r rdisc with tether := e } x
  refine ⟨?_, ?_, ?_, ?_, Hub.showsEnd_exec _ _, ?_, ?_, ?_, fun a ha hstat => ?_⟩
  · rw [hregs.pk]
    rfl
  · rw [hregs.pk]
    rfl
  · rw [hregs.pk]
    exact hfreed
  · rw [hregs.pk, ← hreset]
    rfl
  · rw [hregs.goose]
    exact hgoose
  · rw [hregs.bull]
    exact hbull
  · rw [hregs.ox]
    exact hox
  · obtain ⟨hlo, -⟩ := id ha
    rw [Hub.word_showsEnd _ _ (ne_of_gt (lt_trans (by decide) hlo)) hstat]
    exact hword a ha

theorem Hub.finish_laneReply {l : Fin 24} (hsrc : x.pkt.src = .lane l) :
    (h.finish x stop adisc).pk.laneReply = some (h.endReply x stop adisc) := by
  have hreply := (h.trejTaken x).replies_laneReply x (h.endReply x stop adisc) hsrc
  rw [Hub.finish_eq]
  generalize (h.trejTaken x).replies x (h.endReply x stop adisc) = g at hreply ⊢
  obtain ⟨e, hlen⟩ := (g.foregroundFree x (h.endReply x stop adisc) (h.dropsRoles x)).lengthGo_eq x
  rw [hlen, (Hub.showsEnd_regsOnly _ _).pk]
  exact hreply

/-! ### The words of the reply (R403, R405) -/

theorem Hub.mkReply_words (hub : BitVec 16) (seq : BitVec 12) (slot : W48) (tail : Bool) (status : Nat) (rs : List W32) :
    ((h.mkReply hub seq slot tail status rs).ws.drop 2).dropLast = rs := by
  simp [Hub.mkReply]

theorem Hub.mkReply_crc (hub : BitVec 16) (seq : BitVec 12) (slot : W48) (tail : Bool) (status : Nat) (rs : List W32) :
    (h.mkReply hub seq slot tail status rs).ws.getLast? =
      some (crc32c ((h.mkReply hub seq slot tail status rs).ws.dropLast.flatMap bytes32)) := by
  unfold Hub.mkReply
  dsimp only
  rw [List.getLast?_concat, List.dropLast_concat]

theorem Hub.dropsRoles_nil (hroles : x.roles = []) : h.dropsRoles x = false := by simp [Hub.dropsRoles, hroles]

section
variable {h x} (hroles : x.roles = []) {l : Fin 24} (hsrc : x.pkt.src = .lane l)
include hroles hsrc

/-- A packet of a lane that has stopped ends its reply with its tail word. -/
theorem Hub.endReply_stopped (code ix : Nat) : ((h.endReply x (some (code, ix)) false).ws.drop 2).dropLast =
    x.reply ++ [tailWord code 0 false false ix] := by
  rw [Hub.endReply, Hub.mkReply_words, Hub.endWords, h.dropsRoles_nil x hroles, hsrc]
  rfl

/-- And one that has reached its end replies its result words alone. -/
theorem Hub.endReply_plain : ((h.endReply x none false).ws.drop 2).dropLast = x.reply := by
  rw [Hub.endReply, Hub.mkReply_words, Hub.endWords, h.dropsRoles_nil x hroles, hsrc]
  rfl

end

end

end Sys2Proof.Machine
end

section
/-! SUPPORT. The Goose leaves the packets as they are (R465-R473). -/

namespace Sys2Proof.Machine

variable (h : Hub)

theorem Hub.pushItem_pk (q : Nat) (ws : List W64) : (h.pushItem q ws).pk = h.pk := by
  induction ws generalizing h with
  | nil => rfl
  | cons w rest ih =>
    cases rest with
    | nil => exact h.push_pk _ _ _ _
    | cons w' rest' => exact (ih _).trans (h.push_pk _ _ _ _)

theorem Hub.localItem_pk (ws : List W64) : (h.localItem ws).pk = h.pk := by
  unfold Hub.localItem
  split
  · rfl
  · exact h.pushItem_pk _ _

theorem Hub.ringEntry_pk (e : List W32) : (h.ringEntry e).1.pk = h.pk := by
  unfold Hub.ringEntry
  dsimp only
  split <;> simp

theorem Hub.capture_pk (e : List W32) (c : FaultClass) : (h.capture e c).pk = h.pk := by
  unfold Hub.capture
  dsimp only
  split_ifs <;> simp

theorem Hub.notice_pk (code : Nat) (c : FaultClass) (e : List W32) (pos : Nat) : (h.notice code c e pos).pk = h.pk := by
  unfold Hub.notice
  dsimp only
  split
  · exact h.bump_pk _ _
  · exact h.localItem_pk _

theorem Hub.fatalRequest_pk : h.fatalRequest.pk = h.pk := by
  unfold Hub.fatalRequest
  split_ifs <;> rfl

/-! ### Reactions (R470, R473) -/

theorem Hub.fenceClockPart_pk (ix : Nat) : (h.fenceClockPart ix).pk = h.pk := by
  unfold Hub.fenceClockPart
  dsimp only
  split_ifs <;> simp [Hub.listFence, Hub.refreshFenced]

theorem Hub.bandTold_pk (h0 : Hub) : (h.bandTold h0).pk = h.pk := by
  unfold Hub.bandTold
  split <;> rfl

theorem Hub.laneCause_pk (l c : Nat) : (h.laneCause l c).pk = h.pk := by
  unfold Hub.laneCause
  dsimp only
  split <;> rfl

theorem Hub.react_pk (r : Report) : (h.react r).pk = h.pk := by
  simp only [Hub.react, Hub.dueFence, apply_ite Hub.pk, Hub.bandTold_pk, Hub.fenceClockPart_pk, Hub.laneCause_pk, ite_self]

/-! ### Reports taken (R466) -/

/-- The packets stand as they did. -/
def Hub.PacketsAs (h h' : Hub) : Prop := h'.pk = h.pk

section
variable {h₀ h h' : Hub}

theorem Hub.PacketsAs.ite {c : Prop} [Decidable c] (k : h₀.PacketsAs h) (k' : h₀.PacketsAs h') :
    h₀.PacketsAs (if c then h else h') := by
  split
  · exact k
  · exact k'

variable (k : h₀.PacketsAs h)
include k

theorem Hub.PacketsAs.setTwin (t : Twin) : h₀.PacketsAs { h with twin := t } := k

theorem Hub.PacketsAs.setGoose (g : Goose) : h₀.PacketsAs { h with goose := g } := k

theorem Hub.PacketsAs.count (f : Fld) (b : Nat) : h₀.PacketsAs ((h.bump f 0).attn b) :=
  ((Hub.attn_pk _ b).trans (h.bump_pk f 0)).trans k

theorem Hub.PacketsAs.ringEntry (e : List W32) : h₀.PacketsAs (h.ringEntry e).1 := (h.ringEntry_pk e).trans k

theorem Hub.PacketsAs.capture (e : List W32) (c : FaultClass) : h₀.PacketsAs (h.capture e c) := (h.capture_pk e c).trans k

theorem Hub.PacketsAs.react (r : Report) : h₀.PacketsAs (h.react r) := (h.react_pk r).trans k

theorem Hub.PacketsAs.notice (code : Nat) (c : FaultClass) (e : List W32) (pos : Nat) : h₀.PacketsAs (h.notice code c e pos) :=
  (h.notice_pk code c e pos).trans k

theorem Hub.PacketsAs.fatalRequest : h₀.PacketsAs h.fatalRequest := h.fatalRequest_pk.trans k

theorem Hub.PacketsAs.takeReport (cycle : Nat) (r : Report) (known : Bool) : h₀.PacketsAs (h.takeReport cycle r known) := by
  unfold Hub.takeReport
  cases hc : faultClass r.code.toNat with
  | none => simpa only [hc] using k
  | some c =>
    simp only [hc]
    have kb : h₀.PacketsAs (h.bump F.GS_CODECNT_COUNT r.code.toNat) := (h.bump_pk _ _).trans k
    generalize h.bump F.GS_CODECNT_COUNT r.code.toNat = hb at kb ⊢
    refine .ite kb ?_
    cases c with
    | corrected =>
      have kc := (kb.count F.GS_CORCNT_COUNT aCorrected).setTwin
      exact .ite (((kc _).ringEntry _).setGoose _) (kc _)
    | contained =>
      have kc := (kb.count F.GS_CONTCNT_COUNT aContained).setTwin
      exact (((((kc _).ringEntry _).capture _ _).react _).notice _ _ _ _).setGoose _
    | fatal => exact (((((kb.count F.GS_FATCNT_COUNT aFatal).ringEntry _).capture _ _).notice _ _ _ _).fatalRequest).setGoose _

end

theorem Hub.settled_pk (h₀ : Hub) : (h₀.settled h).pk = h.pk := by
  have htaken (l : List (Report × Bool)) (cycle : Nat) (g : Hub) : (each l g fun x h => h.takeReport cycle x.1 x.2).pk = g.pk := by
    induction l generalizing g with
    | nil => rfl
    | cons x l ih => exact (ih _).trans (Hub.PacketsAs.takeReport rfl _ _ _)
  unfold Hub.settled
  split
  · rfl
  · exact htaken _ _ _

end Sys2Proof.Machine
end

section
/-! SUPPORT. Packets from their start to their end, and the apply boundary of an ATOMIC packet (R193, R396-R400, R403, R405, R421,
R443). -/

namespace Sys2Proof.Machine

variable (h : Hub)

/-! ### Start (R396, R443) -/

theorem Hub.word_sampleGpio {a : Nat} (ha : a ≠ A.GPIO_IN) : h.sampleGpio.word a = h.word a := by
  rw [Hub.sampleGpio, Hub.word_of_regs (Hub.tookOpen_regs _), Hub.word_setFld_other _ _ _ _ ha]

/-- The execution of a packet as it begins, in its slot with its view. -/
def Hub.execStart (h : Hub) (p : Pkt) : Exec :=
  { pkt := p, start := h.slot, mode := h.mode, view := h.regs, viewBank := h.bank }

/-- Nothing executes any more but a packet that has just begun. -/
def Hub.begins (h : Hub) (p : Pkt) (rest : List Pkt) : Hub :=
  { h with
    pk := { h.pk with waiting := rest, cur := some (h.execStart p) }
    bull := { h.bull with fg := { h.bull.fg with pc := 0x4000, wait := .run, half := none } } }

/-- CP_STAT and CP_EXEC show the start of a packet. -/
def Hub.showsStart (h : Hub) : Hub := ((h.setFld F.CP_STAT_EXEC 0 1).bump F.CP_EXEC_COUNT 0).refreshCp

theorem Hub.packetStarts_first {p : Pkt} {rest : List Pkt} (hwaiting : h.pk.waiting = p :: rest) (hmay : h.mayStart p = true) :
    h.packetStarts = (h.sampleGpio.begins p rest).showsStart := by
  unfold Hub.packetStarts
  simp only [hwaiting, hmay, if_true]
  rfl

theorem Hub.packetStarts_none (hno : ∀ p ∈ h.pk.waiting.head?, h.mayStart p = false) : h.packetStarts = h := by
  unfold Hub.packetStarts
  split
  · rfl
  next p rest hwaiting =>
    rw [hwaiting] at hno
    rw [if_neg (by simp [hno p rfl])]

theorem Hub.showsStart_pk : h.showsStart.pk = h.pk := by simp [Hub.showsStart]

theorem Hub.showsStart_bull : h.showsStart.bull = h.bull := by
  rw [Hub.showsStart, (Hub.refreshCp_regsOnly _).bull, Hub.bump_bull, Hub.setFld_bull]

theorem Hub.showsStart_exec : h.showsStart.flag F.CP_STAT_EXEC 0 = true := by
  rw [Hub.showsStart, Hub.refreshCp_exec, Hub.flag_congr (Hub.word_bump_other _ _ _ (by decide))]
  exact Hub.flag_setFlag_same _ 0 true rfl (by decide)

theorem Hub.showsStart_counted : h.counted h.showsStart F.CP_EXEC_COUNT 0 1 :=
  ((Hub.counted_bump (h.setFld F.CP_STAT_EXEC 0 1) F.CP_EXEC_COUNT 0 (by decide) (by decide)).from_word
    (h.word_setFld_other _ _ _ (by decide))).of_word (Hub.word_refreshCp _ (by decide))

theorem Hub.word_showsStart {a : Nat} (hexec : a ≠ A.CP_EXEC) (hstat : a ≠ A.CP_STAT) : h.showsStart.word a = h.word a := by
  rw [Hub.showsStart, Hub.word_refreshCp _ hstat, Hub.word_bump_other _ _ _ hexec, Hub.word_setFld_other _ _ _ _ hstat]

/-! ### End (R193, R205, R397, R400) -/

theorem Hub.slot_of_word {h h' : Hub} (hlo : h'.word A.RT_SLOT_LO = h.word A.RT_SLOT_LO)
    (hhi : h'.word A.RT_SLOT_HI = h.word A.RT_SLOT_HI) :
    h'.slot = h.slot := by
  rw [Hub.slot, Hub.slot, Hub.fld_congr (i := 0) (f := F.RT_SLOT_LO_COUNT) hlo, Hub.fld_congr (i := 0) (f := F.RT_SLOT_HI_COUNT) hhi]

/-- The hub with the foreground free from the slot in progress on. -/
def Hub.frees (h : Hub) : Hub := { h with pk := { h.pk with freed := some h.slot } }

/-- The held writes that are discarded are counted (R400). -/
def Hub.countsDiscard (h : Hub) (x : Exec) : Hub := if x.held.isEmpty then h else h.bump F.CP_ADISC_COUNT 0

/-- A packet that is over leaves the foreground: with its reply, or to wait for its apply boundary. -/
def Hub.leftBy (h : Hub) (x : Exec) : Hub :=
  match x.stop with
  | some stop => if x.pkt.atomic then h.discards x stop else h.finish x x.stop false
  | none => if x.held.isEmpty then h.finish x none false else { h with pk := { h.pk with cur := none, apply := some x } }

theorem Hub.discards_done (x : Exec) (stop : Nat × Nat) : (h.countsDiscard x).PacketDone (h.discards x stop) x.wkey :=
  Hub.finish_done _ { x with held := [] } _ _

theorem Hub.countsDiscard_keeps (x : Exec) : (h.countsDiscard x).pk = h.pk ∧ (h.countsDiscard x).goose = h.goose ∧
    (h.countsDiscard x).bull = h.bull ∧ (h.countsDiscard x).ox = h.ox ∧
    ∀ a, a ≠ A.CP_ADISC → (h.countsDiscard x).word a = h.word a := by
  unfold Hub.countsDiscard
  split
  · exact ⟨rfl, rfl, rfl, rfl, fun _ _ => rfl⟩
  · exact ⟨h.bump_pk _ _, h.bump_goose _ _, h.bump_bull _ _, h.bump_ox _ _, fun _ ha => h.word_bump_other _ _ ha⟩

/-- Held writes, if any, are counted once as they are discarded. -/
theorem Hub.discards_counted {x : Exec} (hheld : x.held ≠ []) (stop : Nat × Nat) :
    h.counted (h.discards x stop) F.CP_ADISC_COUNT 0 1 := by
  have hcount : h.countsDiscard x = h.bump F.CP_ADISC_COUNT 0 := if_neg (by simpa using hheld)
  have hword := (h.discards_done x stop).word A.CP_ADISC ⟨by decide, by decide⟩ (by decide)
  rw [hcount] at hword
  exact (h.counted_bump _ 0 (by decide) (by decide)).of_word hword

section
variable {h} {x : Exec} (hcur : h.pk.cur = some x)
include hcur

theorem Hub.packetEnds_running (hover : h.packetOver x = false) : h.packetEnds = h := by
  unfold Hub.packetEnds
  split
  · rfl
  next y hy =>
    cases hcur.symm.trans hy
    exact if_neg (by simp [hover])

theorem Hub.packetEnds_over (hover : h.packetOver x = true) : h.packetEnds = h.frees.leftBy x := by
  unfold Hub.packetEnds
  split
  next hnone => simp [hcur] at hnone
  next y hy =>
    cases hcur.symm.trans hy
    exact if_pos hover

theorem Hub.packetEnds_stopped {stop : Nat × Nat} (hstop : x.stop = some stop) :
    h.packetEnds = if x.pkt.atomic then h.frees.discards x stop else h.frees.finish x (some stop) false := by
  rw [Hub.packetEnds_over hcur (by simp [Hub.packetOver, hstop]), Hub.leftBy, hstop]

theorem Hub.packetEnds_plain (hover : h.packetOver x = true) (hstop : x.stop = none) (hheld : x.held = []) :
    h.packetEnds = h.frees.finish x none false := by
  rw [Hub.packetEnds_over hcur hover, Hub.leftBy, hstop]
  exact if_pos (by simp [hheld])

theorem Hub.packetEnds_held (hover : h.packetOver x = true) (hstop : x.stop = none) (hheld : x.held ≠ []) :
    h.packetEnds = { h.frees with pk := { h.frees.pk with cur := none, apply := some x } } := by
  rw [Hub.packetEnds_over hcur hover, Hub.leftBy, hstop]
  exact if_neg (by simp [hheld])

end

/-- What a hub holds in which execution of the packet `x` has just ended. -/
structure Hub.PacketEnded (h h' : Hub) (x : Exec) : Prop where
  cur : h'.pk.cur = none
  freed : h'.pk.freed = some h.slot
  free : x.stop ≠ none ∨ x.held = [] →
    h'.pk.apply = none ∧ h'.flag F.CP_STAT_EXEC 0 = false ∧ h'.pk.reset = (h.pk.reset || x.wkey == 2)
  word : ∀ a, belowQueues a → a ≠ A.CP_STAT → a ≠ A.CP_ADISC → h'.word a = h.word a

variable {h} in
theorem Hub.PacketDone.ended {g h' : Hub} {x : Exec} (k : g.PacketDone h' x.wkey) (hpk : g.pk = h.frees.pk)
    (hword : ∀ a, a ≠ A.CP_ADISC → g.word a = h.word a) : h.PacketEnded h' x :=
  ⟨k.cur, k.freed.trans (by rw [hpk]; rfl), fun _ => ⟨k.apply, k.exec, k.reset.trans (by rw [hpk]; rfl)⟩,
    fun a ha hstat hadisc => (k.word a ha hstat).trans (hword a hadisc)⟩

variable {h} in
theorem Hub.packetEnds_ended {x : Exec} (hcur : h.pk.cur = some x) (hover : h.packetOver x = true) : h.PacketEnded h.packetEnds x := by
  cases hstop : x.stop with
  | some stop =>
    rw [Hub.packetEnds_stopped hcur hstop]
    split
    · obtain ⟨hpk, -, -, -, hword⟩ := h.frees.countsDiscard_keeps x
      exact (h.frees.discards_done x stop).ended hpk hword
    · exact (h.frees.finish_done x _ _).ended rfl fun _ _ => rfl
  | none =>
    by_cases hheld : x.held = []
    · rw [Hub.packetEnds_plain hcur hover hstop hheld]
      exact (h.frees.finish_done x _ _).ended rfl fun _ _ => rfl
    · rw [Hub.packetEnds_held hcur hover hstop hheld]
      exact ⟨rfl, rfl, fun hno => absurd hno (by simp [hstop, hheld]), fun _ _ _ _ => rfl⟩

/-! ### Timeout (R397) -/

/-- The packet in execution stops for its time. -/
def Hub.stopsForTime (h : Hub) (x : Exec) (ix : Nat) : Hub :=
  ({ h with pk := { h.pk with cur := some { x with stop := some (0x82, ix) } } }).bump F.CP_TIMEOUT_COUNT 0

section
variable {h} {x : Exec} (hcur : h.pk.cur = some x)
include hcur

theorem Hub.packetTimesOut_early (hslots : x.slots < h.fld F.CP_CFG_LIMIT 0) : h.packetTimesOut = h := by
  unfold Hub.packetTimesOut
  simp only [hcur, Nat.not_le.2 hslots, decide_false, Bool.false_and]
  rfl

theorem Hub.packetTimesOut_late (hover : h.packetOver x = false) (hslots : h.fld F.CP_CFG_LIMIT 0 ≤ x.slots)
    (hwait : h.bull.fg.wait = .run) : ∃ ix, h.packetTimesOut = (h.stopsForTime x ix).packetEnds := by
  refine ⟨if 0x4000 ≤ h.bull.fg.pc then h.bull.fg.pc - 0x4000 else x.ix, ?_⟩
  unfold Hub.packetTimesOut
  simp only [hcur, hslots, hwait, hover, decide_true, Bool.not_false, Bool.and_true, BEq.rfl, if_true]
  rfl

end

theorem Hub.stopsForTime_cur (x : Exec) (ix : Nat) : (h.stopsForTime x ix).pk.cur = some { x with stop := some (0x82, ix) } := by
  rw [Hub.stopsForTime, Hub.bump_pk]

theorem Hub.stopsForTime_slot (x : Exec) (ix : Nat) : (h.stopsForTime x ix).slot = h.slot :=
  Hub.slot_of_word (Hub.word_bump_other _ _ _ (by decide)) (Hub.word_bump_other _ _ _ (by decide))

theorem Hub.stopsForTime_counted (x : Exec) (ix : Nat) : h.counted (h.stopsForTime x ix) F.CP_TIMEOUT_COUNT 0 1 :=
  Hub.counted.from_word (Hub.counted_bump _ F.CP_TIMEOUT_COUNT 0 (by decide) (by decide)) rfl

/-- A packet that has stopped for its time is over, and counted. -/
theorem Hub.stopsForTime_ended (x : Exec) (ix : Nat) :
    h.counted (h.stopsForTime x ix).packetEnds F.CP_TIMEOUT_COUNT 0 1 ∧ (h.stopsForTime x ix).packetEnds.pk.cur = none ∧
      (h.stopsForTime x ix).packetEnds.pk.freed = some h.slot := by
  obtain ⟨hcur, hfreed, -, hword⟩ := Hub.packetEnds_ended (h.stopsForTime_cur x ix) rfl
  exact ⟨(h.stopsForTime_counted x ix).of_word (hword _ ⟨by decide, by decide⟩ (by decide) (by decide)), hcur,
    hfreed.trans (by rw [h.stopsForTime_slot])⟩

/-! ### Apply of an ATOMIC packet (R398, R400, R613) -/

theorem Hub.atomicActs_none (hnone : h.pk.apply = none) : h.atomicActs 0 = h := by
  unfold Hub.atomicActs
  simp only [hnone]

section
variable {h} {x : Exec} (happly : h.pk.apply = some x)
include happly

theorem Hub.atomicActs_otherMode (hmode : h.mode ≠ x.mode) : h.atomicActs 0 = h.discards x (0x83, 0) := by
  unfold Hub.atomicActs
  simp only [happly]
  exact if_pos hmode

theorem Hub.atomicActs_rejected {stop : Nat × Nat} (hmode : h.mode = x.mode) (hrej : h.heldRejected x = some stop) :
    h.atomicActs 0 = h.discards x stop := by
  unfold Hub.atomicActs
  simp only [happly, hrej]
  exact if_neg (not_not.2 hmode)

theorem Hub.atomicActs_applied (hmode : h.mode = x.mode) (hok : h.heldRejected x = none) : h.atomicActs 0 =
    (({ h with pk := { h.pk with apply := none } }).applyHeld x).finish
      ((({ h with pk := { h.pk with apply := none } }).applyHeld x).pk.cur.getD x) none false := by
  unfold Hub.atomicActs
  simp only [happly, hok]
  exact if_neg (not_not.2 hmode)

/-- Whatever becomes of the held writes, the packet is over. -/
theorem Hub.atomicActs_done : (h.atomicActs 0).pk.cur = none ∧ (h.atomicActs 0).pk.apply = none := by
  have hdone {g h' : Hub} {k : Nat} (d : g.PacketDone h' k) : h'.pk.cur = none ∧ h'.pk.apply = none := ⟨d.cur, d.apply⟩
  by_cases hmode : h.mode = x.mode
  · cases hrej : h.heldRejected x with
    | some stop =>
      rw [Hub.atomicActs_rejected happly hmode hrej]
      exact hdone (h.discards_done _ _)
    | none =>
      rw [Hub.atomicActs_applied happly hmode hrej]
      exact hdone (Hub.finish_done _ _ _ _)
  · rw [Hub.atomicActs_otherMode happly hmode]
    exact hdone (h.discards_done _ _)

end

/-- What is left of a hub that discards held writes. -/
theorem Hub.discards_kept (x : Exec) (stop : Nat × Nat) :
    (h.discards x stop).goose = h.goose ∧ (h.discards x stop).bull = h.bull ∧ (h.discards x stop).ox = h.ox := by
  obtain ⟨-, hgoose, hbull, hox, -⟩ := h.countsDiscard_keeps x
  have hdone := h.discards_done x stop
  exact ⟨hdone.goose.trans hgoose, hdone.bull.trans hbull, hdone.ox.trans hox⟩

theorem memWord_dmem {k : Nat} (hk : k < 0x4000) : memWord (0x54000 + k) = some (.dmem k) := by
  unfold memWord
  rw [if_neg (by simp only [Bool.and_eq_true, decide_eq_true_iff]; omega),
    if_neg (by simp only [Bool.and_eq_true, decide_eq_true_iff]; omega),
    if_pos (by simp only [Bool.and_eq_true, decide_eq_true_iff]; omega), Nat.add_sub_cancel_left]

/-- A held write of a word of data memory is not rejected. -/
theorem Hub.heldRejected_dmem {x : Exec} {k : Nat} {v : W32} {ix : Nat} (hk : k < 0x4000) (hheld : x.held = [(0x54000 + k, v, ix)]) :
    h.heldRejected x = none := by
  have hrej : h.rejects (0x54000 + k) v = 0 := by
    unfold Hub.rejects
    rw [memWord_dmem hk]
  simp [Hub.heldRejected, hheld, hrej]

/-- And is made as a write of the packet. -/
theorem Hub.applyHeld_dmem {x : Exec} {k : Nat} {v : W32} {ix : Nat} (hk : k < 0x4000) (hheld : x.held = [(0x54000 + k, v, ix)]) :
    (h.applyHeld x).goose = h.goose ∧ (h.applyHeld x).regs = h.regs ∧
      Store.get (fun _ => 0) (h.applyHeld x).bull.dmem k = v := by
  have hwrite (g : Hub) : g.regWrite true (0x54000 + k) v = g.writeMem (.dmem k) v := by
    unfold Hub.regWrite
    rw [memWord_dmem hk]
  have happly : h.applyHeld x = ({ h with pk := { h.pk with cur := some { x with held := [], ix := ix } } }).writeMem (.dmem k) v := by
    rw [Hub.applyHeld, hheld]
    exact hwrite _
  rw [happly]
  exact ⟨rfl, rfl, Store.get_set_same _ _ _ _⟩

end Sys2Proof.Machine
end

section
/-! SUPPORT. The WRESET key (R421), and the statement about packets that execute. -/

namespace Sys2Proof.Machine

theorem Hub.wreset_cur {h : Hub} {x : Exec} (hcur : h.pk.cur = some x) (v : W32) : h.wreset true v =
    { h with pk := { h.pk with cur := some { x with
      wkey := if v = 0x5A5A#32 then 1 else if v = 0xA5A5#32 ∧ x.wkey = 1 then 2 else 0 } } } := by
  unfold Hub.wreset
  simp only [hcur, Bool.and_eq_true, decide_eq_true_iff]

theorem Hub.wreset_none {h : Hub} (hcur : h.pk.cur = none) (v : W32) : h.wreset true v = h := by
  have hpk : ({ h.pk with cur := none } : Packets) = h.pk := by rw [← hcur]
  unfold Hub.wreset
  simp only [hcur]
  exact congrArg (fun pk => { h with pk := pk }) hpk

/-- Settles O41: packets start, run out of time and end, held writes act or are discarded, and the WRESET key is counted. -/
theorem packetsAreExecuted : Obligations.PacketsAreExecuted := by
  unfold Obligations.PacketsAreExecuted
  refine ⟨⟨?starts, fun s hno => ⟨_, rfl, s.hub.packetStarts_none hno⟩, ?running, ?ended, ?stopped, ?plain, ?held⟩,
    ?applyNone, ?applyDone, ?rejected, ?otherMode, ?dmem, fun s v hcur => ⟨_, rfl, Hub.wreset_none hcur v⟩,
    fun s v x hcur => ⟨_, rfl, ?wreset⟩⟩
  case starts =>
    intro s p rest hwaiting hmay
    refine ⟨_, rfl, ?_⟩
    rw [s.hub.packetStarts_first hwaiting hmay]
    have hbegins (a : Nat) (ha : a ≠ A.GPIO_IN) : (s.hub.sampleGpio.begins p rest).word a = s.hub.word a :=
      s.hub.word_sampleGpio ha
    refine ⟨?_, ?_, ?_, Hub.showsStart_exec _, (Hub.showsStart_counted _).from_word (hbegins _ (by decide)), fun a ha => ?_,
      s.hub.sampleGpio.execStart p, ?_, rfl, ?_, ?_, rfl, rfl, fun a ha => s.hub.word_sampleGpio ha, rfl⟩
    · rw [Hub.showsStart_pk]
      rfl
    · rw [Hub.showsStart_bull]
      rfl
    · rw [Hub.showsStart_bull]
      rfl
    · simp only [List.mem_cons, List.not_mem_nil, or_false, not_or] at ha
      obtain ⟨hgpio, hexec, hstat⟩ := ha
      rw [Hub.word_showsStart _ hexec hstat, hbegins a hgpio]
    · rw [Hub.showsStart_pk]
      rfl
    · exact Hub.slot_of_word (s.hub.word_sampleGpio (by decide)) (s.hub.word_sampleGpio (by decide))
    · exact Hub.fld_congr (s.hub.word_sampleGpio (by decide))
  case running =>
    intro s x hcur hover
    refine ⟨⟨_, rfl, Hub.packetEnds_running hcur hover⟩, fun hslots => ⟨_, rfl, Hub.packetTimesOut_early hcur hslots⟩,
      fun hslots hwait => ⟨_, rfl, ?_⟩, fun hslots hwait l hsrc hatomic hroles => ⟨_, rfl, ?_⟩⟩
    all_goals
      obtain ⟨ix, hout⟩ := Hub.packetTimesOut_late hcur hover hslots hwait
      rw [hout]
      obtain ⟨hcount, hfree, hfreed⟩ := s.hub.stopsForTime_ended x ix
    · exact ⟨hcount, hfree, hfreed⟩
    · refine ⟨hcount, hfree, hfreed,
        (s.hub.stopsForTime x ix).frees.endReply { x with stop := some (0x82, ix) } (some (0x82, ix)) false, ix, ?_, rfl, Hub.endReply_stopped hroles hsrc _ _⟩
      rw [Hub.packetEnds_stopped (s.hub.stopsForTime_cur x ix) rfl, if_neg (by simp [hatomic])]
      exact Hub.finish_laneReply _ _ _ _ hsrc
  case ended =>
    intro s x hcur hover
    obtain ⟨hnone, hfreed, hfree, -⟩ := Hub.packetEnds_ended hcur hover
    exact ⟨_, rfl, hnone, hfreed, hfree⟩
  case stopped =>
    intro s x l code ix hcur hstop hatomic hroles hsrc
    refine ⟨_, rfl, s.hub.frees.endReply x (some (code, ix)) false, ?_, rfl, Hub.endReply_stopped hroles hsrc _ _⟩
    rw [Hub.packetEnds_stopped hcur hstop, if_neg (by simp [hatomic]), Hub.finish_laneReply _ _ _ _ hsrc]
  case plain =>
    intro s x l hcur hover hstop hheld hroles hsrc
    obtain ⟨hnone, hfreed, hfree, -⟩ := Hub.packetEnds_ended hcur hover
    obtain ⟨happly, hexec, -⟩ := hfree (Or.inr hheld)
    refine ⟨_, rfl, hnone, happly, hfreed, hexec, s.hub.frees.endReply x none false, ?_, rfl, rfl,
      Hub.endReply_plain hroles hsrc, Hub.mkReply_crc _ _ _ _ _ _ _⟩
    rw [Hub.packetEnds_plain hcur hover hstop hheld, Hub.finish_laneReply _ _ _ _ hsrc]
  case held =>
    intro s x hcur hover hstop hheld
    refine ⟨_, rfl, ?_⟩
    rw [Hub.packetEnds_held hcur hover hstop hheld]
    exact ⟨rfl, rfl, rfl⟩
  case applyNone =>
    intro s hnone
    refine ⟨_, rfl, ?_⟩
    rw [s.hub.atomicActs_none hnone]
    exact Hub.settled_of_found rfl
  case applyDone =>
    intro s x happly
    refine ⟨_, rfl, ?_⟩
    dsimp only
    rw [Hub.settled_pk]
    exact Hub.atomicActs_done happly
  case rejected =>
    intro s x code ix happly hmode hrej
    refine ⟨_, rfl, ?_⟩
    obtain ⟨hgoose, hbull, hox⟩ := s.hub.discards_kept x (code, ix)
    have hheld : x.held ≠ [] := by
      rintro hnil
      simp [Hub.heldRejected, hnil] at hrej
    rw [Hub.atomicActs_rejected happly hmode hrej, Hub.settled_of_goose hgoose, hbull]
    exact ⟨s.hub.discards_counted hheld _, rfl, rfl, hox⟩
  case otherMode =>
    intro s x happly hmode hheld
    refine ⟨_, rfl, ?_⟩
    obtain ⟨hgoose, hbull, hox⟩ := s.hub.discards_kept x (0x83, 0)
    have hdone := s.hub.discards_done x (0x83, 0)
    rw [Hub.atomicActs_otherMode happly hmode, Hub.settled_of_goose hgoose, hbull]
    exact ⟨hdone.apply, hdone.cur, s.hub.discards_counted hheld _, rfl, rfl, hox⟩
  case dmem =>
    intro s x k v ix happly hmode hk hheld
    refine ⟨_, rfl, ?_⟩
    obtain ⟨hgoose, hregs, hget⟩ := ({ s.hub with pk := { s.hub.pk with apply := none } }).applyHeld_dmem hk hheld
    rw [Hub.atomicActs_applied happly hmode (s.hub.heldRejected_dmem hk hheld)]
    generalize ({ s.hub with pk := { s.hub.pk with apply := none } }).applyHeld x = g at hgoose hregs hget ⊢
    have hdone := g.finish_done (g.pk.cur.getD x) none false
    rw [Hub.settled_of_goose (h₀ := s.hub) (hdone.goose.trans hgoose), hdone.bull]
    exact ⟨hdone.apply, hdone.cur, hget,
      Hub.fld_congr ((hdone.word _ ⟨by decide, by decide⟩ (by decide)).trans (Hub.word_of_regs hregs _))⟩
  case wreset =>
    rw [Hub.wreset_cur hcur]
    exact ⟨rfl, rfl⟩

end Sys2Proof.Machine
end
